-- ==== Sys2Proof/Word.lean ====
section
/-! DEFINITION. The word types of the part: a register (32 bits, spec/00_scope.md, Notation), a byte and a doubleword. -/

namespace Sys2Proof

/-- A register: registers are 32 bits wide. -/
abbrev Word := BitVec 32

/-- A byte of buffer memory, of a frame or of a log. -/
abbrev Byte := BitVec 8

/-- A 64-bit quantity that the part holds as two registers or as one field of a record. -/
abbrev Dword := BitVec 64

end Sys2Proof
end

