-- ==== Sys2Proof/Machine/Regs.lean ====
section
/-! DEFINITION. The register tables of spec/: every register's offset within its unit (`UNIT_NAME`), every named field
of it (`UNIT_NAME.FIELD`, the spec's own notation), the write masks that the access codes of R7 give it, and the
registers whose reset value is not zero. A register or a field that the tables do not name reads as zero (R10). -/

namespace Sys2Proof.Machine

/-- A field of a register: its register's offset in the unit, its top bit and its bottom bit. -/
structure Fld where
  off : Nat
  hi : Nat
  lo : Nat
  deriving DecidableEq, Repr

/-- What a write may change of a register (R7): the RW bits, the W1C bits, the W1S bits and the RWL bits. -/
structure RegRow where
  off : Nat
  rw : Word
  w1c : Word
  w1s : Word
  rwl : Word
  deriving DecidableEq, Repr


/-! ### SYS -/
abbrev SYS_ID : Nat := 0x0
abbrev SYS_ID.PART : Fld := ⟨0x0, 31, 16⟩
abbrev SYS_ID.STEP : Fld := ⟨0x0, 7, 0⟩
abbrev SYS_CTL : Nat := 0x4
abbrev SYS_CTL.LOCK : Fld := ⟨0x4, 31, 31⟩
abbrev SYS_RST_CAUSE : Nat := 0x8
abbrev SYS_RST_CAUSE.NODUMP : Fld := ⟨0x8, 9, 9⟩
abbrev SYS_RST_CAUSE.DUMPED : Fld := ⟨0x8, 8, 8⟩
abbrev SYS_RST_CAUSE.FATAL : Fld := ⟨0x8, 7, 7⟩
abbrev SYS_RST_CAUSE.JTAG : Fld := ⟨0x8, 6, 6⟩
abbrev SYS_RST_CAUSE.SOFT : Fld := ⟨0x8, 5, 5⟩
abbrev SYS_RST_CAUSE.WDOG : Fld := ⟨0x8, 4, 4⟩
abbrev SYS_RST_CAUSE.PIN : Fld := ⟨0x8, 3, 3⟩
abbrev SYS_RST_CAUSE.POSTDUMP : Fld := ⟨0x8, 2, 2⟩
abbrev SYS_RST_CAUSE.POR : Fld := ⟨0x8, 0, 0⟩
abbrev SYS_RST_CTL : Nat := 0xc
abbrev SYS_RST_CTL.DEV : Fld := ⟨0xc, 31, 31⟩
abbrev SYS_RST_CTL.FATAL_RST : Fld := ⟨0xc, 1, 1⟩
abbrev SYS_UNIT_RST : Nat := 0x10
abbrev SYS_UNIT_RST.CLP : Fld := ⟨0x10, 8, 8⟩
abbrev SYS_UNIT_RST.TDL : Fld := ⟨0x10, 7, 7⟩
abbrev SYS_UNIT_RST.PCT : Fld := ⟨0x10, 6, 6⟩
abbrev SYS_UNIT_RST.SCU : Fld := ⟨0x10, 5, 5⟩
abbrev SYS_UNIT_RST.SCE : Fld := ⟨0x10, 4, 4⟩
abbrev SYS_UNIT_RST.MC : Fld := ⟨0x10, 3, 0⟩
abbrev SYS_STRAP : Nat := 0x14
abbrev SYS_STRAP.TEST : Fld := ⟨0x14, 3, 3⟩
abbrev SYS_STRAP.XTAL_BYP : Fld := ⟨0x14, 2, 2⟩
abbrev SYS_STRAP.RCVRY_N : Fld := ⟨0x14, 1, 1⟩
abbrev SYS_STRAP.PCIE_MODE : Fld := ⟨0x14, 0, 0⟩
abbrev SYS_BOOT_STAT : Nat := 0x18
abbrev SYS_BOOT_STAT.STAGE : Fld := ⟨0x18, 31, 24⟩
abbrev SYS_BOOT_STAT.RCV : Fld := ⟨0x18, 23, 23⟩
abbrev SYS_BOOT_STAT.SLOT : Fld := ⟨0x18, 22, 21⟩
abbrev SYS_BOOT_STAT.OPTCOPY : Fld := ⟨0x18, 20, 20⟩
abbrev SYS_BOOT_STAT.BOOTMS : Fld := ⟨0x18, 15, 0⟩
abbrev SYS_OPT_STAT : Nat := 0x1c
abbrev SYS_OPT_STAT.VALID_A : Fld := ⟨0x1c, 31, 31⟩
abbrev SYS_OPT_STAT.VALID_B : Fld := ⟨0x1c, 30, 30⟩
abbrev SYS_OPT_STAT.SEL : Fld := ⟨0x1c, 29, 29⟩
abbrev SYS_OPT_STAT.IDXA : Fld := ⟨0x1c, 23, 16⟩
abbrev SYS_OPT_STAT.IDXB : Fld := ⟨0x1c, 15, 8⟩
abbrev SYS_BIST_RUN : Nat := 0x20
abbrev SYS_BIST_RUN.ITEMS : Fld := ⟨0x20, 16, 0⟩
abbrev SYS_BIST_FAIL : Nat := 0x24
abbrev SYS_BIST_FAIL.ITEMS : Fld := ⟨0x24, 16, 0⟩
abbrev SYS_WDOG_CTL : Nat := 0x28
abbrev SYS_WDOG_CTL.EN : Fld := ⟨0x28, 31, 31⟩
abbrev SYS_WDOG_CTL.TMO : Fld := ⟨0x28, 15, 0⟩
abbrev SYS_WDOG_KICK : Nat := 0x2c
abbrev SYS_WDOG_KICK.KEY : Fld := ⟨0x2c, 15, 0⟩
abbrev SYS_WDOG_STAT : Nat := 0x30
abbrev SYS_WDOG_STAT.EXPIRIES : Fld := ⟨0x30, 31, 16⟩
abbrev SYS_WDOG_STAT.REMAIN : Fld := ⟨0x30, 15, 0⟩
abbrev SYS_PWRCYC : Nat := 0x34
abbrev SYS_PWRCYC.COUNT : Fld := ⟨0x34, 31, 0⟩
abbrev SYS_OPTIME : Nat := 0x38
abbrev SYS_OPTIME.HOURS : Fld := ⟨0x38, 31, 0⟩
abbrev SYS_OPTIME.SEC : Fld := ⟨0x38, 11, 0⟩
abbrev SYS_OPTSEC : Nat := 0x3c
abbrev SYS_OPTSEC.HOURS : Fld := ⟨0x3c, 31, 0⟩
abbrev SYS_OPTSEC.SEC : Fld := ⟨0x3c, 11, 0⟩
abbrev SYS_JTAG : Nat := 0x40
abbrev SYS_JTAG.OPEN : Fld := ⟨0x40, 31, 31⟩
abbrev SYS_CLR : Nat := 0x44
abbrev SYS_CLR.WDOG : Fld := ⟨0x44, 0, 0⟩
abbrev SYS_PACE_NOW : Nat := 0x800
abbrev SYS_PACE_NOW.TOKENS : Fld := ⟨0x800, 15, 0⟩
abbrev SYS_PACE_MIN : Nat := 0x804
abbrev SYS_PACE_MIN.MIN : Fld := ⟨0x804, 15, 0⟩
abbrev SYS_PACE_CTL : Nat := 0x808
abbrev SYS_PACE_CTL.EN : Fld := ⟨0x808, 31, 31⟩
abbrev SYS_PACE_CTL.ALARM : Fld := ⟨0x808, 15, 0⟩
abbrev SYS_PACE_STAT : Nat := 0x80c
abbrev SYS_PACE_STAT.ALARM : Fld := ⟨0x80c, 0, 0⟩
abbrev SYS_CBP_STAT : Nat := 0x810
abbrev SYS_CBP_STAT.T1S : Fld := ⟨0x810, 8, 8⟩
abbrev SYS_CBP_STAT.TDL : Fld := ⟨0x810, 7, 7⟩
abbrev SYS_CBP_STAT.PWM : Fld := ⟨0x810, 6, 6⟩
abbrev SYS_CBP_STAT.MTI3 : Fld := ⟨0x810, 5, 5⟩
abbrev SYS_CBP_STAT.MTI2 : Fld := ⟨0x810, 4, 4⟩
abbrev SYS_CBP_STAT.MTI1 : Fld := ⟨0x810, 3, 3⟩
abbrev SYS_CBP_STAT.MTI0 : Fld := ⟨0x810, 2, 2⟩
abbrev SYS_CBP_STAT.DDR : Fld := ⟨0x810, 1, 1⟩
abbrev SYS_CBP_STAT.PCIE : Fld := ⟨0x810, 0, 0⟩
abbrev SYS_FAB_DECERR : Nat := 0x814
abbrev SYS_FAB_DECERR.COUNT : Fld := ⟨0x814, 15, 0⟩
abbrev SYS_FAB_DECADDR : Nat := 0x818
abbrev SYS_FAB_DECADDR.ADDR : Fld := ⟨0x818, 31, 0⟩
abbrev SYS_ARB_SLOW : Nat := 0x81c
abbrev SYS_ARB_SLOW.COUNT : Fld := ⟨0x81c, 15, 0⟩
abbrev SYS_FAB_CLR : Nat := 0x820
abbrev SYS_FAB_CLR.ARB : Fld := ⟨0x820, 2, 2⟩
abbrev SYS_FAB_CLR.DEC : Fld := ⟨0x820, 1, 1⟩
abbrev SYS_FAB_CLR.PACEMIN : Fld := ⟨0x820, 0, 0⟩

/-! ### HQE -/
abbrev HQE_CTL : Nat := 0x0
abbrev HQE_CTL.LOCK : Fld := ⟨0x0, 31, 31⟩
abbrev HQE_CTL.RSQ_EN : Fld := ⟨0x0, 1, 1⟩
abbrev HQE_CTL.EN : Fld := ⟨0x0, 0, 0⟩
abbrev HQE_PORT : Nat := 0x4
abbrev HQE_PORT.MODE : Fld := ⟨0x4, 31, 31⟩
abbrev HQE_PORT.P1_WIDTH : Fld := ⟨0x4, 15, 12⟩
abbrev HQE_PORT.P1_SPEED : Fld := ⟨0x4, 11, 8⟩
abbrev HQE_PORT.P0_WIDTH : Fld := ⟨0x4, 7, 4⟩
abbrev HQE_PORT.P0_SPEED : Fld := ⟨0x4, 3, 0⟩
abbrev HQE_QCTX_BASE : Nat := 0x8
abbrev HQE_QCTX_BASE.PAGE : Fld := ⟨0x8, 31, 0⟩
abbrev HQE_SLOTS : Nat := 0xc
abbrev HQE_SLOTS.ADMIN : Fld := ⟨0xc, 26, 16⟩
abbrev HQE_SLOTS.IO : Fld := ⟨0xc, 15, 0⟩
abbrev HQE_WAIT : Nat := 0x10
abbrev HQE_WAIT.MAP : Fld := ⟨0x10, 31, 16⟩
abbrev HQE_WAIT.ADMIT : Fld := ⟨0x10, 15, 0⟩
abbrev HQE_FN_IDX : Nat := 0x14
abbrev HQE_FN_IDX.FN : Fld := ⟨0x14, 7, 0⟩
abbrev HQE_FN_CAP : Nat := 0x18
abbrev HQE_FN_CAP.CAP : Fld := ⟨0x18, 15, 0⟩
abbrev HQE_FN_STAT : Nat := 0x1c
abbrev HQE_FN_STAT.SLOTS : Fld := ⟨0x1c, 31, 16⟩
abbrev HQE_FN_STAT.QUEUES : Fld := ⟨0x1c, 10, 0⟩
abbrev HQE_ABORTF : Nat := 0x20
abbrev HQE_ABORTF.USED : Fld := ⟨0x20, 11, 0⟩
abbrev HQE_UNLOCK : Nat := 0x24
abbrev HQE_UNLOCK.ACTIVE : Fld := ⟨0x24, 31, 31⟩
abbrev HQE_UNLOCK.REMAIN : Fld := ⟨0x24, 30, 14⟩
abbrev HQE_UNLOCK.FN : Fld := ⟨0x24, 9, 2⟩
abbrev HQE_UNLOCK.SCOPE : Fld := ⟨0x24, 1, 0⟩
abbrev HQE_CTXC : Nat := 0x28
abbrev HQE_CTXC.COUNT : Fld := ⟨0x28, 31, 0⟩
abbrev HQE_MALF : Nat := 0x2c
abbrev HQE_MALF.COUNT : Fld := ⟨0x2c, 31, 0⟩
abbrev HQE_DBERR : Nat := 0x30
abbrev HQE_DBERR.COUNT : Fld := ⟨0x30, 31, 0⟩
abbrev HQE_LATE : Nat := 0x34
abbrev HQE_LATE.COUNT : Fld := ⟨0x34, 31, 0⟩
abbrev HQE_CLR : Nat := 0x38
abbrev HQE_CLR.CNT : Fld := ⟨0x38, 0, 0⟩

/-! ### PLE -/
abbrev PLE_CTL : Nat := 0x0
abbrev PLE_CTL.LOCK : Fld := ⟨0x0, 31, 31⟩
abbrev PLE_CTL.SCH_EN : Fld := ⟨0x0, 1, 1⟩
abbrev PLE_CTL.EN : Fld := ⟨0x0, 0, 0⟩
abbrev PLE_STAT : Nat := 0x4
abbrev PLE_STAT.MAPST : Fld := ⟨0x4, 31, 30⟩
abbrev PLE_STAT.SNAP : Fld := ⟨0x4, 29, 29⟩
abbrev PLE_STAT.DEGR : Fld := ⟨0x4, 27, 24⟩
abbrev PLE_MAP_BASE : Nat := 0x8
abbrev PLE_MAP_BASE.PAGE : Fld := ⟨0x8, 31, 0⟩
abbrev PLE_MAP_SIZE : Nat := 0xc
abbrev PLE_MAP_SIZE.RECS : Fld := ⟨0xc, 31, 0⟩
abbrev PLE_MAP_USED : Nat := 0x10
abbrev PLE_MAP_USED.RECS : Fld := ⟨0x10, 31, 0⟩
abbrev PLE_MAP_THR : Nat := 0x14
abbrev PLE_MAP_THR.WARN : Fld := ⟨0x14, 23, 16⟩
abbrev PLE_MAP_THR.HIGH : Fld := ⟨0x14, 15, 8⟩
abbrev PLE_MAP_THR.FULL : Fld := ⟨0x14, 7, 0⟩
abbrev PLE_TIER : Nat := 0x18
abbrev PLE_TIER.HOT_LAST : Fld := ⟨0x18, 12, 8⟩
abbrev PLE_TIER.COLD_FIRST : Fld := ⟨0x18, 4, 0⟩
abbrev PLE_SCH_IDX : Nat := 0x1c
abbrev PLE_SCH_IDX.MC : Fld := ⟨0x1c, 1, 0⟩
abbrev PLE_SCH_WGT : Nat := 0x20
abbrev PLE_SCH_WGT.HOLDBG : Fld := ⟨0x20, 31, 31⟩
abbrev PLE_SCH_WGT.WE : Fld := ⟨0x20, 23, 16⟩
abbrev PLE_SCH_WGT.PVIB : Fld := ⟨0x20, 15, 0⟩
abbrev PLE_SCH_AGE : Nat := 0x24
abbrev PLE_SCH_AGE.STARVE : Fld := ⟨0x24, 31, 16⟩
abbrev PLE_SCH_AGE.URGAGE : Fld := ⟨0x24, 15, 0⟩
abbrev PLE_SCH_BG : Nat := 0x28
abbrev PLE_SCH_BG.BGSTARVE : Fld := ⟨0x28, 31, 16⟩
abbrev PLE_SCH_BG.BGN : Fld := ⟨0x28, 15, 8⟩
abbrev PLE_SCH_BG.BGMAX : Fld := ⟨0x28, 7, 0⟩
abbrev PLE_SCH_STAT : Nat := 0x2c
abbrev PLE_SCH_STAT.READY : Fld := ⟨0x2c, 28, 16⟩
abbrev PLE_SCH_STAT.DUE : Fld := ⟨0x2c, 12, 0⟩
abbrev PLE_SCH_MAXW : Nat := 0x30
abbrev PLE_SCH_MAXW.COUNT : Fld := ⟨0x30, 31, 0⟩
abbrev PLE_SCH_DUEPK : Nat := 0x34
abbrev PLE_SCH_DUEPK.COUNT : Fld := ⟨0x34, 31, 0⟩
abbrev PLE_SCH_CLAIM : Nat := 0x38
abbrev PLE_SCH_CLAIM.COUNT : Fld := ⟨0x38, 31, 0⟩
abbrev PLE_VIB_CTL : Nat := 0x3c
abbrev PLE_VIB_CTL.EN : Fld := ⟨0x3c, 31, 31⟩
abbrev PLE_VIB_CTL.LSMAX : Fld := ⟨0x3c, 9, 8⟩
abbrev PLE_VIB_CTL.LFRAC : Fld := ⟨0x3c, 7, 0⟩
abbrev PLE_VIB_WIN : Nat := 0x40
abbrev PLE_VIB_WIN.PERIOD : Fld := ⟨0x40, 31, 20⟩
abbrev PLE_VIB_WIN.PHASE : Fld := ⟨0x40, 19, 8⟩
abbrev PLE_VIB_WIN.LEN : Fld := ⟨0x40, 7, 0⟩
abbrev PLE_ECHO_LIVE : Nat := 0x44
abbrev PLE_ECHO_LIVE.COUNT : Fld := ⟨0x44, 31, 0⟩
abbrev PLE_CLR : Nat := 0x48
abbrev PLE_CLR.CLAIM : Fld := ⟨0x48, 2, 2⟩
abbrev PLE_CLR.DUE : Fld := ⟨0x48, 1, 1⟩
abbrev PLE_CLR.MAXW : Fld := ⟨0x48, 0, 0⟩

/-! ### MC -/
abbrev MC_AFE_CTL : Nat := 0x100
abbrev MC_AFE_CTL.TA_THR : Fld := ⟨0x100, 23, 16⟩
abbrev MC_AFE_CTL.TA_LEN : Fld := ⟨0x100, 15, 12⟩
abbrev MC_AFE_CTL.RDB_EN : Fld := ⟨0x100, 9, 9⟩
abbrev MC_AFE_CTL.RDA_EN : Fld := ⟨0x100, 8, 8⟩
abbrev MC_AFE_CTL.LOWPWR : Fld := ⟨0x100, 0, 0⟩
abbrev MC_AFE_CUR : Nat := 0x104
abbrev MC_AFE_CUR.VGA_A : Fld := ⟨0x104, 31, 24⟩
abbrev MC_AFE_CUR.VGA_B : Fld := ⟨0x104, 23, 16⟩
abbrev MC_AFE_CUR.CTF_FC : Fld := ⟨0x104, 13, 8⟩
abbrev MC_AFE_CUR.CTF_BOOST : Fld := ⟨0x104, 4, 0⟩
abbrev MC_ZAT_BASE : Nat := 0x108
abbrev MC_ZAT_BASE.PAGE : Fld := ⟨0x108, 31, 0⟩
abbrev MC_ZAE_ERR : Nat := 0x10c
abbrev MC_ZAE_ERR.STICKY : Fld := ⟨0x10c, 31, 31⟩
abbrev MC_ZAE_ERR.ZONE : Fld := ⟨0x10c, 12, 8⟩
abbrev MC_ZAE_ERR.CODE : Fld := ⟨0x10c, 3, 0⟩
abbrev MC_ADC_IDX : Nat := 0x110
abbrev MC_ADC_IDX.ADC : Fld := ⟨0x110, 8, 8⟩
abbrev MC_ADC_IDX.BANK : Fld := ⟨0x110, 4, 4⟩
abbrev MC_ADC_IDX.WORD : Fld := ⟨0x110, 2, 0⟩
abbrev MC_ADC_SEL : Nat := 0x114
abbrev MC_ADC_SEL.MASK : Fld := ⟨0x114, 31, 0⟩
abbrev MC_ADC_STAT : Nat := 0x118
abbrev MC_ADC_STAT.APPLY : Fld := ⟨0x118, 31, 31⟩
abbrev MC_ADC_STAT.BUSY : Fld := ⟨0x118, 30, 30⟩
abbrev MC_ADC_STAT.REJECT : Fld := ⟨0x118, 29, 29⟩
abbrev MC_ADC_STAT.REMAIN : Fld := ⟨0x118, 7, 0⟩
abbrev MC_DET_CTL : Nat := 0x11c
abbrev MC_DET_CTL.MU : Fld := ⟨0x11c, 19, 16⟩
abbrev MC_DET_CTL.ADAPT : Fld := ⟨0x11c, 8, 8⟩
abbrev MC_DET_CTL.FORCE : Fld := ⟨0x11c, 2, 2⟩
abbrev MC_DET_CTL.FMODE : Fld := ⟨0x11c, 1, 0⟩
abbrev MC_LDPC_CTL : Nat := 0x120
abbrev MC_LDPC_CTL.RITER : Fld := ⟨0x120, 29, 24⟩
abbrev MC_LDPC_CTL.SITER : Fld := ⟨0x120, 13, 8⟩
abbrev MC_LDPC_LAST : Nat := 0x124
abbrev MC_LDPC_LAST.PATH : Fld := ⟨0x124, 24, 24⟩
abbrev MC_LDPC_LAST.CONV : Fld := ⟨0x124, 23, 23⟩
abbrev MC_LDPC_LAST.ITER : Fld := ⟨0x124, 22, 16⟩
abbrev MC_LDPC_LAST.CORR : Fld := ⟨0x124, 15, 0⟩
abbrev MC_LDPC_CONV : Nat := 0x128
abbrev MC_LDPC_CONV.COUNT : Fld := ⟨0x128, 31, 0⟩
abbrev MC_LDPC_FAIL : Nat := 0x12c
abbrev MC_LDPC_FAIL.COUNT : Fld := ⟨0x12c, 31, 0⟩
abbrev MC_SYN_CTL : Nat := 0x200
abbrev MC_SYN_CTL.FREE : Fld := ⟨0x200, 31, 31⟩
abbrev MC_SYN_CTL.MAXC : Fld := ⟨0x200, 27, 24⟩
abbrev MC_SYN_CTL.MWIN : Fld := ⟨0x200, 23, 16⟩
abbrev MC_SYN_CTL.KP : Fld := ⟨0x200, 15, 8⟩
abbrev MC_SYN_CTL.KI : Fld := ⟨0x200, 7, 0⟩
abbrev MC_SYN_STAT : Nat := 0x204
abbrev MC_SYN_STAT.LOCK : Fld := ⟨0x204, 31, 31⟩
abbrev MC_SYN_STAT.COAST : Fld := ⟨0x204, 30, 30⟩
abbrev MC_SYN_STAT.CCNT : Fld := ⟨0x204, 27, 24⟩
abbrev MC_SYN_STAT.PERR : Fld := ⟨0x204, 15, 0⟩
abbrev MC_SYN_COAST : Nat := 0x208
abbrev MC_SYN_COAST.COUNT : Fld := ⟨0x208, 31, 0⟩
abbrev MC_SYN_LATE : Nat := 0x20c
abbrev MC_SYN_LATE.COUNT : Fld := ⟨0x20c, 31, 0⟩
abbrev MC_SYN_UNLOCK : Nat := 0x210
abbrev MC_SYN_UNLOCK.COUNT : Fld := ⟨0x210, 31, 0⟩
abbrev MC_SYN_FREE : Nat := 0x214
abbrev MC_SYN_FREE.FREQ : Fld := ⟨0x214, 7, 0⟩
abbrev MC_WR_CTL : Nat := 0x300
abbrev MC_WR_CTL.RESUME : Fld := ⟨0x300, 1, 1⟩
abbrev MC_WR_CTL.PCEN : Fld := ⟨0x300, 0, 0⟩
abbrev MC_WR_FAULT : Nat := 0x304
abbrev MC_WR_FAULT.COUNT : Fld := ⟨0x304, 31, 16⟩
abbrev MC_WR_FAULT.DUTY : Fld := ⟨0x304, 5, 5⟩
abbrev MC_WR_FAULT.LEAD_SHORT : Fld := ⟨0x304, 4, 4⟩
abbrev MC_WR_FAULT.PARITY : Fld := ⟨0x304, 3, 3⟩
abbrev MC_WR_FAULT.CBP : Fld := ⟨0x304, 2, 2⟩
abbrev MC_WR_FAULT.HFLT : Fld := ⟨0x304, 1, 1⟩
abbrev MC_WR_FAULT.COAST : Fld := ⟨0x304, 0, 0⟩
abbrev MC_ASC_CTL : Nat := 0x400
abbrev MC_ASC_CTL.LOCK : Fld := ⟨0x400, 31, 31⟩
abbrev MC_ASC_CTL.TYPE : Fld := ⟨0x400, 11, 0⟩
abbrev MC_ASC_LEAD : Nat := 0x404
abbrev MC_ASC_LEAD.MAX : Fld := ⟨0x404, 23, 16⟩
abbrev MC_ASC_LEAD.MIN : Fld := ⟨0x404, 7, 0⟩
abbrev MC_ASC_DUTY : Nat := 0x408
abbrev MC_ASC_DUTY.LIMIT : Fld := ⟨0x408, 31, 24⟩
abbrev MC_ASC_DUTY.WIN : Fld := ⟨0x408, 15, 0⟩
abbrev MC_ASC_STAT : Nat := 0x40c
abbrev MC_ASC_STAT.DUTY_NEAR : Fld := ⟨0x40c, 31, 31⟩
abbrev MC_ASC_STAT.DUTY_HOLD : Fld := ⟨0x40c, 30, 30⟩
abbrev MC_ASC_STAT.LEAD_SHORT : Fld := ⟨0x40c, 29, 29⟩
abbrev MC_ASC_STAT.LEAD_LONG : Fld := ⟨0x40c, 28, 28⟩
abbrev MC_ASC_STAT.AGE_WARN : Fld := ⟨0x40c, 27, 27⟩
abbrev MC_ASC_STAT.HEAD : Fld := ⟨0x40c, 19, 16⟩
abbrev MC_ASC_STAT.DUTY_NOW : Fld := ⟨0x40c, 7, 0⟩
abbrev MC_ASC_IDX : Nat := 0x410
abbrev MC_ASC_IDX.HEAD : Fld := ⟨0x410, 11, 8⟩
abbrev MC_ASC_IDX.LEVEL : Fld := ⟨0x410, 3, 0⟩
abbrev MC_ASC_LVL : Nat := 0x414
abbrev MC_ASC_LVL.CODE : Fld := ⟨0x414, 11, 0⟩
abbrev MC_ASC_AGE : Nat := 0x418
abbrev MC_ASC_AGE.WARN : Fld := ⟨0x418, 25, 16⟩
abbrev MC_ASC_AGE.TRIM : Fld := ⟨0x418, 9, 0⟩
abbrev MC_ASC_HON : Nat := 0x41c
abbrev MC_ASC_HON.COUNT : Fld := ⟨0x41c, 31, 0⟩
abbrev MC_ASC_HRISE : Nat := 0x420
abbrev MC_ASC_HRISE.COUNT : Fld := ⟨0x420, 31, 0⟩
abbrev MC_HIF_CTL : Nat := 0x500
abbrev MC_HIF_CTL.OWN : Fld := ⟨0x500, 31, 31⟩
abbrev MC_HIF_CTL.DIV : Fld := ⟨0x500, 23, 16⟩
abbrev MC_HIF_CTL.DIVSET : Fld := ⟨0x500, 15, 8⟩
abbrev MC_HIF_CTL.AUTO : Fld := ⟨0x500, 4, 4⟩
abbrev MC_HIF_CTL.RETRY : Fld := ⟨0x500, 3, 0⟩
abbrev MC_HIF_CMD : Nat := 0x504
abbrev MC_HIF_CMD.GO : Fld := ⟨0x504, 31, 31⟩
abbrev MC_HIF_CMD.RW : Fld := ⟨0x504, 30, 30⟩
abbrev MC_HIF_CMD.ADDR : Fld := ⟨0x504, 22, 16⟩
abbrev MC_HIF_CMD.DATA : Fld := ⟨0x504, 15, 0⟩
abbrev MC_HIF_RDATA : Nat := 0x508
abbrev MC_HIF_RDATA.VALID : Fld := ⟨0x508, 16, 16⟩
abbrev MC_HIF_RDATA.DATA : Fld := ⟨0x508, 15, 0⟩
abbrev MC_HIF_STAT : Nat := 0x50c
abbrev MC_HIF_STAT.HFLT_NOW : Fld := ⟨0x50c, 8, 8⟩
abbrev MC_HIF_STAT.PREOVF : Fld := ⟨0x50c, 4, 4⟩
abbrev MC_HIF_STAT.HFLT : Fld := ⟨0x50c, 3, 3⟩
abbrev MC_HIF_STAT.FAIL : Fld := ⟨0x50c, 2, 2⟩
abbrev MC_HIF_STAT.NORESP : Fld := ⟨0x50c, 1, 1⟩
abbrev MC_HIF_STAT.NAK : Fld := ⟨0x50c, 0, 0⟩
abbrev MC_HIF_ERR : Nat := 0x510
abbrev MC_HIF_ERR.COUNT : Fld := ⟨0x510, 31, 0⟩
abbrev MC_HIF_PIDX : Nat := 0x514
abbrev MC_HIF_PIDX.IDX : Fld := ⟨0x514, 7, 0⟩
abbrev MC_HIF_PDATA : Nat := 0x518
abbrev MC_HIF_PDATA.VALID : Fld := ⟨0x518, 31, 31⟩
abbrev MC_HIF_PDATA.ADDR : Fld := ⟨0x518, 22, 16⟩
abbrev MC_HIF_PDATA.DATA : Fld := ⟨0x518, 15, 0⟩
abbrev MC_CH_CLR : Nat := 0x580
abbrev MC_CH_CLR.ASC : Fld := ⟨0x580, 3, 3⟩
abbrev MC_CH_CLR.HIF : Fld := ⟨0x580, 2, 2⟩
abbrev MC_CH_CLR.SYN : Fld := ⟨0x580, 1, 1⟩
abbrev MC_CH_CLR.LDPC : Fld := ⟨0x580, 0, 0⟩
abbrev MC_SYNC_CTL : Nat := 0x600
abbrev MC_SYNC_CTL.WIN : Fld := ⟨0x600, 29, 24⟩
abbrev MC_SYNC_CTL.TOL : Fld := ⟨0x600, 18, 16⟩
abbrev MC_SYNC_CTL.TSPAN : Fld := ⟨0x600, 11, 8⟩
abbrev MC_SYNC_CTL.RSPAN : Fld := ⟨0x600, 3, 0⟩
abbrev MC_SYNC_FOUND : Nat := 0x604
abbrev MC_SYNC_FOUND.COUNT : Fld := ⟨0x604, 31, 0⟩
abbrev MC_SYNC_MISS : Nat := 0x608
abbrev MC_SYNC_MISS.COUNT : Fld := ⟨0x608, 31, 0⟩
abbrev MC_SYNC_LATE : Nat := 0x60c
abbrev MC_SYNC_LATE.COUNT : Fld := ⟨0x60c, 31, 0⟩
abbrev MC_TIMED_OK : Nat := 0x610
abbrev MC_TIMED_OK.COUNT : Fld := ⟨0x610, 31, 0⟩
abbrev MC_TIMED_FAIL : Nat := 0x614
abbrev MC_TIMED_FAIL.COUNT : Fld := ⟨0x614, 31, 0⟩
abbrev MC_REALIGN_OK : Nat := 0x618
abbrev MC_REALIGN_OK.COUNT : Fld := ⟨0x618, 31, 0⟩
abbrev MC_REALIGN_FAIL : Nat := 0x61c
abbrev MC_REALIGN_FAIL.COUNT : Fld := ⟨0x61c, 31, 0⟩
abbrev MC_TAG_FAIL : Nat := 0x620
abbrev MC_TAG_FAIL.COUNT : Fld := ⟨0x620, 31, 0⟩
abbrev MC_STRIPE_REBUILT : Nat := 0x624
abbrev MC_STRIPE_REBUILT.COUNT : Fld := ⟨0x624, 31, 0⟩
abbrev MC_STRIPE_FAIL : Nat := 0x628
abbrev MC_STRIPE_FAIL.COUNT : Fld := ⟨0x628, 31, 0⟩
abbrev MC_SBUF_BUSY : Nat := 0x62c
abbrev MC_SBUF_BUSY.COUNT : Fld := ⟨0x62c, 31, 0⟩
abbrev MC_RECOV_LAST : Nat := 0x630
abbrev MC_RECOV_LAST.KIND : Fld := ⟨0x630, 31, 29⟩
abbrev MC_RECOV_LAST.OFFSET : Fld := ⟨0x630, 28, 24⟩
abbrev MC_RECOV_LAST.HEAD : Fld := ⟨0x630, 15, 12⟩
abbrev MC_RECOV_LAST.SLOT : Fld := ⟨0x630, 10, 0⟩
abbrev MC_RECOV_TRACK : Nat := 0x634
abbrev MC_RECOV_TRACK.TRACK : Fld := ⟨0x634, 20, 0⟩
abbrev MC_TAG_DIFF_LO : Nat := 0x638
abbrev MC_TAG_DIFF_LO.DIFF : Fld := ⟨0x638, 31, 0⟩
abbrev MC_TAG_DIFF_HI : Nat := 0x63c
abbrev MC_TAG_DIFF_HI.DIFF : Fld := ⟨0x63c, 31, 0⟩
abbrev MC_ZFD_ERR : Nat := 0x640
abbrev MC_ZFD_ERR.STICKY : Fld := ⟨0x640, 31, 31⟩
abbrev MC_ZFD_ERR.ZONE : Fld := ⟨0x640, 12, 8⟩
abbrev MC_ZFD_ERR.CODE : Fld := ⟨0x640, 3, 0⟩
abbrev MC_FMT_CLR : Nat := 0x644
abbrev MC_FMT_CLR.REC : Fld := ⟨0x644, 1, 1⟩
abbrev MC_FMT_CLR.CNT : Fld := ⟨0x644, 0, 0⟩
abbrev MSQ_CTL : Nat := 0x800
abbrev MSQ_CTL.EN : Fld := ⟨0x800, 31, 31⟩
abbrev MSQ_CTL.MAXHOLD : Fld := ⟨0x800, 23, 16⟩
abbrev MSQ_CTL.WDOG : Fld := ⟨0x800, 15, 0⟩
abbrev MSQ_STAT : Nat := 0x804
abbrev MSQ_STAT.STATE : Fld := ⟨0x804, 31, 30⟩
abbrev MSQ_STAT.CUST : Fld := ⟨0x804, 29, 29⟩
abbrev MSQ_STAT.DEAD : Fld := ⟨0x804, 28, 28⟩
abbrev MSQ_STAT.DEPTH : Fld := ⟨0x804, 27, 25⟩
abbrev MSQ_STAT.JOB : Fld := ⟨0x804, 21, 16⟩
abbrev MSQ_STAT.PC : Fld := ⟨0x804, 13, 0⟩
abbrev MSQ_STOP : Nat := 0x808
abbrev MSQ_STOP.STICKY : Fld := ⟨0x808, 31, 31⟩
abbrev MSQ_STOP.JOB : Fld := ⟨0x808, 27, 22⟩
abbrev MSQ_STOP.CODE : Fld := ⟨0x808, 21, 14⟩
abbrev MSQ_STOP.ADDR : Fld := ⟨0x808, 13, 0⟩
abbrev MSQ_JT_IDX : Nat := 0x80c
abbrev MSQ_JT_IDX.AUTOINC : Fld := ⟨0x80c, 31, 31⟩
abbrev MSQ_JT_IDX.ENTRY : Fld := ⟨0x80c, 13, 8⟩
abbrev MSQ_JT_IDX.DW : Fld := ⟨0x80c, 3, 0⟩
abbrev MSQ_JT_DATA : Nat := 0x810
abbrev MSQ_JT_DATA.DATA : Fld := ⟨0x810, 31, 0⟩
abbrev MSQ_JT_CMD : Nat := 0x814
abbrev MSQ_JT_CMD.ARM : Fld := ⟨0x814, 31, 31⟩
abbrev MSQ_JT_CMD.CANCEL : Fld := ⟨0x814, 30, 30⟩
abbrev MSQ_JT_CMD.REJ : Fld := ⟨0x814, 29, 29⟩
abbrev MSQ_JT_CMD.LATE : Fld := ⟨0x814, 28, 28⟩
abbrev MSQ_JT_CMD.ENTRY : Fld := ⟨0x814, 5, 0⟩
abbrev MSQ_JT_DONE_LO : Nat := 0x818
abbrev MSQ_JT_DONE_LO.DONE : Fld := ⟨0x818, 31, 0⟩
abbrev MSQ_JT_DONE_HI : Nat := 0x81c
abbrev MSQ_JT_DONE_HI.DONE : Fld := ⟨0x81c, 31, 0⟩
abbrev MSQ_EVT_LO : Nat := 0x820
abbrev MSQ_EVT_LO.VALID : Fld := ⟨0x820, 31, 31⟩
abbrev MSQ_EVT_LO.CODE : Fld := ⟨0x820, 30, 27⟩
abbrev MSQ_EVT_LO.JOB : Fld := ⟨0x820, 26, 21⟩
abbrev MSQ_EVT_LO.OUTCOME : Fld := ⟨0x820, 20, 17⟩
abbrev MSQ_EVT_LO.FLAGS : Fld := ⟨0x820, 16, 13⟩
abbrev MSQ_EVT_LO.SLOT : Fld := ⟨0x820, 10, 0⟩
abbrev MSQ_EVT_HI : Nat := 0x824
abbrev MSQ_EVT_HI.CTRB : Fld := ⟨0x824, 31, 16⟩
abbrev MSQ_EVT_HI.EVTD : Fld := ⟨0x824, 15, 0⟩
abbrev MSQ_ST_IDX : Nat := 0x828
abbrev MSQ_ST_IDX.AUTOINC : Fld := ⟨0x828, 31, 31⟩
abbrev MSQ_ST_IDX.LANE : Fld := ⟨0x828, 18, 16⟩
abbrev MSQ_ST_IDX.WORD : Fld := ⟨0x828, 13, 0⟩
abbrev MSQ_ST_DATA : Nat := 0x82c
abbrev MSQ_ST_DATA.DATA : Fld := ⟨0x82c, 31, 0⟩
abbrev MSQ_IMG_BASE : Nat := 0x830
abbrev MSQ_IMG_BASE.PAGE : Fld := ⟨0x830, 31, 0⟩
abbrev MSQ_RTAB_IDX : Nat := 0x834
abbrev MSQ_RTAB_IDX.DW : Fld := ⟨0x834, 8, 8⟩
abbrev MSQ_RTAB_IDX.SET : Fld := ⟨0x834, 4, 0⟩
abbrev MSQ_RTAB_DATA : Nat := 0x838
abbrev MSQ_RTAB_DATA.DATA : Fld := ⟨0x838, 31, 0⟩
abbrev MSQ_TRACE : Nat := 0x83c
abbrev MSQ_TRACE.VALID : Fld := ⟨0x83c, 31, 31⟩
abbrev MSQ_TRACE.JOB : Fld := ⟨0x83c, 30, 25⟩
abbrev MSQ_TRACE.SP : Fld := ⟨0x83c, 24, 14⟩
abbrev MSQ_TRACE.ADDR : Fld := ⟨0x83c, 13, 0⟩
abbrev MSQ_LATE_ARM : Nat := 0x840
abbrev MSQ_LATE_ARM.COUNT : Fld := ⟨0x840, 31, 0⟩
abbrev MSQ_HELD : Nat := 0x844
abbrev MSQ_HELD.COUNT : Fld := ⟨0x844, 31, 0⟩
abbrev MSQ_WAIT_LATE : Nat := 0x848
abbrev MSQ_WAIT_LATE.COUNT : Fld := ⟨0x848, 31, 0⟩
abbrev MSQ_EVT_LOST : Nat := 0x84c
abbrev MSQ_EVT_LOST.COUNT : Fld := ⟨0x84c, 31, 0⟩
abbrev MSQ_PAR_ERR : Nat := 0x850
abbrev MSQ_PAR_ERR.COUNT : Fld := ⟨0x850, 31, 0⟩
abbrev MSQ_SCRUB_FIX : Nat := 0x854
abbrev MSQ_SCRUB_FIX.COUNT : Fld := ⟨0x854, 31, 0⟩
abbrev MSQ_CLR : Nat := 0x858
abbrev MSQ_CLR.EVT : Fld := ⟨0x858, 2, 2⟩
abbrev MSQ_CLR.TRACE : Fld := ⟨0x858, 1, 1⟩
abbrev MSQ_CLR.CNT : Fld := ⟨0x858, 0, 0⟩

/-! ### SCE -/
abbrev SCE_CTL : Nat := 0x0
abbrev SCE_CTL.LOCK : Fld := ⟨0x0, 31, 31⟩
abbrev SCE_CTL.ZREBUILD : Fld := ⟨0x0, 8, 8⟩
abbrev SCE_CTL.SPN_EN : Fld := ⟨0x0, 4, 4⟩
abbrev SCE_CTL.ACT_EN : Fld := ⟨0x0, 3, 0⟩
abbrev SCE_STAT : Nat := 0x4
abbrev SCE_STAT.ONTRK : Fld := ⟨0x4, 31, 28⟩
abbrev SCE_STAT.PARKED : Fld := ⟨0x4, 27, 24⟩
abbrev SCE_STAT.LOST : Fld := ⟨0x4, 23, 20⟩
abbrev SCE_STAT.WINH : Fld := ⟨0x4, 19, 16⟩
abbrev SCE_STAT.SPN_SRC : Fld := ⟨0x4, 15, 14⟩
abbrev SCE_STAT.REFMC : Fld := ⟨0x4, 13, 12⟩
abbrev SCE_STAT.SYNC : Fld := ⟨0x4, 11, 11⟩
abbrev SCE_STAT.ZBUSY : Fld := ⟨0x4, 10, 10⟩
abbrev SCE_FINISH : Nat := 0x8
abbrev SCE_FINISH.WORST : Fld := ⟨0x8, 31, 16⟩
abbrev SCE_FINISH.LAST : Fld := ⟨0x8, 15, 0⟩
abbrev SCE_OVERRUN : Nat := 0xc
abbrev SCE_OVERRUN.COUNT : Fld := ⟨0xc, 31, 0⟩
abbrev SCE_LATE : Nat := 0x10
abbrev SCE_LATE.COUNT : Fld := ⟨0x10, 31, 0⟩
abbrev SCE_ACT_IDX : Nat := 0x14
abbrev SCE_ACT_IDX.ACT : Fld := ⟨0x14, 1, 0⟩
abbrev SCE_ACT_CMD : Nat := 0x18
abbrev SCE_ACT_CMD.GO : Fld := ⟨0x18, 31, 31⟩
abbrev SCE_ACT_CMD.ERR : Fld := ⟨0x18, 30, 30⟩
abbrev SCE_ACT_CMD.OP : Fld := ⟨0x18, 29, 27⟩
abbrev SCE_ACT_CMD.HEAD : Fld := ⟨0x18, 23, 20⟩
abbrev SCE_ACT_CMD.ZONE : Fld := ⟨0x18, 12, 8⟩
abbrev SCE_ACT_TRK : Nat := 0x1c
abbrev SCE_ACT_TRK.TRACK : Fld := ⟨0x1c, 20, 0⟩
abbrev SCE_ACT_POS : Nat := 0x20
abbrev SCE_ACT_POS.POS : Fld := ⟨0x20, 31, 0⟩
abbrev SCE_ACT_LIM : Nat := 0x24
abbrev SCE_ACT_LIM.RDLIM : Fld := ⟨0x24, 31, 24⟩
abbrev SCE_ACT_LIM.WRLIM : Fld := ⟨0x24, 23, 16⟩
abbrev SCE_ACT_LIM.SETLIM : Fld := ⟨0x24, 15, 8⟩
abbrev SCE_ACT_LIM.SETN : Fld := ⟨0x24, 7, 4⟩
abbrev SCE_ACT_LIM.COASTN : Fld := ⟨0x24, 3, 0⟩
abbrev SCE_ACT_STAT : Nat := 0x28
abbrev SCE_ACT_STAT.STATE : Fld := ⟨0x28, 31, 28⟩
abbrev SCE_ACT_STAT.ONTRK : Fld := ⟨0x28, 27, 27⟩
abbrev SCE_ACT_STAT.PESHI : Fld := ⟨0x28, 26, 26⟩
abbrev SCE_ACT_STAT.WINH : Fld := ⟨0x28, 25, 25⟩
abbrev SCE_ACT_STAT.MISS : Fld := ⟨0x28, 24, 24⟩
abbrev SCE_ACT_STAT.CCNT : Fld := ⟨0x28, 23, 16⟩
abbrev SCE_ACT_STAT.SEEKT : Fld := ⟨0x28, 15, 0⟩
abbrev SCE_ACT_COAST : Nat := 0x2c
abbrev SCE_ACT_COAST.COUNT : Fld := ⟨0x2c, 31, 0⟩
abbrev SCE_ACT_REJ : Nat := 0x30
abbrev SCE_ACT_REJ.COUNT : Fld := ⟨0x30, 31, 0⟩
abbrev SCE_COEF_IDX : Nat := 0x34
abbrev SCE_COEF_IDX.AUTOINC : Fld := ⟨0x34, 31, 31⟩
abbrev SCE_COEF_IDX.LOOP : Fld := ⟨0x34, 10, 8⟩
abbrev SCE_COEF_IDX.BANK : Fld := ⟨0x34, 7, 7⟩
abbrev SCE_COEF_IDX.ADDR : Fld := ⟨0x34, 6, 0⟩
abbrev SCE_COEF_DATA : Nat := 0x38
abbrev SCE_COEF_DATA.VALUE : Fld := ⟨0x38, 31, 0⟩
abbrev SCE_COEF_SWAP : Nat := 0x3c
abbrev SCE_COEF_SWAP.ZEROST : Fld := ⟨0x3c, 16, 16⟩
abbrev SCE_COEF_SWAP.SWAP : Fld := ⟨0x3c, 4, 0⟩
abbrev SCE_TBL_IDX : Nat := 0x40
abbrev SCE_TBL_IDX.AUTOINC : Fld := ⟨0x40, 31, 31⟩
abbrev SCE_TBL_IDX.SLOT : Fld := ⟨0x40, 17, 16⟩
abbrev SCE_TBL_IDX.ENTRY : Fld := ⟨0x40, 9, 0⟩
abbrev SCE_TBL_DATA : Nat := 0x44
abbrev SCE_TBL_DATA.VALUE : Fld := ⟨0x44, 15, 0⟩
abbrev SCE_TBL_CFG0 : Nat := 0x48
abbrev SCE_TBL_CFG0.EN : Fld := ⟨0x48, 31, 31⟩
abbrev SCE_TBL_CFG0.LOOP : Fld := ⟨0x48, 30, 28⟩
abbrev SCE_TBL_CFG0.SHIFT : Fld := ⟨0x48, 20, 16⟩
abbrev SCE_TBL_CFG0.GAIN : Fld := ⟨0x48, 15, 0⟩
abbrev SCE_TBL_CFG1 : Nat := 0x4c
abbrev SCE_TBL_CFG1.EN : Fld := ⟨0x4c, 31, 31⟩
abbrev SCE_TBL_CFG1.LOOP : Fld := ⟨0x4c, 30, 28⟩
abbrev SCE_TBL_CFG1.SHIFT : Fld := ⟨0x4c, 20, 16⟩
abbrev SCE_TBL_CFG1.GAIN : Fld := ⟨0x4c, 15, 0⟩
abbrev SCE_TBL_CFG2 : Nat := 0x50
abbrev SCE_TBL_CFG2.EN : Fld := ⟨0x50, 31, 31⟩
abbrev SCE_TBL_CFG2.LOOP : Fld := ⟨0x50, 30, 28⟩
abbrev SCE_TBL_CFG2.SHIFT : Fld := ⟨0x50, 20, 16⟩
abbrev SCE_TBL_CFG2.GAIN : Fld := ⟨0x50, 15, 0⟩
abbrev SCE_SPN_CTL : Nat := 0x54
abbrev SCE_SPN_CTL.FOLLOW : Fld := ⟨0x54, 31, 31⟩
abbrev SCE_SPN_CTL.PHASE_FW : Fld := ⟨0x54, 28, 28⟩
abbrev SCE_SPN_CTL.REFMC : Fld := ⟨0x54, 25, 24⟩
abbrev SCE_SPN_CTL.SYNCTOL : Fld := ⟨0x54, 23, 16⟩
abbrev SCE_SPN_CTL.MISSN : Fld := ⟨0x54, 15, 12⟩
abbrev SCE_SPN_CTL.TICK : Fld := ⟨0x54, 11, 0⟩
abbrev SCE_SPN_SET : Nat := 0x58
abbrev SCE_SPN_SET.SPEED : Fld := ⟨0x58, 31, 16⟩
abbrev SCE_SPN_SET.PHASE : Fld := ⟨0x58, 15, 0⟩
abbrev SCE_SPN_STAT : Nat := 0x5c
abbrev SCE_SPN_STAT.SPEED : Fld := ⟨0x5c, 31, 16⟩
abbrev SCE_SPN_STAT.PERR : Fld := ⟨0x5c, 15, 0⟩
abbrev SCE_ATEST : Nat := 0x60
abbrev SCE_ATEST.EN : Fld := ⟨0x60, 31, 31⟩
abbrev SCE_ATEST.ACT : Fld := ⟨0x60, 29, 28⟩
abbrev SCE_ATEST.CODE : Fld := ⟨0x60, 27, 16⟩
abbrev SCE_ATEST.GAIN : Fld := ⟨0x60, 15, 0⟩
abbrev SCE_PSL_CTL : Nat := 0x64
abbrev SCE_PSL_CTL.EN : Fld := ⟨0x64, 31, 31⟩
abbrev SCE_PSL_CTL.RETRY : Fld := ⟨0x64, 30, 28⟩
abbrev SCE_PSL_CTL.FAILN : Fld := ⟨0x64, 27, 24⟩
abbrev SCE_PSL_CTL.LEAD : Fld := ⟨0x64, 11, 0⟩
abbrev SCE_PSL_STAT : Nat := 0x68
abbrev SCE_PSL_STAT.FAULT : Fld := ⟨0x68, 31, 31⟩
abbrev SCE_PSL_STAT.NOTOWN : Fld := ⟨0x68, 30, 30⟩
abbrev SCE_PSL_STAT.OTW : Fld := ⟨0x68, 29, 29⟩
abbrev SCE_PSL_STAT.CRC : Fld := ⟨0x68, 28, 28⟩
abbrev SCE_PSL_STAT.OWNED : Fld := ⟨0x68, 27, 24⟩
abbrev SCE_PSL_STAT.PFLT : Fld := ⟨0x68, 23, 20⟩
abbrev SCE_PSL_ERR : Nat := 0x6c
abbrev SCE_PSL_ERR.COUNT : Fld := ⟨0x6c, 31, 0⟩
abbrev SCE_PSL_CMD : Nat := 0x70
abbrev SCE_PSL_CMD.GO : Fld := ⟨0x70, 31, 31⟩
abbrev SCE_PSL_CMD.RD : Fld := ⟨0x70, 30, 30⟩
abbrev SCE_PSL_CMD.ADDR : Fld := ⟨0x70, 23, 16⟩
abbrev SCE_PSL_CMD.DATA : Fld := ⟨0x70, 15, 0⟩
abbrev SCE_PSL_RDATA : Nat := 0x74
abbrev SCE_PSL_RDATA.VALID : Fld := ⟨0x74, 16, 16⟩
abbrev SCE_PSL_RDATA.DATA : Fld := ⟨0x74, 15, 0⟩
abbrev SCE_WINH : Nat := 0x78
abbrev SCE_WINH.PSL : Fld := ⟨0x78, 11, 8⟩
abbrev SCE_WINH.SPINDLE : Fld := ⟨0x78, 7, 4⟩
abbrev SCE_WINH.TRACK : Fld := ⟨0x78, 3, 0⟩
abbrev SCE_CLR : Nat := 0x7c
abbrev SCE_CLR.PSL : Fld := ⟨0x7c, 4, 4⟩
abbrev SCE_CLR.ACT : Fld := ⟨0x7c, 3, 3⟩
abbrev SCE_CLR.FIN : Fld := ⟨0x7c, 2, 2⟩
abbrev SCE_CLR.LATE : Fld := ⟨0x7c, 1, 1⟩
abbrev SCE_CLR.OVR : Fld := ⟨0x7c, 0, 0⟩

/-! ### SCU -/
abbrev SCU_CTL : Nat := 0x0
abbrev SCU_CTL.LOCK : Fld := ⟨0x0, 31, 31⟩
abbrev SCU_CTL.DRIVE : Fld := ⟨0x0, 30, 30⟩
abbrev SCU_CTL.AUTORST : Fld := ⟨0x0, 29, 29⟩
abbrev SCU_CTL.CMD : Fld := ⟨0x0, 23, 20⟩
abbrev SCU_CTL.PP : Fld := ⟨0x0, 15, 12⟩
abbrev SCU_CTL.SRC : Fld := ⟨0x0, 11, 10⟩
abbrev SCU_STAT : Nat := 0x4
abbrev SCU_STAT.STATE : Fld := ⟨0x4, 31, 28⟩
abbrev SCU_STAT.ANGLE_OK : Fld := ⟨0x4, 27, 27⟩
abbrev SCU_STAT.CHOP : Fld := ⟨0x4, 26, 26⟩
abbrev SCU_STAT.BRKFB : Fld := ⟨0x4, 25, 25⟩
abbrev SCU_STAT.REC_PEND : Fld := ⟨0x4, 24, 24⟩
abbrev SCU_STAT.TRIES : Fld := ⟨0x4, 19, 16⟩
abbrev SCU_STAT.SPEED : Fld := ⟨0x4, 15, 0⟩
abbrev SCU_PWM : Nat := 0x8
abbrev SCU_PWM.DEAD : Fld := ⟨0x8, 31, 24⟩
abbrev SCU_PWM.MINP : Fld := ⟨0x8, 23, 16⟩
abbrev SCU_PWM.AMAX : Fld := ⟨0x8, 15, 0⟩
abbrev SCU_ADV : Nat := 0xc
abbrev SCU_ADV.ADV0 : Fld := ⟨0xc, 31, 16⟩
abbrev SCU_ADV.ADV1 : Fld := ⟨0xc, 15, 0⟩
abbrev SCU_START : Nat := 0x10
abbrev SCU_START.ALIGN_T : Fld := ⟨0x10, 31, 24⟩
abbrev SCU_START.LR_WIN : Fld := ⟨0x10, 23, 16⟩
abbrev SCU_START.LR_TRIES : Fld := ⟨0x10, 15, 12⟩
abbrev SCU_START.ZC_N : Fld := ⟨0x10, 11, 8⟩
abbrev SCU_START.HANDOFF : Fld := ⟨0x10, 7, 0⟩
abbrev SCU_ILIM : Nat := 0x14
abbrev SCU_ILIM.ALIGN_A : Fld := ⟨0x14, 31, 16⟩
abbrev SCU_ILIM.CATCH_A : Fld := ⟨0x14, 15, 0⟩
abbrev SCU_OBS : Nat := 0x18
abbrev SCU_OBS.LOSANG : Fld := ⟨0x18, 31, 24⟩
abbrev SCU_OBS.LOSN : Fld := ⟨0x18, 23, 20⟩
abbrev SCU_OBS.CHKINT : Fld := ⟨0x18, 19, 16⟩
abbrev SCU_OBS.FLOATW : Fld := ⟨0x18, 15, 8⟩
abbrev SCU_OBS.BAND : Fld := ⟨0x18, 7, 0⟩
abbrev SCU_VM_THR0 : Nat := 0x1c
abbrev SCU_VM_THR0.PF : Fld := ⟨0x1c, 31, 24⟩
abbrev SCU_VM_THR0.REC : Fld := ⟨0x1c, 23, 16⟩
abbrev SCU_VM_THR0.CHOFF : Fld := ⟨0x1c, 15, 8⟩
abbrev SCU_VM_THR0.CHON : Fld := ⟨0x1c, 7, 0⟩
abbrev SCU_VM_THR1 : Nat := 0x20
abbrev SCU_VM_THR1.UNL_SPD : Fld := ⟨0x20, 31, 24⟩
abbrev SCU_VM_THR1.REC_MIN : Fld := ⟨0x20, 23, 16⟩
abbrev SCU_VM_THR1.VOFF : Fld := ⟨0x20, 15, 8⟩
abbrev SCU_VM_THR1.CLAMP : Fld := ⟨0x20, 7, 0⟩
abbrev SCU_VM_NOW : Nat := 0x24
abbrev SCU_VM_NOW.VM : Fld := ⟨0x24, 15, 0⟩
abbrev SCU_CTAB_IDX : Nat := 0x28
abbrev SCU_CTAB_IDX.AUTOINC : Fld := ⟨0x28, 31, 31⟩
abbrev SCU_CTAB_IDX.ENTRY : Fld := ⟨0x28, 9, 0⟩
abbrev SCU_CTAB_DATA : Nat := 0x2c
abbrev SCU_CTAB_DATA.VALUE : Fld := ⟨0x2c, 15, 0⟩
abbrev SCU_ANG_OFS0 : Nat := 0x30
abbrev SCU_ANG_OFS0.OFS : Fld := ⟨0x30, 15, 0⟩
abbrev SCU_ANG_OFS1 : Nat := 0x34
abbrev SCU_ANG_OFS1.OFS : Fld := ⟨0x34, 15, 0⟩
abbrev SCU_ANG_OFS2 : Nat := 0x38
abbrev SCU_ANG_OFS2.OFS : Fld := ⟨0x38, 15, 0⟩
abbrev SCU_ANG_OFS3 : Nat := 0x3c
abbrev SCU_ANG_OFS3.OFS : Fld := ⟨0x3c, 15, 0⟩
abbrev SCU_EVT : Nat := 0x40
abbrev SCU_EVT.VOFF_CUT : Fld := ⟨0x40, 6, 6⟩
abbrev SCU_EVT.ZV_BRAKE : Fld := ⟨0x40, 5, 5⟩
abbrev SCU_EVT.CATCH_FAIL : Fld := ⟨0x40, 4, 4⟩
abbrev SCU_EVT.CATCH_OK : Fld := ⟨0x40, 3, 3⟩
abbrev SCU_EVT.LOS : Fld := ⟨0x40, 2, 2⟩
abbrev SCU_EVT.LOCKED_ROTOR : Fld := ⟨0x40, 1, 1⟩
abbrev SCU_EVT.PF : Fld := ⟨0x40, 0, 0⟩
abbrev SCU_LOS_CNT : Nat := 0x44
abbrev SCU_LOS_CNT.COUNT : Fld := ⟨0x44, 31, 0⟩
abbrev SCU_CATCH_CNT : Nat := 0x48
abbrev SCU_CATCH_CNT.COUNT : Fld := ⟨0x48, 31, 0⟩
abbrev SCU_LATE : Nat := 0x4c
abbrev SCU_LATE.COUNT : Fld := ⟨0x4c, 31, 0⟩
abbrev SCU_CLR : Nat := 0x50
abbrev SCU_CLR.CNT : Fld := ⟨0x50, 0, 0⟩

/-! ### BMC -/
abbrev BMC_CTL : Nat := 0x0
abbrev BMC_CTL.LOCK : Fld := ⟨0x0, 31, 31⟩
abbrev BMC_CTL.PROT_EN : Fld := ⟨0x0, 2, 2⟩
abbrev BMC_CTL.DRZ_EN : Fld := ⟨0x0, 1, 1⟩
abbrev BMC_CTL.EN : Fld := ⟨0x0, 0, 0⟩
abbrev BMC_CFG : Nat := 0x4
abbrev BMC_CFG.DENS : Fld := ⟨0x4, 7, 4⟩
abbrev BMC_CFG.RATE : Fld := ⟨0x4, 3, 0⟩
abbrev BMC_STAT : Nat := 0x8
abbrev BMC_STAT.TRAINED : Fld := ⟨0x8, 31, 31⟩
abbrev BMC_STAT.DEGRADED : Fld := ⟨0x8, 30, 30⟩
abbrev BMC_STAT.FAILCH : Fld := ⟨0x8, 29, 28⟩
abbrev BMC_STAT.REBUILD : Fld := ⟨0x8, 27, 27⟩
abbrev BMC_STAT.STALEQ : Fld := ⟨0x8, 12, 0⟩
abbrev BMC_PROT_BASE : Nat := 0xc
abbrev BMC_PROT_BASE.PAGE : Fld := ⟨0xc, 31, 2⟩
abbrev BMC_PROT_SIZE : Nat := 0x10
abbrev BMC_PROT_SIZE.PAGE : Fld := ⟨0x10, 31, 2⟩
abbrev BMC_DRZ_CTL : Nat := 0x14
abbrev BMC_DRZ_CTL.PASS : Fld := ⟨0x14, 31, 16⟩
abbrev BMC_DRZ_CTL.STALE : Fld := ⟨0x14, 7, 0⟩
abbrev BMC_DRZ_POS : Nat := 0x18
abbrev BMC_DRZ_POS.PAGE : Fld := ⟨0x18, 31, 0⟩
abbrev BMC_ERR_PAGE : Nat := 0x1c
abbrev BMC_ERR_PAGE.PAGE : Fld := ⟨0x1c, 31, 0⟩
abbrev BMC_ERR_INFO : Nat := 0x20
abbrev BMC_ERR_INFO.KIND : Fld := ⟨0x20, 31, 29⟩
abbrev BMC_ERR_INFO.CH : Fld := ⟨0x20, 27, 26⟩
abbrev BMC_ERR_INFO.ROWB : Fld := ⟨0x20, 15, 8⟩
abbrev BMC_ERR_INFO.ROWA : Fld := ⟨0x20, 7, 0⟩
abbrev BMC_CORR : Nat := 0x24
abbrev BMC_CORR.COUNT : Fld := ⟨0x24, 31, 0⟩
abbrev BMC_UNCORR : Nat := 0x28
abbrev BMC_UNCORR.COUNT : Fld := ⟨0x28, 31, 0⟩
abbrev BMC_REBUILT : Nat := 0x2c
abbrev BMC_REBUILT.COUNT : Fld := ⟨0x2c, 31, 0⟩
abbrev BMC_CLR : Nat := 0x30
abbrev BMC_CLR.ERR : Fld := ⟨0x30, 1, 1⟩
abbrev BMC_CLR.CNT : Fld := ⟨0x30, 0, 0⟩

/-! ### MPC -/
abbrev MPC_CTL : Nat := 0x0
abbrev MPC_CTL.LOCK : Fld := ⟨0x0, 31, 31⟩
abbrev MPC_CTL.EN : Fld := ⟨0x0, 0, 0⟩
abbrev MPC_RANGE_BASE : Nat := 0x4
abbrev MPC_RANGE_BASE.LINE : Fld := ⟨0x4, 31, 0⟩
abbrev MPC_RANGE_LEN : Nat := 0x8
abbrev MPC_RANGE_LEN.LINE : Fld := ⟨0x8, 31, 0⟩
abbrev MPC_RANGE_CMD : Nat := 0xc
abbrev MPC_RANGE_CMD.GO : Fld := ⟨0xc, 31, 31⟩
abbrev MPC_RANGE_CMD.OP : Fld := ⟨0xc, 1, 0⟩
abbrev MPC_RANGE_STAT : Nat := 0x10
abbrev MPC_RANGE_STAT.BUSY : Fld := ⟨0x10, 31, 31⟩
abbrev MPC_RANGE_STAT.LOCKED_SKIP : Fld := ⟨0x10, 30, 30⟩
abbrev MPC_RANGE_STAT.ERR : Fld := ⟨0x10, 29, 29⟩
abbrev MPC_RANGE_STAT.SKIPCNT : Fld := ⟨0x10, 23, 0⟩
abbrev MPC_LOCK_LINE : Nat := 0x14
abbrev MPC_LOCK_LINE.LINE : Fld := ⟨0x14, 31, 0⟩
abbrev MPC_LOCK_CMD : Nat := 0x18
abbrev MPC_LOCK_CMD.GO : Fld := ⟨0x18, 31, 31⟩
abbrev MPC_LOCK_CMD.ERR : Fld := ⟨0x18, 30, 30⟩
abbrev MPC_LOCK_CMD.ECODE : Fld := ⟨0x18, 29, 28⟩
abbrev MPC_LOCK_CMD.OP : Fld := ⟨0x18, 1, 0⟩
abbrev MPC_LOCKED : Nat := 0x1c
abbrev MPC_LOCKED.COUNT : Fld := ⟨0x1c, 15, 0⟩
abbrev MPC_HIT : Nat := 0x20
abbrev MPC_HIT.COUNT : Fld := ⟨0x20, 31, 0⟩
abbrev MPC_MISS : Nat := 0x24
abbrev MPC_MISS.COUNT : Fld := ⟨0x24, 31, 0⟩
abbrev MPC_EBHIT : Nat := 0x28
abbrev MPC_EBHIT.COUNT : Fld := ⟨0x28, 31, 0⟩
abbrev MPC_CORR : Nat := 0x2c
abbrev MPC_CORR.COUNT : Fld := ⟨0x2c, 31, 0⟩
abbrev MPC_UNCORR : Nat := 0x30
abbrev MPC_UNCORR.COUNT : Fld := ⟨0x30, 31, 0⟩
abbrev MPC_CLR : Nat := 0x34
abbrev MPC_CLR.CNT : Fld := ⟨0x34, 0, 0⟩

/-! ### DMA -/
abbrev DMA_CTL : Nat := 0x0
abbrev DMA_CTL.LOCK : Fld := ⟨0x0, 31, 31⟩
abbrev DMA_CTL.DN_EN : Fld := ⟨0x0, 1, 1⟩
abbrev DMA_CTL.UP_EN : Fld := ⟨0x0, 0, 0⟩
abbrev DMA_FC : Nat := 0x4
abbrev DMA_FC.WIN1 : Fld := ⟨0x4, 31, 16⟩
abbrev DMA_FC.WIN0 : Fld := ⟨0x4, 15, 0⟩
abbrev DMA_CH_IDX : Nat := 0x8
abbrev DMA_CH_IDX.CH : Fld := ⟨0x8, 5, 0⟩
abbrev DMA_CH_STAT : Nat := 0xc
abbrev DMA_CH_STAT.ACTIVE : Fld := ⟨0xc, 31, 31⟩
abbrev DMA_CH_STAT.SHADOW : Fld := ⟨0xc, 30, 30⟩
abbrev DMA_CH_STAT.STOPPED : Fld := ⟨0xc, 29, 29⟩
abbrev DMA_CH_STAT.ERR : Fld := ⟨0xc, 28, 28⟩
abbrev DMA_CH_STAT.ECODE : Fld := ⟨0xc, 27, 24⟩
abbrev DMA_CH_STAT.REMAIN : Fld := ⟨0xc, 21, 0⟩
abbrev DMA_CH_CMD : Nat := 0x10
abbrev DMA_CH_CMD.LOAD : Fld := ⟨0x10, 31, 31⟩
abbrev DMA_CH_CMD.STOP : Fld := ⟨0x10, 30, 30⟩
abbrev DMA_CH_CMD.CLEAR : Fld := ⟨0x10, 29, 29⟩
abbrev DMA_CH_CMD.IGN : Fld := ⟨0x10, 28, 28⟩
abbrev DMA_DESC0 : Nat := 0x14
abbrev DMA_DESC0.DATA : Fld := ⟨0x14, 31, 0⟩
abbrev DMA_DESC1 : Nat := 0x18
abbrev DMA_DESC1.DATA : Fld := ⟨0x18, 31, 0⟩
abbrev DMA_DESC2 : Nat := 0x1c
abbrev DMA_DESC2.DATA : Fld := ⟨0x1c, 31, 0⟩
abbrev DMA_DESC3 : Nat := 0x20
abbrev DMA_DESC3.DATA : Fld := ⟨0x20, 31, 0⟩
abbrev DMA_DESC4 : Nat := 0x24
abbrev DMA_DESC4.DATA : Fld := ⟨0x24, 31, 0⟩
abbrev DMA_DONE_LO : Nat := 0x28
abbrev DMA_DONE_LO.DONE : Fld := ⟨0x28, 31, 0⟩
abbrev DMA_DONE_HI : Nat := 0x2c
abbrev DMA_DONE_HI.DONE : Fld := ⟨0x2c, 31, 0⟩
abbrev DMA_ORDRD : Nat := 0x30
abbrev DMA_ORDRD.COUNT : Fld := ⟨0x30, 31, 0⟩
abbrev DMA_ERRCNT : Nat := 0x34
abbrev DMA_ERRCNT.COUNT : Fld := ⟨0x34, 31, 0⟩
abbrev DMA_INFL : Nat := 0x38
abbrev DMA_INFL.DN1 : Fld := ⟨0x38, 31, 16⟩
abbrev DMA_INFL.DN0 : Fld := ⟨0x38, 15, 0⟩
abbrev DMA_CLR : Nat := 0x3c
abbrev DMA_CLR.CNT : Fld := ⟨0x3c, 0, 0⟩

/-! ### PCT -/
abbrev PCT_CTL : Nat := 0x0
abbrev PCT_CTL.LOCK : Fld := ⟨0x0, 31, 31⟩
abbrev PCT_CTL.OPTWE : Fld := ⟨0x0, 30, 30⟩
abbrev PCT_CTL.RING_EN : Fld := ⟨0x0, 1, 1⟩
abbrev PCT_CTL.EN : Fld := ⟨0x0, 0, 0⟩
abbrev PCT_STAT : Nat := 0x4
abbrev PCT_STAT.BOD : Fld := ⟨0x4, 31, 31⟩
abbrev PCT_STAT.CBURST : Fld := ⟨0x4, 30, 30⟩
abbrev PCT_STAT.DIEFAIL : Fld := ⟨0x4, 29, 28⟩
abbrev PCT_STAT.SUSP : Fld := ⟨0x4, 27, 26⟩
abbrev PCT_STAT.PBUSY : Fld := ⟨0x4, 7, 0⟩
abbrev PCT_RING_BASE : Nat := 0x8
abbrev PCT_RING_BASE.PAGE : Fld := ⟨0x8, 31, 0⟩
abbrev PCT_RING_TAIL : Nat := 0xc
abbrev PCT_RING_TAIL.IDX : Fld := ⟨0xc, 7, 0⟩
abbrev PCT_RING_HEAD : Nat := 0x10
abbrev PCT_RING_HEAD.IDX : Fld := ⟨0x10, 7, 0⟩
abbrev PCT_WEAR_BASE : Nat := 0x14
abbrev PCT_WEAR_BASE.PAGE : Fld := ⟨0x14, 31, 0⟩
abbrev PCT_CLASS : Nat := 0x18
abbrev PCT_CLASS.BULK_FIRST : Fld := ⟨0x18, 11, 0⟩
abbrev PCT_SUSP : Nat := 0x1c
abbrev PCT_SUSP.SUSPEND : Fld := ⟨0x1c, 31, 31⟩
abbrev PCT_SUSP.RESUME : Fld := ⟨0x1c, 30, 30⟩
abbrev PCT_SUSP.DIE : Fld := ⟨0x1c, 0, 0⟩
abbrev PCT_SUSP_STAT : Nat := 0x20
abbrev PCT_SUSP_STAT.MISSED : Fld := ⟨0x20, 31, 31⟩
abbrev PCT_SUSP_STAT.CNT1 : Fld := ⟨0x20, 23, 16⟩
abbrev PCT_SUSP_STAT.CNT0 : Fld := ⟨0x20, 15, 8⟩
abbrev PCT_ERASED : Nat := 0x24
abbrev PCT_ERASED.PAGES : Fld := ⟨0x24, 31, 0⟩
abbrev PCT_LATE : Nat := 0x28
abbrev PCT_LATE.COUNT : Fld := ⟨0x28, 31, 0⟩
abbrev PCT_NOTERASED : Nat := 0x2c
abbrev PCT_NOTERASED.COUNT : Fld := ⟨0x2c, 31, 0⟩
abbrev PCT_BLANK : Nat := 0x30
abbrev PCT_BLANK.COUNT : Fld := ⟨0x30, 31, 0⟩
abbrev PCT_PFAIL : Nat := 0x34
abbrev PCT_PFAIL.COUNT : Fld := ⟨0x34, 31, 0⟩
abbrev PCT_EFAIL : Nat := 0x38
abbrev PCT_EFAIL.COUNT : Fld := ⟨0x38, 31, 0⟩
abbrev PCT_BODCNT : Nat := 0x3c
abbrev PCT_BODCNT.COUNT : Fld := ⟨0x3c, 31, 0⟩
abbrev PCT_CORR : Nat := 0x40
abbrev PCT_CORR.COUNT : Fld := ⟨0x40, 31, 0⟩
abbrev PCT_UNCORR : Nat := 0x44
abbrev PCT_UNCORR.COUNT : Fld := ⟨0x44, 31, 0⟩
abbrev PCT_CLR : Nat := 0x48
abbrev PCT_CLR.CNT : Fld := ⟨0x48, 0, 0⟩

/-! ### ELG -/
abbrev ELG_CTL : Nat := 0x0
abbrev ELG_CTL.LOCK : Fld := ⟨0x0, 31, 31⟩
abbrev ELG_CTL.PAIR_OK : Fld := ⟨0x0, 1, 1⟩
abbrev ELG_CTL.EN : Fld := ⟨0x0, 0, 0⟩
abbrev ELG_MTR_IDX : Nat := 0x4
abbrev ELG_MTR_IDX.METER : Fld := ⟨0x4, 5, 0⟩
abbrev ELG_MTR_LO : Nat := 0x8
abbrev ELG_MTR_LO.UJ : Fld := ⟨0x8, 31, 0⟩
abbrev ELG_MTR_HI : Nat := 0xc
abbrev ELG_MTR_HI.UJ : Fld := ⟨0xc, 31, 0⟩
abbrev ELG_MTR_PWR : Nat := 0x10
abbrev ELG_MTR_PWR.MW : Fld := ⟨0x10, 31, 0⟩
abbrev ELG_SPEED : Nat := 0x14
abbrev ELG_SPEED.SRC : Fld := ⟨0x14, 31, 30⟩
abbrev ELG_SPEED.SPEED : Fld := ⟨0x14, 15, 0⟩
abbrev ELG_RESERVE : Nat := 0x18
abbrev ELG_RESERVE.MJ : Fld := ⟨0x18, 31, 0⟩
abbrev ELG_DCOST : Nat := 0x1c
abbrev ELG_DCOST.UJ_MIB : Fld := ⟨0x1c, 31, 0⟩
abbrev ELG_DCMEAS : Nat := 0x20
abbrev ELG_DCMEAS.UJ_MIB : Fld := ⟨0x20, 31, 0⟩
abbrev ELG_CEIL : Nat := 0x24
abbrev ELG_CEIL.PAGES : Fld := ⟨0x24, 31, 0⟩
abbrev ELG_CEIL_SOLO : Nat := 0x28
abbrev ELG_CEIL_SOLO.PAGES : Fld := ⟨0x28, 31, 0⟩
abbrev ELG_HOLD : Nat := 0x2c
abbrev ELG_HOLD.PAGES : Fld := ⟨0x2c, 31, 0⟩
abbrev ELG_RSV_CFG : Nat := 0x30
abbrev ELG_RSV_CFG.MARGIN : Fld := ⟨0x30, 15, 8⟩
abbrev ELG_CAP : Nat := 0x34
abbrev ELG_CAP.EN : Fld := ⟨0x34, 31, 31⟩
abbrev ELG_CAP.SRC : Fld := ⟨0x34, 30, 30⟩
abbrev ELG_CAP.PMIN : Fld := ⟨0x34, 27, 20⟩
abbrev ELG_CAP.CAP : Fld := ⟨0x34, 15, 0⟩
abbrev ELG_GOV : Nat := 0x38
abbrev ELG_GOV.PLIM : Fld := ⟨0x38, 31, 16⟩
abbrev ELG_GOV.STEPS : Fld := ⟨0x38, 15, 8⟩
abbrev ELG_GOV.PERMITS : Fld := ⟨0x38, 2, 0⟩
abbrev ELG_VCORE : Nat := 0x3c
abbrev ELG_VCORE.FIX : Fld := ⟨0x3c, 31, 31⟩
abbrev ELG_VCORE.RT : Fld := ⟨0x3c, 28, 28⟩
abbrev ELG_VCORE.NOW : Fld := ⟨0x3c, 25, 16⟩
abbrev ELG_VCORE.TARGET : Fld := ⟨0x3c, 9, 0⟩
abbrev ELG_WT : Nat := 0x40
abbrev ELG_WT.WT : Fld := ⟨0x40, 31, 31⟩
abbrev ELG_WT.REASON : Fld := ⟨0x40, 30, 28⟩
abbrev ELG_WT.PRECAUT : Fld := ⟨0x40, 27, 27⟩
abbrev ELG_WT.STICKY : Fld := ⟨0x40, 26, 26⟩
abbrev ELG_WT.ENTRIES : Fld := ⟨0x40, 15, 0⟩
abbrev ELG_ANCH_IDX : Nat := 0x44
abbrev ELG_ANCH_IDX.IDX : Fld := ⟨0x44, 2, 0⟩
abbrev ELG_ANCH_DATA : Nat := 0x48
abbrev ELG_ANCH_DATA.DATA : Fld := ⟨0x48, 31, 0⟩

/-! ### TMN -/
abbrev TMN_CTL : Nat := 0x0
abbrev TMN_CTL.LOCK : Fld := ⟨0x0, 31, 31⟩
abbrev TMN_CTL.SPER : Fld := ⟨0x0, 23, 16⟩
abbrev TMN_CTL.SEN : Fld := ⟨0x0, 9, 0⟩
abbrev TMN_REQ : Nat := 0x4
abbrev TMN_REQ.GO : Fld := ⟨0x4, 31, 31⟩
abbrev TMN_REQ.SENSOR : Fld := ⟨0x4, 3, 0⟩
abbrev TMN_IDX : Nat := 0x8
abbrev TMN_IDX.SENSOR : Fld := ⟨0x8, 3, 0⟩
abbrev TMN_TEMP : Nat := 0xc
abbrev TMN_TEMP.VALID : Fld := ⟨0xc, 31, 31⟩
abbrev TMN_TEMP.ABSENT : Fld := ⟨0xc, 30, 30⟩
abbrev TMN_TEMP.AGE : Fld := ⟨0xc, 29, 16⟩
abbrev TMN_TEMP.TEMP : Fld := ⟨0xc, 15, 0⟩
abbrev TMN_THR_DIE : Nat := 0x10
abbrev TMN_THR_DIE.WARN : Fld := ⟨0x10, 31, 24⟩
abbrev TMN_THR_DIE.CRIT : Fld := ⟨0x10, 23, 16⟩
abbrev TMN_THR_DIE.ROR : Fld := ⟨0x10, 15, 8⟩
abbrev TMN_THR_DIE.WIN : Fld := ⟨0x10, 7, 0⟩
abbrev TMN_THR_BASE : Nat := 0x14
abbrev TMN_THR_BASE.WARN : Fld := ⟨0x14, 31, 24⟩
abbrev TMN_THR_BASE.CRIT : Fld := ⟨0x14, 23, 16⟩
abbrev TMN_THR_BASE.ROR : Fld := ⟨0x14, 15, 8⟩
abbrev TMN_THR_BASE.WIN : Fld := ⟨0x14, 7, 0⟩
abbrev TMN_STAT : Nat := 0x18
abbrev TMN_STAT.CRIT_S : Fld := ⟨0x18, 25, 24⟩
abbrev TMN_STAT.WARN_S : Fld := ⟨0x18, 23, 22⟩
abbrev TMN_STAT.ROR_S : Fld := ⟨0x18, 21, 20⟩
abbrev TMN_STAT.ACTIVE : Fld := ⟨0x18, 5, 0⟩
abbrev TMN_CONV : Nat := 0x1c
abbrev TMN_CONV.COUNT : Fld := ⟨0x1c, 31, 0⟩
abbrev TMN_CLR : Nat := 0x20
abbrev TMN_CLR.CNT : Fld := ⟨0x20, 0, 0⟩

/-! ### CAL -/
abbrev CAL_CTL : Nat := 0x0
abbrev CAL_CTL.LOCK : Fld := ⟨0x0, 31, 31⟩
abbrev CAL_CTL.EN : Fld := ⟨0x0, 15, 0⟩
abbrev CAL_IDX : Nat := 0x4
abbrev CAL_IDX.ITEM : Fld := ⟨0x4, 3, 0⟩
abbrev CAL_CFG : Nat := 0x8
abbrev CAL_CFG.TEMP : Fld := ⟨0x8, 31, 31⟩
abbrev CAL_CFG.INTERVAL : Fld := ⟨0x8, 23, 0⟩
abbrev CAL_RUN : Nat := 0xc
abbrev CAL_RUN.GO : Fld := ⟨0xc, 31, 31⟩
abbrev CAL_STAT : Nat := 0x10
abbrev CAL_STAT.STATE : Fld := ⟨0x10, 31, 30⟩
abbrev CAL_STAT.DUE : Fld := ⟨0x10, 29, 28⟩
abbrev CAL_STAT.RESULT : Fld := ⟨0x10, 27, 24⟩
abbrev CAL_STAT.FAILS : Fld := ⟨0x10, 15, 0⟩
abbrev CAL_ACCEPT : Nat := 0x14
abbrev CAL_ACCEPT.COUNT : Fld := ⟨0x14, 31, 0⟩
abbrev CAL_REJECT : Nat := 0x18
abbrev CAL_REJECT.COUNT : Fld := ⟨0x18, 31, 0⟩
abbrev CAL_LAST : Nat := 0x1c
abbrev CAL_LAST.COUNT : Fld := ⟨0x1c, 31, 0⟩

/-! ### TDL -/
abbrev TDL_CTL : Nat := 0x0
abbrev TDL_CTL.LOCK : Fld := ⟨0x0, 31, 31⟩
abbrev TDL_CTL.POS : Fld := ⟨0x0, 30, 30⟩
abbrev TDL_CTL.PAIR : Fld := ⟨0x0, 2, 2⟩
abbrev TDL_CTL.SERVE : Fld := ⟨0x0, 1, 1⟩
abbrev TDL_CTL.EN : Fld := ⟨0x0, 0, 0⟩
abbrev TDL_STAT : Nat := 0x4
abbrev TDL_STAT.LINK : Fld := ⟨0x4, 31, 31⟩
abbrev TDL_STAT.HEARD : Fld := ⟨0x4, 30, 30⟩
abbrev TDL_STAT.CLASS : Fld := ⟨0x4, 29, 28⟩
abbrev TDL_STAT.VER : Fld := ⟨0x4, 23, 16⟩
abbrev TDL_STAT.PSERVE : Fld := ⟨0x4, 15, 15⟩
abbrev TDL_STAT.POWNED : Fld := ⟨0x4, 11, 8⟩
abbrev TDL_STAT.OWNED : Fld := ⟨0x4, 3, 0⟩
abbrev TDL_VER : Nat := 0x8
abbrev TDL_VER.PMAXV : Fld := ⟨0x8, 31, 24⟩
abbrev TDL_VER.PMINV : Fld := ⟨0x8, 23, 16⟩
abbrev TDL_VER.MAXV : Fld := ⟨0x8, 15, 8⟩
abbrev TDL_VER.MINV : Fld := ⟨0x8, 7, 0⟩
abbrev TDL_HB : Nat := 0xc
abbrev TDL_HB.TMO : Fld := ⟨0xc, 31, 16⟩
abbrev TDL_HB.CTMO : Fld := ⟨0xc, 15, 0⟩
abbrev TDL_HANDOFF : Nat := 0x10
abbrev TDL_HANDOFF.ARM : Fld := ⟨0x10, 31, 31⟩
abbrev TDL_HANDOFF.DISARM : Fld := ⟨0x10, 30, 30⟩
abbrev TDL_HANDOFF.DONE : Fld := ⟨0x10, 29, 29⟩
abbrev TDL_HANDOFF.ACT : Fld := ⟨0x10, 3, 0⟩
abbrev TDL_MSEQ_TX : Nat := 0x14
abbrev TDL_MSEQ_TX.MSEQ : Fld := ⟨0x14, 31, 0⟩
abbrev TDL_MSEQ_ACK : Nat := 0x18
abbrev TDL_MSEQ_ACK.MSEQ : Fld := ⟨0x18, 31, 0⟩
abbrev TDL_MSEQ_RX : Nat := 0x1c
abbrev TDL_MSEQ_RX.MSEQ : Fld := ⟨0x1c, 31, 0⟩
abbrev TDL_CREDIT : Nat := 0x20
abbrev TDL_CREDIT.CTRL : Fld := ⟨0x20, 20, 16⟩
abbrev TDL_CREDIT.MIRROR : Fld := ⟨0x20, 7, 0⟩
abbrev TDL_REPLAY : Nat := 0x24
abbrev TDL_REPLAY.COUNT : Fld := ⟨0x24, 31, 0⟩
abbrev TDL_LATE : Nat := 0x28
abbrev TDL_LATE.COUNT : Fld := ⟨0x28, 31, 0⟩
abbrev TDL_DUP : Nat := 0x2c
abbrev TDL_DUP.COUNT : Fld := ⟨0x2c, 31, 0⟩
abbrev TDL_DOWN : Nat := 0x30
abbrev TDL_DOWN.COUNT : Fld := ⟨0x30, 31, 0⟩
abbrev TDL_CLR : Nat := 0x34
abbrev TDL_CLR.CNT : Fld := ⟨0x34, 0, 0⟩

/-! ### CLP -/
abbrev CLP_CTL : Nat := 0x0
abbrev CLP_CTL.LOCK : Fld := ⟨0x0, 31, 31⟩
abbrev CLP_CTL.EN : Fld := ⟨0x0, 0, 0⟩
abbrev CLP_STAT : Nat := 0x4
abbrev CLP_STAT.PLCA_OK : Fld := ⟨0x4, 31, 31⟩
abbrev CLP_STAT.KEY : Fld := ⟨0x4, 30, 30⟩
abbrev CLP_STAT.EXHAUST : Fld := ⟨0x4, 29, 29⟩
abbrev CLP_STAT.CONFLICT : Fld := ⟨0x4, 28, 28⟩
abbrev CLP_NODE : Nat := 0x8
abbrev CLP_NODE.GRANTER : Fld := ⟨0x8, 29, 16⟩
abbrev CLP_NODE.NODE : Fld := ⟨0x8, 13, 0⟩
abbrev CLP_PLCA : Nat := 0xc
abbrev CLP_PLCA.ID : Fld := ⟨0xc, 31, 24⟩
abbrev CLP_PLCA.NCNT : Fld := ⟨0xc, 23, 16⟩
abbrev CLP_PLCA.BURST : Fld := ⟨0xc, 15, 8⟩
abbrev CLP_PLCA.TO : Fld := ⟨0xc, 7, 0⟩
abbrev CLP_PORT : Nat := 0x10
abbrev CLP_PORT.PORT : Fld := ⟨0x10, 31, 16⟩
abbrev CLP_PORT.DIALECT : Fld := ⟨0x10, 15, 0⟩
abbrev CLP_DOM : Nat := 0x14
abbrev CLP_DOM.HI : Fld := ⟨0x14, 29, 16⟩
abbrev CLP_DOM.LO : Fld := ⟨0x14, 13, 0⟩
abbrev CLP_MEM_BASE : Nat := 0x18
abbrev CLP_MEM_BASE.PAGE : Fld := ⟨0x18, 31, 0⟩
abbrev CLP_RXQ : Nat := 0x1c
abbrev CLP_RXQ.PROD : Fld := ⟨0x1c, 15, 8⟩
abbrev CLP_RXQ.CONS : Fld := ⟨0x1c, 7, 0⟩
abbrev CLP_TXQ : Nat := 0x20
abbrev CLP_TXQ.NPROD : Fld := ⟨0x20, 29, 24⟩
abbrev CLP_TXQ.NCONS : Fld := ⟨0x20, 21, 16⟩
abbrev CLP_TXQ.APROD : Fld := ⟨0x20, 11, 8⟩
abbrev CLP_TXQ.ACONS : Fld := ⟨0x20, 3, 0⟩
abbrev CLP_TXCNT : Nat := 0x24
abbrev CLP_TXCNT.COUNTER : Fld := ⟨0x24, 31, 0⟩
abbrev CLP_DIAL : Nat := 0x28
abbrev CLP_DIAL.MAXD : Fld := ⟨0x28, 31, 16⟩
abbrev CLP_DIAL.MIND : Fld := ⟨0x28, 15, 0⟩
abbrev CLP_XCHG : Nat := 0x2c
abbrev CLP_XCHG.GO : Fld := ⟨0x2c, 31, 31⟩
abbrev CLP_XCHG.EXPIRED : Fld := ⟨0x2c, 30, 30⟩
abbrev CLP_XCHG.MATCHED : Fld := ⟨0x2c, 29, 29⟩
abbrev CLP_XCHG.SLOT : Fld := ⟨0x2c, 26, 24⟩
abbrev CLP_XCHG.TMO : Fld := ⟨0x2c, 23, 16⟩
abbrev CLP_XCHG.REQID : Fld := ⟨0x2c, 15, 0⟩
abbrev CLP_RX : Nat := 0x30
abbrev CLP_RX.COUNT : Fld := ⟨0x30, 31, 0⟩
abbrev CLP_TX : Nat := 0x34
abbrev CLP_TX.COUNT : Fld := ⟨0x34, 31, 0⟩
abbrev CLP_STRANGER : Nat := 0x38
abbrev CLP_STRANGER.COUNT : Fld := ⟨0x38, 31, 0⟩
abbrev CLP_REPLAY : Nat := 0x3c
abbrev CLP_REPLAY.COUNT : Fld := ⟨0x3c, 31, 0⟩
abbrev CLP_LATE : Nat := 0x40
abbrev CLP_LATE.COUNT : Fld := ⟨0x40, 31, 0⟩
abbrev CLP_COLL : Nat := 0x44
abbrev CLP_COLL.COUNT : Fld := ⟨0x44, 31, 0⟩
abbrev CLP_FALLBACK : Nat := 0x48
abbrev CLP_FALLBACK.COUNT : Fld := ⟨0x48, 31, 0⟩
abbrev CLP_DROP : Nat := 0x4c
abbrev CLP_DROP.COUNT : Fld := ⟨0x4c, 31, 0⟩
abbrev CLP_CLR : Nat := 0x50
abbrev CLP_CLR.CNT : Fld := ⟨0x50, 0, 0⟩

/-! ### EVR -/
abbrev EVR_CTL : Nat := 0x0
abbrev EVR_CTL.LOCK : Fld := ⟨0x0, 31, 31⟩
abbrev EVR_CTL.EN : Fld := ⟨0x0, 0, 0⟩
abbrev EVR_NEXT : Nat := 0x4
abbrev EVR_NEXT.SEQ : Fld := ⟨0x4, 31, 0⟩
abbrev EVR_NEXTH : Nat := 0x8
abbrev EVR_NEXTH.SEQ : Fld := ⟨0x8, 31, 0⟩
abbrev EVR_OLDEST : Nat := 0xc
abbrev EVR_OLDEST.SEQ : Fld := ⟨0xc, 31, 0⟩
abbrev EVR_FLUSH : Nat := 0x10
abbrev EVR_FLUSH.SEQ : Fld := ⟨0x10, 31, 0⟩
abbrev EVR_CUR : Nat := 0x14
abbrev EVR_CUR.SEQ : Fld := ⟨0x14, 31, 0⟩
abbrev EVR_POST : Nat := 0x18
abbrev EVR_POST.GO : Fld := ⟨0x18, 31, 31⟩
abbrev EVR_POST.CLASS : Fld := ⟨0x18, 18, 16⟩
abbrev EVR_POST.ID : Fld := ⟨0x18, 15, 0⟩
abbrev EVR_DETAIL : Nat := 0x1c
abbrev EVR_DETAIL.DETAIL : Fld := ⟨0x1c, 31, 0⟩
abbrev EVR_LIST_IDX : Nat := 0x20
abbrev EVR_LIST_IDX.CLASS : Fld := ⟨0x20, 6, 4⟩
abbrev EVR_LIST_IDX.ENTRY : Fld := ⟨0x20, 3, 0⟩
abbrev EVR_LIST_DATA : Nat := 0x24
abbrev EVR_LIST_DATA.ADDR : Fld := ⟨0x24, 31, 2⟩
abbrev EVR_LIST_DATA.VALID : Fld := ⟨0x24, 0, 0⟩
abbrev EVR_OVWR : Nat := 0x28
abbrev EVR_OVWR.COUNT : Fld := ⟨0x28, 31, 0⟩
abbrev EVR_LOST : Nat := 0x2c
abbrev EVR_LOST.COUNT : Fld := ⟨0x2c, 31, 0⟩
abbrev EVR_CLR : Nat := 0x30
abbrev EVR_CLR.CNT : Fld := ⟨0x30, 0, 0⟩
abbrev EVR_WIN0 : Nat := 0x100
abbrev EVR_WIN0.DATA : Fld := ⟨0x100, 31, 0⟩

/-! ### MCK -/
abbrev MCK_CTL : Nat := 0x0
abbrev MCK_CTL.LOCK : Fld := ⟨0x0, 31, 31⟩
abbrev MCK_CTL.FLTSEV : Fld := ⟨0x0, 5, 4⟩
abbrev MCK_CTL.INTSEV : Fld := ⟨0x0, 1, 0⟩
abbrev MCK_STAT : Nat := 0x4
abbrev MCK_STAT.FLT : Fld := ⟨0x4, 31, 31⟩
abbrev MCK_STAT.FATAL : Fld := ⟨0x4, 30, 30⟩
abbrev MCK_STAT.OVF : Fld := ⟨0x4, 29, 29⟩
abbrev MCK_STAT.MAXSEV : Fld := ⟨0x4, 25, 24⟩
abbrev MCK_STAT.DEPTH : Fld := ⟨0x4, 4, 0⟩
abbrev MCK_SYN0 : Nat := 0x8
abbrev MCK_SYN0.DATA : Fld := ⟨0x8, 31, 0⟩
abbrev MCK_SYN1 : Nat := 0xc
abbrev MCK_SYN1.DATA : Fld := ⟨0xc, 31, 0⟩
abbrev MCK_SYN2 : Nat := 0x10
abbrev MCK_SYN2.DATA : Fld := ⟨0x10, 31, 0⟩
abbrev MCK_SYN3 : Nat := 0x14
abbrev MCK_SYN3.DATA : Fld := ⟨0x14, 31, 0⟩
abbrev MCK_COUNT : Nat := 0x18
abbrev MCK_COUNT.COUNT : Fld := ⟨0x18, 31, 0⟩
abbrev MCK_LOST : Nat := 0x1c
abbrev MCK_LOST.COUNT : Fld := ⟨0x1c, 31, 0⟩
abbrev MCK_CLR : Nat := 0x20
abbrev MCK_CLR.CNT : Fld := ⟨0x20, 0, 0⟩

/-- Write masks of the SYS registers that software can write. -/
def rowsSys : List RegRow :=
  [⟨0x4, 0x0, 0x0, 0x80000000, 0x0⟩, ⟨0x8, 0x0, 0x3fd, 0x0, 0x0⟩, ⟨0xc, 0x2, 0x0, 0x80000000, 0x0⟩,
   ⟨0x10, 0x0, 0x0, 0x1ff, 0x0⟩, ⟨0x28, 0x8000ffff, 0x0, 0x0, 0x0⟩, ⟨0x34, 0x0, 0x0, 0x0, 0xffffffff⟩,
   ⟨0x38, 0x0, 0x0, 0x0, 0xffffffff⟩, ⟨0x3c, 0x0, 0x0, 0x0, 0xffffffff⟩, ⟨0x40, 0x0, 0x0, 0x0, 0x80000000⟩,
   ⟨0x808, 0x8000ffff, 0x0, 0x0, 0x0⟩, ⟨0x80c, 0x0, 0x1, 0x0, 0x0⟩, ⟨0x810, 0x0, 0x1ff, 0x0, 0x0⟩]

/-- The SYS registers whose reset value is not zero. -/
def initSys : List (Nat × Word) :=
  [(0x0, 0x744000b0), (0xc, 0x2), (0x18, 0x1000000),
   (0x28, 0x800003e8), (0x30, 0x3e8), (0x804, 0xffff),
   (0x808, 0x3c0)]

/-- Write masks of the HQE registers that software can write. -/
def rowsHqe : List RegRow :=
  [⟨0x0, 0x1, 0x0, 0x80000000, 0x2⟩, ⟨0x8, 0x0, 0x0, 0x0, 0xffffffff⟩, ⟨0x14, 0xff, 0x0, 0x0, 0x0⟩,
   ⟨0x18, 0xffff, 0x0, 0x0, 0x0⟩]

/-- The HQE registers whose reset value is not zero. -/
def initHqe : List (Nat × Word) :=
  []

/-- Write masks of the PLE registers that software can write. -/
def rowsPle : List RegRow :=
  [⟨0x0, 0x3, 0x0, 0x80000000, 0x0⟩, ⟨0x8, 0x0, 0x0, 0x0, 0xffffffff⟩, ⟨0xc, 0x0, 0x0, 0x0, 0xffffffff⟩,
   ⟨0x14, 0xffffff, 0x0, 0x0, 0x0⟩, ⟨0x18, 0x1f1f, 0x0, 0x0, 0x0⟩, ⟨0x1c, 0x3, 0x0, 0x0, 0x0⟩,
   ⟨0x20, 0x80ffffff, 0x0, 0x0, 0x0⟩, ⟨0x24, 0xffffffff, 0x0, 0x0, 0x0⟩, ⟨0x28, 0xffffffff, 0x0, 0x0, 0x0⟩,
   ⟨0x3c, 0x800003ff, 0x0, 0x0, 0x0⟩, ⟨0x40, 0xffffffff, 0x0, 0x0, 0x0⟩]

/-- The PLE registers whose reset value is not zero. -/
def initPle : List (Nat × Word) :=
  [(0x14, 0x555c61), (0x18, 0xa16), (0x20, 0xa0fa0),
   (0x24, 0x7d00064), (0x28, 0x12c1020), (0x3c, 0x255)]

/-- Write masks of the MC registers that software can write. -/
def rowsMc : List RegRow :=
  [⟨0x100, 0xfff301, 0x0, 0x0, 0x0⟩, ⟨0x108, 0xffffffff, 0x0, 0x0, 0x0⟩, ⟨0x10c, 0x0, 0x80000000, 0x0, 0x0⟩,
   ⟨0x110, 0x117, 0x0, 0x0, 0x0⟩, ⟨0x114, 0xffffffff, 0x0, 0x0, 0x0⟩, ⟨0x118, 0x0, 0x20000000, 0x80000000, 0x0⟩,
   ⟨0x11c, 0xf0107, 0x0, 0x0, 0x0⟩, ⟨0x120, 0x3f003f00, 0x0, 0x0, 0x0⟩, ⟨0x200, 0x8fffffff, 0x0, 0x0, 0x0⟩,
   ⟨0x214, 0xff, 0x0, 0x0, 0x0⟩, ⟨0x300, 0x3, 0x0, 0x0, 0x0⟩, ⟨0x304, 0x0, 0x3f, 0x0, 0x0⟩] ++
  [⟨0x400, 0x0, 0x0, 0x80000000, 0xfff⟩, ⟨0x404, 0xff00ff, 0x0, 0x0, 0x0⟩, ⟨0x408, 0xff00ffff, 0x0, 0x0, 0x0⟩,
   ⟨0x40c, 0x0, 0xb8000000, 0x0, 0x0⟩, ⟨0x410, 0xf0f, 0x0, 0x0, 0x0⟩, ⟨0x414, 0xfff, 0x0, 0x0, 0x0⟩,
   ⟨0x418, 0x3ff03ff, 0x0, 0x0, 0x0⟩, ⟨0x500, 0x8000ff1f, 0x0, 0x0, 0x0⟩, ⟨0x504, 0x407fffff, 0x0, 0x80000000, 0x0⟩,
   ⟨0x50c, 0x0, 0x1f, 0x0, 0x0⟩, ⟨0x514, 0xff, 0x0, 0x0, 0x0⟩, ⟨0x518, 0x807fffff, 0x0, 0x0, 0x0⟩] ++
  [⟨0x600, 0x3f070f0f, 0x0, 0x0, 0x0⟩, ⟨0x640, 0x0, 0x80000000, 0x0, 0x0⟩, ⟨0x800, 0x80ffffff, 0x0, 0x0, 0x0⟩,
   ⟨0x808, 0x0, 0x80000000, 0x0, 0x0⟩, ⟨0x80c, 0x80003f0f, 0x0, 0x0, 0x0⟩, ⟨0x810, 0xffffffff, 0x0, 0x0, 0x0⟩,
   ⟨0x814, 0x3f, 0x0, 0xc0000000, 0x0⟩, ⟨0x818, 0x0, 0xffffffff, 0x0, 0x0⟩, ⟨0x81c, 0x0, 0xffffffff, 0x0, 0x0⟩,
   ⟨0x828, 0x80073fff, 0x0, 0x0, 0x0⟩, ⟨0x82c, 0xffffffff, 0x0, 0x0, 0x0⟩, ⟨0x830, 0x0, 0x0, 0x0, 0xffffffff⟩] ++
  [⟨0x834, 0x11f, 0x0, 0x0, 0x0⟩, ⟨0x838, 0xffffffff, 0x0, 0x0, 0x0⟩]

/-- The MC registers whose reset value is not zero. -/
def initMc : List (Nat × Word) :=
  [(0x100, 0x3c8300), (0x11c, 0x40100), (0x120, 0x30001400),
   (0x200, 0x3022008), (0x214, 0x64), (0x300, 0x3),
   (0x404, 0xc80002), (0x408, 0x50000064), (0x418, 0x3ff0000),
   (0x500, 0x12), (0x600, 0x30020408), (0x800, 0x80a00)]

/-- Write masks of the SCE registers that software can write. -/
def rowsSce : List RegRow :=
  [⟨0x0, 0x1f, 0x0, 0x80000100, 0x0⟩, ⟨0x14, 0x3, 0x0, 0x0, 0x0⟩, ⟨0x18, 0x38f01f00, 0x0, 0x80000000, 0x0⟩,
   ⟨0x1c, 0x1fffff, 0x0, 0x0, 0x0⟩, ⟨0x24, 0xffffffff, 0x0, 0x0, 0x0⟩, ⟨0x34, 0x800007ff, 0x0, 0x0, 0x0⟩,
   ⟨0x38, 0xffffffff, 0x0, 0x0, 0x0⟩, ⟨0x3c, 0x10000, 0x0, 0x1f, 0x0⟩, ⟨0x40, 0x800303ff, 0x0, 0x0, 0x0⟩,
   ⟨0x44, 0xffff, 0x0, 0x0, 0x0⟩, ⟨0x48, 0xf01fffff, 0x0, 0x0, 0x0⟩, ⟨0x4c, 0xf01fffff, 0x0, 0x0, 0x0⟩] ++
  [⟨0x50, 0xf01fffff, 0x0, 0x0, 0x0⟩, ⟨0x54, 0x93ffffff, 0x0, 0x0, 0x0⟩, ⟨0x58, 0xffffffff, 0x0, 0x0, 0x0⟩,
   ⟨0x60, 0xffff, 0x0, 0x0, 0xb0000000⟩, ⟨0x64, 0xff000fff, 0x0, 0x0, 0x0⟩, ⟨0x68, 0x0, 0xf0000000, 0x0, 0x0⟩,
   ⟨0x70, 0x40ffffff, 0x0, 0x80000000, 0x0⟩, ⟨0x78, 0x0, 0xfff, 0x0, 0x0⟩]

/-- The SCE registers whose reset value is not zero. -/
def initSce : List (Nat × Word) :=
  [(0x8, 0x7fff7fff), (0x24, 0x9a665244), (0x54, 0x324145),
   (0x58, 0x70800000), (0x64, 0x1300021c)]

/-- Write masks of the SCU registers that software can write. -/
def rowsScu : List RegRow :=
  [⟨0x0, 0x60000c00, 0x0, 0x80000000, 0xf000⟩, ⟨0x8, 0xffffffff, 0x0, 0x0, 0x0⟩, ⟨0xc, 0xffffffff, 0x0, 0x0, 0x0⟩,
   ⟨0x10, 0xffffffff, 0x0, 0x0, 0x0⟩, ⟨0x14, 0xffffffff, 0x0, 0x0, 0x0⟩, ⟨0x18, 0xffffffff, 0x0, 0x0, 0x0⟩,
   ⟨0x1c, 0xffffffff, 0x0, 0x0, 0x0⟩, ⟨0x20, 0xffffffff, 0x0, 0x0, 0x0⟩, ⟨0x28, 0x800003ff, 0x0, 0x0, 0x0⟩,
   ⟨0x2c, 0xffff, 0x0, 0x0, 0x0⟩, ⟨0x30, 0xffff, 0x0, 0x0, 0x0⟩, ⟨0x34, 0xffff, 0x0, 0x0, 0x0⟩] ++
  [⟨0x38, 0xffff, 0x0, 0x0, 0x0⟩, ⟨0x3c, 0xffff, 0x0, 0x0, 0x0⟩, ⟨0x40, 0x0, 0x7f, 0x0, 0x0⟩]

/-- The SCU registers whose reset value is not zero. -/
def initScu : List (Nat × Word) :=
  [(0x0, 0x20006000), (0x8, 0x140ae000), (0x10, 0x1e323c1e),
   (0x14, 0x20004000), (0x18, 0x15280e0a), (0x1c, 0x666e8084),
   (0x20, 0x370f948c)]

/-- Write masks of the BMC registers that software can write. -/
def rowsBmc : List RegRow :=
  [⟨0x0, 0x3, 0x0, 0x80000000, 0x4⟩, ⟨0x4, 0x0, 0x0, 0x0, 0xff⟩, ⟨0xc, 0x0, 0x0, 0x0, 0xfffffffc⟩,
   ⟨0x10, 0x0, 0x0, 0x0, 0xfffffffc⟩, ⟨0x14, 0xffff00ff, 0x0, 0x0, 0x0⟩]

/-- The BMC registers whose reset value is not zero. -/
def initBmc : List (Nat × Word) :=
  [(0x4, 0x20), (0x14, 0x18000a)]

/-- Write masks of the MPC registers that software can write. -/
def rowsMpc : List RegRow :=
  [⟨0x0, 0x1, 0x0, 0x80000000, 0x0⟩, ⟨0x4, 0xffffffff, 0x0, 0x0, 0x0⟩, ⟨0x8, 0xffffffff, 0x0, 0x0, 0x0⟩,
   ⟨0xc, 0x3, 0x0, 0x80000000, 0x0⟩, ⟨0x10, 0x0, 0x60000000, 0x0, 0x0⟩, ⟨0x14, 0xffffffff, 0x0, 0x0, 0x0⟩,
   ⟨0x18, 0x3, 0x0, 0x80000000, 0x0⟩]

/-- The MPC registers whose reset value is not zero. -/
def initMpc : List (Nat × Word) :=
  []

/-- Write masks of the DMA registers that software can write. -/
def rowsDma : List RegRow :=
  [⟨0x0, 0x3, 0x0, 0x80000000, 0x0⟩, ⟨0x4, 0xffffffff, 0x0, 0x0, 0x0⟩, ⟨0x8, 0x3f, 0x0, 0x0, 0x0⟩,
   ⟨0x10, 0x0, 0x0, 0xe0000000, 0x0⟩, ⟨0x14, 0xffffffff, 0x0, 0x0, 0x0⟩, ⟨0x18, 0xffffffff, 0x0, 0x0, 0x0⟩,
   ⟨0x1c, 0xffffffff, 0x0, 0x0, 0x0⟩, ⟨0x20, 0xffffffff, 0x0, 0x0, 0x0⟩, ⟨0x24, 0xffffffff, 0x0, 0x0, 0x0⟩,
   ⟨0x28, 0x0, 0xffffffff, 0x0, 0x0⟩, ⟨0x2c, 0x0, 0xffffffff, 0x0, 0x0⟩]

/-- The DMA registers whose reset value is not zero. -/
def initDma : List (Nat × Word) :=
  [(0x4, 0x800080)]

/-- Write masks of the PCT registers that software can write. -/
def rowsPct : List RegRow :=
  [⟨0x0, 0x3, 0x0, 0x80000000, 0x40000000⟩, ⟨0x8, 0x0, 0x0, 0x0, 0xffffffff⟩, ⟨0xc, 0xff, 0x0, 0x0, 0x0⟩,
   ⟨0x14, 0x0, 0x0, 0x0, 0xffffffff⟩, ⟨0x18, 0x0, 0x0, 0x0, 0xfff⟩, ⟨0x1c, 0x1, 0x0, 0xc0000000, 0x0⟩,
   ⟨0x20, 0x0, 0x80000000, 0x0, 0x0⟩]

/-- The PCT registers whose reset value is not zero. -/
def initPct : List (Nat × Word) :=
  [(0x18, 0x6c0)]

/-- Write masks of the ELG registers that software can write. -/
def rowsElg : List RegRow :=
  [⟨0x0, 0x3, 0x0, 0x80000000, 0x0⟩, ⟨0x4, 0x3f, 0x0, 0x0, 0x0⟩, ⟨0x30, 0x0, 0x0, 0x0, 0xff00⟩,
   ⟨0x34, 0xcff0ffff, 0x0, 0x0, 0x0⟩, ⟨0x3c, 0x800003ff, 0x0, 0x0, 0x0⟩, ⟨0x40, 0x0, 0x4000000, 0x0, 0x0⟩,
   ⟨0x44, 0x7, 0x0, 0x0, 0x0⟩, ⟨0x48, 0x0, 0x0, 0x0, 0xffffffff⟩]

/-- The ELG registers whose reset value is not zero. -/
def initElg : List (Nat × Word) :=
  [(0x1c, 0x1a90), (0x30, 0x2000), (0x34, 0x2300000),
   (0x3c, 0x320)]

/-- Write masks of the TMN registers that software can write. -/
def rowsTmn : List RegRow :=
  [⟨0x0, 0xff03ff, 0x0, 0x80000000, 0x0⟩, ⟨0x4, 0xf, 0x0, 0x80000000, 0x0⟩, ⟨0x8, 0xf, 0x0, 0x0, 0x0⟩,
   ⟨0x10, 0xffffffff, 0x0, 0x0, 0x0⟩, ⟨0x14, 0xffffffff, 0x0, 0x0, 0x0⟩, ⟨0x18, 0x0, 0x3f00000, 0x0, 0x0⟩]

/-- The TMN registers whose reset value is not zero. -/
def initTmn : List (Nat × Word) :=
  [(0x0, 0x3203ff), (0x10, 0x646e1402), (0x14, 0x3c46050a)]

/-- Write masks of the CAL registers that software can write. -/
def rowsCal : List RegRow :=
  [⟨0x0, 0xffff, 0x0, 0x80000000, 0x0⟩, ⟨0x4, 0xf, 0x0, 0x0, 0x0⟩, ⟨0x8, 0x80ffffff, 0x0, 0x0, 0x0⟩,
   ⟨0xc, 0x0, 0x0, 0x80000000, 0x0⟩]

/-- The CAL registers whose reset value is not zero. -/
def initCal : List (Nat × Word) :=
  []

/-- Write masks of the TDL registers that software can write. -/
def rowsTdl : List RegRow :=
  [⟨0x0, 0x3, 0x0, 0x80000000, 0x40000004⟩, ⟨0x4, 0x30000000, 0x0, 0x0, 0x0⟩, ⟨0x8, 0x0, 0x0, 0x0, 0xffff⟩,
   ⟨0xc, 0xffffffff, 0x0, 0x0, 0x0⟩, ⟨0x10, 0xf, 0x0, 0xc0000000, 0x0⟩]

/-- The TDL registers whose reset value is not zero. -/
def initTdl : List (Nat × Word) :=
  [(0xc, 0x14012c)]

/-- Write masks of the CLP registers that software can write. -/
def rowsClp : List RegRow :=
  [⟨0x0, 0x1, 0x0, 0x80000000, 0x0⟩, ⟨0x4, 0x0, 0x10000000, 0x0, 0x0⟩, ⟨0x8, 0x0, 0x0, 0x0, 0x3fff3fff⟩,
   ⟨0xc, 0x0, 0x0, 0x0, 0xffffffff⟩, ⟨0x10, 0x0, 0x0, 0x0, 0xffffffff⟩, ⟨0x14, 0x0, 0x0, 0x0, 0x3fff3fff⟩,
   ⟨0x18, 0x0, 0x0, 0x0, 0xffffffff⟩, ⟨0x1c, 0xff, 0x0, 0x0, 0x0⟩, ⟨0x20, 0x3f000f00, 0x0, 0x0, 0x0⟩,
   ⟨0x2c, 0x7ffffff, 0x0, 0x80000000, 0x0⟩]

/-- The CLP registers whose reset value is not zero. -/
def initClp : List (Nat × Word) :=
  [(0x8, 0x3fff3fff), (0xc, 0xff080020), (0x14, 0x3ffe0000),
   (0x28, 0x20001)]

/-- Write masks of the EVR registers that software can write. -/
def rowsEvr : List RegRow :=
  [⟨0x0, 0x1, 0x0, 0x80000000, 0x0⟩, ⟨0x10, 0xffffffff, 0x0, 0x0, 0x0⟩, ⟨0x14, 0xffffffff, 0x0, 0x0, 0x0⟩,
   ⟨0x18, 0x7ffff, 0x0, 0x80000000, 0x0⟩, ⟨0x1c, 0xffffffff, 0x0, 0x0, 0x0⟩, ⟨0x20, 0x7f, 0x0, 0x0, 0x0⟩,
   ⟨0x24, 0x0, 0x0, 0x0, 0xfffffffd⟩]

/-- The EVR registers whose reset value is not zero. -/
def initEvr : List (Nat × Word) :=
  []

/-- Write masks of the MCK registers that software can write. -/
def rowsMck : List RegRow :=
  [⟨0x0, 0x33, 0x0, 0x80000000, 0x0⟩, ⟨0x4, 0x0, 0xa0000000, 0x0, 0x0⟩]

/-- The MCK registers whose reset value is not zero. -/
def initMck : List (Nat × Word) :=
  [(0x0, 0x21)]

end Sys2Proof.Machine
end

