-- ==== Sys2Proof/Machine/Bits.lean ====
section
/-! DEFINITION. Bit fields of a word, tables in canonical form, and the register file of a unit. -/

namespace Sys2Proof.Machine

/-! ### Fields of a word -/

/-- The value of bits [hi:lo] of a word. -/
def wordField (w : Word) (hi lo : Nat) : Nat := (w.toNat >>> lo) % 2 ^ (hi + 1 - lo)

/-- The word with bits [hi:lo] replaced by the low bits of v. -/
def wordSetField (w : Word) (hi lo v : Nat) : Word :=
  let n := 2 ^ (hi + 1 - lo)
  BitVec.ofNat 32 (w.toNat % 2 ^ lo + (v % n) * 2 ^ lo + (w.toNat >>> (hi + 1)) * 2 ^ (hi + 1))

/-- Bit i of a word. -/
def wordBit (w : Word) (i : Nat) : Bool := w.toNat.testBit i

/-- One bit as a number. -/
def b2n (b : Bool) : Nat := if b then 1 else 0

/-- Count up by n and hold at the top. -/
def satAdd (top x n : Nat) : Nat := min top (x + n)

/-- A k-bit pattern read as a signed number. -/
def sext (k x : Nat) : Int := if x < 2 ^ (k - 1) then (x : Int) else (x : Int) - (2 ^ k : Nat)

/-- A signed number as the k-bit pattern that holds it, wrapping. -/
def toBits (k : Nat) (x : Int) : Nat := (x % (2 ^ k : Nat)).toNat

/-- A signed number held within k bits, saturating at the two ends. -/
def satInt (k : Nat) (x : Int) : Int :=
  max (-(2 ^ (k - 1) : Nat)) (min ((2 ^ (k - 1) : Nat) - 1) x)

/-! ### Tables: keys strictly rising, no entry equal to what an unlisted key reads as -/

/-- What the table holds at a key; d is what an unlisted key reads as. -/
def tget {α : Type} (d : α) : List (Nat × α) → Nat → α
  | [], _ => d
  | (j, v) :: r, k => if k = j then v else tget d r k

/-- Enter v at key k. Entering d removes the entry, so that equal tables are equal data. -/
def tput {α : Type} [DecidableEq α] (d : α) : List (Nat × α) → Nat → α → List (Nat × α)
  | [], k, v => if v = d then [] else [(k, v)]
  | (j, x) :: r, k, v =>
    if k < j then (if v = d then (j, x) :: r else (k, v) :: (j, x) :: r)
    else if k = j then (if v = d then r else (k, v) :: r)
    else (j, x) :: tput d r k v

/-- The canonical form of a table. -/
def twf {α : Type} [DecidableEq α] (d : α) : List (Nat × α) → Bool
  | [] => true
  | (j, x) :: r => decide (x ≠ d) && r.all (fun e => decide (j < e.1)) && twf d r

/-- Empty the keys lo to hi (hi left out). -/
def tdrop {α : Type} (t : List (Nat × α)) (lo hi : Nat) : List (Nat × α) :=
  t.filter (fun e => !(decide (lo ≤ e.1) && decide (e.1 < hi)))

/-! ### The register file of a unit -/

/-- A register of a unit, by its offset. -/
def rd (t : List (Nat × Word)) (off : Nat) : Word := tget 0 t off

/-- Replace a register. -/
def wr (t : List (Nat × Word)) (off : Nat) (w : Word) : List (Nat × Word) := tput 0 t off w

/-- A field of a register. -/
def rdF (t : List (Nat × Word)) (f : Fld) : Nat := wordField (rd t f.off) f.hi f.lo

/-- A field of one bit, or whether a wider field is nonzero. -/
def rdB (t : List (Nat × Word)) (f : Fld) : Bool := decide (rdF t f ≠ 0)

/-- Replace a field of a register. -/
def wrF (t : List (Nat × Word)) (f : Fld) (v : Nat) : List (Nat × Word) :=
  wr t f.off (wordSetField (rd t f.off) f.hi f.lo v)

/-- Replace a field of one bit. -/
def wrB (t : List (Nat × Word)) (f : Fld) (b : Bool) : List (Nat × Word) := wrF t f (b2n b)

/-- The largest value of a field. -/
def fldTop (f : Fld) : Nat := 2 ^ (f.hi + 1 - f.lo) - 1

/-- Count a field up by n, holding at its top. -/
def incF (t : List (Nat × Word)) (f : Fld) (n : Nat) : List (Nat × Word) := wrF t f (satAdd (fldTop f) (rdF t f) n)

/-- Count a field up by n, wrapping. -/
def wrapF (t : List (Nat × Word)) (f : Fld) (n : Nat) : List (Nat × Word) := wrF t f (rdF t f + n)

/-- Count a register up by n, holding at all ones. -/
def incR (t : List (Nat × Word)) (off n : Nat) : List (Nat × Word) :=
  wr t off (BitVec.ofNat 32 (satAdd 0xFFFFFFFF (rd t off).toNat n))

/-- The row of the write masks for an offset; an offset with no row changes nothing when written. -/
def rowOf : List RegRow → Nat → RegRow
  | [], off => ⟨off, 0, 0, 0, 0⟩
  | r :: rs, off => if r.off = off then r else rowOf rs off

/-- A write by the access codes alone (R7): RW bits take the value, RWL bits too unless the unit is locked, W1C bits
clear and W1S bits set where the value is 1; every other bit stays (R10). -/
def maskWrite (row : RegRow) (locked : Bool) (old v : Word) : Word :=
  let m := if locked then row.rw else row.rw ||| row.rwl
  let kept := (old &&& ~~~m) ||| (v &&& m)
  (kept &&& ~~~(v &&& row.w1c)) ||| (v &&& row.w1s)

/-- A stored feature value, or its default where none was ever set: a value of 0 that was set counts as set. -/
def featGet (d : Word) (l : List (Nat × Option Word)) (k : Nat) : Word := (tget none l k).getD d
def featPut (k : Nat) (v : Word) (l : List (Nat × Option Word)) : List (Nat × Option Word) := tput none l k (some v)

end Sys2Proof.Machine
end

