-- ==== Sys2Proof/Machine/TypesSys.lean ====
section
/-! DEFINITION. The state of SYS, of the Event Recorder and of the machine check unit, the pins that no other unit owns,
and the verdicts that a boot takes from outside (spec/14, spec/15, spec/16). -/

namespace Sys2Proof.Machine

/-- The two orderable parts (R2). -/
inductive Part where
  | dhk7440
  | dhk7420
  deriving DecidableEq, Repr

/-- Which dump is in progress: none, the reset dump of R450, or the Cloudburst of R296. -/
inductive DumpKind where
  | none
  | reset
  | cloudburst
  deriving DecidableEq, Repr

/-- Where the device stands between reset and service: `running`, or `held` (a reset has taken effect and no boot has run,
RESET_N low or a skipped dump, R450), or `unpowered` (POR asserted, R474). -/
inductive Phase where
  | running
  | held
  | unpowered
  deriving DecidableEq, Repr

/-- The instructions of the IEEE 1149.1 port (R463). -/
inductive TapInstr where
  | bypass
  | idcode
  | samplePreload
  | extest
  | clamp
  | highz
  | devrst
  | csracc
  deriving DecidableEq, Repr

/-- The TAP: the instruction in force, the last data register value shifted out and the preloaded boundary cells. -/
structure Tap where
  instr : TapInstr
  dr : Word
  boundary : List Bool
  deriving DecidableEq, Repr

/-- The supply and board signals that no unit chapter owns: VIN in mV, the arming of its monitor (R474), the levels of
PWRGOOD, RESET_N and PFAIL_N, the memory power outputs of R477, and whether the signal balls are driven at all (R470).
`uart` holds the boot stage numbers sent since the last T0 (R455). -/
structure Pins where
  vin : Nat
  vinArmed : Bool
  pwrgood : Bool
  resetLow : Bool
  pfailLow : Bool
  ddrPwrEn : Bool
  ddrResetN : Bool
  driven : Bool
  uart : List Nat
  deriving DecidableEq, Repr

/-- SYS: its registers, the 25 MHz timebase in microseconds, the SYS_OPTSEC that a read of SYS_OPTIME latched, where the device
stands, the dump in progress, the interrupts sent to the cores, what the last CSR read returned, the timebase when the stored
operating time held, the TAP, and whether the watchdog's expiry has won and its device reset is under way (R12). -/
structure Sys where
  csr : List (Nat × Word)
  us : Nat
  optSecLatch : Word
  phase : Phase
  dump : DumpKind
  coreIrqs : Nat
  rdata : Word
  optBase : Nat
  tap : Tap
  wdogOut : Bool
  deriving DecidableEq, Repr

/-- A post waiting in the EVR's queue: class, ID, detail, the clock at its trigger, and a syndrome for class 1 (R487). -/
structure EvrPost where
  cls : Nat
  id : Nat
  detail : Word
  pwrcyc : Word
  hours : Word
  sec : Nat
  syn : List Word
  deriving DecidableEq, Repr

/-- The EVR: its registers, the snapshot lists by 16 × class + entry, the posting queue (16 posts), the ring by slot, each
slot as its 32 dwords, and the FLAGS bit that replayed records carry. -/
structure Evr where
  csr : List (Nat × Word)
  lists : List (Nat × Word)
  posts : List EvrPost
  ring : List (Nat × List Word)
  deriving DecidableEq, Repr

/-- The MCK: its registers and the syndrome FIFO, oldest first, each syndrome as its four dwords (R495). -/
structure Mck where
  csr : List (Nat × Word)
  fifo : List (List Word)
  deriving DecidableEq, Repr

end Sys2Proof.Machine
end

