-- ==== Sys2Proof/Machine/TypesClp.lean ====
section
/-! DEFINITION. The state of the Carillon Port and the messages that its rows carry (spec/13). -/

namespace Sys2Proof.Machine

/-- What every received datagram carries besides its TYPE and body: whether its frame was whole at the PHY (R425), its
IPv6 addresses, UDP ports and checksum (R427), the header's fields (R428), body bytes beyond the fields this device
knows (R432), the 16 tag bytes, and its receive time in µs. -/
structure ClpHdr where
  phyOk : Bool
  src : Nat
  dst : Nat
  sport : Nat
  dport : Nat
  cksum : Nat
  ver : Nat
  scope : Nat
  hops : Nat
  node : Nat
  dialect : Nat
  counter : Nat
  length : Nat
  more : List Nat
  tag : List Nat
  us : Nat
  deriving DecidableEq, Repr

/-- The body of a POWER_GRANT but for OP, which the row fixes (R433). -/
structure PowerMsg where
  pos : Nat
  domain : Nat
  subject : Nat
  reqid : Nat
  watts : Nat
  dur : Nat
  deriving DecidableEq, Repr

/-- The body of a SEEK_SLOT (R437). -/
structure SeekSlotMsg where
  sled : Nat
  period : Nat
  len : Nat
  offset : Nat
  nodes : List Nat
  deriving DecidableEq, Repr

/-- The body of a PHASE (R440). -/
structure PhaseMsg where
  sled : Nat
  speed : Nat
  offset : Nat
  rev : Nat
  deriving DecidableEq, Repr

/-- The body of a HEARTBEAT (R441). -/
structure ClpBeat where
  flags : Nat
  partner : Nat
  sled : Nat
  domain : Nat
  fw : Nat
  deriving DecidableEq, Repr

/-- The body of a DIALECT (R432). -/
structure DialectMsg where
  low : Nat
  high : Nat
  current : Nat
  product : Nat
  fw : Nat
  deriving DecidableEq, Repr

/-- The body of a TOCSIN (R442). -/
structure TocsinMsg where
  subject : Nat
  code : Nat
  sev : Nat
  event : Nat
  detail : Nat
  deriving DecidableEq, Repr

/-- An exchange slot (CLP_XCHG): its timer armed, expired or matched, the timeout in 100 ms and the REQID awaited. -/
structure Xchg where
  go : Bool
  expired : Bool
  matched : Bool
  tmo : Nat
  reqid : Nat
  deriving DecidableEq, Repr

/-- The requester of R435: its REQID, how many REQUESTs it has sent, since when it is queued (µs), whether its timer has run
out so that the REQUEST is to be repeated, and whether its start was granted. -/
inductive SpinReq where
  | idle
  | wait (reqid sends : Nat) (due : Bool)
  | queued (reqid since : Nat) (due : Bool)
  | backoff
  | spinning (reqid : Nat) (granted : Bool)
  deriving DecidableEq, Repr

/-- An entry of a granter's ledger (R434): `time` is when a queued request was last heard, or when a grant ends, in µs. -/
structure GrantEnt where
  subject : Nat
  reqid : Nat
  watts : Nat
  dur : Nat
  time : Nat
  deriving DecidableEq, Repr

/-- A node heard in the sled table (R437): its number, its sled and when it was heard, in µs. -/
structure Member where
  node : Nat
  sled : Nat
  us : Nat
  deriving DecidableEq, Repr

/-- A TOCSIN event of this device and the copies still to send. -/
structure TocsinOut where
  msg : TocsinMsg
  left : Nat
  deriving DecidableEq, Repr

/-- The CLP: registers; the exchange slots; the requester and its next REQID; a granter's queue, active grants and restart
wait; the sled table, whether this device is sled master and which master it follows since when, and its slot and the size
of the table that it follows; when the pair partner's
HEARTBEAT was last heard, its flags, and this device's YIELD and SOLO; the TOCSIN events sent and seen; what DIALECT told of
each node; when the last stranger was recorded, in µs; the UDP datagram last sent; the Neighbor Solicitations answered; when this
device, as sled master, last sent its table, in µs; and the domain key, which no path can read (R423). -/
structure Clp where
  csr : List (Nat × Word)
  xchg : List (Nat × Option Xchg)
  req : SpinReq
  nextReq : Nat
  queue : List GrantEnt
  active : List GrantEnt
  restartWait : Bool
  members : List Member
  master : Bool
  follow : Option (Nat × Nat)
  place : Option (Nat × Nat)
  pairBeat : Option Nat
  pairFlags : Nat
  yield_ : Bool
  solo : Bool
  tocsins : List TocsinOut
  nextEvent : Nat
  seen : List (Nat × Nat)
  dialects : List (Nat × Option DialectMsg)
  strangerAt : Option Nat
  sent : List Nat
  answered : Nat
  slotSent : Option Nat
  key : List Nat
  deriving DecidableEq, Repr

end Sys2Proof.Machine
end

