-- ==== Sys2Proof/Machine/TypesMc.lean ====
section
/-! DEFINITION. The state of a Media Channel: format and recovery, read and write channel, Assist Controller, Head
Interface and Media Sequencer (spec/02, spec/03, spec/04), and what the media events carry in. -/

namespace Sys2Proof.Machine

/-- Four of a kind: the Media Channels, the actuators, the DRAM channels. -/
structure Quad (α : Type) where
  m0 : α
  m1 : α
  m2 : α
  m3 : α
  deriving DecidableEq, Repr

/-- A sector as a slot holds it: bytes 0 to 4,103 as one number (byte c in bits 8c to 8c + 7), the tag seed it was
written with (R47), its sync mark (R43), and whether its resume fields were written (R90). Its 37,024 bits follow from these:
`sectorBits`. -/
structure MediaSector where
  data : Nat
  seed : Nat
  pat : Nat
  resume : Bool
  deriving DecidableEq, Repr

/-- A slot that has never been written, or whose last write was cut (R506): no seed of a job matches it. -/
abbrev MediaSector.blank : MediaSector := ⟨0, 2 ^ 64, 0, false⟩

/-- What the write path sends on WD for one slot: the slot's 37,024 bits, first bit first, and the delay of each bit's transition
in 1/64 bit (R89, R42). -/
structure WdSector where
  slot : Nat
  bits : List Bool
  delays : List Nat
  deriving DecidableEq, Repr

/-- Where the gain and offset loops of the readers stand (R74): at initial values, tracking a codeword, or held in a footprint. -/
inductive LoopPhase where
  | initial
  | tracking
  | held
  deriving DecidableEq, Repr

/-- The gain and offset loops of the two readers (R74): their phase, gain codes, and offset codes. -/
structure AfeLoop where
  phase : LoopPhase
  vgaA : Nat
  vgaB : Nat
  ofsA : Int
  ofsB : Int
  deriving DecidableEq, Repr

/-- The synthesiser (R85, R86, R88): the beats of a wedge interval in force, those that a ZONE APPLY in free run left
for the lock, the loop's integrator and its last correction in 1/2^20 beat, and the beats counted since reset. -/
structure Syn where
  beats : Nat
  next : Option Nat
  integ : Int
  corr : Int
  pos : Nat
  deriving DecidableEq, Repr

/-- The state of an assist element (R93). -/
inductive AssistElem where
  | off
  | bias
  | write
  deriving DecidableEq, Repr

/-- A Head Interface frame: read or write, preamp register, data (R101), and the level index that an ASC frame puts in
force (R93). -/
structure HifFrame where
  read : Bool
  addr : Nat
  data : Nat
  level : Nat
  deriving DecidableEq, Repr

/-- The three sources of frames, in the arbiter's priority (R104). -/
inductive FrameSrc where
  | asc
  | msq
  | firmware
  deriving DecidableEq, Repr

/-- A frame in progress: its source, and the repeats it has had. -/
structure HifBusy where
  src : FrameSrc
  frame : HifFrame
  repeats : Nat
  deriving DecidableEq, Repr

/-- The bits that the preamp drives at the end of a frame (R101): the status nibble of a write frame, or the data and the CRC of a
read frame. -/
inductive HifResp where
  | status (n : Nat)
  | data (d crc : Nat)
  deriving DecidableEq, Repr

/-- What holds the sample buffer (R60, R123): a search or an RDECODE in progress, or nothing any more but the samples. -/
inductive BufUse where
  | timed
  | realign
  | rdecode
  | heldOnly
  deriving DecidableEq, Repr

/-- The frozen sample buffer: its sector's slot and BP, its use, a SYNC RELEASE waiting for the search's end, and the
outcome code (R118) that the sector has if what runs on the buffer fails: 4, 5, or 8 for a TA-affected sector;
`erased` are the bits whose LLRs a thermal asperity set to zero (R75). -/
structure SampleBuf where
  slot : Nat
  bp : Nat
  use : BufUse
  release : Bool
  failCode : Nat
  erased : List Nat
  deriving DecidableEq, Repr

/-- The report of a sector in the job's sector status (R75, R84): its outcome code (R118), whether the codeword converged, the
iterations used and bits corrected, and whether it is TA-affected. -/
structure SectorStat where
  slot : Nat
  outcome : Nat
  conv : Bool
  iter : Nat
  corr : Nat
  ta : Bool
  deriving DecidableEq, Repr

/-- A sector queued for writing: its slot, its bytes 0 to 4,103, and whether it is parity of the open Stripe. -/
structure QSector where
  slot : Nat
  data : Nat
  parity : Bool
  deriving DecidableEq, Repr

/-- The Stripe open for writing (R55): data and parity slots, data taken, parity queued, and a
CLOSE that waits for the parity still due. -/
structure OpenStripe where
  dataSlots : List Nat
  paritySlots : List Nat
  taken : List Nat
  queued : Nat
  closing : Bool
  deriving DecidableEq, Repr

/-- The Stripe being collected for a solve (R57): its slots, those that read well and those that are erasures. -/
structure Collection where
  dataSlots : List Nat
  paritySlots : List Nat
  good : List Nat
  erased : List Nat
  solving : Bool
  deriving DecidableEq, Repr

/-- The MSQ timer: stopped or never started, running, or expired and not stopped since (R119). -/
inductive MsqTimer where
  | off
  | running
  | expired
  deriving DecidableEq, Repr

/-- Where a running job stands: it executes words, it holds in a WAIT word, it holds in a HALT for the pad's end (R109),
or it runs the vendor routine of a published entry (R125), whose words the spec does not print. -/
inductive MsqMode where
  | words
  | waiting
  | haltPad
  | vendor (entry : Nat)
  deriving DecidableEq, Repr

/-- The step of a vendor routine (R125, R134): the first streaming pass, a re-read pass, the rebuild; a read-back; and
of a write, the assist edge to come, the slot's start to come, or the writing. -/
inductive VendorStep where
  | firstPass
  | reread
  | rebuild
  | readBack
  | lead
  | rise
  | writing
  deriving DecidableEq, Repr

/-- The running job: the MSQ state of R121 and what R126 reports of it. -/
structure Job where
  entry : Nat
  pc : Nat
  -- the address of the last word executed (R126)
  lastPc : Nat
  mode : MsqMode
  stack : List Nat
  sp : Nat
  bp : Nat
  markSp : Nat
  markBp : Nat
  ctrA : Nat
  ctrB : Nat
  disp : Nat
  status : Nat
  gr0 : Nat
  gr1 : Nat
  evtd : Nat
  srvofs : Nat
  flags : Nat
  timer : MsqTimer
  expired : Bool
  knob : Nat
  commit : Bool
  autoOff : Bool
  need : List Nat
  ordered : List (Nat × Nat)
  pendingDec : List Nat
  outcome : Nat
  window : Option Nat
  syncFound : Bool
  syncMiss : Bool
  failedOnce : List Nat
  writeQ : List QSector
  writing : Option Nat
  stripe : Option OpenStripe
  collect : List Collection
  erasures : List Nat
  stripeOk : Bool
  traceAll : Bool
  cancel : Bool
  rgate : Bool
  wgate : Bool
  agate : Bool
  done : Nat
  rebuilt : Nat
  recov : Nat
  fails : Nat
  revs : Nat
  evtLost : Bool
  -- the report of each sector (R84), and the data beats of the track that had passed at the last word
  sectors : List SectorStat
  passed : Nat
  -- slots whose sync windows have found their mark, or closed without one, and that have not been ordered again
  found : List Nat
  closed : List Nat
  -- a vendor routine (R125, R134): its step, the STATUS it has settled on, and the budget and knob sets left of the ladder
  vstep : VendorStep
  vstatus : Nat
  vbudget : Nat
  vsets : List Nat
  deriving DecidableEq, Repr

/-- One Media Channel. `wg`, `ag`, `own` are the pin levels, `hfltLow` the level of HFLT_N; tables are keyed as their
index registers key them. -/
structure Mc where
  csr : List (Nat × Word)
  wg : Bool
  ag : Bool
  own : Bool
  ownRelease : Bool
  hfltLow : Bool
  serialZ : Bool
  -- WG held low in a footprint (R90), WD at its idle state (R98), and the last sector that WD carried whole
  wgHold : Bool
  wdIdle : Bool
  wd : Option WdSector
  markSeen : Bool
  relock : Nat
  wedge : Nat
  syn : Syn
  -- read path (R74, R81, R82, R133): loops, FIR taps, decoder of the next sector, decodes begun
  loop : AfeLoop
  taps : List Nat
  decNext : Bool
  decoding : List (Nat × Bool)
  -- ADC masks (R79), key ADC * 16 + BANK * 8 + WORD; the masks being applied (R80); measured thresholds in 1/1,000 LSB
  adcMask : List (Nat × Word)
  adcTarget : List (Nat × Word)
  adcThr : List (Nat × Option Int)
  -- assist (R92 to R97): level table by 16 * head + level, then per head
  ascLevel : List (Nat × Nat)
  ascAge : List (Nat × Word)
  onTimeUs : List (Nat × Nat)
  rises : List (Nat × Nat)
  agHist : List (Nat × Nat × Nat)
  dutyHold : List Nat
  elem : AssistElem
  level : Nat
  bias : Nat
  leadEnded : Bool
  -- the bit of the track at which AG rose, where a word or a routine placed the edge (R109, R111)
  agAt : Option Nat
  agWait : Bool
  -- Head Interface
  preload : List (Nat × Word)
  ascQ : List HifFrame
  msqQ : List HifFrame
  fwQ : Option HifFrame
  busy : Option HifBusy
  lastBits : Nat
  -- zone shadow and the zone in force, eight descriptor dwords and eight analog dwords
  shadow : Option (List Word × List Word)
  zone : List Word
  sbuf : Option SampleBuf
  lastData : Nat
  -- Media Sequencer
  store : List (Nat × Nat)
  staged : List (Nat × Word)
  readLatch : Nat
  vendorLoaded : Bool
  knobs : List (Nat × Word)
  jt : List (Nat × Word)
  armed : List Nat
  holds : List (Nat × Nat)
  loadHold : Bool
  disablePending : Bool
  job : Option Job
  events : List (Word × Word)
  evtLatch : Option (Word × Word)
  trace : List Word
  coreReports : Nat
  deriving DecidableEq, Repr

/-- What a microword samples from outside the MSQ in its beat: where the head is on the track (the wedge interval and
the beat in it), revolutions passed since the last word, how long AG has been high where it rose at an acknowledgement
(R94), and whether a DRAM read of a reload is uncorrectable. -/
structure MsqIn where
  wedge : Nat
  beat : Nat
  revs : Nat
  leadNs : Nat
  imgBad : Bool
  deriving DecidableEq, Repr

/-- What a decoder is given of a codeword and makes of it (R82): the bit positions in which its input's hard decisions differ
from the codeword, and the first iteration that leaves a zero syndrome, if one does. -/
structure Reading where
  errs : List Nat
  zeroAt : Option Nat
  deriving DecidableEq, Repr

/-- A run of samples of a codeword on either reader: the bit it begins at, its length, and the magnitude that all of
it reaches (R75). -/
structure SampleRun where
  start : Nat
  len : Nat
  mag : Nat
  deriving DecidableEq, Repr

/-- A slot's signal as it comes to a decoder: its runs of large samples (R75), and the reading that each detector mode
gives (R81). -/
structure DecodeIn where
  slot : Nat
  runs : List SampleRun
  byMode : Quad Reading
  deriving DecidableEq, Repr

/-- What a wedge mark brings: the wedge's number, the mark's distance from beat 0 in 1/256 beat, and the level of HFLT_N. -/
structure WedgeIn where
  wedge : Nat
  perr : Int
  hfltLow : Bool
  deriving DecidableEq, Repr

/-- A microprogram image: its bytes (R135). -/
structure GrlnImage where
  bytes : List Nat
  deriving DecidableEq, Repr

end Sys2Proof.Machine
end

