-- ==== Sys2Proof/Machine/TypesServo.lean ====
section
/-! DEFINITION. The state of the Servo Control Engine, of the Power Stage Link and of the Spindle Control Unit, and the
operands of their rows (spec/05). -/

namespace Sys2Proof.Machine

/-- Where a loop's computation stands (R146): none, in progress before its deadline, or in progress after it. -/
inductive LoopRun where
  | idle
  | busy
  | late
  deriving DecidableEq, Repr

/-- A zone of a head as the SCE last copied it: its base and the descriptor fields of R149. -/
structure ZoneCopy where
  base : Int
  first : Nat
  last : Nat
  pitch : Nat
  deriving DecidableEq, Repr

/-- The two commands of an actuator frame. -/
structure ActOut where
  vcm : Int
  ma : Int
  deriving DecidableEq, Repr

/-- One actuator loop. `state` is coded as SCE_ACT_STAT codes it (R155). `cmd`, `trk` and `lim` are its SCE_ACT_CMD,
SCE_ACT_TRK and SCE_ACT_LIM. `secs` holds the two states of each of the sixteen sections of R158, in address order.
`pushUntil` is the time, in µs, at which the full outward current of a timed-out unload ends (R161); `parked` is
SCE_STAT.PARKED, which outlives the loop's enable; `seekDist` is the distance in servo tracks of the SEEK that runs,
of which R383 takes the profile. -/
structure Act where
  state : Nat
  cmd : Word
  trk : Word
  lim : Word
  head : Nat
  target : Int
  srvofs : Int
  srvPending : Option Nat
  readerOfs : Int
  x0 : Int
  x1 : Int
  x2 : Int
  seeded : Bool
  secs : List (Int × Int)
  pref : Int
  vref : Int
  aref : Int
  braking : Bool
  onTrack : Bool
  pesHigh : Bool
  miss : Bool
  inhTrack : Bool
  ccnt : Nat
  setCnt : Nat
  plaus : Nat
  lostCnt : Nat
  seekRun : Option Nat
  seekt : Nat
  seekDist : Option Nat
  coast : Word
  rej : Word
  stopping : Bool
  run : LoopRun
  out : ActOut
  lastOut : ActOut
  applied : ActOut
  claim : Bool
  parkedSense : Bool
  bemf : Int
  imeas : Int
  wedgeBad : Bool
  failSeen : Bool
  failWedges : Nat
  pushUntil : Option Nat
  parked : Bool
  deriving DecidableEq, Repr

/-- What waits for a PSL frame slot: a loop's commands, or the register access that SCE_PSL_CMD queued. -/
inductive PslReq where
  | act (ch : Nat) (out : ActOut)
  | reg (isRead : Bool) (addr data : Nat)
  deriving DecidableEq, Repr

/-- A frame whose reply is outstanding: what it carried, its CLAIM and its SEQ, the retries left, and whether a fault of
the island's CBP has failed the transfer (R15). -/
structure PslOut where
  req : PslReq
  claim : Bool
  seq : Nat
  retries : Nat
  cut : Bool
  deriving DecidableEq, Repr

/-- A reply of the power stage as R165 lays it out. -/
structure PslReply where
  status : Nat
  ch : Nat
  parked : Bool
  otw : Bool
  bemf : Int
  imeas : Nat
  seq : Nat
  deriving DecidableEq, Repr

/-- The spindle loop of the SCE (R162, R163): section states, phase integral, output, the SPSYNC bookkeeping, the
revolutions counted at wedge 0 of the reference MC (R440), and the phase last measured, in 1/65,536 turn. -/
structure SpnLoop where
  secs : List (Int × Int)
  integ : Int
  run : LoopRun
  out : Int
  lastOut : Int
  sync : Bool
  syncSpeed : Nat
  goodRun : Nat
  badRun : Nat
  rev : Nat
  phase : Int
  deriving DecidableEq, Repr

/-- The SCE. Coefficients and table entries are keyed by loop × 256 + physical bank × 128 + address and by
slot × 1024 + entry; a coefficient is kept as its difference, by exclusive or, from its reset value. `bankSel` names each
loop's active physical bank; `zcopy` is keyed by (MC × 16 + head) × 32 + zone. `wedgeSpeed` is the speed by the wedge period last
measured on any Media Channel, 0 before one has been measured (R38). -/
structure Sce where
  csr : List (Nat × Word)
  acts : Quad Act
  coefs : List (Nat × Word)
  bankSel : List (Nat × Nat)
  tbl : List (Nat × Nat)
  zcopy : List (Nat × Option ZoneCopy)
  spn : SpnLoop
  wedgeSpeed : Nat
  pslQ : List PslReq
  pslOut : List PslOut
  pslSeq : Nat
  pslFrame : Nat
  deriving DecidableEq, Repr

/-- What the six gates do: all off, sinusoidal PWM, a stationary vector, all low sides on, or synchronous rectification. -/
inductive Gates where
  | off
  | vector
  | pwm
  | lowSides
  | rectify
  deriving DecidableEq, Repr

/-- One phase of the bridge over one half-period, in counts of 10 ns (R168, R170): the count its node is meant to be
high, the level at the end, how long its high and its low switch conduct once dead time is taken off, and whether it
is floated. -/
structure Leg where
  duty : Nat
  high : Bool
  hiOn : Nat
  loOn : Nat
  floated : Bool
  deriving DecidableEq, Repr

/-- The SCU. The commutation table is kept as the difference, by exclusive or, from its reset contents. `legs` are the phases A, B
and C. `obsFrac` is what `obsAngle` has turned beyond its last whole unit, in 1/24,000,000.
`turns` counts electrical turns towards the next check float, and `check` says that this turn holds one (R170). `rampN`
counts the half-periods of RAMP and `rampAcc` sums their forced speeds (R172). `pinsZ`: the six gate pins and BRK_G are in high
impedance (R178). -/
structure Scu where
  csr : List (Nat × Word)
  ctab : List (Nat × Nat)
  gates : Gates
  amp : Int
  brakeAmp : Int
  legs : List Leg
  half : Bool
  angle : Nat
  obsAngle : Nat
  obsFrac : Nat
  obsSpeed : Nat
  wedgeSrc : Bool
  losRun : Nat
  agree : Nat
  zcRun : Nat
  anyCross : Bool
  obsValid : Bool
  bandSeen : Bool
  ampLim : Nat
  rectCmd : Bool
  lockedWait : Bool
  brakeHold : Bool
  inhibit : Bool
  turns : Nat
  check : Bool
  rampN : Nat
  rampAcc : Nat
  pinsZ : Bool
  deriving DecidableEq, Repr

/-- A wedge's sample: the position in units of 1/1,024 servo track, the wedge number and the beat, the measured speed in
0.25 rpm, the measured phase of wedge 0 after SPSYNC in 1/65,536 turn, and the ATEST converter's code. -/
structure SampleIn where
  pos : Int
  wedge : Nat
  beat : Nat
  speed : Nat
  phase : Int
  atest : Nat
  deriving DecidableEq, Repr

/-- A PWM half-period's inputs: VM in mV, BRK_FB, the wedge angle as wedge and beat, and the speed by the wedges. -/
structure PwmIn where
  vm : Nat
  brkFb : Bool
  wedge : Nat
  beat : Nat
  speed : Nat
  deriving DecidableEq, Repr

/-- A zero crossing of a phase against BEMF_CT: the phase and the crossing's direction, the observer's angle as it comes, in
1/65,536 electrical turn, the observer's angle and speed after it, and the reference MC's wedge and beat. -/
structure CrossIn where
  phase : Fin 3
  rising : Bool
  pred : Nat
  angle : Nat
  speed : Nat
  wedge : Nat
  beat : Nat
  deriving DecidableEq, Repr

end Sys2Proof.Machine
end

