-- ==== Sys2Proof/Machine/TypesHost.lean ====
section
/-! DEFINITION. The state of the Placement Engine, of the Host Queue Engine and of what survives a reset in the Persistence
Array, and the operands of their rows (spec/06, spec/07, spec/08, spec/10). -/

namespace Sys2Proof.Machine

/-! ### Placement (spec/06) -/

/-- A Band Table entry, field by field (R183); VALID is counted from the map itself. `wp` follows the jobs that ended well, `next`
is the first data offset that no job has been entered for, and `holes` are the offsets below `next` whose sectors are fill
(R56). `skips` names the retired tracks that the band's plan passes over since its last reset (R69). OPENREF is counted from what
refers to the band; `snap` marks a MAP band of the snapshot that is being written (R218). -/
structure Band where
  st : Nat
  use : Nat
  p : Nat
  gen : Nat
  role : Nat
  cls : Nat
  mc : Nat
  head : Nat
  zone : Nat
  first : Nat
  dcap : Nat
  wp : Nat
  next : Nat
  holes : List Nat
  peer : Nat
  skips : List Nat
  lastw : Nat
  resets : Nat
  snap : Bool
  deriving DecidableEq, Repr

/-- A written plan as recorded with the PLE (R53): a Stripe of a conventional track, its data and its parity slots,
and its rewrite generation (R47). A reset of its staging band ends it (`live`); its generation is kept for the next
plan of its slots. -/
structure StripeRec where
  mc : Nat
  head : Nat
  track : Nat
  data : List Nat
  par : List Nat
  gen : Nat
  live : Bool
  deriving DecidableEq, Repr

/-- An extent record (R186). An unlisted record is not VALID. -/
structure Extent where
  nsx : Nat
  slba : Nat
  len : Nat
  paddr : Nat
  cls : Nat
  ecnt : Nat
  echo : Nat
  stg : Bool
  ovr : Bool
  anchor : Bool
  deriving DecidableEq, Repr

/-- An Echo Table entry (R188): its two addresses, the two copy states (0 empty, 1 copying, 2 live) and the pin count. A live copy
that is marked for drop (R209, Dropping) has its mark beside the entry: the table's own state 3 is reserved. -/
structure EchoEnt where
  addr0 : Nat
  addr1 : Nat
  st0 : Nat
  st1 : Nat
  pins : Nat
  drop0 : Bool
  drop1 : Bool
  deriving DecidableEq, Repr

/-- A namespace zone: its state as the Zoned Namespace command set codes it (1 empty, 2 implicitly open, 3 explicitly
open, 4 closed, 13 read only, 14 full, 15 offline), the write pointer counted from the zone's first LBA, its binding with
the GEN of each band, and whether overrides cover some of it (R192, R193, R196). -/
structure Zone where
  st : Nat
  wp : Nat
  bands : List Nat
  gens : List Nat
  ovr : Bool
  deriving DecidableEq, Repr

/-- A namespace (R182, R189, R263). `key` numbers its media key; 0 for a namespace that is not encrypted. -/
structure Ns where
  nsid : Nat
  nsx : Nat
  zoned : Bool
  cls : Nat
  key : Nat
  lbaf : Nat
  mset : Nat
  nsze : Nat
  active : Nat
  formatting : Bool
  deriving DecidableEq, Repr

/-- A defect entry of the PDL or the GDL (R64). -/
structure Defect where
  kind : Nat
  mc : Nat
  head : Nat
  track : Nat
  slot : Nat
  run : Nat
  reason : Nat
  deriving DecidableEq, Repr

/-- The Band Map as journaled: everything that replay restores (R182 to R188, R217). LBAs are keyed NSX × 2^36 + LBA,
zones NSX × 2^20 + zone; a namespace index from 1,024 on is a pool of compaction (R213): its zones are groups of bands
that take copied data. `plans` are the recorded written plans (R53); `outHeads` the heads out of new placement, as MC
× 16 + head (R65). `dram` names the LBAs that a record places in DRAM, `lost` the ranges marked lost (R299), `temps`
the ranges of Access Frequency given, newest first, as (key of the first LBA, length, value), `parity` the sums of P1
rows whose parity unit is not yet on media, by `parityKey` (they follow from the rows' data, so they are kept where it
is). -/
structure MapImage where
  nss : List Ns
  extents : List Extent
  zones : List (Nat × Option Zone)
  bands : List (Nat × Option Band)
  echoes : List (Nat × Option EchoEnt)
  dram : List Nat
  lost : List Nat
  pdl : List Defect
  gdl : List Defect
  temps : List (Nat × Nat × Nat)
  parity : List (Nat × Nat)
  epoch : Nat
  plans : List StripeRec
  outHeads : List Nat
  deriving DecidableEq, Repr

/-- One change of the map, as a journal record and the mirror carry it (R217, R401): namespaces, extents, zones and
their write pointers, bands, written plans, echo copies set and dropped, ranges of keys placed in DRAM or clean again,
defects, heads out of placement, temperatures, the format epoch, and a snapshot's mark. -/
inductive MapOp where
  | addNs (n : Ns)
  | delNs (n : Ns)
  | trim (nsx lo n : Nat)
  | extent (e : Extent)
  | zone (key : Nat) (z : Option Zone)
  | zoneWp (key wp : Nat)
  | band (n : Nat) (b : Option Band)
  | plan (r : StripeRec)
  | echo (n : Nat) (e : Option EchoEnt)
  | echoSet (n copy addr : Nat)
  | echoDrop (n copy : Nat)
  | dram (lo n : Nat)
  | clean (keys : List Nat)
  | defect (d : Defect)
  | headOut (h : Nat)
  | temp (key len v : Nat)
  | epoch (n : Nat)
  | snap (num seq : Nat)
  deriving DecidableEq, Repr

/-- What a media candidate is for. A `destage` writes one Stripe of a band, for a write-through command's slot if one
is named; a `close` closes the Stripe that a failed `destage` left open from its n-th data sector on (R56); a
`copyWrite` writes a Stripe of relocated sectors whose sources it names (R212); a `copyRead` reads for a pool of
compaction or for a relocation; an `echoRead` reads the home of an echo copy, an `echoWrite` writes a Stripe of it; a
`moveRead` reads sectors of a band that is moved to another one; a `sysWrite` writes a journal unit up to a SEQ to a
system-area head, a `snapWrite` a Stripe of a snapshot's media copy, and a `dirWrite` the snapshot directory (R36,
R218, R405). -/
inductive CandKind where
  | hostRead (slot : Nat)
  | verify (slot : Nat)
  | destage (band : Nat) (wt : Option Nat)
  | close (band n : Nat) (wt : Option Nat)
  | copyRead (pool : Bool)
  | copyWrite (band : Nat) (srcs : List Nat)
  | rebuildRead (src : Nat)
  | moveRead (old : Nat)
  | echoRead (echo copy : Nat)
  | echoWrite (echo copy band : Nat) (last : Bool)
  | sysWrite (last : Nat)
  | snapWrite (band : Nat)
  | dirWrite (num : Nat)
  | runSeq (slot : Nat)
  | dropped
  | remote (tag : Nat)
  deriving DecidableEq, Repr

/-- A candidate (R220, R221): class 0 urgent, 1 host, 2 background; when it was born, in ms; the packed physical
address of its first sector; the LBA keys of its sectors and, for a write, their data; the claim group it shares, 0
for none; the candidates it waits for; its estimated job time in µs; the echo copy it reads, as 2 × index + copy + 1,
or 0; its slot of the ready set once it has one (R220, R222). -/
structure Cand where
  id : Nat
  cls : Nat
  born : Nat
  write : Bool
  kind : CandKind
  addr : Nat
  keys : List Nat
  data : List Nat
  claim : Nat
  deps : List Nat
  est : Nat
  echo : Nat
  rslot : Nat
  deriving DecidableEq, Repr

/-- The scheduler of one MC (R220 to R227): pending list, ready set, armed candidates by Job Table entry, and
counters; `claimTot` and `maxwTot` run from power-on for log C3h (R228), and `hostAt` is when a host candidate last
stood here, in ms (R213). -/
structure Sched where
  waiting : List Cand
  ready : List Cand
  armed : List (Nat × Cand)
  ended : List (Nat × Nat)
  decisions : Nat
  both : Nat
  rank1 : Nat
  rank2 : Nat
  longSeeks : Nat
  longPen : Nat
  inLong : Bool
  echoReads : Nat
  moved : Nat
  maxw : Word
  duepk : Word
  claimLost : Word
  claimTot : Nat
  maxwTot : Nat
  hostAt : Nat
  deriving DecidableEq, Repr

/-- One entry of log C3h's recent bindings (R228). -/
structure Binding where
  band : Nat
  nsid : Nat
  slba : Nat
  tier : Nat
  reason : Nat
  acts : Nat
  cls : Nat
  time : Nat
  deriving DecidableEq, Repr

/-- A sector that is being rebuilt from the other copies of its data (R201, R202): the address that was lost, the key under
which it moves, the XOR of what was read so far, the reads that are out, and the band and data offset that wait for it, if a band
is being rebuilt. -/
structure Rebuild where
  src : Nat
  key : Nat
  acc : Nat
  left : Nat
  dst : Option (Nat × Nat)
  deriving DecidableEq, Repr

/-- A band whose content is being put onto another one: a DEGRADED band that is rebuilt (R202), or a band of a zone that is moved
(R197), named by its key. `need` are the data offsets to copy, `got` the sectors at hand and not yet written. -/
structure Remake where
  old : Nat
  new : Nat
  zone : Option Nat
  need : List Nat
  got : List (Nat × Nat)
  deriving DecidableEq, Repr

/-- A run of writes of one namespace index and stream (R198): where it ends, and its length in sectors. -/
structure SeqRun where
  ends : Nat
  len : Nat
  deriving DecidableEq, Repr

/-- A change of the map as the journal holds it (R217): the SEQ of its first record, the slot of the command it is of
(65,536: none), the changes, and the records that carry them, 64 bytes each. -/
structure JRange where
  first : Nat
  slot : Nat
  ops : List MapOp
  recs : List (List Nat)
  deriving DecidableEq, Repr

/-- A complete snapshot (R218): its number, the SEQ that its mark covers, and the map that each of its copies holds. -/
structure Snap where
  num : Nat
  seq : Nat
  map : MapImage
  deriving DecidableEq, Repr

/-- A snapshot that is being written: what it holds, the media writes that are out, and those of the directory, which
follow (R218). -/
structure SnapJob where
  snap : Snap
  left : Nat
  dir : Nat
  deriving DecidableEq, Repr

/-- A sector that compaction has copied and not yet written: its key in its pool, the key of its LBA, its source, and
the rank of the trigger that copied it (R212, R213). -/
structure Ghost where
  pk : Nat
  key : Nat
  src : Nat
  cls : Nat
  deriving DecidableEq, Repr

/-- An echo copy that is being made (R209): its index and number, its band and first data offset, the LBA keys in their order, the
sectors of home that were read, by their place in that order, and how many are on their way to the band. -/
structure EchoJob where
  idx : Nat
  copy : Nat
  band : Nat
  base : Nat
  keys : List Nat
  got : List (Nat × Nat)
  sent : Nat
  deriving DecidableEq, Repr

/-- The PLE: its registers, the map, dirty data by LBA key, the keys a precautionary dump holds (R289), heat by chunk,
the claim groups already taken, the journal's last SEQ, how far it is on both system-area heads, the last SEQ of each
unit of its ring there and where the next one goes, the changes of its buffer that are not yet there, the unit that is
being written as (last SEQ, writes out); the snapshots' last number, SEQ and time, and the one under way; the streams'
last actuators and open bands and the runs of writes, each by NSX × 65536 + stream; the keys whose write continued a
run of SEQMIN, with their stream plus 1, and the keys that a stream wrote, with that stream plus 1; compaction's
copied sectors by pool key, and what each is; the copies whose map change waits to be committed as (key, source,
destination); where merging stands (R215); the Staging Buffer pages of an armed job by MC × 64 + entry, or of a read
sent to the partner by 256 + its tag, as first page and count; the slots to relocate with their reasons, those that
wait for their band to be written (R70), the addresses whose data could not be relocated yet (R67), and by slot the
sectors that are to be written through again once a staging band has room; the echo copies that are being made; the
deep recoveries as (address, time in seconds), and the zone resets that wait as (NSX, zone, fetch number). -/
structure Ple where
  csr : List (Nat × Word)
  map : MapImage
  dirty : List (Nat × Option Nat)
  persisted : List Nat
  sched : Quad Sched
  heat : List (Nat × Nat)
  claims : List Nat
  nextId : Nat
  jseq : Nat
  jflushed : Nat
  jring : List Nat
  jpos : Nat
  jbuf : List JRange
  jout : Option (Nat × Nat)
  snapNum : Nat
  snapSeq : Nat
  snapAt : Nat
  snapping : Option SnapJob
  mapst : Nat
  binds : List Binding
  streams : List (Nat × Nat)
  streamBand : List (Nat × Nat)
  runs : List (Nat × Option SeqRun)
  seqs : List (Nat × Nat)
  streamKeys : List (Nat × Nat)
  pool : List (Nat × Option Nat)
  ghosts : List Ghost
  copies : List (List (Nat × Nat × Nat))
  mergeAt : Nat
  pages : List (Nat × (Nat × Nat))
  rebuilds : List Rebuild
  remakes : List Remake
  relocs : List (Nat × Nat)
  lateDefects : List Nat
  relocWait : List Nat
  restages : List (Nat × List (Nat × Nat))
  echoJobs : List EchoJob
  deep : List (Nat × Nat)
  resets : List (Nat × Nat × Nat)
  echoSusp : Bool
  deriving DecidableEq, Repr

/-- A destage that firmware enters, with its estimated job time in µs: the next whole Stripe of a band (R194), or keys
of dirty data for a Stripe of its own (R198). -/
inductive DestageReq where
  | stripe (band est : Nat)
  | loose (keys : List Nat) (est : Nat)
  deriving DecidableEq, Repr

/-- A zone that firmware moves to other bands (R197). -/
structure MoveReq where
  nsx : Nat
  zone : Nat
  bands : List Nat
  deriving DecidableEq, Repr

/-- A scheduler decision's inputs: new destages and zone moves, and for the Track Job that firmware builds the Job Table entry,
where in buffer memory its parameter block stands (address ÷ 8), and its start wedge. -/
structure SchedIn where
  destages : List DestageReq
  moves : List MoveReq
  entry : Nat
  at_ : Nat
  start : Nat
  deriving DecidableEq, Repr

/-! ### Host queues (spec/07) -/

/-- A submission queue: size in entries, the head the HQE holds, the tail, its CQ and class; the slot of a pending Delete. -/
structure Sq where
  size : Nat
  head : Nat
  tail : Nat
  cqid : Nat
  prio : Nat
  deleting : Option Nat
  deriving DecidableEq, Repr

/-- A completion queue: size, the host's head, the tail of committed entries, the phase tag of the next one, and its
interrupt vector. -/
structure Cq where
  size : Nat
  head : Nat
  tail : Nat
  phase : Bool
  ien : Bool
  iv : Nat
  deriving DecidableEq, Repr

/-- An abort filter entry (R258): target, the SQ's tail as it stood, and the Abort's slot. -/
structure AbortFilt where
  sqid : Nat
  cid : Nat
  tail : Nat
  slot : Nat
  deriving DecidableEq, Repr

/-- A completion of an Asynchronous Event Request that is due (R248, R256): the request's identifier, its status and
dword, the slot of the Abort that waits for it (65,536: none), and its place in the order of completions. -/
structure AerEnd where
  cid : Nat
  status : Nat
  dw0 : Word
  slot : Nat
  cnum : Nat
  deriving DecidableEq, Repr

/-- An entry of the Error Information log (R262): its number, the command, its status, LBA and namespace. -/
structure ErrEntry where
  num : Nat
  sqid : Nat
  cid : Nat
  status : Nat
  lba : Nat
  nsid : Nat
  deriving DecidableEq, Repr

/-- What SMART counts besides (R262): 512-byte units and commands read and written by the host, Cloudbursts, sectors
that no copy gave, and errors logged. -/
structure Usage where
  unitsR : Nat
  unitsW : Nat
  cmdsR : Nat
  cmdsW : Nat
  cuts : Nat
  media : Nat
  errs : Nat
  deriving DecidableEq, Repr

/-- An entry of log C1h (R300). -/
structure C1Entry where
  cntlid : Nat
  sqid : Nat
  cid : Nat
  opc : Nat
  disp : Nat
  nsid : Nat
  slba : Nat
  nlb : Nat
  assigned : Option Nat
  deriving DecidableEq, Repr

/-- One function: CC, CSTS bits, queues (QID 0 the admin pair), the CIDs of held Asynchronous Event Requests,
completions of requests that are due, queued events, abort filter, features by FID, granted queues, regular-class
credits and round-robin positions, I/O slot cap, attached namespaces, postings that wait for a coalesced interrupt and
interrupts sent, both by vector, changed namespaces not yet read in log 04h, namespaces with Streams enabled, whether
it has created an I/O queue (R237), on a PF whether VF Enable is set (R291), the newest 64 errors, newest first, and a
controller reset under way with its kind for log C1h and the entries found so far by fetch order. -/
structure Fn where
  cc : Word
  rdy : Bool
  cfs : Bool
  sqs : List (Nat × Option Sq)
  cqs : List (Nat × Option Cq)
  aers : List Nat
  ends : List AerEnd
  events : List Word
  filters : List AbortFilt
  feats : List (Nat × Option Word)
  credH : Nat
  credM : Nat
  credL : Nat
  rr : List (Nat × Nat)
  cap : Nat
  nss : List Nat
  coal : List (Nat × Nat)
  ints : List (Nat × Nat)
  changed : List Nat
  streams : List Nat
  made : Bool
  vfEnable : Bool
  errs : List ErrEntry
  resetting : Bool
  resetKind : Nat
  disp : List (Nat × C1Entry)
  deriving DecidableEq, Repr

/-- Where a command stands in its slot: fetched and checked, executing, with its completion ready, or committed. -/
inductive SlotSt where
  | fetched
  | active
  | done
  | committed
  deriving DecidableEq, Repr

/-- Where one sector of a read comes from: its data, a place on media, the units of a P1 row still being gathered in
place of the sector at `src` (R201), zeros where the LBA is deallocated, or nowhere. -/
inductive ReadPart where
  | data (v : Nat)
  | zeros
  | media (addr : Nat)
  | xored (acc left src : Nat)
  | fails
  deriving DecidableEq, Repr

/-- One range of Dataset Management: its first LBA, its length and its Access Frequency. -/
structure DsmRange where
  slba : Nat
  len : Nat
  af : Nat
  deriving DecidableEq, Repr

/-- A command in its slot: the function, queue and identifier, the entry's sixteen dwords, its fetch number, its status and
completion dwords, and what has happened to it so far. `pnr` is the point of no return (R255); `mseq` the mirror record it
waits for; `jseq` the journal SEQ of its map change; `held` why a write waits: 1 for admission, 2 for map space; `target` the
slot that an Abort or a Delete waits for, plus 1; `cnum` the order in which completions became ready; `phase` the phase
tag of the position committed; `retried` whether
a read of its data pointer was repeated. -/
structure Slot where
  fn : Nat
  sqid : Nat
  cid : Nat
  dw : List Word
  order : Nat
  born : Nat
  st : SlotSt
  status : Nat
  dw0 : Word
  dw1 : Word
  data : List Nat
  parts : List (Nat × ReadPart)
  waits : Nat
  inDram : Bool
  journaled : Bool
  reserved : Bool
  onMedia : Bool
  held : Nat
  pnr : Bool
  jseq : Nat
  mseq : Nat
  assigned : Nat
  target : Nat
  cnum : Nat
  phase : Bool
  ranges : List DsmRange
  retried : Bool
  deriving DecidableEq, Repr

/-- A CSR unlock (R272). -/
structure Unlock where
  fn : Nat
  scope : Nat
  ends : Nat
  deriving DecidableEq, Repr

/-- The sanitize in progress or last made (R267, R268): state 0 never, 1 done, 2 running, 3 failed. -/
structure Sanitize where
  st : Nat
  act : Nat
  pass : Nat
  passes : Nat
  band : Nat
  pat : Word
  invert : Bool
  ause : Bool
  deriving DecidableEq, Repr

/-- An event of log C1h, with the header fields of R300. -/
structure C1Event where
  num : Nat
  kind : Nat
  flags : Nat
  cntlid : Nat
  time : Nat
  pwrcyc : Nat
  info : Nat
  entries : List C1Entry
  deriving DecidableEq, Repr

/-- The HQE: registers, functions, slots, fetches issued and not yet answered as (function, SQ, repeated), the
arbiter's last functions per class, the fetch counter, the completion counter, the nonce and unlock, the firmware
activation in progress by its slot with whether it has drained, the sanitize, the last completion entry committed,
device-wide features in force, whether I/O is served, and SMART's critical warning; the Microprogram Load images that
wait, by slot; and the namespaces attached to the partner's controllers, as (CNTLID, NSID). `qctx` are the queue
contexts in the context cache (R238), each as (function × 2048 + QID) × 2, and 1 more for a completion queue. -/
structure Hqe where
  csr : List (Nat × Word)
  fns : List (Nat × Option Fn)
  slots : List (Nat × Option Slot)
  fetching : List (Nat × Nat × Bool)
  rrAdmin : Nat
  rrUrgent : Nat
  rrReg : Nat
  order : Nat
  commits : Nat
  nonce : Option (Nat × Nat × Nat)
  unlock : Option Unlock
  activating : Option (Nat × Bool)
  san : Sanitize
  lastCqe : List Word
  feats : List (Nat × Option Word)
  ioReady : Bool
  smart : Nat
  images : List (Nat × Option GrlnImage)
  peers : List (Nat × Nat)
  qctx : List Nat
  deriving DecidableEq, Repr

/-- A command's identity as a SLOT record carries it (R400). -/
structure SlotRec where
  slot : Nat
  cntlid : Nat
  sqid : Nat
  cid : Nat
  opc : Nat
  nsid : Nat
  slba : Nat
  nlb : Nat
  deriving DecidableEq, Repr

/-- A partner's command as its mirror records tell it (R402, R411): its SLOT record, the sectors of its DATA records that its
journal has not yet covered, how many sectors it has had, how many it needs, whether its final journal record and its
COMMIT_DONE have come, and the LBA that a Zone Append was assigned. -/
structure PartnerCmd where
  rec_ : SlotRec
  data : List (Nat × Nat)
  dataSeen : Nat
  dataNeed : Nat
  journaled : Bool
  committed : Bool
  assigned : Option Nat
  deriving DecidableEq, Repr

/-- A Cloudburst or reset dump in the PSA (R297, R298): whether its completion marker was written, and what the marker
tells, the dump's first and last sequence numbers and its page count; the journal tail, the dirty data that no
precautionary dump holds, the slot records with their dispositions, the partner's mirrored data by key and its
commands, and the recorder tail; and for log C1h whether write-through was in force at the event, with its power-cycle
count and operating time (R300). -/
structure Dump where
  marker : Bool
  seqs : Nat × Nat
  pages : Nat
  journal : List JRange
  dirty : List (Nat × Option Nat)
  slots : List C1Entry
  held : List (Nat × Nat)
  cmds : List PartnerCmd
  tail : List (List Word)
  wt : Bool
  pwrcyc : Nat
  time : Nat
  deriving DecidableEq, Repr

/-- What the Records region of the PSA holds besides the frontier table, as far as the model tells one record from the
next: the newest log C1h event, the saved features, the firmware slots, the retired blocks and the sanitize. -/
structure Records where
  event : Nat
  feats : List (Nat × Option Word)
  fw : Nat × Nat
  retired : List Nat
  san : Sanitize
  deriving DecidableEq, Repr

/-- The saved frontier table (R343): the power-cycle count, every block's U and F, and the records that stood when it
was saved. -/
structure Frontier where
  tag : Nat
  table : List (Nat × Nat)
  records : Records
  deriving DecidableEq, Repr

/-- The content of a brown-out item (R336, R345): the namespaces' keys, a sanitize's progress, log C1h, the saved
features, the active and the next firmware slot, the retired-block list, Carillon's replay table, an image slot, and
the customer microcode of a Media Channel. -/
inductive RecordVal where
  | keys (l : List (Nat × Nat))
  | sanitize (z : Sanitize)
  | logC1 (l : List C1Event)
  | features (l : List (Nat × Option Word))
  | slots (active next : Nat)
  | retired (l : List Nat)
  | replay (t : List (Nat × Byte))
  | image (n : Nat)
  | custom (g : Option GrlnImage)
  deriving DecidableEq, Repr

/-- A copy of a brown-out item on one die: its SEQ and its content. -/
structure RecordCopy where
  seq : Nat
  val : RecordVal
  deriving DecidableEq, Repr

/-- A version of the option area: its SEQ, and its fields by number (R354). -/
structure OptVersion where
  seq : Nat
  words : List (Nat × Word)
  deriving DecidableEq, Repr

/-- One copy of the option area: its versions, each with its page index, newest first, and the next page index of its
blocks that no program has reached; 256 is full. -/
structure OptCopy where
  vers : List (Nat × OptVersion)
  top : Nat
  deriving DecidableEq, Repr

/-- What the PSA and the media keep across a reset, read by the boot: the option area's fields by number as they are
in force and its two copies, A on die 0 and B on die 1, with the copy that an update has still to write (true: B), the
brown-out items on die 0 and on die 1 by identifier (R345), the namespaces' media keys by NSX, which stand there
wrapped (R265), the complete snapshots, newest first, and the journal ring of the system area, oldest first (R218),
the last dump, the saved features, log C1h, the firmware slots, the persisted event log, the persisted counters, what
a precautionary dump has written, its journal tail too, the saved replay table of Carillon, the last sequence number
of a dump page, the retired-block list of the PSA, the wear table as the last snapshot saved it, the customer
microcode image by MC, the what SMART counts, each head's written track width as last measured, with the hour of it,
by MC × 16 + head (R273), the assist totals of earlier resets by (MC × 16 + head) × 2 (µs on) and + 1 (rises), the
sectors read by zone as (MC × 16 + head) × 32 + zone, the rebuilt sectors each as (zone, its read count then), the
sectors read and rebuilt since power-on, and the frontier table as last saved. -/
structure Nv where
  opt : List (Nat × Word)
  optA : OptCopy
  optB : OptCopy
  optDue : Option Bool
  rec0 : List (Nat × Option RecordCopy)
  rec1 : List (Nat × Option RecordCopy)
  keys : List (Nat × Nat)
  snaps : List Snap
  ring : List JRange
  dump : Option Dump
  feats : List (Nat × Option Word)
  logC1 : List C1Event
  fwBuf : Nat
  fwSlots : Nat × Nat
  fwActive : Nat
  fwNext : Nat
  evlog : List (List Word)
  optime : Nat
  pwrcyc : Nat
  san : Sanitize
  predump : List (Nat × Option Nat)
  pretail : List JRange
  clpTable : List (Nat × Byte)
  pageSeq : Nat
  retired : List Nat
  wear : List (Nat × Byte)
  custImg : List (Nat × Option GrlnImage)
  use : Usage
  widths : List (Nat × Nat × Nat)
  life : List (Nat × Nat)
  zoneReads : List (Nat × Nat)
  zoneFix : List (Nat × Nat)
  sectors : Nat × Nat
  frontier : Option Frontier
  deriving DecidableEq, Repr

/-- A zone choice's home by R203 to R206 needs the queued media time, which the scheduler holds; the host's structures
that a command reads are operands. The host's structure of a namespace to create (R263): NSZE and NCAP, the byte
FLBAS, byte 3,072, and the active zones asked for (R191). -/
structure NsReq where
  nsze : Nat
  ncap : Nat
  flbas : Nat
  byte3072 : Nat
  active : Nat
  deriving DecidableEq, Repr

/-- The access that a host memory error ended (R250). -/
inductive HostAccess where
  | writeData (slot : Nat)
  | readData (slot : Nat)
  | pointer (slot : Nat)
  | entry (fn sqid : Nat)
  deriving DecidableEq, Repr

/-- A submission queue entry: its sixteen dwords, and what the lists that its pointers name hold in host memory (R245,
R246): the PRP list pages, the SGL segments of the data and those of the metadata, in their order, an SGL descriptor
as its two 64-bit halves. -/
structure Sqe where
  dw : List Word
  prps : List (List Nat)
  sgls : List (List (Nat × Nat))
  mptr : List (List (Nat × Nat))
  deriving DecidableEq, Repr

end Sys2Proof.Machine
end

