-- ==== Sys2Proof/Machine/TypesTdl.lean ====
section
/-! DEFINITION. The state of the Tandem Link and the messages that its rows carry (spec/12). -/

namespace Sys2Proof.Machine

/-- A mirror record without its MSEQ (R400, R401). `need` of a DATA record is how many of them its command has. -/
inductive MirrorRec where
  | slot (r : SlotRec)
  | data (slot : Nat) (key v : Nat) (need : Nat)
  | journal (seq : Nat) (slot : Nat) (final : Bool) (ops : List MapOp) (assigned : Option Nat)
  | commitDone (slot cid : Nat)
  | release (keys : List Nat)
  deriving DecidableEq, Repr

/-- A message that this device sends (R400). -/
inductive TdlMsg where
  | hello
  | heartbeat
  | ack (mseq : Nat)
  | mediaReq (tag : Nat) (write : Bool) (addr n cls age claim : Nat)
  | mediaCancel (tag : Nat)
  | mediaEnd (tag cls : Nat)
  | claim (tag claim : Nat)
  | claimReply (tag : Nat) (won : Bool)
  | handoffReq (acts : Nat) (spindle : Bool)
  | handoffState (acts : Nat) (targets : List (Nat × Nat × Nat × Nat)) (spindle : Bool)
  | handoffDone (acts : Nat)
  | serveXfer (mseq : Nat)
  | fault
  | mirror (mseq : Nat) (r : MirrorRec)
  | readData (tag : Nat) (vals : List Nat)
  deriving DecidableEq, Repr

/-- The header of the flits that carried a received message (R397): how many flits, the acknowledged FSEQ, and the credits
returned; `ackLate` says that the 4 µs timer had won over that acknowledgement. -/
structure FlitHdr where
  flits : Nat
  ack : Nat
  credC : Nat
  credM : Nat
  ackLate : Bool
  deriving DecidableEq, Repr

/-- A HELLO (R400, R416). -/
structure HelloIn where
  product : Nat
  pos : Nat
  minv : Nat
  maxv : Nat
  epochs : Nat × Nat
  deriving DecidableEq, Repr

/-- A HEARTBEAT (R400). -/
structure BeatIn where
  serving : Bool
  owned : Nat
  drive : Bool
  epoch : Nat
  mseq : Nat
  jseq : Nat
  deriving DecidableEq, Repr

/-- A MEDIA_REQ (R404): the operation's tag at the serving device, its range, its class, its age from fetch in ms, its claim
identity (0: none), and the keys of its sectors. -/
structure MediaReq where
  tag : Nat
  write : Bool
  addr : Nat
  keys : List Nat
  cls : Nat
  age : Nat
  claim : Nat
  deriving DecidableEq, Repr

/-- A flit in the replay buffer: its FSEQ, whether it is of the MIRROR channel, and its consecutive resends. -/
structure ReplayEnt where
  fseq : Nat
  mirror : Bool
  resends : Nat
  deriving DecidableEq, Repr

/-- Why a received flit is dropped (R398). -/
inductive FlitFault where
  | crc
  | sequence
  | duplicate
  deriving DecidableEq, Repr

/-- A handoff under way at this device (R412, R413): none, releasing actuators while their jobs end, given up for a
job that did not end and to be tried again when it has, released and waiting for the partner's claims, or taking.
Actuators are a mask; the flag is the spindle. -/
inductive Handoff where
  | none
  | draining (acts : Nat) (spindle : Bool)
  | waiting (acts : Nat) (spindle : Bool)
  | released (acts : Nat) (spindle : Bool)
  | taking (acts : Nat) (spindle : Bool)
  deriving DecidableEq, Repr

/-- A serving transfer under way (R415): none, leaving while commands drain, left, or arriving once an MSEQ is applied. -/
inductive Serving where
  | none
  | leaving
  | left
  | arriving (mseq : Nat)
  deriving DecidableEq, Repr

/-- The TDL: registers; flits sent and not yet acknowledged, the next FSEQ, the messages that wait for credits with
the flits each still needs, whether the last flit was of CTRL, and the next FSEQ to take; the 64-bit MSEQs sent,
acknowledged and applied; mirror records not yet acknowledged; whether a resend waits for a HEARTBEAT; what the
partner last told; its commands in the order of their SLOT records, its mirrored data by key, and its journal records
of ranges not yet complete by slot; remote candidates sent by tag, read data received by tag, reads whose MEDIA_END
came before their data, candidates that a handoff returned; claims asked and won; destaged keys whose journal record
waits for its ACK; the channels accepted since ARM and whether there has been an ARM; handoff and serving states; a
firmware activation that waits for both (R418) as its slot; the ANA change count; whether a HELLO has been received
since bring-up; HEARTBEATs sent and whether they have stopped; whether the next flit asks for a resend; whether this
device is yielding under R408; and whether its boot has settled the roles (R420). -/
structure Tdl where
  csr : List (Nat × Word)
  replay : List ReplayEnt
  nextSeq : Nat
  outC : List (TdlMsg × Nat)
  outM : List (TdlMsg × Nat)
  lastCtrl : Bool
  rxSeq : Nat
  mseqTx : Nat
  mseqAck : Nat
  mseqRx : Nat
  unacked : List (Nat × MirrorRec)
  resendAtBeat : Bool
  partner : Option BeatIn
  peer : Option HelloIn
  cmds : List PartnerCmd
  held : List (Nat × Option Nat)
  ranges : List (Nat × List MapOp)
  sent : List (Nat × Cand)
  got : List (Nat × List Nat)
  endedFirst : List Nat
  returned : List Cand
  asked : List Nat
  won : List Nat
  releases : List (Nat × List (Nat × Nat))
  accepted : Option Nat
  handoff : Handoff
  serving : Serving
  prep : Option Nat
  anaChanges : Nat
  helloSeen : Bool
  beats : Nat
  beatStopped : Bool
  nak : Bool
  yielding : Bool
  roles : Bool
  deriving DecidableEq, Repr

end Sys2Proof.Machine
end

