-- ==== Sys2Proof/Machine/TypesBoot.lean ====
section
/-! DEFINITION. What a boot finds out of the device's own sight (spec/14). -/

namespace Sys2Proof.Machine

/-- A boot's findings: the straps' levels; the self-test items that fail (R458); DDR_PWRGD and the DRAM channels that
fail training, as a mask (R304, R477); of each option-area copy, how many of its newest versions are not valid, and
the fields of a version that was written from outside since, empty where none was (R354, R457, R463); the verdicts on
the two firmware slots and on the recovery image (R460); the brown-out copies that do not read, or after an unclean
power-down fail their margin read, each as (die, identifier) (R345); the time to admin ready in ms; the spindle's
speed as it turns, in percent of the set-point (R462); and, for a drive whose map was never written, the bands of its
Band Table as manufactured and its primary defect list. `badDump` are the keys of dumped sectors that no valid page
holds here, `partner` sectors of such ranges that the partner's dump gave (R299, R419); `snapBad` says how many of the
newest snapshots no copy can be read of, and `journalEnd` the SEQ of the first journal record whose CRC fails (R219).
-/
structure BootIn where
  pcieMode : Bool
  rcvryN : Bool
  xtalByp : Bool
  test : Bool
  bistFail : Nat
  ddrPwrgd : Bool
  trainFail : Nat
  optBadA : Nat
  optBadB : Nat
  opt : List (Nat × Word)
  slot1Ok : Bool
  slot2Ok : Bool
  recoveryOk : Bool
  badRecords : List (Nat × Nat)
  bootMs : Nat
  spindlePct : Nat
  factory : List (Nat × Option Band)
  pdl : List Defect
  badDump : List Nat
  partner : List (Nat × Nat)
  snapBad : Nat
  journalEnd : Option Nat
  deriving DecidableEq, Repr

/-- What triggers a Cloudburst (R296): PFAIL_N falling; VIN, which has been as high as `peak` mV since the last
sample, at `mv` mV; or VM_SNS at `mv` mV. -/
inductive BurstIn where
  | pfail
  | vin (peak mv : Nat)
  | vm (mv : Nat)
  deriving DecidableEq, Repr

end Sys2Proof.Machine
end

