-- ==== Sys2Proof/Machine/TypesBuf.lean ====
section
/-! DEFINITION. The state of the Buffer Memory Controller, the Map Cache and the DMA engines, and the operands of their rows
(spec/09). -/

namespace Sys2Proof.Machine

/-- What a buffer page delivers other than what was last written to it: data bytes as (offset, XOR), parity bits by the
offset of their data byte, and strong-check bytes as (0 to 127, XOR). -/
structure PageErr where
  data : List (Nat × Nat)
  par : List Nat
  strong : List (Nat × Nat)
  deriving DecidableEq, Repr

/-- What a page holds, as R308 and R312 tell pages apart: read data on its way to the host, of a command slot, or
clean data with a media copy, Band Map data, anything else, a Staging Buffer page of read data, and one of write data,
each with whether its last byte has arrived; or of the other on-chip memories, an entry of the queue-context cache,
and one of a table, a queue or a register file of a unit, with the offset of the register that gives access to it; or
a word of a control core's own memory that no code can correct (R496). Whether a page is protected follows from
BMC_PROT_BASE and BMC_PROT_SIZE. -/
inductive PageUse where
  | hostRead (slot : Option Nat)
  | bandMap
  | other
  | stagingRead (whole : Bool)
  | stagingWrite (whole : Bool)
  | queueContext
  | table (unit csr : Nat)
  | coreMemory (core address : Nat)
  deriving DecidableEq, Repr

/-- The BMC: registers, the pages whose stale bit is set in the order of the recompute queue, the channels to retrain, the
channel left out since training (three-channel mode), the recent uncorrectable pages as (time in µs, channel), the bytes that
the last read returned, whether that response was poisoned, and whether a second channel has failed, which stops all I/O. -/
structure Bmc where
  csr : List (Nat × Word)
  stale : List Nat
  retrain : Nat
  absent : Option Nat
  recent : List (Nat × Nat)
  out : List Byte
  poison : Bool
  down : Bool
  deriving DecidableEq, Repr

/-- A Map Cache line: its LINE (buffer address ÷ 64), and its 64 bytes. -/
structure MpcLine where
  line : Nat
  dirty : Bool
  locked : Bool
  bytes : List Byte
  deriving DecidableEq, Repr

/-- An eviction buffer entry. -/
structure EbEntry where
  line : Nat
  issued : Bool
  bytes : List Byte
  deriving DecidableEq, Repr

/-- An error that a Map Cache access meets (R320, R321); a tag error says whether the way might have been dirty. -/
inductive MpcErr where
  | none
  | single
  | double
  | tag (mightDirty : Bool)
  deriving DecidableEq, Repr

/-- What a Map Cache request meets: an error of the way, and what the DRAM page of a fill, or of a request with the
cache off, delivers. -/
structure MpcIn where
  way : MpcErr
  page : PageErr
  deriving DecidableEq, Repr

/-- The Map Cache: registers, valid lines, the most recently used first, the eviction buffer, oldest first, the
operation that the range engine runs with its first line and length and the lines that it has still to visit, the line
of a LOCK that waits for room, and the last response. -/
structure Mpc where
  csr : List (Nat × Word)
  lines : List MpcLine
  eb : List EbEntry
  range : Option (Nat × Nat × Nat)
  toVisit : List Nat
  locking : Option Nat
  out : List Byte
  poison : Bool
  deriving DecidableEq, Repr

/-- A DMA descriptor (R323). -/
structure Desc where
  haddr : Nat
  saddr : Nat
  len : Nat
  last : Bool
  ro : Bool
  bucket : Bool
  fn : Nat
  slot : Nat
  deriving DecidableEq, Repr

/-- A DMA channel: its two descriptors, whether a STOP waits for the boundary, whether the ordering read is out, STOPPED,
ERR and ECODE, whether the last LOAD was ignored, bytes not yet issued, and the downstream requests that are out as
(offset, length, bytes still to come). -/
structure Chan where
  active : Option Desc
  shadow : Option Desc
  stopping : Bool
  ordering : Bool
  stopped : Bool
  err : Bool
  ecode : Nat
  ign : Bool
  remain : Nat
  reqs : List (Nat × Nat × Nat)
  deriving DecidableEq, Repr

/-- The DMA engines: registers, the channels that are not idle and clean, and the bytes of each port's window in use. -/
structure Dma where
  csr : List (Nat × Word)
  chans : List (Nat × Option Chan)
  inUse0 : Nat
  inUse1 : Nat
  deriving DecidableEq, Repr

end Sys2Proof.Machine
end

