-- ==== Sys2Proof/Machine/TypesElg.lean ====
section
/-! DEFINITION. The state of the Energy Ledger, the Thermal Monitor and the Calibration Unit, and the operands of their rows
(spec/11). -/

namespace Sys2Proof.Machine

/-- One sample of the Ledger: VIN as sensed, in mV, and the energy that its inputs count, in µJ: VIN, BUS12, the four
VCMs, CORE, DRAM, PCIE, PSA, the input of the on-package regulators, and the ASSIST meters by their index. -/
structure MeterIn where
  vinMv : Nat
  vin : Nat
  bus12 : Nat
  vcm : Quad Nat
  core : Nat
  dram : Nat
  pcie : Nat
  psa : Nat
  regIn : Nat
  assist : List (Nat × Nat)
  deriving DecidableEq, Repr

/-- The Energy Ledger: registers; the 64 counters; the current 1 ms bin and the ten before it, by meter; the latched upper
half; window powers in mW; anchors 0 to 5; the last valid speed and when ANGLE_OK fell; write-through with its reason bits;
a precautionary dump in progress with the keys and data that it wrote, and the count of those completed; the governor's
limit (none: no cap has acted), quiet windows, the averages p_idle and p_mc, the thermal steps; the last operational power
state; times of write-through. -/
structure Elg where
  csr : List (Nat × Word)
  meters : List (Nat × Nat)
  bin : List (Nat × Int)
  bins : List (List (Nat × Int))
  hiLatch : Word
  power : List (Nat × Nat)
  anchors : List (Nat × Nat)
  sLast : Nat
  fell : Option Nat
  wt : Bool
  reason : Nat
  predumping : Bool
  predumped : Nat
  plim : Option Nat
  quiet : Nat
  pIdle : Nat
  pMc : Nat
  newCross : Bool
  lastStep : Nat
  lastOp : Nat
  wtSince : Nat
  wtTotal : Nat
  deriving DecidableEq, Repr

/-- A sensor: whether a conversion has completed, whether it is absent, the temperature in 1/16 °C, the time of the
conversion in µs, the readings that a threshold's window can look back on, newest first, and its active thresholds:
bit 0 ROR, 1 WARN, 2 CRIT. -/
structure Sensor where
  valid : Bool
  absent : Bool
  temp : Int
  time : Nat
  hist : List (Nat × Int)
  active : Nat
  deriving DecidableEq, Repr

/-- The Thermal Monitor: registers, sensors by number, the requests in arrival order, and whether the firmware's request is
out. -/
structure Tmn where
  csr : List (Nat × Word)
  sensors : List (Nat × Option Sensor)
  queue : List Nat
  fwReq : Option Nat
  deriving DecidableEq, Repr

/-- What a calibration item changes (R383): a field of a zone's analog entry, one comparator exchange of a reader's mask, a
comparator's threshold and a head's written track width as a run measured them, a
level code or the aging trim of a head, a preload entry, a coefficient of a loop's shadow bank, a head's servo origin, a
commutation offset, a delay tap of a DRAM channel, the inertia anchor, or a bin of the seek profile. -/
inductive CalPlace where
  | zae (mc head zone dword hi lo : Nat)
  | comparators (mc : Nat)
  | threshold (mc adc n : Nat)
  | width (mc head : Nat)
  | level (mc head level : Nat)
  | trim (mc head : Nat)
  | preload (mc entry : Nat)
  | coef (loop addr : Nat)
  | origin (mc head : Nat)
  | angle (n : Nat)
  | tap (ch n : Nat)
  | inertia
  | seekBin (mc n : Nat)
  deriving DecidableEq, Repr

/-- A value still to be reached, with the largest step that one application may take (R382). -/
structure CalTarget where
  place : CalPlace
  value : Int
  step : Nat
  deriving DecidableEq, Repr

/-- A calibration item: its configuration, how due it is (0, 1 due, 2 overdue), whether a forced run is out, the targets that
remain, the last result, consecutive failures, counts, and the operating times of the last run and of the last accepted
one, with sensor 2's temperature at the last run. -/
structure CalItem where
  cfg : Word
  due : Nat
  forced : Bool
  targets : List CalTarget
  result : Nat
  fails : Nat
  accepts : Word
  rejects : Word
  lastRun : Nat
  lastGood : Nat
  tempRun : Int
  deriving DecidableEq, Repr

/-- The Calibration Unit: registers, items, and the tables that only calibration holds: servo origins by MC × 16 +
head, delay taps by channel × 256 + tap, the seek profile by MC × 64 + bin, the SEEKT of the latest 16 seeks of each
of those bins, newest first, the readers marked failed, each as (MC × 16 + head, reader), and the consecutive failures
of item 6 by (MC × 16 + head) × 2 + reader. -/
structure Cal where
  csr : List (Nat × Word)
  items : List (Nat × Option CalItem)
  origins : List (Nat × Int)
  taps : List (Nat × Int)
  seeks : List (Nat × Int)
  seekLast : List (Nat × List Nat)
  badReaders : List (Nat × Nat)
  readerFails : List (Nat × Nat)
  deriving DecidableEq, Repr

end Sys2Proof.Machine
end

