-- ==== Sys2Proof/Machine/TypesPsa.lean ====
section
/-! DEFINITION. The state of the Persistence Array controller and the operands of its rows (spec/10). -/

namespace Sys2Proof.Machine

/-- A page of the PSA that was programmed: its main area's nonzero bytes by offset, its header's dwords 0 to 7, the last of
them the CRC-32C (R334, R335), and the check values of its 16 BCH codewords (R334). -/
structure PsaPage where
  body : List (Nat × Byte)
  hdr : List Word
  check : List Nat
  deriving DecidableEq, Repr

/-- What a die finds at a page: the most bits corrected in one codeword, whether every codeword decodes, whether the CRC
matches, whether the shifted level reads too, and whether the page reads blank at the erase-verify level. -/
structure PsaIn where
  bits : Nat
  bch : Bool
  crc : Bool
  margin : Bool
  blank : Bool
  deriving DecidableEq, Repr

/-- A descriptor that runs: its ring index, its group's first index, its OP and PADDR, the pulses so far, whether it has
ended, with which STATUS, what the die found, and the page a program carries. -/
structure PsaRun where
  idx : Nat
  grp : Nat
  op : Nat
  addr : Nat
  pulses : Nat
  ended : Bool
  status : Nat
  found : PsaIn
  page : Option PsaPage
  deriving DecidableEq, Repr

/-- The PCT: registers, every block's erased state by die × 4,096 + block as 2 × F + (1 − U), the pages' contents by
PADDR (unlisted: erased or undefined), the descriptors that run, the dies suspended, the suspends that wait for a
pulse's end, the groups whose timer has restarted, the dies whose late ready is still to come, the erase fails as (die
× 4,096 + block, time in s), the worn blocks that are to be retired (R353), whether a descriptor has programmed,
erased or loaded since reset, and whether the frontier table is to be saved once the PCT is idle (R343). -/
structure Pct where
  csr : List (Nat × Word)
  blocks : List (Nat × Nat)
  pages : List (Nat × Option PsaPage)
  runs : List PsaRun
  susp : Bool × Bool
  waitSusp : Bool × Bool
  restarted : List Nat
  owed : List Nat
  efails : List (Nat × Nat)
  worn : List Nat
  touched : Bool
  saving : Bool
  deriving DecidableEq, Repr

end Sys2Proof.Machine
end

