-- ==== Sys2Proof/Syntax.lean ====
section
/-! DEFINITION. The commands of the device, one for each row of spec/opcode_table.json, in the table's order. A row's operands are
what comes from outside with it: a Media Channel, a slot, a CSR address and value, a received message, a measured value, a verdict
on a signature or a check, or the winner of a race. -/

namespace Sys2Proof
open Machine

/-- A command. Each constructor is the row whose mnemonic its name spells; SEQ modes of a microword begin with `seq`. -/
inductive Instr where
  | csrWrite (bytes a : Nat) (v : Word)
  | paceWindowEnd (tokens : Nat)
  | fabClrPacemin
  | fabClrDec
  | fabClrArb
  | cbpFault (island : Fin 9)
  | syncMarkFound (k : Fin 4) (slot : Nat) (pos : Int) (bits : Nat)
  | syncWindowClose (k : Fin 4) (slot : Nat) (lateMark : Bool) (runs : List SampleRun)
  | timedSyncEnd (k : Fin 4) (att : List (Int × Quad Reading))
  | realignEnd (k : Fin 4) (att : List (Int × Quad Reading))
  | decodeComplete (k : Fin 4) (d : DecodeIn)
  | stripeSolveEnd (k : Fin 4)
  | mcFmtClrRec (k : Fin 4)
  | mcFmtClrCnt (k : Fin 4)
  | wedgeMark (k : Fin 4) (x : WedgeIn)
  | markWindowClose (k : Fin 4) (late : Bool) (atest : Nat)
  | adcMaskApply (k : Fin 4)
  | hfltFall (k : Fin 4) (stays : Bool)
  | hifFrameEnd (k : Fin 4) (r : HifResp)
  | hifFirmwareFrame (k : Fin 4) (w : Word)
  | hifOwnWrite (k : Fin 4) (b : Bool)
  | hifOwnRelease (k : Fin 4)
  | assistLeadLong (k : Fin 4)
  | assistDutyNear (k : Fin 4) (head : Nat)
  | assistDutyLimit (k : Fin 4) (head : Nat)
  | assistDutyRelease (k : Fin 4) (head : Nat)
  | mcChClrAsc (k : Fin 4)
  | mcChClrHif (k : Fin 4)
  | mcChClrSyn (k : Fin 4)
  | mcChClrLdpc (k : Fin 4)
  | seqJump (k : Fin 4) (x : MsqIn)
  | seqBranch (k : Fin 4) (x : MsqIn)
  | seqDispatch (k : Fin 4) (x : MsqIn)
  | seqCall (k : Fin 4) (x : MsqIn)
  | seqReturn (k : Fin 4) (x : MsqIn)
  | seqWait (k : Fin 4) (x : MsqIn)
  | seqLoop (k : Fin 4) (x : MsqIn)
  | seqHalt (k : Fin 4) (x : MsqIn)
  | haltPadEnd (k : Fin 4)
  | waitPass (k : Fin 4) (x : MsqIn)
  | msqTimerExpiry (k : Fin 4) (race : Option Bool)
  | waitWatchdog (k : Fin 4)
  | storeScrub (k : Fin 4) (a : Nat) (imgBad : Bool)
  | jtArm (k : Fin 4) (e : Nat)
  | jtCancel (k : Fin 4) (e : Nat)
  | cancelEffect (k : Fin 4)
  | jobBegin (k : Fin 4) (e : Nat) (lateArm : Bool)
  | msqEnWrite (k : Fin 4) (b : Bool)
  | jtDoneClear (k : Fin 4) (e : Nat)
  | evtLoRead (k : Fin 4)
  | evtHiRead (k : Fin 4)
  | traceRead (k : Fin 4)
  | storeLane0Read (k : Fin 4)
  | storeWordCommit (k : Fin 4) (w : Word)
  | msqClrEvt (k : Fin 4)
  | msqClrTrace (k : Fin 4)
  | msqClrCnt (k : Fin 4)
  | microprogramLoad (n : Nat) (img : GrlnImage)
  | microprogramLoadQuiesced (n : Nat)
  | microprogramLoadTimeout (n : Nat)
  | runSequenceWrite (n : Nat) (data : List Nat)
  | runSequenceRead (n : Nat)
  | runSequenceComplete (k : Fin 4) (e slot cls n : Nat)
  | servoSample (k : Fin 4) (x : SampleIn)
  | loopResultReady (loop : Fin 5) (slack : Int)
  | loopDeadline (loop : Fin 5) (slack : Int)
  | outputRelease (loop : Fin 5)
  | pslFrameSend (delay : Nat)
  | pslReply (r : Option Nat) (fits : Bool) (delay : Nat)
  | spindleLoopTick
  | actSeek (k : Fin 4) (head zone track : Nat)
  | actLoad (k : Fin 4) (head zone track : Nat)
  | actUnload (k : Fin 4) (head zone track : Nat)
  | actHold (k : Fin 4) (head zone track : Nat)
  | zrebuild
  | zrebuildEnd
  | coefSwap (loop : Fin 5)
  | lostTimeout (k : Fin 4)
  | loadTimeout (k : Fin 4)
  | unloadBemfLow (k : Fin 4)
  | unloadTimeout (k : Fin 4)
  | spsyncEdge (speed : Nat) (late : Bool)
  | spsyncMissing
  | pslRegWrite (addr data : Nat)
  | pslRegRead (addr : Nat)
  | actEnWrite (k : Fin 4) (on : Bool)
  | sceClrPsl
  | sceClrAct
  | sceClrFin
  | sceClrLate
  | sceClrOvr
  | pwmHalfPeriod (x : PwmIn)
  | bemfZeroCrossing (x : CrossIn)
  | floatWindowClose (late : Bool)
  | scuCmdStart
  | scuCmdStop
  | scuCmdCoast
  | scuCmdCatch
  | scuCmdRectify
  | alignTimeout
  | lockedRotor
  | lockedRotorRetry
  | catchTimeout
  | brakeHoldEnd
  | coastTimeout
  | scuDriveWrite (b : Bool)
  | scuClrCnt
  | schedulerDecision (k : Fin 4) (x : SchedIn)
  | heatDecay
  | echoDrop (idx copy : Nat)
  | compactionStart (trigger : Nat)
  | compactionCommit
  | journalUnitFlush
  | snapshotStart
  | zoneMoveSwitch (nsx zone : Nat) (bands : List Nat)
  | mapWaitRelease (n : Nat)
  | mapWaitExpiry (n : Nat)
  | pleClrClaim
  | pleClrDue
  | pleClrMaxw
  | gdlAdd (addr reason : Nat)
  | portReset (p : Nat)
  | linkDown (p : Nat)
  | doorbellWrite (f : Nat) (isCq : Bool) (q v : Nat)
  | fetchTurn
  | sqEntryArrive (f q : Nat) (e : Sqe)
  | hostMemoryError (a : HostAccess) (code : Nat)
  | completionTimeout (a : HostAccess)
  | lateCompletion
  | heldWriteAdmit (n : Nat)
  | writeAccept (n : Nat)
  | completionPost (n : Nat)
  | coalesceTimerExpiry (f v : Nat)
  | createIoSq (n : Nat)
  | createIoCq (n : Nat)
  | deleteIoSq (n : Nat)
  | deleteIoSqComplete (n : Nat)
  | deleteIoCq (n : Nat)
  | getLogPage (n : Nat)
  | identify (n : Nat)
  | abort (n : Nat)
  | setFeatures (n : Nat)
  | getFeatures (n : Nat)
  | asyncEventRequest (n : Nat)
  | namespaceCreate (n : Nat) (r : NsReq)
  | namespaceDelete (n : Nat)
  | namespaceAttachment (n : Nat) (ctrls : List Nat)
  | firmwareImageDownload (n image : Nat)
  | firmwareCommit (n : Nat) (sigOk : Bool)
  | firmwareActivate (n : Nat) (sigOk : Bool)
  | firmwareActivateDrainTimeout
  | firmwareActivateDone
  | directiveSend (n : Nat)
  | directiveReceive (n : Nat)
  | formatNvm (n : Nat)
  | formatComplete (nsid : Nat)
  | sanitizeExitFailure (n : Nat)
  | sanitizeOverwrite (n : Nat)
  | sanitizeCryptoErase (n : Nat)
  | sanitizeBandDone (fault : Bool)
  | recorderRead (n : Nat)
  | csrReadCmd (n : Nat)
  | csrWriteCmd (n : Nat)
  | nonceRequest (n : Nat)
  | unlockToken (n : Nat) (t : List Nat)
  | unlockEnd (n : Nat)
  | nonceExpiry
  | unlockExpiry
  | flush (n : Nat)
  | write (n : Nat) (data : List Nat)
  | read (n : Nat)
  | writeZeroes (n : Nat)
  | datasetManagement (n : Nat) (ranges : List DsmRange)
  | verify (n : Nat)
  | zoneOpen (n : Nat)
  | zoneClose (n : Nat)
  | zoneFinish (n : Nat)
  | zoneReset (n : Nat)
  | zoneResetComplete (n : Nat)
  | zoneOffline (n : Nat)
  | reportZones (n : Nat)
  | zoneAppend (n : Nat) (data : List Nat)
  | controllerReset (f : Nat) (shn : Bool)
  | functionLevelReset (f : Nat)
  | controllerResetSlotsFree (f : Nat)
  | controllerEnable (f : Nat) (cc : Word) (asqs acqs width speed : Nat)
  | hqeClrCnt
  | cloudburstTrigger (x : BurstIn)
  | cloudburstEnd (b : BootIn)
  | precautionaryDumpEnd (cost : Nat)
  | bufferRead (n off len : Nat) (use : PageUse) (requester : Nat) (e : PageErr)
  | bufferWrite (n : Nat) (bytes : List (Nat × Byte)) (requester : Nat)
  | drizzleRecompute (now : Option Nat) (raced : Bool) (e : PageErr)
  | drizzleScrub (use : PageUse) (raced : Bool) (e : PageErr)
  | dqsOscCheck (drifted : Nat)
  | dramRetrain (ch : Nat) (ok : Bool)
  | mpcRequest (line : Nat) (w : List (Nat × Byte)) (issued : Bool) (x : MpcIn)
  | evictionWritebackDone (line : Nat)
  | mpcLock
  | mpcUnlock
  | mpcClean
  | mpcInvalidate
  | mpcCleanInvalidate
  | mpcRangeEnd
  | dmaLoad
  | dmaStop
  | dmaClear
  | dmaDescriptorDone (c : Nat)
  | dmaReadRequest (c mrrs : Nat)
  | dmaReadCompletion (c at0 : Nat) (bytes : List Byte)
  | orderingReadComplete (c : Nat) (ok : Bool)
  | bmcClrErr
  | bmcClrCnt
  | mpcClrCnt
  | dmaClrCnt
  | psaRead (x : Nat) (found : List PsaIn)
  | psaProgram (x : Nat) (found : List PsaIn)
  | psaErase (x : Nat)
  | psaBlank (x : Nat) (found : List PsaIn)
  | psaMarginRead (x : Nat) (found : List PsaIn)
  | psaFrontierLoad (x : Nat)
  | psaPulseEnd (x : Nat) (pass : Bool)
  | psaDieReady (grp : Nat)
  | psaDieTimeout (grp : Nat) (done : Bool)
  | brownOutTrip
  | pctSuspend (d : Nat)
  | pctResume (d : Nat)
  | pctClrCnt
  | meterSample (x : MeterIn)
  | meterBinEnd
  | reserveRecompute
  | mtrLoRead
  | dcostMeasure (v : Nat)
  | testDump (v : Nat)
  | governorWindowEnd (pIdle pMc : Nat)
  | vcoreStep (lower : Bool)
  | tmnSchedule
  | tmnRequest (n : Nat)
  | tmnConversionDone (t : Int) (atEnd : Bool)
  | tmnClrCnt
  | calRun
  | calDue (n : Nat)
  | calRunEnd (n reader result : Nat) (targets : List CalTarget)
  | calStepApply (n : Nat)
  | hello (h : FlitHdr) (x : HelloIn)
  | tdlHeartbeat (h : FlitHdr) (b : BeatIn)
  | tdlAck (h : FlitHdr) (mseq : Nat) (late : Bool)
  | mediaReq (h : FlitHdr) (r : MediaReq)
  | mediaCancel (h : FlitHdr) (tag : Nat)
  | mediaEnd (h : FlitHdr) (tag cls : Nat)
  | tdlClaim (h : FlitHdr) (tag claim : Nat)
  | claimReply (h : FlitHdr) (tag : Nat) (won : Bool)
  | handoffReq (h : FlitHdr) (acts : Nat) (spindle : Bool)
  | handoffState (h : FlitHdr) (targets : List (Fin 4 × Nat × Nat × Nat)) (spindle : Bool)
  | handoffDone (h : FlitHdr)
  | serveXfer (h : FlitHdr) (mseq : Nat)
  | tdlFault (h : FlitHdr)
  | tdlSlot (h : FlitHdr) (mseq : Nat) (r : SlotRec)
  | tdlData (h : FlitHdr) (mseq slot key v need : Nat)
  | tdlJournal (h : FlitHdr) (mseq seq slot : Nat) (final : Bool) (ops : List MapOp) (assigned : Option Nat)
  | commitDone (h : FlitHdr) (mseq slot cid : Nat)
  | tdlRelease (h : FlitHdr) (mseq : Nat) (keys : List Nat)
  | readData (h : FlitHdr) (tag : Nat) (vals : List Nat)
  | flitReplayTimeout
  | tdlRetrainDone
  | mirrorResendTimeout
  | heartbeatSendTick
  | tdlSilence
  | carillonAbsence
  | handoffArm
  | handoffDisarm
  | handoffJobTimeout
  | serveXferDrainTimeout
  | helloWaitTimeout
  | tdlClrCnt
  | grantRequest (h : ClpHdr) (m : PowerMsg)
  | grant (h : ClpHdr) (m : PowerMsg)
  | grantQueued (h : ClpHdr) (m : PowerMsg)
  | grantDeny (h : ClpHdr) (m : PowerMsg)
  | grantRelease (h : ClpHdr) (m : PowerMsg)
  | seekSlot (h : ClpHdr) (m : SeekSlotMsg)
  | clpPhase (h : ClpHdr) (m : PhaseMsg)
  | clpHeartbeat (h : ClpHdr) (b : ClpBeat)
  | clpDialect (h : ClpHdr) (d : DialectMsg)
  | tocsin (h : ClpHdr) (m : TocsinMsg)
  | neighborSolicitation (target : Nat)
  | clpTransmit (collisions : Nat)
  | plcaFallback
  | plcaBeacon
  | xchgArm (n tmo reqid : Nat)
  | xchgExpiry (n : Nat)
  | spinStartNeeded
  | spinBackoffEnd
  | grantExpiry (subject reqid : Nat)
  | grantQueueLapse (subject reqid : Nat)
  | seekSlotSilence
  | tocsinRepeat (event : Nat)
  | clpClrCnt
  | por (vin : Nat) (b : BootIn)
  | ioReady
  | resetN (low : Bool) (b : BootIn)
  | resetDumpEnd (b : BootIn)
  | watchdogKick (key : Nat)
  | watchdogExpiry
  | softReset
  | unitResetMc (k : Fin 4)
  | unitResetSce
  | unitResetScu
  | unitResetPct
  | unitResetTdl
  | unitResetClp
  | sysClrWdog
  | bypass
  | idcode
  | samplePreload (cells : List Bool)
  | extest
  | clamp
  | highz
  | devrst
  | csracc (write : Bool) (a : Nat) (v : Word)
  | mckSynPop
  | evrFirmwarePost (cls id : Nat) (detail : Word)
  | evrRecord
  | evrClrCnt
  | mckClrCnt
  | porAssert
  | lossOfLaneLock
  | tdlNak (h : FlitHdr)
  | flitDropped (bytes : List Nat)
  | vfEnableClear (pf : Nat)
  | persistentLinkError (ch : Nat)
  | rdecodeReport (k : Fin 4) (q : Quad Reading)
  | granterRestartWaitEnd
  deriving DecidableEq, Repr

end Sys2Proof
end

