-- ==== Sys2Proof/Decode.lean ====
section
/-! DEFINITION. No row of spec/opcode_table.json has bits: the rows are events and accesses, not encodings, so no word spells a
command. -/

namespace Sys2Proof

/-- The command that a word spells by the table's bits: none, for no row gives any. -/
def decodeTableWord (_nbits _w : Nat) : Option Instr := none

end Sys2Proof
end

