-- ==== Sys2Proof/Config.lean ====
section
/-! DEFINITION. What the spec leaves open: values that no rule fixes. Each is a constant without a body, so that nothing
can be proved of its value; a claim holds whatever it is. `freeWord` and its kin are applied to a counter that State holds,
so that each use may see another value. -/

namespace Sys2Proof

/-- A value the spec leaves open at one use, picked by the State's counter of such uses. -/
opaque Config.freeNat : Nat → Nat

/-- A 32-bit value the spec leaves open at one use. -/
opaque Config.freeWord : Nat → Word

/-- The first row of the circulant at a block row below 31 and an information block column below 257 of the LDPC
parity-check matrix, in its systematic form. The matrix is fixed in silicon, and the spec does not print it (R46). -/
opaque Config.ldpcBlock : Nat → Nat → Nat

/-- The fourteen BCH check bytes of a codeword over GF(2^14), as a number, by the codeword's bytes as a number (R334):
the spec names the field and prints no generator. -/
opaque Config.bchCheck : Nat → Nat

/-- The offset of a comparator of an ADC of a Media Channel from its place on the ladder, in 1/1,000 LSB, before the
Calibration Unit has measured it (R79). -/
opaque Config.comparatorOffset : Nat → Nat → Nat → Int

/-- The words of the vendor code at 0x0000 to 0x37FF, which the spec does not print (R125). -/
opaque Config.vendorWord : Nat → Nat

/-- Whether a quotient that is not exact is rounded up (R156, R159, R160, R168 state no rounding). -/
opaque Config.roundUp : Int → Int → Bool

/-- The Ledger's estimate of a seek's energy in mJ, by actuator and distance in servo tracks, of a sector's read
(`false`) or write, and of the assist for a written sector; and the settling time in µs before a write (R224). -/
opaque Config.seekEnergy : Nat → Nat → Nat
opaque Config.sectorEnergy : Bool → Nat
opaque Config.assistEnergy : Nat
opaque Config.writeSettleUs : Nat

/-- The acceleration that the seek trajectory picks, from its position, its velocity, the target and the limits; R155's
trajectory is described by its limits alone. -/
opaque Config.trajectory : Int → Int → Int → Nat → Nat → Int

/-- What a compensation table gives beyond its last entry, by slot and index (R160 states no interpolation there). -/
opaque Config.tableEnd : Nat → Nat → Int

/-- The VCM command by which a velocity-controlled move off the ramp answers the back-EMF (R155, R161). -/
opaque Config.loadLaw : Int → Int

/-- The VCM command by which a velocity-controlled unload, aimed at 300 mV of back-EMF outward, answers the back-EMF (R161). -/
opaque Config.unloadLaw : Int → Int

/-- The VCM command by which LOST holds the estimated velocity at zero (R152). -/
opaque Config.holdLaw : Int → Int

/-- Whether a positive VCM command pushes towards the outer-diameter ramp (R161). -/
opaque Config.outwardPositive : Bool

/-- The electrical angle, in 1/65,536 turn, of the stationary vector of ALIGN (R172). -/
opaque Config.alignAngle : Nat

/-- The lowest and the highest map format epoch that a firmware image supports, by the image as its slot holds it (R417). -/
opaque Config.firmwareEpochs : Nat → Nat × Nat

/-- The domain key that the wrapped key of the option area unwraps to, 16 bytes (R423). No rule gives the wrapping,
and no path reads the key. -/
opaque Config.domainKey : Nat → List Nat

end Sys2Proof
end

