-- ==== Sys2Proof/Machine/Codes.lean ====
section
/-! DEFINITION. The codes of spec/02, spec/03, spec/05 and spec/16: the CRCs, the Reed–Solomon Stripe code, the scrambling
sequence, and the Stripe plans. Bytes and sectors are numbers, byte c of a sector in bits 8c to 8c + 7. -/

namespace Sys2Proof.Machine

/-- Byte c of a number. -/
def byteOf (x c : Nat) : Nat := (x >>> (8 * c)) % 256

/-- The n low bits of x, most significant first. -/
def bitsMsb : Nat → Nat → List Bool
  | 0, _ => []
  | n + 1, x => x.testBit n :: bitsMsb n x

/-- A number from its bits, most significant first. -/
def bitsToNat (b : List Bool) : Nat := b.foldl (fun a x => 2 * a + b2n x) 0

/-- One bit into a CRC register of w bits, most significant bit first. -/
def crcStep (w poly reg : Nat) (b : Bool) : Nat :=
  let top := reg.testBit (w - 1)
  let sh := (2 * reg) % 2 ^ w
  if top != b then sh ^^^ poly else sh

/-- A CRC over a bit string, most significant bit first, with no final XOR. -/
def crcBits (w poly init : Nat) (bits : List Bool) : Nat := bits.foldl (crcStep w poly) init

/-- CRC-8 of the serial frames: x^8 + x^2 + x + 1, initial value 0 (R101, R165). -/
def crc8 (bits : List Bool) : Nat := crcBits 8 0x07 0 bits

/-- The address tag (R47): CRC-64 over bytes 0 to 4,103 of the sector, from the seed. -/
def addressTag (seed data : Nat) : Nat :=
  (List.range 4104).foldl (fun r c => crcBits 64 0x42F0E1EBA9EA3693 r (bitsMsb 8 (byteOf data c))) seed

/-- The tag seed (R47): GEN, FMT_ID and the 38-bit physical sector address. -/
def tagSeed (gen fmt addr : Nat) : Nat := (gen % 256) * 2 ^ 56 + (fmt % 256) * 2 ^ 48 + addr % 2 ^ 38

/-- One step of the reflected CRC-32C register over one byte. -/
def crc32cByte (r b : Nat) : Nat :=
  (List.range 8).foldl (fun x _ => if x % 2 = 1 then (x / 2) ^^^ 0x82F63B78 else x / 2) (r ^^^ b)

/-- CRC-32C over bytes (R487). The spec names it and gives no parameters. -/
def crc32c (bytes : List Nat) : Nat := (bytes.foldl crc32cByte 0xFFFFFFFF) ^^^ 0xFFFFFFFF

/-- The PRBS31 seed of a slot (R45): TRACK[19:0] followed by SLOT; zero becomes 0x7FFF_FFFF. -/
def prbsSeed (track slot : Nat) : Nat :=
  let x := (track % 2 ^ 20) * 2 ^ 11 + slot % 2 ^ 11
  if x = 0 then 0x7FFFFFFF else x

/-- n bits of the PRBS31 sequence, generator x^31 + x^28 + 1, from the state of its register (R45). The bit that is
fed back is the sequence's output: R45 names no tap (DESIGN CHOICE, log 220). -/
def prbs31 : Nat → Nat → List Bool
  | 0, _ => []
  | n + 1, r =>
    let b := r.testBit 30 != r.testBit 27
    b :: prbs31 n ((2 * r) % 2 ^ 31 + b2n b)

/-- XOR of two bit strings. -/
def xorBits (a b : List Bool) : List Bool := (a.zip b).map (fun x => x.1 != x.2)

/-- The number whose bytes 0, 1, … a bit string spells, most significant bit of each byte first. -/
def bytesOfBits : Nat → List Bool → Nat
  | 0, _ => 0
  | n + 1, b => bitsToNat (b.take 8) + 2 ^ 8 * bytesOfBits n (b.drop 8)

/-! ### The sector (R42 to R46) -/

/-- The track and the slot of a tag seed's address. -/
def seedPlace (seed : Nat) : Nat × Nat := ((seed / 2 ^ 11) % 2 ^ 21, seed % 2 ^ 11)

/-- The scrambling sequence of the information part of a sector with a tag seed (R45). -/
def scrambler (seed : Nat) : List Bool := prbs31 32896 (prbsSeed (seedPlace seed).1 (seedPlace seed).2)

/-- The information part of a sector (R44): its bytes 0 to 4,103 and its address tag, most significant byte first. -/
def infoBits (x : MediaSector) : List Bool :=
  (List.range 4104).flatMap (fun c => bitsMsb 8 (byteOf x.data c)) ++ bitsMsb 64 (addressTag x.seed x.data)

/-- A 128-bit block rotated by n bits. -/
def rot128 (b n : Nat) : Nat := (b * 2 ^ n) % 2 ^ 128 + b / 2 ^ (128 - n)

/-- A 128 × 128 circulant, given by its first row, applied to a block of 128 bits. -/
def circulant (b u : Nat) : Nat :=
  if b = 0 then 0
  else (List.range 128).foldl (fun a i => if u.testBit i then a ^^^ rot128 b i else a) 0

/-- Cut a bit string into n blocks of 128 bits. -/
def blocks128 : Nat → List Bool → List Nat
  | 0, _ => []
  | n + 1, b => bitsToNat (b.take 128) :: blocks128 n (b.drop 128)

/-- The 3,968 parity bits of an information part (R46): 31 block rows over the 257 information columns of the
parity-check matrix in its systematic form. -/
def ldpcParity (info : List Bool) : List Bool :=
  let u := blocks128 257 info
  (List.range 31).flatMap (fun r => bitsMsb 128
    (((List.range 257).zip u).foldl (fun a e => a ^^^ circulant (Config.ldpcBlock r e.1 % 2 ^ 128) e.2) 0))

/-- The codeword of an information part: its 32,896 bits and the parity bits (R46). -/
def ldpcEncode (info : List Bool) : List Bool := info ++ ldpcParity info

/-- The syndrome of a word of 36,864 bits: a codeword has none but zeros. -/
def ldpcSyndrome (w : List Bool) : List Bool := xorBits (ldpcParity (w.take 32896)) (w.drop 32896)

/-- The pattern 1100, n times. -/
def pattern1100 (n : Nat) : List Bool := (List.replicate n [true, true, false, false]).flatten

/-- The 37,024 bits of a sector, bit 0 first: preamble, sync mark, the codeword of the scrambled information part, pad
(R42, R45). -/
def sectorBits (x : MediaSector) : List Bool :=
  pattern1100 24 ++ bitsMsb 32 x.pat ++ ldpcEncode (xorBits (infoBits x) (scrambler x.seed)) ++ pattern1100 8

/-- What a decode of a sector gives to a reader at another address: bytes 0 to 4,103 and the tag after the reader's sequence is
taken off (R45). Where the two sequences are the same, they are those written. -/
def descrambled (x : MediaSector) (seed : Nat) : Nat × Nat :=
  let tag := addressTag x.seed x.data
  if seedPlace seed = seedPlace x.seed then (x.data, tag)
  else
    let q := xorBits (scrambler x.seed) (scrambler seed)
    (x.data ^^^ bytesOfBits 4104 q, tag ^^^ bitsToNat (q.drop 32832))

/-- The default sync mark (R43). -/
def syncDefault : Nat := 0x8A3B5E71

/-- Bits in which two 32-bit patterns differ. -/
def hamming32 (a b : Nat) : Nat := ((List.range 32).filter (fun i => a.testBit i != b.testBit i)).length

/-- The smallest distance of a sync mark from a 32-bit window of the preamble (R43). -/
def syncDistance (pat : Nat) : Nat :=
  ((List.range 4).map (fun i => hamming32 pat (bitsToNat (((pattern1100 9).drop i).take 32)))).foldl min 32

/-! ### Precompensation (R89) -/

/-- The transitions of a bit string whose predecessor is `prev`: the current reverses at each change of bit value. -/
def transitions (prev : Bool) : List Bool → List Bool
  | [] => []
  | b :: r => (b != prev) :: transitions b r

/-- The delay of each bit's transition in 1/64 bit: PC1 after a transition 1 bit earlier, else PC2 after one 2 bits
earlier, PC3 more before a transition 1 bit later, at most 63. `t1` and `t2` say whether the two bits before had
transitions. -/
def precomp (pc1 pc2 pc3 : Nat) (t1 t2 : Bool) : List Bool → List Nat
  | [] => []
  | x :: r =>
    (if x then min 63 ((if t1 then pc1 else if t2 then pc2 else 0) + (if r.headD false then pc3 else 0)) else 0) ::
      precomp pc1 pc2 pc3 x t1 r

/-! ### GF(2^8) and the Stripe code (R50) -/

/-- Multiply by α in GF(2^8) with polynomial 0x11D. -/
def gfX (a : Nat) : Nat := if 2 * a ≥ 256 then (2 * a) ^^^ 0x11D else 2 * a

/-- Multiply, on n bits of the second factor. -/
def gfMulN : Nat → Nat → Nat → Nat
  | 0, _, _ => 0
  | n + 1, a, b => (if b % 2 = 1 then a else 0) ^^^ gfMulN n (gfX a) (b / 2)

/-- Multiply in GF(2^8). -/
def gfMul (a b : Nat) : Nat := gfMulN 8 a b

/-- Powers in GF(2^8). -/
def gfPow (a : Nat) : Nat → Nat
  | 0 => 1
  | n + 1 => gfMul a (gfPow a n)

/-- The inverse of a nonzero element. -/
def gfInv (a : Nat) : Nat := gfPow a 254

/-- α^n, α a root of the field polynomial. -/
def alphaPow (n : Nat) : Nat := gfPow 2 n

/-- Multiply a polynomial (constant term first) by (z − x). -/
def polyTimes (q : List Nat) (x : Nat) : List Nat :=
  (List.range (q.length + 1)).map (fun i => (if i = 0 then 0 else q.getD (i - 1) 0) ^^^ gfMul x (q.getD i 0))

/-- The generator (z − α^0) … (z − α^(p−1)), constant term first. -/
def rsGen (p : Nat) : List Nat := (List.range p).foldl (fun q i => polyTimes q (alphaPow i)) [1]

/-- One data symbol into the remainder register; highest power first. -/
def rsStep (p : Nat) (rem : List Nat) (d : Nat) : List Nat :=
  let g := rsGen p
  let fb := d ^^^ rem.headD 0
  (List.range p).map (fun i => rem.getD (i + 1) 0 ^^^ gfMul fb (g.getD (p - 1 - i) 0))

/-- The parity symbols of one column, in slot order. -/
def rsColumn (p : Nat) (ds : List Nat) : List Nat := ds.foldl (rsStep p) (List.replicate p 0)

/-- The p parity sectors of a Stripe's data sectors, column by column (R50, R51). -/
def rsParity (p : Nat) (ds : List Nat) : List Nat :=
  let cols := (List.range 4104).map (fun c => rsColumn p (ds.map (fun d => byteOf d c)))
  (List.range p).map (fun i => ((List.range 4104).zip cols).foldl (fun a e => a + (e.2.getD i 0) * 2 ^ (8 * e.1)) 0)

/-- Syndrome j of a received column, symbol k the coefficient of z^(n−1−k). -/
def rsSyndrome (rs : List Nat) (j : Nat) : Nat :=
  (List.range rs.length).foldl (fun a k => a ^^^ gfMul (rs.getD k 0) (alphaPow (j * (rs.length - 1 - k)))) 0

/-- The erased symbols of a column, by interpolation at the erasures' locators; `none` where a spare syndrome is not
zero (R57). The received column holds zero at each erasure. -/
def rsSolveColumn (p : Nat) (rs : List Nat) (era : List Nat) : Option (List Nat) :=
  let loc := era.map (fun k => alphaPow (rs.length - 1 - k))
  let vals := loc.map (fun x =>
    let others := loc.filter (fun y => decide (y ≠ x))
    let num := others.foldl polyTimes [1]
    let den := others.foldl (fun a y => gfMul a (x ^^^ y)) 1
    gfMul (gfInv den) ((List.range num.length).foldl (fun a j => a ^^^ gfMul (num.getD j 0) (rsSyndrome rs j)) 0))
  let spare := (List.range p).filter (fun j => decide (era.length ≤ j))
  if spare.all (fun j =>
      decide ((loc.zip vals).foldl (fun a e => a ^^^ gfMul e.2 (gfPow e.1 j)) (rsSyndrome rs j) = 0))
  then some vals else none

/-- The erased sectors of a Stripe, solved column by column (R57). -/
def rsSolve (p : Nat) (rs : List Nat) (era : List Nat) : Option (List Nat) :=
  let cols := (List.range 4104).map (fun c => rsSolveColumn p (rs.map (fun d => byteOf d c)) era)
  if cols.all Option.isSome then
    some ((List.range era.length).map (fun i =>
      ((List.range 4104).zip cols).foldl (fun a e => a + ((e.2.getD []).getD i 0) * 2 ^ (8 * e.1)) 0))
  else none

/-! ### Stripe plans (R52, R53) -/

/-- Cut the usable slots into Stripes of the given data counts, each followed by p parity slots. -/
def cutStripes (p : Nat) : List Nat → List Nat → List (List Nat × List Nat)
  | [], _ => []
  | d :: ds, u => (u.take d, (u.drop d).take p) :: cutStripes p ds (u.drop (d + p))

/-- The fixed plan of R52 over the usable slots: data counts d / s, the longer Stripes first. -/
def fixedPlan (p : Nat) (usable : List Nat) : List (List Nat × List Nat) :=
  let u := usable.length
  if u ≤ p then [] else
    let n := (u + 64 + p - 1) / (64 + p)
    let d := u - n * p
    cutStripes p ((List.range n).map (fun j => d / n + (if j < d % n then 1 else 0))) usable

/-- One entry of a written plan (R126): its Stripe over the slots that are not flagged, from FIRST. -/
def planStripe (usable : List Nat) (w : Word) : List Nat × List Nat :=
  let d := wordField w 20 14
  let p := wordField w 13 10
  let u := usable.filter (fun x => decide (wordField w 31 21 ≤ x))
  (u.take d, (u.drop d).take p)

/-- The start wedge of a track (R40), from the descriptor's fields. -/
def startWedge (skew dir first last track : Nat) : Nat := ((if dir = 0 then track - first else last - track) * skew) % 640

/-- The wedge and the beat of a data beat of a track, counted from the first data beat of its start wedge (R40). -/
def dataBeatAt (beats servoBeats sw off : Nat) : Nat × Nat :=
  ((sw + off / (beats - servoBeats)) % 640, servoBeats + off % (beats - servoBeats))

/-- The wedge and the beat where a slot begins (R40). -/
def slotStart (beats servoBeats sw slot : Nat) : Nat × Nat := dataBeatAt beats servoBeats sw (slot * 1157)

end Sys2Proof.Machine
end

