-- ==== Sys2Proof/Machine/State.lean ====
section
/-! DEFINITION. The machine's state: every unit's registers and hidden state, the media, the buffer memory, what survives a
reset, the queue of commands, and the state right after reset. Registers hold their reset values of the register tables of
spec/01 to spec/16; what no table gives is named in the assumption log. -/

namespace Sys2Proof.Machine

/-- The device. `pending` is the queue of commands, oldest first; `media` holds the sectors by packed physical
address, `mem` the buffer memory by byte address, `staging` the Staging Buffer by page; `free` counts the uses of
values that the spec leaves open. -/
structure State where
  pending : List Instr
  part : Part
  sys : Sys
  evr : Evr
  mck : Mck
  pins : Pins
  mcs : Quad Mc
  media : List (Nat × MediaSector)
  mem : List (Nat × Byte)
  staging : List (Nat × Nat)
  sce : Sce
  scu : Scu
  tdl : Tdl
  ple : Ple
  hqe : Hqe
  nv : Nv
  elg : Elg
  bmc : Bmc
  mpc : Mpc
  dma : Dma
  pct : Pct
  tmn : Tmn
  cal : Cal
  clp : Clp
  free : Nat
  deriving DecidableEq, Repr

/-- Why the machine stops. `outsideRatings` is raised by POR alone, where VIN stands above the absolute maximum of R472: the spec
says that such a stress may damage the device, and gives no effect (safe: the hardware may go on where the model stops). -/
inductive Fault where
  | outsideRatings
  deriving DecidableEq, Repr

/-- Why a command is refused. `notModelled` is raised by an arm of the dispatcher whose command has no meaning yet, by its
mnemonic (safe: nothing is claimed of it). -/
inductive Refusal where
  | notModelled (mnemonic : String)
  deriving DecidableEq, Repr

/-! ### The units right after a reset -/

/-- Four equal things. -/
def Quad.all {α : Type} (x : α) : Quad α := ⟨x, x, x, x⟩

/-- A Media Channel after its reset. -/
def Mc.reset : Mc where
  csr := initMc
  wg := false
  ag := false
  own := false
  ownRelease := false
  hfltLow := false
  serialZ := true
  wgHold := false
  wdIdle := true
  wd := none
  markSeen := false
  relock := 0
  wedge := 0
  syn := ⟨0, none, 0, 0, 0⟩
  loop := ⟨.initial, 0, 0, 0, 0⟩
  taps := List.replicate 32 0
  decNext := false
  decoding := []
  adcMask := []
  adcTarget := []
  adcThr := []
  ascLevel := []
  ascAge := []
  onTimeUs := []
  rises := []
  agHist := []
  dutyHold := []
  elem := .off
  level := 0
  bias := 0
  leadEnded := false
  agAt := none
  agWait := false
  preload := []
  ascQ := []
  msqQ := []
  fwQ := none
  busy := none
  lastBits := 0
  shadow := none
  zone := []
  sbuf := none
  lastData := 0
  store := []
  staged := []
  readLatch := 0
  vendorLoaded := false
  knobs := []
  jt := []
  armed := []
  holds := []
  loadHold := false
  disablePending := false
  job := none
  events := []
  evtLatch := none
  trace := []
  coreReports := 0

/-- An actuator's loop after its reset: OFF, with sections and estimator at zero (R153, R158). -/
def Act.reset : Act where
  state := 0
  cmd := 0
  trk := 0
  lim := 0x9A665244
  head := 0
  target := 0
  srvofs := 0
  srvPending := none
  readerOfs := 0
  x0 := 0
  x1 := 0
  x2 := 0
  seeded := false
  secs := List.replicate 16 (0, 0)
  pref := 0
  vref := 0
  aref := 0
  braking := false
  onTrack := false
  pesHigh := false
  miss := false
  inhTrack := false
  ccnt := 0
  setCnt := 0
  plaus := 0
  lostCnt := 0
  seekRun := none
  seekt := 0
  seekDist := none
  coast := 0
  rej := 0
  stopping := false
  run := .idle
  out := ⟨0, 0⟩
  lastOut := ⟨0, 0⟩
  applied := ⟨0, 0⟩
  claim := false
  parkedSense := false
  bemf := 0
  imeas := 0
  wedgeBad := false
  failSeen := false
  failWedges := 0
  pushUntil := none
  parked := false

/-- The SCE after its reset. -/
def Sce.reset : Sce where
  csr := initSce
  acts := Quad.all Act.reset
  coefs := []
  bankSel := []
  tbl := []
  zcopy := []
  spn := ⟨List.replicate 4 (0, 0), 0, .idle, 0, 0, false, 0, 0, 0, 0, 0⟩
  wedgeSpeed := 0
  pslQ := []
  pslOut := []
  pslSeq := 0
  pslFrame := 0

/-- The SCU after its reset: STOP, gates off. -/
def Scu.reset : Scu where
  csr := initScu
  ctab := []
  gates := .off
  amp := 0
  brakeAmp := 0
  legs := List.replicate 3 ⟨0, false, 0, 0, false⟩
  half := false
  angle := 0
  obsAngle := 0
  obsFrac := 0
  obsSpeed := 0
  wedgeSrc := false
  losRun := 0
  agree := 0
  zcRun := 0
  anyCross := false
  obsValid := false
  bandSeen := false
  ampLim := 0
  rectCmd := false
  lockedWait := false
  brakeHold := false
  inhibit := false
  turns := 0
  check := false
  rampN := 0
  rampAcc := 0
  pinsZ := true

/-- An empty map. -/
def MapImage.empty : MapImage := ⟨[], [], [], [], [], [], [], [], [], [], [], 0, [], []⟩

/-- A scheduler with nothing in it. -/
def Sched.reset : Sched := ⟨[], [], [], [], 0, 0, 0, 0, 0, 0, false, 0, 0, 0, 0, 0, 0, 0, 0⟩

/-- The PLE after its reset. -/
def Ple.reset : Ple where
  csr := initPle
  map := MapImage.empty
  dirty := []
  persisted := []
  sched := Quad.all Sched.reset
  heat := []
  claims := []
  nextId := 1
  jseq := 0
  jflushed := 0
  jring := []
  jpos := 0
  jbuf := []
  jout := none
  snapNum := 0
  snapSeq := 0
  snapAt := 0
  snapping := none
  mapst := 0
  binds := []
  streams := []
  streamBand := []
  runs := []
  seqs := []
  streamKeys := []
  pool := []
  ghosts := []
  copies := []
  mergeAt := 0
  pages := []
  rebuilds := []
  remakes := []
  relocs := []
  lateDefects := []
  relocWait := []
  restages := []
  echoJobs := []
  deep := []
  resets := []
  echoSusp := false

/-- No sanitize was ever started. -/
def Sanitize.none : Sanitize := ⟨0, 0, 0, 0, 0, 0, false, false⟩

/-- The HQE after its reset. -/
def Hqe.reset : Hqe where
  csr := initHqe
  fns := []
  slots := []
  fetching := []
  rrAdmin := 0
  rrUrgent := 0
  rrReg := 0
  order := 0
  commits := 0
  nonce := none
  unlock := none
  activating := none
  san := Sanitize.none
  lastCqe := []
  feats := []
  ioReady := false
  smart := 0
  images := []
  peers := []
  qctx := []

/-- What survives a reset, in a device that has never been written. -/
def Nv.blank : Nv where
  opt := []
  optA := ⟨[], 0⟩
  optB := ⟨[], 0⟩
  optDue := none
  rec0 := []
  rec1 := []
  keys := []
  snaps := []
  ring := []
  dump := none
  feats := []
  logC1 := []
  fwBuf := 0
  fwSlots := (0, 0)
  fwActive := 1
  fwNext := 1
  evlog := []
  optime := 0
  pwrcyc := 0
  san := Sanitize.none
  predump := []
  pretail := []
  clpTable := []
  pageSeq := 0
  retired := []
  wear := []
  custImg := []
  use := ⟨0, 0, 0, 0, 0, 0, 0⟩
  widths := []
  life := []
  zoneReads := []
  zoneFix := []
  sectors := (0, 0)
  frontier := none

/-- The Energy Ledger after its reset. -/
def Elg.reset : Elg where
  csr := initElg
  meters := []
  bin := []
  bins := []
  hiLatch := 0
  power := []
  anchors := []
  sLast := 0
  fell := none
  wt := false
  reason := 0
  predumping := false
  predumped := 0
  plim := none
  quiet := 0
  pIdle := 0
  pMc := 0
  newCross := false
  lastStep := 0
  lastOp := 0
  wtSince := 0
  wtTotal := 0

/-- The Tandem Link after its reset. -/
def Tdl.reset : Tdl where
  csr := initTdl
  replay := []
  nextSeq := 0
  outC := []
  outM := []
  lastCtrl := false
  rxSeq := 0
  mseqTx := 0
  mseqAck := 0
  mseqRx := 0
  unacked := []
  resendAtBeat := false
  partner := none
  peer := none
  cmds := []
  held := []
  ranges := []
  sent := []
  got := []
  endedFirst := []
  returned := []
  asked := []
  won := []
  releases := []
  accepted := none
  handoff := .none
  serving := .none
  prep := none
  anaChanges := 0
  helloSeen := false
  beats := 0
  beatStopped := false
  nak := false
  yielding := false
  roles := false

/-- The CLP after its reset. -/
def Clp.reset : Clp where
  csr := initClp
  xchg := []
  req := .idle
  nextReq := 1
  queue := []
  active := []
  restartWait := true
  members := []
  master := false
  follow := none
  place := none
  pairBeat := none
  pairFlags := 0
  yield_ := false
  solo := false
  tocsins := []
  nextEvent := 0
  seen := []
  dialects := []
  strangerAt := none
  sent := []
  answered := 0
  slotSent := none
  key := List.replicate 16 0

/-- SYS after a power-on reset, before POR is released (R449, R474). -/
def Sys.reset : Sys where
  csr := initSys
  us := 0
  optSecLatch := 0
  phase := .unpowered
  dump := .none
  coreIrqs := 0
  rdata := 0
  optBase := 0
  tap := ⟨.idcode, 0, []⟩
  wdogOut := false

/-- The signals of a device without power. -/
def Pins.reset : Pins := ⟨0, false, false, false, false, false, false, false, []⟩

/-- The machine right after reset: no boot has run, nothing has ever been written, nothing waits. -/
def State.reset : State where
  pending := []
  part := .dhk7440
  sys := Sys.reset
  evr := ⟨initEvr, [], [], []⟩
  mck := ⟨initMck, []⟩
  pins := Pins.reset
  mcs := Quad.all Mc.reset
  media := []
  mem := []
  staging := []
  sce := Sce.reset
  scu := Scu.reset
  tdl := Tdl.reset
  ple := Ple.reset
  hqe := Hqe.reset
  nv := Nv.blank
  elg := Elg.reset
  bmc := ⟨initBmc, [], 0, none, [], [], false, false⟩
  mpc := ⟨initMpc, [], [], none, [], none, [], false⟩
  dma := ⟨initDma, [], 0, 0⟩
  pct := ⟨initPct, [], [], [], (false, false), (false, false), [], [], [], [], false, false⟩
  tmn := ⟨initTmn, [], [], none⟩
  cal := ⟨initCal, [], [], [], [], [], [], []⟩
  clp := Clp.reset
  free := 0

end Sys2Proof.Machine
end

