-- ==== Sys2Proof/Machine/Ops.lean ====
section
/-! DEFINITION. Shared operations: access to the Media Channels, free values, the recorder's posts, machine checks, Carillon's sends
and what several units ask of one another. -/
namespace Sys2Proof.Machine

/-- The thing of a Media Channel. -/
def quadGet {α : Type} (q : Quad α) (k : Fin 4) : α :=
  match k with
  | 0 => q.m0
  | 1 => q.m1
  | 2 => q.m2
  | 3 => q.m3

/-- Replace the thing of a Media Channel. -/
def quadSet {α : Type} (q : Quad α) (k : Fin 4) (x : α) : Quad α :=
  match k with
  | 0 => { q with m0 := x }
  | 1 => { q with m1 := x }
  | 2 => { q with m2 := x }
  | 3 => { q with m3 := x }

/-- A Media Channel; replace it; change it. -/
def mcOf (s : State) (k : Fin 4) : Mc := quadGet s.mcs k
def setMc (k : Fin 4) (m : Mc) (s : State) : State := { s with mcs := quadSet s.mcs k m }
def modMc (k : Fin 4) (f : Mc → Mc) (s : State) : State := setMc k (f (mcOf s k)) s

/-- A value the spec leaves open at one use. -/
def takeFree (s : State) : Nat × State := (Config.freeNat s.free, { s with free := s.free + 1 })

/-- Operating time in seconds (R464). -/
def nowSec (s : State) : Nat := s.nv.optime + (s.sys.us - s.sys.optBase) / 1000000

/-- A post to the recorder (R488): queued with the clock at its trigger, or dropped and counted. -/
def evrPost (cls id : Nat) (detail : Word) (syn : List Word) (s : State) : State :=
  let e := s.evr
  if !rdB e.csr EVR_CTL.EN || decide (16 ≤ e.posts.length) then
    { s with evr := { e with csr := incR e.csr EVR_LOST 1 } }
  else
    let p : EvrPost := ⟨cls, id, detail, BitVec.ofNat 32 s.nv.pwrcyc, BitVec.ofNat 32 (nowSec s / 3600), nowSec s % 3600, syn⟩
    { s with evr := { e with posts := e.posts ++ [p] } }

/-- Do something if a condition holds. -/
def when_ (b : Bool) (f : State → State) (s : State) : State := if b then f s else s

/-- A record of a class that R490 has posted at an event; the rules give it no ID and no DETAIL. -/
def postEvent (cls : Nat) (s : State) : State :=
  let f := takeFree s
  evrPost cls (f.1 % 65536) (Config.freeWord f.1) [] f.2

/-- A MEDIA event (GDL entries, retirements, map state changes), a MOTION event (LOST entries, catch-spins), an ENERGY event
(write-through, precautionary dumps, thermal CRIT), a PAIR event, a COORD event, and a FIRMWARE event (PSA retirements,
firmware activation). -/
def mediaEvent (s : State) : State := postEvent 2 s
def motionEvent (s : State) : State := postEvent 3 s
def energyEvent (s : State) : State := postEvent 4 s
def pairEvent (s : State) : State := postEvent 5 s
def coordEvent (s : State) : State := postEvent 6 s
def firmwareEvent (s : State) : State := postEvent 7 s

/-- The lowest severities that interrupt the cores and that assert FLT_N (R497, MCK_CTL). -/
def intSev (s : State) : Nat := min 2 (rdF s.mck.csr MCK_CTL.INTSEV)
def fltSev (s : State) : Nat := rdF s.mck.csr MCK_CTL.FLTSEV

/-- A syndrome is raised (R495 to R499): it is counted, kept if the FIFO has room, and routed by its severity to the cores,
to the recorder and to FLT_N. The effects of a fatal one on other units are `fatalEffects`. The spec gives the record of a
machine check no ID and no DETAIL. -/
def machineCheck (unit code sev : Nat) (addr info : Word) (s : State) : State :=
  let m := s.mck
  let syn : List Word := [BitVec.ofNat 32 (code + 256 * unit + 65536 * sev), addr, info, BitVec.ofNat 32 s.sys.us]
  let c := incR m.csr MCK_COUNT 1
  let c := wrF c MCK_STAT.MAXSEV (max sev (rdF c MCK_STAT.MAXSEV))
  let c := if fltSev s ≤ sev then wrB c MCK_STAT.FLT true else c
  let c := if sev = 3 then wrB c MCK_STAT.FATAL true else c
  let kept : Bool := decide (m.fifo.length < 16)
  let c := if kept then c else incR (wrB c MCK_STAT.OVF true) MCK_LOST 1
  let s := { s with
    mck := { m with csr := c, fifo := if kept then m.fifo ++ [syn] else m.fifo }
    sys := { s.sys with coreIrqs := if intSev s ≤ sev then s.sys.coreIrqs + 1 else s.sys.coreIrqs } }
  let f := takeFree s
  evrPost 1 (f.1 % 65536) (Config.freeWord f.1) syn f.2

/-- The canonical form of buffer memory: addresses strictly rising, and no byte listed that an unlisted address reads as. -/
def Memory.wf (m : List (Nat × Byte)) : Bool := twf 0 m

/-- A byte of buffer memory. -/
def memByte (m : List (Nat × Byte)) (a : Nat) : Nat := (tget 0 m a).toNat

/-- The wedge period in ps, 640 wedges to a revolution: the one the SCE last measured, or before that the one that the speed
set-point of SCE_SPN_SET gives (R38). -/
def wedgePeriodPs (s : State) : Nat :=
  375000000000 / max 1 (if s.sce.wedgeSpeed = 0 then rdF s.sce.csr SCE_SPN_SET.SPEED else s.sce.wedgeSpeed)

/-- FMT_ID of the option area (R47, R355). -/
def fmtId (s : State) : Nat := (tget 0 s.nv.opt 3).toNat % 256

/-- A Track Job's end is noted for the scheduler, which resolves it before its next decision (R225). -/
def jobEndHook (k : Fin 4) (entry cls : Nat) (s : State) : State :=
  let q := quadGet s.ple.sched k
  let q := { q with ended := q.ended ++ [(entry, cls)] }
  { s with ple := { s.ple with sched := quadSet s.ple.sched k q } }

/-- Bytes of the buffer space (R303, R314): 27/32 of the four channels, three quarters of that in three-channel mode. -/
def bufferSpace (s : State) : Nat :=
  let giB := 2 ^ 30
  let dens := match rdF s.bmc.csr BMC_CFG.DENS with
    | 1 => 4 * giB
    | 2 => 8 * giB
    | 3 => 16 * giB
    | _ => 0
  let all := dens / 32 * 27
  if s.bmc.absent.isSome then all / 4 * 3 else all

/-! ### Pages of buffer memory (R303, R306, R313) -/

/-- Pages in the buffer space. -/
def bufferPages (s : State) : Nat := bufferSpace s / 4096

/-- The channels in use, in order; one fewer in three-channel mode (R314). -/
def channels (s : State) : List Nat := ([0, 1, 2, 3] : List Nat).filter (fun c => decide (s.bmc.absent ≠ some c))

/-- The channel of a page's data. -/
def pageChannel (s : State) (n : Nat) : Nat :=
  let l := channels s
  l.getD (n % max 1 l.length) 0

/-- The channel of a page's check block. -/
def checkChannel (s : State) (n : Nat) : Nat :=
  let l := channels s
  l.getD ((n + 1) % max 1 l.length) 0

/-- The channel that has failed since boot, if one has. -/
def failedChannel (s : State) : Option Nat :=
  if rdB s.bmc.csr BMC_STAT.DEGRADED then some (rdF s.bmc.csr BMC_STAT.FAILCH) else none

/-- Pages in one protected group: 4, or 3 with three channels. -/
def groupSize (s : State) : Nat := (channels s).length

/-- The protected group of a page as its first page and its parity page; none outside the region, or while PROT_EN is 0. -/
def groupOf (s : State) (n : Nat) : Option (Nat × Nat) :=
  let base := (rd s.bmc.csr BMC_PROT_BASE).toNat
  let size := (rd s.bmc.csr BMC_PROT_SIZE).toNat
  let w := max 1 (groupSize s)
  if rdB s.bmc.csr BMC_CTL.PROT_EN ∧ base ≤ n ∧ n < base + size then
    let g := (n - base) / w
    some (base + w * g, base + w * g + g % w)
  else none

/-- Whether a page is a parity page. -/
def parityPage (s : State) (n : Nat) : Bool := match groupOf s n with
  | some g => decide (n = g.2)
  | none => false

/-- Byte i of a page as last written. -/
def pageByte (s : State) (n i : Nat) : Byte := tget 0 s.mem (4096 * n + i)

/-- Write one byte of memory, codes aside. -/
def memPut (a : Nat) (b : Byte) (s : State) : State := { s with mem := tput 0 s.mem a b }

/-- Write a byte of a page; a data page of the protected region adds the change into its parity page. -/
def putByte (n i : Nat) (b : Byte) (s : State) : State :=
  match groupOf s n with
  | none => memPut (4096 * n + i) b s
  | some g => memPut (4096 * n + i) b (memPut (4096 * g.2 + i) (pageByte s g.2 i ^^^ (pageByte s n i ^^^ b)) s)

/-- A page's stale bit is cleared, and it leaves the recompute queue. -/
def unstale (n : Nat) (s : State) : State := { s with bmc := { s.bmc with stale := s.bmc.stale.filter (· ≠ n) } }

/-- A page's stale bit is set, and it enters the recompute queue (R306). The queue holds 4,096 pages (R309): pages
behind those belong to writes that wait in the BMC, which keeps accesses to one address in order, so their bytes stand
already as every later access finds them (DEDUCED, log 240). -/
def markStale (n : Nat) (s : State) : State :=
  if s.bmc.stale.contains n then s else { s with bmc := { s.bmc with stale := s.bmc.stale ++ [n] } }

/-- Whether the BMC serves requests: it is on, and no second channel has failed (R314). -/
def bmcServes (s : State) : Bool := rdB s.bmc.csr BMC_CTL.EN && !s.bmc.down

/-- A write of bytes by their addresses, as every requester inside the device makes it: no parity page is written
(R313), the group's parity is kept, a page that is written whole has its check, and any other page is stale (R306). -/
def dramPut (bytes : List (Nat × Byte)) (s : State) : State :=
  let pages := (bytes.map (fun e => e.1 / 4096)).dedup
  pages.foldl (fun s n =>
    let mine := bytes.filter (fun e => decide (e.1 / 4096 = n))
    if parityPage s n then machineCheck 10 0x02 1 (BitVec.ofNat 32 n) 0 s
    else
      let s := mine.foldl (fun s e => putByte n (e.1 % 4096) e.2 s) s
      if (mine.map Prod.fst).dedup.length = 4096 then unstale n s else markStale n s) s

/-- Put bytes into buffer memory from an address on. -/
def bufPut (a : Nat) (bs : List Nat) (s : State) : State :=
  dramPut (((List.range bs.length).zip bs).map (fun e => (a + e.1, BitVec.ofNat 8 e.2))) s

/-- Update the SYS registers. -/
def sysReg (f : List (Nat × Word) → List (Nat × Word)) (s : State) : State := { s with sys := { s.sys with csr := f s.sys.csr } }

/-- A step of R455 begins: its number in SYS_BOOT_STAT, and on the diagnostic UART. -/
def bootStage (n : Nat) (s : State) : State :=
  let s := sysReg (fun c => wrF c SYS_BOOT_STAT.STAGE n) s
  { s with pins := { s.pins with uart := s.pins.uart ++ [n] } }

/-- The big-endian bytes of a number, as Carillon sends them (R428). -/
def bytesBE (n v : Nat) : List Nat := ((List.range n).map (fun i => (v / 2 ^ (8 * i)) % 256)).reverse

/-- Update the CLP and its registers. -/
def modClp (f : Clp → Clp) (s : State) : State := { s with clp := f s.clp }
def clpReg (f : List (Nat × Word) → List (Nat × Word)) (s : State) : State := modClp (fun c => { c with csr := f c.csr }) s

/-- The address of the CLP's memory region (R445). -/
def clpBase (s : State) : Nat := 4096 * (rd s.clp.csr CLP_MEM_BASE).toNat

/-- Firmware enters a message in a transmit ring: TYPE, SCOPE, LENGTH and body in their places of the message (R445). A write
of the producer that would fill the ring is ignored (CLP_TXQ), so nothing is entered then. -/
def clpSend (alarm : Bool) (type scope : Nat) (body : List Nat) (s : State) : State :=
  let size := if alarm then 16 else 64
  let prod := rdF s.clp.csr (if alarm then CLP_TXQ.APROD else CLP_TXQ.NPROD)
  let cons := rdF s.clp.csr (if alarm then CLP_TXQ.ACONS else CLP_TXQ.NCONS)
  let at_ := clpBase s + (if alarm then 0x10000 else 0x11000) + 256 * prod
  if !rdB s.clp.csr CLP_CTL.EN || decide ((prod + 1) % size = cons ∨ (prod + 2) % size = cons) then s
  else
    let head := [1, type, 128 * scope, 7 * scope, 0, 0, 0, 0, 0, 0, 0, 0] ++ bytesBE 2 body.length ++ [0, 0]
    clpReg (fun c => wrF c (if alarm then CLP_TXQ.APROD else CLP_TXQ.NPROD) ((prod + 1) % size))
      (bufPut (at_ + 16) (head ++ body) s)

/-- A Carillon field of the option area: 402 the start's duration, 401 its watts, 403 the sled, 404 the supply domain, 405 the
pair partner's node number. -/
def clpOpt (s : State) (n : Nat) : Nat := (tget 0 s.nv.opt n).toNat

/-- The body of a TOCSIN (R442). -/
def tocsinBody (m : TocsinMsg) : List Nat :=
  bytesBE 2 m.subject ++ bytesBE 2 m.code ++ [m.sev, 0, 0, 0] ++ bytesBE 4 m.event ++ bytesBE 4 m.detail

/-- A TOCSIN event (R442): its first copy is entered, two more follow. The subject of code 1 is the pair partner. The rules
give the codes no severity and no DETAIL. -/
def tocsin (code : Nat) (s : State) : State :=
  if !rdB s.clp.csr CLP_CTL.EN then s
  else
    let f := takeFree s
    let who := if code = 1 then clpOpt s 405 else rdF s.clp.csr CLP_NODE.NODE
    let m : TocsinMsg := ⟨who, code, f.1 % 3, s.clp.nextEvent, (Config.freeWord f.1).toNat⟩
    let s := modClp (fun c => { c with nextEvent := (c.nextEvent + 1) % 2 ^ 32, tocsins := c.tocsins ++ [⟨m, 2⟩] }) f.2
    clpSend true 6 1 (tocsinBody m) s

/-- A Media Channel that a self-test took out of service (R459). -/
def mcOutOfService (s : State) (k : Fin 4) : Bool :=
  let f := rdF s.sys.csr SYS_BIST_FAIL.ITEMS
  f.testBit (4 + k.val) || f.testBit (8 + k.val) || f.testBit (12 + k.val)
def mcEvent (k : Fin 4) (s : State) : State := modMc k (fun m => { m with coreReports := m.coreReports + 1 }) s

/-- Whether admin commands run (R455, R456): from the end of step 7 on, also under the recovery image after a failed self-test
(R459, R461). The halts of factory state, of DRAM and of images that do not verify never get there. -/
def adminReady (s : State) : Bool :=
  let n := rdF s.sys.csr SYS_BOOT_STAT.STAGE
  decide (s.sys.phase = .running) && (decide (8 ≤ n ∧ n ≤ 12) || decide (n = 0x82) && rdB s.sys.csr SYS_BOOT_STAT.RCV)

/-- Whether the analog set-point drives the actuator (R164). -/
def atestOn (s : State) (k : Fin 4) : Bool := rdB s.sce.csr SCE_ATEST.EN && decide (rdF s.sce.csr SCE_ATEST.ACT = k.val)

/-- ON_TRACK of a Media Channel (R153); held false while the analog set-point drives its actuator (R164). -/
def onTrack (s : State) (k : Fin 4) : Bool := (quadGet s.sce.acts k).onTrack && !atestOn s k

/-- PES_HIGH of a Media Channel. -/
def pesHigh (s : State) (k : Fin 4) : Bool := (quadGet s.sce.acts k).pesHigh

/-- Whether servo write inhibit is in force on a Media Channel (R153, R154, R166, R174). -/
def writeInhibited (s : State) (k : Fin 4) : Bool :=
  (quadGet s.sce.acts k).inhTrack || s.scu.inhibit || wordBit (rd s.sce.csr SCE_WINH) (8 + k.val)

/-- The track under the head: the one that the servo target in force lies on, by the zone copies; where no copy covers
the target, the track that the job names (R115). -/
def headTrack (s : State) (k : Fin 4) (tr : Nat) : Nat :=
  let a := quadGet s.sce.acts k
  let p := a.target + a.readerOfs.tdiv 2
  let hit := fun (z : ZoneCopy) =>
    decide (2 * z.base ≤ 2 * p + z.pitch) && decide (2 * p + z.pitch < 2 * (z.base + (z.last + 1 - z.first) * z.pitch))
  let zones := (List.range 32).filterMap (fun n => tget none s.sce.zcopy ((k.val * 16 + a.head) * 32 + n))
  match zones.find? hit with
  | none => tr
  | some z => if z.pitch = 0 then tr else z.first + ((2 * p + z.pitch - 2 * z.base) / (2 * z.pitch)).toNat

/-- A slot to be entered in the grown defect list and relocated, with its reason (R67). -/
def noteDefect (addr reason : Nat) (s : State) : State :=
  { s with ple := { s.ple with relocs := s.ple.relocs ++ [(addr, reason)] } }

/-- A write fault reported while a slot was written (R91). -/
def gdlWriteFault (_k : Fin 4) (addr : Nat) (s : State) : State := noteDefect addr 2 s

/-- A read that needed timed sync or realignment: the third within 24 hours of operating time is a defect (R67). -/
def deepRecovery (addr : Nat) (s : State) : State :=
  let now := nowSec s
  let kept := s.ple.deep.filter (fun e => decide (now < e.2 + 86400))
  let s := { s with ple := { s.ple with deep := (addr, now) :: kept } }
  if 2 ≤ (kept.filter (fun e => decide (e.1 = addr))).length then noteDefect addr 3 s else s

/-- Whether the grown defect list holds the slot of a physical address. -/
def gdlHolds (s : State) (addr : Nat) : Bool :=
  s.ple.map.gdl.any (fun d => decide (d.kind = 1 ∧ d.mc = (addr / 2 ^ 36) % 4 ∧ d.head = (addr / 2 ^ 32) % 16 ∧
    d.track = (addr / 2 ^ 11) % 2 ^ 21 ∧ d.slot ≤ addr % 2 ^ 11 ∧ addr % 2 ^ 11 < d.slot + d.run))

/-- The reliability-degraded critical warning of SMART (R65, R299). -/
def setReliability (s : State) : State := { s with hqe := { s.hqe with smart := s.hqe.smart ||| 4 } }
end Sys2Proof.Machine
end

