-- ==== Sys2Proof/Machine/McOps.lean ====
section
/-! DEFINITION. What the media rows share: the zone tables, a job's plan, range and buffers, decode reports, the ends of a
job, the write path's abort, and the frames of the Head Interface (spec/02, spec/03, spec/04). -/

namespace Sys2Proof.Machine

/-! ### Registers, counters and events of a Media Channel -/

/-- Whether a Media Channel is absent from the part (R3). -/
def mcAbsent (s : State) (k : Fin 4) : Bool := decide (s.part = .dhk7420) && decide (2 ≤ k.val)

/-- Change the registers of a Media Channel. -/
def mcReg (k : Fin 4) (f : List (Nat × Word) → List (Nat × Word)) (s : State) : State :=
  modMc k (fun m => { m with csr := f m.csr }) s

/-- Count a 32-bit counter of a Media Channel up by n, saturating. -/
def mcCount (k : Fin 4) (off n : Nat) (s : State) : State := mcReg k (fun c => incR c off n) s

/-- The running job of a Media Channel, or a change of it. -/
def modJob (k : Fin 4) (f : Job → Job) (s : State) : State :=
  modMc k (fun m => { m with job := m.job.map f }) s

/-- A word of DRAM, little-endian. -/
def memWord (s : State) (a : Nat) : Word :=
  BitVec.ofNat 32 (memByte s.mem a + memByte s.mem (a + 1) * 2 ^ 8 + memByte s.mem (a + 2) * 2 ^ 16
    + memByte s.mem (a + 3) * 2 ^ 24)

/-! ### Zone tables (R37, R76) -/

/-- The eight dwords of the descriptor, or of the analog entry, of a head and zone. -/
def zoneEntry (s : State) (k : Fin 4) (analog : Bool) (head zone : Nat) : List Word :=
  let base := (rd (mcOf s k).csr MC_ZAT_BASE).toNat * 4096 + (if analog then 0x3000 else 0) + (head * 32 + zone) * 32
  (List.range 8).map (fun i => memWord s (base + 4 * i))

/-- Bits [hi:lo] of dword dw of a table entry. -/
def entF (e : List Word) (dw hi lo : Nat) : Nat := wordField (e.getD dw 0) hi lo

/-! ### Job Table entries (R126) -/

/-- A dword of a Job Table entry. -/
def jtW (m : Mc) (e dw : Nat) : Word := tget 0 m.jt (16 * e + dw)

/-- A field of a dword of a Job Table entry. -/
def jtF (m : Mc) (e dw hi lo : Nat) : Nat := wordField (jtW m e dw) hi lo

/-- Replace a dword of a Job Table entry. -/
def jtPut (e dw : Nat) (w : Word) (m : Mc) : Mc := { m with jt := tput 0 m.jt (16 * e + dw) w }

/-- The bits of dwords 0 to 9 that software writes; STATE is read only and the others are reserved (R126). -/
def jtMask : Nat → Word
  | 0 => 0x3FFF03FF
  | 2 => 0x00FFFF3F
  | 3 => 0xFF030FFF
  | 6 => 0x0000FFFF
  | 9 => 0
  | _ => 0xFFFFFFFF

/-- A write of software to a dword of an entry: STATE stays, and reserved bits take nothing. -/
def jtWrite (e dw : Nat) (w : Word) (m : Mc) : Mc :=
  jtPut e dw ((if dw = 0 then jtW m e 0 &&& 0xC0000000 else 0) ||| (w &&& jtMask dw)) m

/-- STATE of an entry: 0 free, 1 armed, 2 running, 3 done. -/
def jtState (m : Mc) (e : Nat) : Nat := jtF m e 0 31 30

/-- Set STATE of an entry. -/
def jtSetState (e st : Nat) (m : Mc) : Mc := jtPut e 0 (wordSetField (jtW m e 0) 31 30 st) m

/-- The physical address of the job's first slot (R29). -/
def jobAddr (m : Mc) (e : Nat) : Nat := (jtW m e 1).toNat + jtF m e 2 5 0 * 2 ^ 32

def addrMc (a : Nat) : Nat := (a / 2 ^ 36) % 4
def addrHead (a : Nat) : Nat := (a / 2 ^ 32) % 16
def addrTrack (a : Nat) : Nat := (a / 2 ^ 11) % 2 ^ 21
def addrSlot (a : Nat) : Nat := a % 2 ^ 11

/-- Pack a physical sector address (R29). -/
def packAddr (mc head track slot : Nat) : Nat :=
  (mc % 4) * 2 ^ 36 + (head % 16) * 2 ^ 32 + (track % 2 ^ 21) * 2 ^ 11 + slot % 2 ^ 11

/-- Whether an address holds a reserved value (R29, R30). -/
def addrReserved (part : Part) (a : Nat) : Bool :=
  decide (12 ≤ addrHead a) || decide (addrTrack a = 0x1FFFFF) || decide (addrSlot a = 0x7FF) ||
  (decide (part = .dhk7420) && decide (2 ≤ addrMc a))

def jobFirst (m : Mc) (e : Nat) : Nat := addrSlot (jobAddr m e)
def jobCount (m : Mc) (e : Nat) : Nat := jtF m e 2 18 8
def jobZone (m : Mc) (e : Nat) : Nat := jtF m e 2 23 19
def jobHead (m : Mc) (e : Nat) : Nat := addrHead (jobAddr m e)
def jobWrites (m : Mc) (e : Nat) : Bool := decide (jtF m e 3 17 17 = 1)

/-- The slots of the job's range. -/
def jobRange (m : Mc) (e : Nat) : List Nat := (List.range (jobCount m e)).map (· + jobFirst m e)

/-- Whether the skip bitmap flags a slot. -/
def jobSkip (s : State) (m : Mc) (e slot : Nat) : Bool :=
  (memByte s.mem ((jtW m e 4).toNat * 8 + slot / 8)).testBit (slot % 8)

/-- The descriptor of the job's zone, as DRAM holds it. -/
def jobZfd (s : State) (k : Fin 4) (e : Nat) : List Word :=
  zoneEntry s k false (jobHead (mcOf s k) e) (jobZone (mcOf s k) e)

/-- The parity count of the job: its P, or the zone's PARITY_BASE. -/
def jobParity (s : State) (k : Fin 4) (e : Nat) : Nat :=
  let p := jtF (mcOf s k) e 3 11 8
  if p = 0 then entF (jobZfd s k e) 5 3 0 else p

/-- The usable slots of the job's track: SLOTS of the descriptor less the flagged ones. -/
def jobUsable (s : State) (k : Fin 4) (e : Nat) : List Nat :=
  (List.range (entF (jobZfd s k e) 3 26 16)).filter (fun x => !jobSkip s (mcOf s k) e x)

/-- The entries of a written plan up to the terminating zero, at most 128. -/
def planEntries (s : State) (base : Nat) : List Word :=
  ((List.range 128).map (fun i => memWord s (base + 4 * i))).takeWhile (fun w => decide (w ≠ 0))

/-- The job's plan as Stripes, data slots and parity slots: the written plan, or the fixed plan of R52. -/
def jobPlan (s : State) (k : Fin 4) (e : Nat) : List (List Nat × List Nat) :=
  let plan := (jtW (mcOf s k) e 7).toNat
  if plan = 0 then fixedPlan (jobParity s k e) (jobUsable s k e)
  else (planEntries s (plan * 8)).map (planStripe (jobUsable s k e))

/-- The parity slots of a plan. -/
def planParity (pl : List (List Nat × List Nat)) : List Nat := pl.flatMap Prod.snd

/-- The Stripe of a plan that holds a slot. -/
def stripeOf (pl : List (List Nat × List Nat)) (slot : Nat) : Option (List Nat × List Nat) :=
  pl.find? (fun st => st.1.contains slot || st.2.contains slot)

/-- The data slots of the job: its range less flagged slots and parity slots of the plan. -/
def jobDataSlots (s : State) (k : Fin 4) (e : Nat) : List Nat :=
  let par := planParity (jobPlan s k e)
  (jobRange (mcOf s k) e).filter (fun x => !jobSkip s (mcOf s k) e x && !par.contains x)

/-- The need map at job start (R121). -/
def jobNeed (s : State) (k : Fin 4) (e : Nat) : List Nat :=
  let par := planParity (jobPlan s k e)
  (jobRange (mcOf s k) e).filter (fun x => !jobSkip s (mcOf s k) e x &&
    (decide (jtF (mcOf s k) e 3 16 16 = 1) || !par.contains x))

/-- The buffer descriptors: Staging Buffer page and sector count. -/
def jobDescs (s : State) (m : Mc) (e : Nat) : List (Nat × Nat) :=
  let base := (jtW m e 5).toNat * 8
  (List.range (jtF m e 6 15 0)).map (fun i =>
    ((memWord s (base + 16 * i)).toNat, wordField (memWord s (base + 16 * i + 4)) 15 0))

/-- The Staging Buffer page of the bp-th sector of a descriptor list. -/
def descPage : List (Nat × Nat) → Nat → Option Nat
  | [], _ => none
  | (a, n) :: r, bp => if bp < n then some (a + bp) else descPage r (bp - n)

/-- The Staging Buffer page of BP in the job's descriptors. -/
def jobPage (s : State) (k : Fin 4) (e bp : Nat) : Option Nat := descPage (jobDescs s (mcOf s k) e) bp

/-- The tag seed that the job expects for a slot (R47). -/
def jobSeed (s : State) (k : Fin 4) (e slot : Nat) : Nat :=
  let a := jobAddr (mcOf s k) e
  tagSeed (jtF (mcOf s k) e 3 7 0) (fmtId s) (packAddr (addrMc a) (addrHead a) (addrTrack a) slot)

/-- The physical address of a slot under the head: the track the head lies over (R115). -/
def underHead (s : State) (k : Fin 4) (e slot : Nat) : Nat :=
  packAddr k.val (jobHead (mcOf s k) e) (headTrack s k (addrTrack (jobAddr (mcOf s k) e))) slot

/-! ### Where the head is on the track (R40, R110, R111) -/

/-- Beats of a wedge interval, footprint beats and data beats of the zone in force. -/
def zoneBeats (m : Mc) : Nat := entF m.zone 2 27 16
def zoneServo (m : Mc) : Nat := entF m.zone 2 7 0
def zoneData (m : Mc) : Nat := zoneBeats m - zoneServo m

/-- Sector slots of a track of the zone in force. -/
def zoneSlots (m : Mc) : Nat := entF m.zone 3 26 16

/-- The start wedge of the job's track in the zone in force. -/
def jobWedge (m : Mc) (e : Nat) : Nat :=
  startWedge (entF m.zone 3 9 0) (entF m.zone 0 29 29) (entF m.zone 0 20 0) (entF m.zone 1 20 0) (addrTrack (jobAddr m e))

/-- The data beats of the job's track that have passed where the head is, from the start wedge on. -/
def dataPassed (m : Mc) (e wedge beat : Nat) : Nat :=
  ((wedge + 640 - jobWedge m e) % 640) * zoneData m + (beat - zoneServo m)

/-- Pads that have ended once so many data beats have passed; a slot's pad ends in the beat that follows 1,156 of its
own (R110). -/
def padsEnded (m : Mc) (off : Nat) : Nat := min (zoneSlots m) ((off + 1) / 1157)

/-- Whether a beat lies in the footprint. -/
def inFootprint (m : Mc) (beat : Nat) : Bool := decide (beat < zoneServo m)

/-- Whether a slot of the job's track is paused by the footprint that follows a wedge mark (R40). -/
def slotPaused (m : Mc) (e wedge : Nat) : Bool :=
  let off := ((wedge + 640 - jobWedge m e) % 640) * zoneData m
  decide (off % 1157 ≠ 0 ∧ off / 1157 < zoneSlots m)

/-- The beat that follows. -/
def nextBeat (m : Mc) (wedge beat : Nat) : Nat × Nat :=
  if beat + 1 < zoneBeats m then (wedge, beat + 1) else ((wedge + 1) % 640, 0)

/-- Where a data beat of the job's track lies. -/
def beatAt (m : Mc) (e off : Nat) : Nat × Nat := dataBeatAt (zoneBeats m) (zoneServo m) (jobWedge m e) off

/-- The assist lead in bits (R111): LEAD rounded down to a whole bit, or the first bit that satisfies MIN. -/
def leadBits (s : State) (m : Mc) (lead : Nat) : Nat :=
  let per := max 1 (wedgePeriodPs s)
  let bits := zoneBeats m * 32
  max (lead * 1000 * bits / per) ((max 2 (rdF m.csr MC_ASC_LEAD.MIN) * 1000 * bits + per - 1) / per)

/-- The channel bits of a revolution, and a bit of the track counted from wedge 0's mark. -/
def revBits (m : Mc) : Nat := 640 * zoneBeats m * 32
def trackBit (m : Mc) (wedge beat off : Nat) : Nat := (wedge * zoneBeats m + beat) * 32 + off

/-- The bit and the beat of the assist edge of a slot (R111). -/
def leadBit (s : State) (m : Mc) (e slot : Nat) : Nat :=
  let p := beatAt m e (slot * 1157)
  (trackBit m p.1 p.2 0 + revBits m - leadBits s m (entF (m.zone.drop 8) 5 23 16)) % max 1 (revBits m)
def leadBeat (s : State) (m : Mc) (e slot : Nat) : Nat × Nat :=
  let b := leadBit s m e slot / 32
  (b / zoneBeats m, b % zoneBeats m)

/-- How long AG has been high at a bit of the track, in ns: by the place of its edge, or, where AG rose at an
acknowledgement (R94), as the step says. -/
def leadTime (s : State) (m : Mc) (bit : Nat) (i : MsqIn) : Nat := match m.agAt with
  | some a => (bit + revBits m - a) % max 1 (revBits m) * wedgePeriodPs s / (max 1 (zoneBeats m) * 32000)
  | none => i.leadNs

/-- The point conditions of R110, true in the beat before the beat that holds the point: the slot's first bit, the end of its pad,
the next wedge mark, the assist edge. -/
def slotStartNext (m : Mc) (e slot : Nat) (i : MsqIn) : Bool := decide (nextBeat m i.wedge i.beat = beatAt m e (slot * 1157))
def slotEndNext (m : Mc) (e slot : Nat) (i : MsqIn) : Bool := decide (nextBeat m i.wedge i.beat = beatAt m e (slot * 1157 + 1156))
def wedgeNext (m : Mc) (i : MsqIn) : Bool := decide ((nextBeat m i.wedge i.beat).2 = 0)
def leadNext (s : State) (m : Mc) (e slot : Nat) (i : MsqIn) : Bool := decide (nextBeat m i.wedge i.beat = leadBeat s m e slot)

/-- An order for a slot comes after the slot's capture span has begun, 48 data bits into its passage (R507). -/
def orderLate (m : Mc) (e slot : Nat) (i : MsqIn) : Bool :=
  let off := dataPassed m e i.wedge i.beat
  decide (slot * 1157 + 2 ≤ off ∧ off < (slot + 1) * 1157)

/-- What the slot under the head holds. -/
def slotUnderHead (s : State) (k : Fin 4) (e slot : Nat) : MediaSector :=
  tget MediaSector.blank s.media (underHead s k e slot)

/-! ### Events to the cores (R142, R141) -/

/-- Post an event of the running job, or drop it where the queue of 16 is full (R142). -/
def postEvt (k : Fin 4) (code slot : Nat) (j : Job) (s : State) : State :=
  let m := mcOf s k
  if m.events.length < 16 then
    let lo := BitVec.ofNat 32 (2 ^ 31 + code % 16 * 2 ^ 27 + j.entry % 64 * 2 ^ 21 + j.outcome % 16 * 2 ^ 17
      + j.flags % 16 * 2 ^ 13 + slot % 2 ^ 11)
    let hi := BitVec.ofNat 32 (j.ctrB % 2 ^ 16 * 2 ^ 16 + j.evtd % 2 ^ 16)
    modMc k (fun m => { m with events := m.events ++ [(lo, hi)], coreReports := m.coreReports + 1 }) s
  else modJob k (fun j => { j with evtLost := true }) (mcCount k MSQ_EVT_LOST 1 s)

/-- Record a word in the trace buffer of 256 entries, the oldest replaced when it is full (R141). -/
def traceWord (entry sp pc : Nat) (m : Mc) : Mc :=
  let e := BitVec.ofNat 32 (2 ^ 31 + entry % 64 * 2 ^ 25 + sp % 2 ^ 11 * 2 ^ 14 + pc % 2 ^ 14)
  { m with trace := (if m.trace.length < 256 then m.trace else m.trace.drop 1) ++ [e] }

/-! ### The end of a job (R126, R129, R19) -/

/-- Set or clear the MSQ_JT_DONE bit of an entry. -/
def jtDone (e : Nat) (b : Bool) (m : Mc) : Mc :=
  let off := if e < 32 then MSQ_JT_DONE_LO else MSQ_JT_DONE_HI
  { m with csr := wrF m.csr ⟨off, e % 32, e % 32⟩ (b2n b) }

/-- Dwords 10 to 15 of an entry, as the MSQ writes them at the end of a job that ran. -/
def endDwords (e fin cls stop : Nat) (j : Job) (m : Mc) : Mc :=
  let d10 := fin * 2 ^ 28 + cls * 2 ^ 24 + j.status % 256 * 2 ^ 16 + j.flags % 16 * 2 ^ 12 + b2n j.evtLost * 2 ^ 11 + stop
  let d11 := j.revs % 2 ^ 12 * 2 ^ 16 + j.lastPc % 2 ^ 14
  let d12 := j.need.length % 2 ^ 11 * 2 ^ 16 + j.done % 2 ^ 11
  let d13 := j.rebuilt % 2 ^ 11 * 2 ^ 16 + j.recov % 2 ^ 11
  jtPut e 10 (BitVec.ofNat 32 d10) (jtPut e 11 (BitVec.ofNat 32 d11) (jtPut e 12 (BitVec.ofNat 32 d12)
    (jtPut e 13 (BitVec.ofNat 32 d13) (jtPut e 14 (BitVec.ofNat 32 (j.fails % 2 ^ 11)) (jtPut e 15 0 m)))))

/-- An entry that ends without having run a word: dwords 10 to 15 with nothing done. -/
def endUnrun (e fin cls : Nat) (m : Mc) : Mc :=
  jtDone e true (jtSetState e 3
    (jtPut e 10 (BitVec.ofNat 32 (fin * 2 ^ 28 + cls * 2 ^ 24)) (jtPut e 11 0 (jtPut e 12 0 (jtPut e 13 0
      (jtPut e 14 0 (jtPut e 15 0 { m with armed := m.armed.filter (· ≠ e), coreReports := m.coreReports + 1 })))))))

/-- A write of MSQ_CTL.EN to 0 that waited for the running job takes effect. -/
def applyDisable (m : Mc) : Mc :=
  if m.disablePending then { m with csr := wrB m.csr MSQ_CTL.EN false, disablePending := false } else m

/-- End the running job: its report is written, the gates fall, the open Stripe's accumulators go (R55), the sample buffer
is dropped, the done bit is set and the cores are told (R19). -/
def endJob (k : Fin 4) (fin cls stop : Nat) (s : State) : State :=
  match (mcOf s k).job with
  | none => s
  | some j =>
    let e := j.entry
    jobEndHook k e cls
      (modMc k (fun m => applyDisable (jtDone e true (jtSetState e 3 (endDwords e fin cls stop j
        { m with
          job := none
          wg := false
          ag := false
          agWait := false
          elem := .off
          wdIdle := true
          sbuf := none
          decoding := []
          coreReports := m.coreReports + 1
          csr := wrF (wrF m.csr MSQ_STAT.JOB e) MSQ_STAT.PC j.lastPc })))) s)

/-- The class of a stop (R130): 2 failed-nonretryable, 1 failed-retryable. -/
def stopClass (code : Nat) : Nat := if 2 ≤ code ∧ code ≤ 6 then 2 else 1

/-- A slot's write is cut: what the slot held is gone, and the new sector with it (R91, R506). -/
def cutWrite (k : Fin 4) (s : State) : State :=
  match (mcOf s k).job with
  | none => s
  | some j =>
    match j.writing with
    | none => s
    | some slot => { s with media := tput MediaSector.blank s.media (underHead s k j.entry slot) MediaSector.blank }

/-- A stop (R130): the job ends at once, WG and AG drop, and MSQ_STOP records code, job and address. -/
def stopJob (k : Fin 4) (code : Nat) (s : State) : State :=
  match (mcOf s k).job with
  | none => s
  | some j =>
    let rec0 := fun c => wrB (wrF (wrF (wrF c MSQ_STOP.JOB j.entry) MSQ_STOP.CODE code) MSQ_STOP.ADDR j.lastPc)
      MSQ_STOP.STICKY true
    endJob k 2 (stopClass code) code (mcReg k rec0 (cutWrite k s))

/-- Whether a job runs on the Media Channel. -/
def running (s : State) (k : Fin 4) : Bool := (mcOf s k).job.isSome

/-- WG and AG drop; WD is idle, the assist element off (R91, R93, R98). -/
def gatesLow (m : Mc) : Mc := { m with
  wg := false
  ag := false
  agWait := false
  elem := .off
  wdIdle := true }
def dropGates (k : Fin 4) (s : State) : State := modMc k gatesLow s

/-- The sectors queued for writing whose codewords have begun to enter the write FIFO of the island's CBP: the FIFO
holds 128 entries of 64 bits and a codeword has 576, so the oldest queued sector alone (R13). -/
def cbpOf (q : List QSector) : List Nat := (q.take 1).map (·.slot)

/-- WG falls; the element is back at bias while AG stays high (R93). -/
def wgFall (m : Mc) : Mc := { m with
  wg := false
  wdIdle := true
  elem := if m.ag then .bias else .off }

/-- The write path's abort (R91): WG and AG drop, the fault bit is set and counted, and the job ends with the code. -/
def writeAbort (k : Fin 4) (fault : Fld) (code : Nat) (s : State) : State :=
  let s := mcReg k (fun c => incF (wrB c fault true) MC_WR_FAULT.COUNT 1) s
  dropGates k (stopJob k code s)

/-! ### Decode reports (R84, R118, R121) -/

/-- MC_LDPC_LAST. -/
def ldpcLast (retryPath conv : Bool) (iter corr : Nat) (c : List (Nat × Word)) : List (Nat × Word) :=
  wrF (wrF (wrB (wrB c MC_LDPC_LAST.PATH retryPath) MC_LDPC_LAST.CONV conv) MC_LDPC_LAST.ITER iter) MC_LDPC_LAST.CORR
    (if conv then corr else 0xFFFF)

/-- The iteration limits (R63, R84, MC_LDPC_CTL): of the streaming decoders, and of the retry decode path. -/
def siter (m : Mc) : Nat := max 1 (min 32 (rdF m.csr MC_LDPC_CTL.SITER))
def riter (m : Mc) : Nat := if rdF m.csr MC_LDPC_CTL.RITER = 0 then 64 else max 8 (rdF m.csr MC_LDPC_CTL.RITER)

/-- The iterations after which a reading converges within a limit, if it does (R82): none where the input's syndrome is zero. -/
def readingIter (limit : Nat) (r : Reading) : Option Nat :=
  if r.errs = [] then some 0
  else match r.zeroAt with
    | some n => if max 1 n ≤ limit then some (max 1 n) else none
    | none => none

/-- Bits corrected: the positions in which the codeword differs from the input (R82). -/
def readingCorr (r : Reading) : Nat := r.errs.eraseDups.length

/-- The reading of a detector mode. -/
def modeReading (mode : Nat) (q : Quad Reading) : Reading :=
  match mode with
  | 0 => q.m0
  | 1 => q.m1
  | 2 => q.m2
  | _ => q.m3

/-- The thermal asperities among runs of samples (R75): those of at least TA_LEN samples that all reach TA_THR; TA_LEN 0 detects
none. -/
def asperities (m : Mc) (runs : List SampleRun) : List SampleRun :=
  runs.filter (fun r => decide (rdF m.csr MC_AFE_CTL.TA_LEN ≠ 0 ∧ rdF m.csr MC_AFE_CTL.TA_LEN ≤ r.len ∧
    rdF m.csr MC_AFE_CTL.TA_THR ≤ r.mag))

/-- The bits of a codeword whose LLRs the detector sets to zero: those of each asperity and 16 on either side (R75). -/
def erasedBits (m : Mc) (runs : List SampleRun) : List Nat :=
  ((asperities m runs).flatMap (fun r => (List.range (r.len + 32)).filterMap (fun i =>
    if 16 ≤ r.start + i ∧ r.start + i - 16 < 36864 then some (r.start + i - 16) else none))).eraseDups

/-- A reading with the LLRs of some bits at zero: the hard decision of such a bit is open, by the number `f`. -/
def erasedReading (erased : List Nat) (f : Nat) (r : Reading) : Reading :=
  { r with errs := r.errs.filter (fun b => !erased.contains b) ++ erased.filter f.testBit }

/-- Whether the last decode of a slot was of a TA-affected sector. -/
def taSlot (j : Job) (slot : Nat) : Bool := j.sectors.any (fun y => decide (y.slot = slot) && y.ta)

/-- Enter a sector's report in the job's sector status (R75, R84). A report without a decode (outcomes 9 and 10)
leaves the flag of the sector's last decode. -/
def noteStat (x : SectorStat) (j : Job) : Job :=
  let x := if 9 ≤ x.outcome then { x with ta := taSlot j x.slot } else x
  { j with sectors := x :: j.sectors.filter (fun y => decide (y.slot ≠ x.slot)) }

/-- Commit a decoded or rebuilt sector: staged at its BP, its slot leaves the need map, DONE counts it. -/
def commitSector (k : Fin 4) (slot bp data : Nat) (s : State) : State :=
  match (mcOf s k).job with
  | none => s
  | some j =>
    match jobPage s k j.entry bp with
    | none => s
    | some pg =>
      modJob k (fun j => { j with need := j.need.filter (· ≠ slot), done := j.done + 1 })
        { s with staging := tput 0 s.staging pg data }

/-- Enter a collected slot as read or as an erasure. -/
def noteCollected (slot : Nat) (good : Bool) (j : Job) : Job :=
  { j with collect := j.collect.map (fun c =>
      if !c.solving && (c.dataSlots.contains slot || c.paritySlots.contains slot) then
        (if good then { c with good := slot :: c.good.filter (· ≠ slot) }
         else { c with erased := slot :: c.erased.filter (· ≠ slot) })
      else c) }

/-- A sector that no decode was made of: refused, erased, or without samples. -/
def noDecode (slot outcome : Nat) : SectorStat := ⟨slot, outcome, false, 0, 0xFFFF, false⟩

/-- The outcome code of the latest report, and the counts of an ordered sector's report. -/
def countReport (x : SectorStat) (j : Job) : Job :=
  let ok := decide (x.outcome ≤ 3)
  { j with
    pendingDec := j.pendingDec.erase x.slot
    outcome := x.outcome
    fails := j.fails + b2n (!ok)
    recov := j.recov + b2n (decide (1 ≤ x.outcome) && ok)
    failedOnce := if ok then j.failedOnce else x.slot :: j.failedOnce.filter (· ≠ x.slot) }

/-- A decode's report to the running job: the sector status, the outcome code of R118, counts, commit, collection, and the events
that steps 1 to 3 of the vendor ladder post (R134). A collected slot that the job did not order changes no outcome. -/
def report (k : Fin 4) (x : SectorStat) (bp data : Nat) (s : State) : State :=
  let s := modMc k (fun m => { m with decoding := m.decoding.filter (fun e => decide (e.1 ≠ x.slot)) }) s
  match (mcOf s k).job with
  | none => s
  | some j =>
    let slot := x.slot
    let ok := decide (x.outcome ≤ 3)
    let ordered := j.pendingDec.contains slot
    let vendorRead := decide (j.mode = .vendor 0 ∨ j.mode = .vendor 4)
    let late := j.failedOnce.contains slot
    let s := modJob k (fun j => noteStat x (noteCollected slot ok j)) s
    let s := if ordered || vendorRead then modJob k (countReport x) s else s
    let s := if ok && j.commit && (ordered || j.need.contains slot) then commitSector k slot bp data s else s
    if decide (j.mode = .vendor 0) && decide (j.vstep ≠ .rebuild) && ok && j.need.contains slot && (decide (1 ≤ x.outcome) || late) then
      match (mcOf s k).job with
      | some j => postEvt k 2 slot j s
      | none => s
    else s

/-- MC_RECOV_LAST and MC_RECOV_TRACK (R62). -/
def recovRecord (kind : Nat) (ofs : Int) (head slot track : Nat) (c : List (Nat × Word)) : List (Nat × Word) :=
  wrF (wrF (wrF (wrF (wrF c MC_RECOV_LAST.KIND kind) MC_RECOV_LAST.OFFSET (toBits 5 ofs)) MC_RECOV_LAST.HEAD head)
    MC_RECOV_LAST.SLOT slot) MC_RECOV_TRACK.TRACK track

/-- Record a recovery outcome of the running job. -/
def noteRecovery (k : Fin 4) (kind : Nat) (ofs : Int) (slot : Nat) (s : State) : State :=
  match (mcOf s k).job with
  | none => s
  | some j =>
    let a := jobAddr (mcOf s k) j.entry
    mcReg k (recovRecord kind ofs (addrHead a) slot (addrTrack a)) s

/-- A tag failure (R48): counted, and the difference of the two tags recorded: the tag that was read, descrambled under the job's
address (R45), against the tag of the bytes so read under the job's seed. -/
def tagFailure (k : Fin 4) (slot : Nat) (s : State) : State :=
  match (mcOf s k).job with
  | none => s
  | some j =>
    let sec := slotUnderHead s k j.entry slot
    let seed := jobSeed s k j.entry slot
    let got := descrambled sec seed
    let diff := got.2 ^^^ addressTag seed got.1
    let s := mcReg k (fun c => wr (wr c MC_TAG_DIFF_LO (BitVec.ofNat 32 diff)) MC_TAG_DIFF_HI
      (BitVec.ofNat 32 (diff / 2 ^ 32))) (mcCount k MC_TAG_FAIL 1 s)
    noteRecovery k 5 0 slot s

/-- Whether the slot under the head holds a sector that the job's seed matches (R48, R506). -/
def tagGood (s : State) (k : Fin 4) (slot : Nat) : Bool :=
  match (mcOf s k).job with
  | none => false
  | some j => decide ((slotUnderHead s k j.entry slot).seed = jobSeed s k j.entry slot)

/-- Whether the slot under the head holds any sector. -/
def slotWritten (s : State) (k : Fin 4) (slot : Nat) : Bool :=
  match (mcOf s k).job with
  | none => false
  | some j => decide ((slotUnderHead s k j.entry slot).seed < 2 ^ 64)

/-- The bytes that the slot under the head decodes to, for a job whose seed it matches. -/
def slotData (s : State) (k : Fin 4) (slot : Nat) : Nat :=
  match (mcOf s k).job with
  | none => 0
  | some j => (descrambled (slotUnderHead s k j.entry slot) (jobSeed s k j.entry slot)).1

/-- The BP with which a slot was last ordered; a slot never ordered has its index among the job's data slots. -/
def orderedBp (s : State) (k : Fin 4) (slot : Nat) : Nat :=
  match (mcOf s k).job with
  | none => 0
  | some j =>
    match j.ordered.find? (fun e => decide (e.1 = slot)) with
    | some e => e.2
    | none => (jobDataSlots s k j.entry).idxOf slot

/-- A collection that still lacks a slot. -/
def collects (c : Collection) (slot : Nat) : Bool :=
  !c.solving && (c.dataSlots.contains slot || c.paritySlots.contains slot) && !c.good.contains slot && !c.erased.contains slot

/-- A vendor read pass that takes a slot: it is needed, and has not passed in this pass. -/
def vendorTakes (j : Job) (slot : Nat) : Bool :=
  (decide (j.mode = .vendor 0 ∧ j.vstep ≠ .rebuild) || decide (j.mode = .vendor 4 ∧ j.sp ≤ slot)) && j.need.contains slot

/-- Whether the running job awaits a decode of a slot: ordered, collected, or needed by a vendor read. -/
def awaits (s : State) (k : Fin 4) (slot : Nat) : Bool :=
  match (mcOf s k).job with
  | none => false
  | some j => j.pendingDec.contains slot || j.collect.any (fun c => collects c slot) || vendorTakes j slot

/-- The search window of a slot is open: a decode of it is awaited or a SEARCH is out, and it has neither found its mark nor
closed (R58). -/
def searchOpen (s : State) (k : Fin 4) (slot : Nat) : Bool :=
  match (mcOf s k).job with
  | none => false
  | some j => (awaits s k slot || decide (j.window = some slot)) && !j.found.contains slot && !j.closed.contains slot

/-- Whether automatic recovery is off for the rest of the job (SYNC AUTO_OFF). -/
def autoOff (s : State) (k : Fin 4) : Bool := ((mcOf s k).job.map (·.autoOff)).getD false

/-- A sector enters recovery (R60, R123): it takes the sample buffer for a search, or is refused where one runs there. With
the search disabled, the samples are held and the sector reports at once, with the iterations its streaming decode used. -/
def enterRecovery (k : Fin 4) (slot : Nat) (use : BufUse) (enabled : Bool) (failCode iter : Nat) (erased : List Nat) (s : State) : State :=
  let bp := orderedBp s k slot
  let taken : Bool := match (mcOf s k).sbuf with
    | some b => decide (b.use ≠ .heldOnly)
    | none => false
  if taken then report k ⟨slot, 7, false, iter, 0xFFFF, decide (failCode = 8)⟩ bp 0 (mcCount k MC_SBUF_BUSY 1 s)
  else if enabled && !autoOff s k then
    modMc k (fun m => { m with sbuf := some ⟨slot, bp, use, false, failCode, erased⟩ }) s
  else
    report k ⟨slot, failCode, false, iter, 0xFFFF, decide (failCode = 8)⟩ bp 0
      (modMc k (fun m => { m with sbuf := some ⟨slot, bp, .heldOnly, false, failCode, erased⟩ }) s)

/-- What happens to the buffer when a search ends: freed on success or on a waiting RELEASE, held otherwise (R123). -/
def searchEnds (k : Fin 4) (ok : Bool) (s : State) : State :=
  modMc k (fun m => { m with sbuf := match m.sbuf with
    | none => none
    | some b => if ok || b.release then none else some { b with use := .heldOnly } }) s

/-! ### The read path's loops (R74, R76, R133) -/

/-- The analog entry in force, and the detector mode: FMODE under FORCE, else the entry's (R81). -/
def zaeIn (m : Mc) : List Word := m.zone.drop 8
def detMode (m : Mc) (zae : List Word) : Nat :=
  if rdB m.csr MC_DET_CTL.FORCE then rdF m.csr MC_DET_CTL.FMODE else entF zae 3 1 0

/-- The detector mode of a decode: FMODE under FORCE, else the knob set's, where it names one, else the zone's (R81, R133). -/
def modeIn (m : Mc) : Nat :=
  let n := match m.job with
    | none => 0
    | some j => if 2 ≤ j.knob then wordField (tget 0 m.knobs (2 * j.knob)) 7 4 else 0
  if n = 0 || rdB m.csr MC_DET_CTL.FORCE then detMode m (zaeIn m) else n - 1

/-- The iteration limit of an RDECODE: the knob set's, where it names one, else RITER (R84, R133). -/
def riterIn (m : Mc) : Nat :=
  let n := match m.job with
    | none => 0
    | some j => if 2 ≤ j.knob then wordField (tget 0 m.knobs (2 * j.knob + 1)) 6 0 else 0
  if n = 0 then riter m else max 8 (min 64 n)

/-- Put gain, filter and offset values in force: the zone's with the deltas of a knob set, each within its field (R76, R133). The
loops stand at them until the next preamble. -/
def afePut (zae : List Word) (d : Int × Int × Int) (m : Mc) : Mc :=
  let add := fun (x : Nat) (d : Int) (top : Nat) => (max 0 (min (top : Int) ((x : Int) + d))).toNat
  let ofs := fun (x : Nat) => max (-128) (min 127 (sext 8 x + d.2.2))
  let va := add (entF zae 0 15 8) d.1 255
  let vb := add (entF zae 0 7 0) d.1 255
  { m with
    csr := wrF (wrF (wrF (wrF m.csr MC_AFE_CUR.VGA_A va) MC_AFE_CUR.VGA_B vb) MC_AFE_CUR.CTF_FC (entF zae 1 29 24))
      MC_AFE_CUR.CTF_BOOST (add (entF zae 1 20 16) d.2.1 31)
    loop := ⟨.initial, va, vb, ofs (entF zae 2 31 24), ofs (entF zae 2 23 16)⟩ }

/-- The deltas of the knob set in force: gain, boost, offset; none of them under the zone's values (R133). -/
def knobDeltas (m : Mc) (n : Nat) : Int × Int × Int :=
  if n < 2 then (0, 0, 0)
  else
    let d := tget 0 m.knobs (2 * n)
    (sext 8 (wordField d 31 24), sext 8 (wordField d 23 16), sext 8 (wordField d 15 8))

/-- The loops track, from what they have acquired (R74): their values are open. -/
def trackLoops (k : Fin 4) (s : State) : State :=
  let f := takeFree s
  modMc k (fun m =>
    let va := f.1 % 256
    let vb := f.1 / 2 ^ 8 % 256
    { m with
      csr := wrF (wrF m.csr MC_AFE_CUR.VGA_A va) MC_AFE_CUR.VGA_B vb
      loop := ⟨.tracking, va, vb, sext 8 (f.1 / 2 ^ 16 % 256), sext 8 (f.1 / 2 ^ 24 % 256)⟩ }) f.2

/-- A preamble passes (R74, R133): the loops take the initial values, with the deltas of the knob set in force,
acquire, and track. What they come to is open. -/
def acquire (k : Fin 4) (s : State) : State :=
  let m := mcOf s k
  trackLoops k (setMc k (afePut (zaeIn m) (knobDeltas m ((m.job.map (fun j => j.knob)).getD 0)) m) s)

/-- Every decode adapts the FIR taps while ADAPT is 1 (R81): each moves down its gradient, which the samples alone
tell and which is open, by the step 2^−(MU + 8). -/
def adaptTaps (k : Fin 4) (s : State) : State :=
  if rdB (mcOf s k).csr MC_DET_CTL.ADAPT then
    let f := takeFree s
    modMc k (fun m =>
      let mu := rdF m.csr MC_DET_CTL.MU
      { m with taps := m.taps.zipIdx.map (fun t =>
          toBits 8 (satInt 8 (sext 8 t.1 - sext 32 (f.1 / 2 ^ (32 * t.2) % 2 ^ 32) / (2 ^ (mu + 8) : Int)))) }) f.2
  else s

/-! ### Head Interface frames (R101, R102, R104) -/

/-- The device's bits of a frame: 32 of a write frame, 16 of a read frame, CRC-8 included. -/
def frameBits (f : HifFrame) : Nat :=
  if f.read then
    let h := bitsMsb 8 (128 + f.addr % 128)
    bitsToNat h * 2 ^ 8 + crc8 h
  else
    let h := bitsMsb 24 (f.addr % 128 * 2 ^ 16 + f.data % 2 ^ 16)
    bitsToNat h * 2 ^ 8 + crc8 h

/-- The synthesiser runs free (R88): FREE is 1, or no mark has been found since reset; its frequency in MHz. -/
def freeRun (m : Mc) : Bool := rdB m.csr MC_SYN_CTL.FREE || !m.markSeen
def freeMhz (m : Mc) : Nat := max 25 (min 175 (rdF m.csr MC_SYN_FREE.FREQ))

/-- The HSC divisor (R101's AUTO rule): smallest even divisor from 8 that keeps HSC at or below 100 MHz, or DIVSET
made even and at least 8. The channel rate is 32 bits for each beat of the synthesiser. -/
def hifDivisor (s : State) (k : Fin 4) : Nat :=
  let m := mcOf s k
  if rdB m.csr MC_HIF_CTL.AUTO then
    let rateKhz := if freeRun m then freeMhz m * 32000 else m.syn.beats * 32 * 1000000000 / max 1 (wedgePeriodPs s)
    let d := (rateKhz + 99999) / 100000
    max 8 (d + d % 2)
  else
    let d := rdF m.csr MC_HIF_CTL.DIVSET
    max 8 (d + d % 2)

/-- At a frame boundary the arbiter starts the next frame: ASC, then MSQ, then firmware; none while OWN is 0 or its
release is pending (R98, R99). -/
def startFrame (k : Fin 4) (s : State) : State :=
  let m := mcOf s k
  let begin' := fun (m : Mc) src f => { m with busy := some ⟨src, f, 0⟩, lastBits := frameBits f,
                                               csr := wrF m.csr MC_HIF_CTL.DIV (hifDivisor s k) }
  if m.busy.isSome || !m.own || m.ownRelease then s else
    match m.ascQ, m.msqQ, m.fwQ with
    | f :: r, _, _ => setMc k (begin' { m with ascQ := r } .asc f) s
    | [], f :: r, _ => setMc k (begin' { m with msqQ := r } .msq f) s
    | [], [], some f => setMc k (begin' { m with fwQ := none } .firmware f) s
    | [], [], none => s

/-- Queue an ASC level or bias frame (R93): the index takes effect when the frame is acknowledged. -/
def ascFrame (k : Fin 4) (addr code index : Nat) (s : State) : State :=
  startFrame k (modMc k (fun m => { m with ascQ := m.ascQ ++ [⟨false, addr, code, index⟩] }) s)

/-- Queue preload entry n as an MSQ frame; a full queue of 4 or an invalid entry stops the job with PREOVF (R104). -/
def preloadFrame (k : Fin 4) (n : Nat) (s : State) : State :=
  let m := mcOf s k
  let w := tget 0 m.preload n
  if m.msqQ.length < 4 && wordBit w 31 then
    startFrame k (setMc k { m with msqQ := m.msqQ ++ [⟨false, wordField w 22 16, wordField w 15 0, 0⟩] } s)
  else stopJob k 8 (mcReg k (fun c => wrB c MC_HIF_STAT.PREOVF true) s)

/-- MC_ASC_AGE of a head; its reset value is 0x03FF_0000. -/
def ascAgeOf (m : Mc) (h : Nat) : Word := tget 0x03FF0000 m.ascAge h

/-- Replace MC_ASC_AGE of a head. AGE_WARN is set when TRIM stands at WARN or above (R97). -/
def putAscAge (h : Nat) (w : Word) (m : Mc) : Mc :=
  let warn : Bool := decide ((wordField w 25 16 : Int) ≤ sext 10 (wordField w 9 0))
  { m with
    ascAge := tput 0x03FF0000 m.ascAge h w
    csr := if warn then wrF (wrB m.csr MC_ASC_STAT.AGE_WARN true) MC_ASC_STAT.HEAD h else m.csr }

/-- The DAC code of a level of a head with its aging trim, clamped to 1 to 4,095 (R92); 0 marks an invalid level. -/
def levelCode (m : Mc) (head lvl : Nat) : Nat :=
  let c := tget 0 m.ascLevel (16 * head + lvl)
  if c = 0 then 0
  else (max 1 (min 4095 ((c : Int) + sext 10 (wordField (ascAgeOf m head) 9 0)))).toNat

/-- HIF_IDLE (R117): no frame ordered by the MSQ, level frames included, is queued or in progress. -/
def hifIdle (m : Mc) : Bool :=
  m.ascQ.isEmpty && m.msqQ.isEmpty &&
    (match m.busy with
     | none => true
     | some b => decide (b.src = .firmware))

/-- A level frame of the ASC is unacknowledged. -/
def ascBusy (m : Mc) : Bool :=
  !m.ascQ.isEmpty || (match m.busy with
    | none => false
    | some b => decide (b.src = .asc))

/-- AG rises (R94): the pin, and the head's rise counter (R97). The element pre-heats at write level. -/
def agRise (head : Nat) (m : Mc) : Mc :=
  if m.ag then m
  else
    let up := m.own && !m.hfltLow
    { m with
      ag := up
      agWait := false
      agAt := none
      leadEnded := false
      elem := if up then .write else m.elem
      rises := if up then tput 0 m.rises head (satAdd 0xFFFFFFFF (tget 0 m.rises head) 1) else m.rises }

end Sys2Proof.Machine
end

