-- ==== Sys2Proof/Machine/Control.lean ====
section
/-! DEFINITION. The arithmetic of the servo loops (R149 to R160): rounding, sections, the estimator, tables and the
coefficient banks. -/

namespace Sys2Proof.Machine

/-- A quotient as a whole number. One that is not exact goes to either neighbour; no rule says which. -/
def roundDiv (n d : Int) : Int := n / d + (if n % d ≠ 0 && Config.roundUp n d then 1 else 0)

/-- A 32-bit coefficient as a signed number of 1/2^28 (R156). -/
def coefInt (w : Word) : Int := sext 32 w.toNat

/-- A sum of products with Q4.28 coefficients, accumulated in 64 bits, saturated to 32 (R156). DESIGN CHOICE (log
239): an accumulation beyond 64 bits wraps modulo 2^64. -/
def q28 (acc : Int) : Int := satInt 32 (roundDiv (sext 64 (toBits 64 acc)) 268435456)

/-- The sum of the products of two lists. -/
def dot : List Int → List Int → Int
  | a :: as, b :: bs => a * b + dot as bs
  | _, _ => 0

/-- One transposed direct form II section (R156): each sum is accumulated whole, with the state in the products'
scale, before it is brought back to 32 bits. -/
def section2 (c : List Int) (st : Int × Int) (x : Int) : Int × (Int × Int) :=
  let b0 := c.getD 0 0
  let b1 := c.getD 1 0
  let b2 := c.getD 2 0
  let a1 := c.getD 3 0
  let a2 := c.getD 4 0
  let y := q28 (b0 * x + st.1 * 268435456)
  (y, (q28 (b1 * x - a1 * y + st.2 * 268435456), q28 (b2 * x - a2 * y)))

/-- A cascade of sections: the output and the new states. -/
def cascade : List (List Int) → List (Int × Int) → Int → Int × List (Int × Int)
  | c :: cs, st :: sts, x =>
    let r := section2 c st x
    let q := cascade cs sts r.1
    (q.1, r.2 :: q.2)
  | _, sts, x => (x, sts)

/-! ### Coefficient banks (R157, R158) -/

/-- The reset value of a coefficient: every section passes its input through, every gain is 0. -/
def coefReset (loop addr : Nat) : Word :=
  let sections := if loop = 4 then 20 else 80
  if addr < sections ∧ addr % 5 = 0 then 0x10000000 else 0

/-- Whether R158 lists the address for the loop. -/
def coefListed (loop addr : Nat) : Bool := if loop = 4 then decide (addr < 22) else decide (loop < 4 ∧ addr < 102)

/-- The physical bank that holds a loop's active coefficients. -/
def activeBank (c : Sce) (loop : Nat) : Nat := tget 0 c.bankSel loop

/-- A coefficient of the active (bank 0) or shadow (bank 1) bank. -/
def coefAt (c : Sce) (loop bank addr : Nat) : Word :=
  if coefListed loop addr then
    tget 0 c.coefs (loop * 256 + ((activeBank c loop + bank) % 2) * 128 + addr) ^^^ coefReset loop addr
  else 0

/-- Write a coefficient of the shadow bank. -/
def coefPut (loop addr : Nat) (w : Word) (c : Sce) : Sce :=
  if coefListed loop addr then
    let key := loop * 256 + ((activeBank c loop + 1) % 2) * 128 + addr
    { c with coefs := tput 0 c.coefs key (w ^^^ coefReset loop addr) }
  else c

/-- An active coefficient as a signed number. -/
def coefI (c : Sce) (loop addr : Nat) : Int := coefInt (coefAt c loop 0 addr)

/-- The coefficients of n sections from an address on. -/
def coefSections (c : Sce) (loop base n : Nat) : List (List Int) :=
  (List.range n).map (fun i => (List.range 5).map (fun j => coefI c loop (base + 5 * i + j)))

/-- Exchange a loop's banks. -/
def bankSwap (loop : Nat) (c : Sce) : Sce := { c with bankSel := tput 0 c.bankSel loop (1 - activeBank c loop) }

/-! ### Compensation tables (R160) -/

/-- A table entry as a signed number. -/
def tblInt (c : Sce) (slot entry : Nat) : Int := sext 16 (tget 0 c.tbl (slot * 1024 + entry))

/-- An entry with linear interpolation towards the next, frac of one, in 1/one. -/
def tblInterp (c : Sce) (slot entry frac one : Nat) : Int :=
  let a := tblInt c slot entry
  let b := if entry < 1023 then tblInt c slot (entry + 1) else Config.tableEnd slot frac
  a * one + (if frac = 0 then 0 else (b - a) * frac)

/-- The configuration register of a slot. -/
def tblCfg (c : Sce) (slot : Nat) : Word := rd c.csr (SCE_TBL_CFG0 + 4 * slot)

/-- The term that one slot adds to a loop's command; `idx` gives index, fraction and the fraction's unit. -/
def tblTerm (c : Sce) (loop slot : Nat) (idx : Nat → Nat × Nat × Nat) : Int :=
  let w := tblCfg c slot
  if wordBit w 31 && decide (wordField w 30 28 = loop) then
    let i := idx (wordField w 20 16)
    roundDiv (tblInterp c slot i.1 i.2.1 i.2.2 * sext 16 (wordField w 15 0)) (16384 * i.2.2)
  else 0

/-- All three slots. -/
def tblTerms (c : Sce) (loop : Nat) (idx : Nat → Nat × Nat × Nat) : Int :=
  tblTerm c loop 0 idx + tblTerm c loop 1 idx + tblTerm c loop 2 idx

/-- The index into an actuator's table from a position. -/
def posIndex (pos : Int) (shift : Nat) : Nat × Nat × Nat :=
  if pos < 0 then (0, 0, 1)
  else
    let p := pos.toNat
    let i := p >>> shift
    if 1023 < i then (1023, 0, 1) else (i, p % 2 ^ shift, 2 ^ shift)

/-- The index into the spindle's table from the reference MC's wedge and beat. -/
def angleIndex (w b beats : Nat) (_shift : Nat) : Nat × Nat × Nat :=
  let n := (w * max 1 beats + b) * 1024
  let d := 640 * max 1 beats
  (min 1023 (n / d), n % d, d)

/-! ### The estimator (R151) -/

/-- The estimate after one run: A x + B u + L (y - x0); the last term is left out where the prediction stood in for y. -/
def estimate (c : Sce) (loop : Nat) (x : List Int) (u : Int) (innov : Int) : List Int :=
  (List.range 3).map (fun i =>
    q28 (dot ((List.range 3).map (fun j => coefI c loop (80 + 3 * i + j))) x + coefI c loop (89 + i) * u
      + coefI c loop (92 + i) * innov))

/-- The bus-voltage factor applied to a command: 12.0 V over VM, VM at least 6.0 V (R159). -/
def busScale (vm : Nat) (x : Int) : Int := roundDiv (x * 12000) (max 6000 vm)

end Sys2Proof.Machine
end

