-- ==== Sys2Proof/Machine/Servo.lean ====
section
/-! DEFINITION. The Servo Control Engine: commands, actuator loops, the spindle loop, and the Power Stage Link
(R144 to R167, R177, R410). -/

namespace Sys2Proof.Machine

/-! ### Access -/

/-- An actuator of the SCE. -/
def actOf (s : State) (k : Fin 4) : Act := quadGet s.sce.acts k

/-- Replace the SCE. -/
def modSce (f : Sce → Sce) (s : State) : State := { s with sce := f s.sce }

/-- Update one actuator. -/
def modAct (k : Fin 4) (f : Act → Act) (s : State) : State :=
  modSce (fun c => { c with acts := quadSet c.acts k (f (quadGet c.acts k)) }) s

/-- Update the SCE's registers. -/
def sceReg (f : List (Nat × Word) → List (Nat × Word)) (s : State) : State :=
  modSce (fun c => { c with csr := f c.csr }) s

/-- Update the spindle loop. -/
def modSpn (f : SpnLoop → SpnLoop) (s : State) : State := modSce (fun c => { c with spn := f c.spn }) s

/-- Whether the loop exists on this part (R144). -/
def actExists (s : State) (k : Fin 4) : Bool := decide (s.part = .dhk7440) || decide (k.val < 2)

/-- Whether an actuator's loop is enabled. -/
def actEnabled (s : State) (k : Fin 4) : Bool := wordBit (rd s.sce.csr SCE_CTL) k.val

/-- Whether an actuator is owned: its MC's OWN bit (TDL_STAT.OWNED). -/
def actOwned (s : State) (k : Fin 4) : Bool := rdB (mcOf s k).csr MC_HIF_CTL.OWN

/-- A loaded state (R155). -/
def loadedState (n : Nat) : Bool := decide (n = 2 ∨ n = 3 ∨ n = 4 ∨ n = 5 ∨ n = 6 ∨ n = 8)

/-- The MC's lock. -/
def mcLocked (s : State) (k : Fin 4) : Bool := rdB (mcOf s k).csr MC_SYN_STAT.LOCK

/-- Owned, enabled and locked. -/
def refCandidate (s : State) (k : Fin 4) : Bool :=
  actExists s k && actOwned s k && actEnabled s k && mcLocked s k

/-- The reference MC (R162). -/
def refMc (s : State) : Option (Fin 4) :=
  let p : Fin 4 := ⟨rdF s.sce.csr SCE_SPN_CTL.REFMC % 4, Nat.mod_lt _ (by decide)⟩
  if refCandidate s p then some p
  else ([0, 1, 2, 3] : List (Fin 4)).find? (fun k => refCandidate s k)

/-! ### Write inhibit (R153, R154, R174) -/

/-- Set one bit of a four-bit cause group. -/
def winhBit (g : Fld) (k : Fin 4) (c : List (Nat × Word)) : List (Nat × Word) :=
  wr c g.off (wordSetField (rd c g.off) (g.lo + k.val) (g.lo + k.val) 1)

/-- What a raised inhibit does to the MC at once: as the second consecutive coasted wedge of a write. -/
def inhibitActs (k : Fin 4) (s : State) : State :=
  if (mcOf s k).wg || (mcOf s k).ag then writeAbort k MC_WR_FAULT.COAST 7 s else s

/-- Raise the inhibit of R153 on one MC. -/
def raiseTrack (k : Fin 4) (s : State) : State :=
  inhibitActs k (sceReg (winhBit SCE_WINH.TRACK k) (modAct k (fun a => { a with inhTrack := true }) s))

/-- Raise the inhibit of a PSL channel fault. -/
def raisePsl (k : Fin 4) (s : State) : State := inhibitActs k (sceReg (winhBit SCE_WINH.PSL k) s)

/-- Do something for each Media Channel. -/
def forMcs (f : Fin 4 → State → State) (s : State) : State := f 3 (f 2 (f 1 (f 0 s)))

/-- Raise the inhibit of a catch-spin on every MC (R174). -/
def raiseSpindle (s : State) : State :=
  forMcs (fun k s => inhibitActs k (sceReg (winhBit SCE_WINH.SPINDLE k) s))
    { s with scu := { s.scu with inhibit := true } }

/-! ### Unload and load (R155, R161) -/

/-- Queue the loop's commands for the PSL. -/
def queueAct (k : Fin 4) (o : ActOut) (s : State) : State :=
  modSce (fun c => { c with pslQ := c.pslQ ++ [.act k.val o] }) s

/-- A command scaled by the bus voltage and saturated (R156, R159). -/
def busCommand (s : State) (x : Int) : Int := satInt 16 (busScale (rdF s.scu.csr SCU_VM_NOW.VM) x)

/-- Full outward current. -/
def fullOutward : Int := if Config.outwardPositive then 32767 else -32768

/-- Whether a current pushes outward. -/
def outward (x : Int) : Bool := if Config.outwardPositive then decide (0 < x) else decide (x < 0)

/-- The VCM command of a velocity-controlled move, from the back-EMF last returned: off the ramp in LOAD, towards it
in UNLOAD, with full outward current once the unload has run out of time (R161). The table slots add to it as in every
state (R160), at the position last estimated. -/
def moveCommand (s : State) (k : Fin 4) (a : Act) : Int :=
  let extra := tblTerms s.sce k.val (posIndex a.x0)
  if a.state = 2 then busCommand s (Config.loadLaw a.bemf + extra)
  else if a.pushUntil.isSome then fullOutward
  else busCommand s (Config.unloadLaw a.bemf + extra)

/-- A move in LOAD or UNLOAD computes and queues its next command at once: it waits for no sample (R161). R161 gives the
computation no cadence without samples; the model computes one command after each reply of the power stage, and after a
frame that is lost for good none until the next sample, timeout or enable (DESIGN CHOICE, log 250). -/
def moveNext (k : Fin 4) (s : State) : State :=
  let a := quadGet s.sce.acts k
  if a.state = 2 ∨ a.state = 7 then
    let o : ActOut := ⟨moveCommand s k a, 0⟩
    queueAct k o (modAct k (fun a => { a with
      out := o
      lastOut := o }) s)
  else s

/-- Start an unload; a parked or unloading actuator stays as it is. -/
def unload (k : Fin 4) (s : State) : State :=
  if loadedState (actOf s k).state then
    moveNext k (modAct k (fun a => { a with
      state := 7
      onTrack := false
      pesHigh := false
      braking := false
      seekRun := none
      pushUntil := none }) s)
  else s

/-- Unload every owned actuator. -/
def unloadOwned (s : State) : State := forMcs (fun k s => if actOwned s k then unload k s else s) s

/-- A loop that is no longer enabled computes nothing and sends no frame (R167). -/
def stopLoop (k : Fin 4) (s : State) : State :=
  let s := sceReg (fun c => wr c SCE_CTL (wordSetField (rd c SCE_CTL) k.val k.val 0)) s
  let s := modSce (fun c => { c with pslQ := c.pslQ.filter (fun r => match r with
    | .act ch _ => decide (ch ≠ k.val)
    | .reg _ _ _ => true) }) s
  modAct k (fun a => { a with
    state := 0
    stopping := false
    onTrack := false
    run := .idle }) s

/-- The actuator is parked: commands 0, and a cleared enable bit now reads 0 (SCE_CTL). -/
def parkNow (k : Fin 4) (s : State) : State :=
  let stop := (actOf s k).stopping
  let s := modAct k (fun a => { a with
    state := 1
    parked := true
    pushUntil := none
    onTrack := false
    out := ⟨0, 0⟩
    lastOut := ⟨0, 0⟩ }) s
  if stop then stopLoop k s else queueAct k ⟨0, 0⟩ s

/-! ### Commands are taken at samples (R149, R150, R155) -/

/-- The zone copy of a head and zone. -/
def zoneCopyOf (s : State) (k : Fin 4) (head zone : Nat) : Option ZoneCopy :=
  tget none s.sce.zcopy ((k.val * 16 + head) * 32 + zone)

/-- READER_OFS of a zone's analog entry. -/
def zoneReaderOfs (s : State) (k : Fin 4) (head zone : Nat) : Int :=
  sext 16 (entF (zoneEntry s k true head zone) 2 15 0)

/-- The target of a seek to a track (R149). -/
def seekTarget (z : ZoneCopy) (track : Nat) (srvofs readerOfs : Int) : Int :=
  z.base + (track - z.first) * z.pitch + srvofs - readerOfs.tdiv 2

/-- Whether the set-points follow SPSYNC (SCE_STAT.SYNC, R163). -/
def following (s : State) : Bool := rdB s.sce.csr SCE_SPN_CTL.FOLLOW && s.sce.spn.sync

/-- With FOLLOW at 0 no pulse is followed, and SYNC is regained only by four accepted pulses. -/
def dropSync (s : State) : State :=
  if rdB s.sce.csr SCE_SPN_CTL.FOLLOW then s
  else modSpn (fun p => { p with
    sync := false
    goodRun := 0
    badRun := 0 }) s

/-- The set-point of the speed. -/
def speedSet (s : State) : Nat :=
  if following s then s.sce.spn.syncSpeed else rdF s.sce.csr SCE_SPN_SET.SPEED

/-- Whether the spindle's speed is within ±BAND percent of the set-point (R150, R171). -/
def inBand (s : State) (speed : Nat) : Bool :=
  let set := speedSet s
  let band := rdF s.scu.csr SCU_OBS.BAND
  decide (100 * speed ≤ (100 + band) * set) && decide ((100 - band) * set ≤ 100 * speed)

/-- The SCU runs in BEMF_RUN or WEDGE_RUN with its speed in the band. -/
def spindleReady (s : State) : Bool :=
  let st := rdF s.scu.csr SCU_STAT.STATE
  decide (st = 3 ∨ st = 4) && inBand s (rdF s.scu.csr SCU_STAT.SPEED)

/-- Whether a GO is refused (R150). -/
def goRefused (s : State) (k : Fin 4) : Bool :=
  let a := actOf s k
  let op := wordField a.cmd 29 27
  let head := wordField a.cmd 23 20
  let zone := wordField a.cmd 12 8
  let track := wordField a.trk 20 0
  let targetBad : Bool := match zoneCopyOf s k head zone with
    | none => true
    | some z => decide (track < z.first ∨ z.last < track)
  !actEnabled s k || decide (op = 0 ∨ 4 < op) ||
  ((decide (op = 1 ∨ op = 2)) && (decide (12 ≤ head) || targetBad)) ||
  (decide (op = 2) && (decide (a.state ≠ 1) || !spindleReady s)) ||
  ((decide (op = 1 ∨ op = 4)) && !decide (a.state = 2 ∨ a.state = 3 ∨ a.state = 4 ∨ a.state = 5))

/-- Point the loop at the track that the command names. -/
def takeTarget (s : State) (k : Fin 4) (a : Act) : Act :=
  let head := wordField a.cmd 23 20
  let zone := wordField a.cmd 12 8
  match zoneCopyOf s k head zone with
  | none => a
  | some z =>
    let ro := zoneReaderOfs s k head zone
    { a with
      head := head
      readerOfs := ro
      target := seekTarget z (wordField a.trk 20 0) a.srvofs ro }

/-- The position of a track by R149, on the heads' zone copies. -/
def trackPos (s : State) (k : Fin 4) (head zone track : Nat) : Option Int :=
  (zoneCopyOf s k head zone).map (fun z => seekTarget z track 0 (zoneReaderOfs s k head zone))

/-- The stroke of an actuator in servo tracks: the largest of its present heads, each from the first track of zone 0
to the last track of zone 31 (R224). -/
def stroke (s : State) (k : Fin 4) : Nat :=
  (List.range 16).foldl (fun n h => match zoneCopyOf s k h 0, zoneCopyOf s k h 31 with
    | some a, some b => match trackPos s k h 0 a.first, trackPos s k h 31 b.last with
      | some p, some q => max n ((q - p).natAbs / 1024)
      | _, _ => n
    | _, _ => n) 0

/-- The entry of the seek profile for a distance: 64 equal bins share the stroke (R383). -/
def seekBin (s : State) (k : Fin 4) (dist : Nat) : Nat := k.val * 64 + min 63 (64 * dist / max 1 (stroke s k + 1))

/-- The trajectory starts from the estimated state. -/
def startTrajectory (a : Act) : Act := { a with pref := a.x0, vref := a.x1, aref := 0 }

/-- An accepted GO (R153, R155). -/
def goTaken (k : Fin 4) (s : State) : State :=
  let a := actOf s k
  let op := wordField a.cmd 29 27
  let fresh : Act → Act := fun a => { a with onTrack := false, seekRun := some 0, seekDist := none, braking := false, setCnt := 0 }
  if op = 1 then
    modAct k (fun x => let a := fresh (takeTarget s k x)
                       if a.state = 2 then a
                       else startTrajectory { a with state := 3, seekDist := some ((a.target - x.target).natAbs / 1024) }) s
  else if op = 2 then
    modAct k (fun a => { fresh (takeTarget s k a) with
      state := 2
      parked := false
      seeded := false
      plaus := 0 }) s
  else if op = 3 then
    unload k s
  else
    modAct k (fun a =>
      let b := fresh a
      if a.state = 2 ∨ a.state = 3 then startTrajectory { b with braking := true, state := 3 }
      else { b with target := a.x0, state := 4 }) s

/-- GO at a sample: it waits only for a recompute of the zone bases. -/
def takeGo (k : Fin 4) (s : State) : State :=
  let a := actOf s k
  if wordBit a.cmd 31 && !rdB s.sce.csr SCE_CTL.ZREBUILD then
    let bad := goRefused s k
    let s := if bad then s else goTaken k s
    modAct k (fun a => { a with cmd := wordSetField (wordSetField a.cmd 31 31 0) 30 30 (b2n bad) }) s
  else s

/-- SRV OFFSET or SRV CENTRE at a sample: the target moves with the offset, and the head settles again. -/
def takeOffset (k : Fin 4) (s : State) : State :=
  match (actOf s k).srvPending with
  | none => s
  | some o =>
    modAct k (fun a => { a with
      target := a.target - a.srvofs + sext 16 o
      srvofs := sext 16 o
      srvPending := none
      setCnt := 0
      state := if a.state = 5 then 4 else a.state }) s

/-- Zero states of all sections. -/
def zeroSecs (n : Nat) : List (Int × Int) := List.replicate n (0, 0)

/-- A requested bank swap of the loop (R157). -/
def takeSwap (k : Fin 4) (s : State) : State :=
  let w := rd s.sce.csr SCE_COEF_SWAP
  if wordBit w k.val then
    let s := modSce (bankSwap k.val) (sceReg (fun c => wr c SCE_COEF_SWAP (wordSetField w k.val k.val 0)) s)
    if wordBit w 16 then modAct k (fun a => { a with secs := zeroSecs 16 }) s else s
  else s

/-- SRV OFFSET or SRV CENTRE from the MSQ: ON_TRACK clears in its own beat (R115). -/
def sceOffset (k : Fin 4) (ofs : Nat) (s : State) : State :=
  modAct k (fun a => { a with onTrack := false, srvPending := some ofs }) s

/-- The offset in force, or the one that the next sample applies. -/
def offsetInForce (s : State) (k : Fin 4) : Nat :=
  match (actOf s k).srvPending with
  | some o => o
  | none => toBits 16 (actOf s k).srvofs

/-- The MC passes READER_OFS at a job's start, and the head is centred with it (R73, R149). -/
def sceReaderOfs (k : Fin 4) (ofs : Nat) (s : State) : State :=
  modAct k (fun a => { a with
    target := a.target + a.readerOfs.tdiv 2 - (sext 16 ofs).tdiv 2
    readerOfs := sext 16 ofs }) s

/-! ### One run of an actuator loop (R144, R149 to R160) -/

/-- The vector of estimates. -/
def xs (a : Act) : List Int := [a.x0, a.x1, a.x2]

/-- The follow controllers: VCM and microactuator commands and the new section states. -/
def followLaw (c : Sce) (loop vm : Nat) (e extra : Int) (secs : List (Int × Int)) : ActOut × List (Int × Int) :=
  let cma := cascade (coefSections c loop 40 6) (secs.drop 8 |>.take 6) e
  let uma := satInt 12 (q28 (coefI c loop 99 * cma.1))
  let gma := cascade (coefSections c loop 70 2) (secs.drop 14) uma
  let cv := cascade (coefSections c loop 0 8) (secs.take 8) (satInt 32 (e + gma.1))
  (⟨satInt 16 (busScale vm (cv.1 + extra)), uma⟩, cv.2 ++ cma.2 ++ gma.2)

/-- The seek law by state feedback. -/
def seekLaw (c : Sce) (loop vm : Nat) (a : Act) (extra : Int) : ActOut :=
  let fb := -(q28 (dot [coefI c loop 95, coefI c loop 96, coefI c loop 97] [a.x0 - a.pref, a.x1 - a.vref, a.x2]))
  let ff := q28 (coefI c loop 98 * a.aref)
  ⟨satInt 16 (busScale vm (fb + ff + extra)), 0⟩

/-- Hold a number within ±n. -/
def clampAbs (n x : Int) : Int := max (-n) (min n x)

/-- The next point of the trajectory: the acceleration stays within AMAX and the velocity within VMAX; a HOLD decelerates
at AMAX to zero velocity, and its target is the estimated position where it gets there. -/
def trajNext (c : Sce) (loop : Nat) (a : Act) : Act :=
  let amax := (coefAt c loop 0 100).toNat
  let vmax := (coefAt c loop 0 101).toNat
  let acc := if a.braking then -(clampAbs amax a.vref)
             else clampAbs amax (Config.trajectory a.pref a.vref a.target amax vmax)
  let v := if a.braking then a.vref + acc else clampAbs vmax (a.vref + acc)
  { a with
    aref := acc
    vref := v
    pref := a.pref + v
    target := if a.braking ∧ v = 0 then a.x0 else a.target }

/-- Whether the trajectory has ended. -/
def trajDone (a : Act) : Bool := decide (a.vref = 0) && (a.braking || decide (a.pref = a.target))

/-- A taken seek has ended: its SEEKT enters its distance's bin, of which the latest 16 are kept (R383). -/
def noteSeek (k : Fin 4) (s : State) : State := match (actOf s k).seekDist, (actOf s k).seekRun with
  | some d, some n =>
    let b := seekBin s k d
    { s with cal := { s.cal with seekLast := tput [] s.cal.seekLast b ((n :: tget [] s.cal.seekLast b).take 16) } }
  | _, _ => s

/-- Raise or drop ON_TRACK, PES_HIGH and the settle count by the sample's error (R153). While the analog set-point drives the
actuator, settling sets no ON_TRACK, and the inhibit of an excursion stays (R164). -/
def judge (k : Fin 4) (e : Int) (s : State) : State :=
  let a := actOf s k
  let rdl : Int := wordField a.lim 31 24
  let wrl : Int := wordField a.lim 23 16
  let setl : Int := wordField a.lim 15 8
  let setn := max 1 (wordField a.lim 7 4)
  let mag : Int := e.natAbs
  let s := modAct k (fun a => { a with pesHigh := decide (rdl < mag) }) s
  let off := decide (wrl < mag) || (a.miss && decide (a.state = 5))
  let s := if off then raiseTrack k (modAct k (fun a => { a with
      onTrack := false
      state := if a.state = 5 then 4 else a.state }) s) else s
  let good := !a.miss && decide (mag ≤ setl)
  let s := modAct k (fun a => { a with setCnt := if good then a.setCnt + 1 else 0 }) s
  if decide ((actOf s k).state = 4) && decide (setn ≤ (actOf s k).setCnt) then
    modAct k (fun a => { a with
      onTrack := !atestOn s k
      inhTrack := a.inhTrack && atestOn s k
      state := 5
      seekt := a.seekRun.getD a.seekt
      seekDist := none
      seekRun := none }) (noteSeek k s)
  else s

/-- The set-point's shift while ATEST drives this actuator (R164). -/
def atestShift (s : State) (k : Fin 4) (code : Nat) : Int :=
  if atestOn s k then
    roundDiv (((code : Int) - 2048) * sext 16 (rdF s.sce.csr SCE_ATEST.GAIN)) 256
  else 0

/-- ATEST enters and leaves (R155, R164). -/
def atestState (k : Fin 4) (s : State) : State :=
  let on := atestOn s k
  let a := actOf s k
  if on && decide (a.state = 5) then modAct k (fun a => { a with state := 8, onTrack := false }) s
  else if !on && decide (a.state = 8) then modAct k (fun a => { a with state := 4, setCnt := 0 }) s
  else s

/-- The run of misses reaches the limit of R152. -/
def lostLimit (a : Act) : Bool :=
  decide (4 * max 1 (wordField a.lim 3 0) ≤ a.ccnt) && decide (a.state = 3 ∨ a.state = 4 ∨ a.state = 5)

/-- Enter LOST. -/
def enterLost (k : Fin 4) (s : State) : State :=
  motionEvent <| raiseTrack k (modAct k (fun a => { a with
    state := 6
    onTrack := false
    lostCnt := 0
    plaus := 0
    seeded := false
    braking := false }) s)

/-- The sample against the prediction (R151, R152): the position to use, and whether the sample was usable. The first
sample of a run in LOST or LOAD, and the first of a loop just enabled under a handoff, is the plausibility reference
of those after it: the estimated position is set to it. -/
def takeSample (k : Fin 4) (pos : Option Int) (s : State) : State :=
  let a := actOf s k
  let near := fun (y : Int) => decide ((y - a.x0).natAbs ≤ 4096)
  let seed := pos.isSome && (!a.seeded || (decide (a.state = 2 ∨ a.state = 6) && decide (a.plaus = 0)))
  let ok : Bool := match pos with
    | none => false
    | some y => seed || near y
  let rejected := pos.isSome && !ok
  modAct k (fun a => { a with
    seeded := a.seeded || seed
    x0 := if seed then pos.getD a.x0 else a.x0
    pesHigh := false
    miss := !ok
    ccnt := if ok then 0 else min 255 (a.ccnt + 1)
    plaus := if ok then (if seed then 1 else a.plaus + 1) else 0
    rej := if rejected then BitVec.ofNat 32 (satAdd 0xFFFFFFFF a.rej.toNat 1) else a.rej
    coast := if !ok || decide (a.state = 6) then BitVec.ofNat 32 (satAdd 0xFFFFFFFF a.coast.toNat 1) else a.coast }) s

/-- The loop's output and new internal states by the mode it is in. -/
def computeLoop (k : Fin 4) (y : Int) (atest : Nat) (s : State) : State :=
  let a := actOf s k
  let vm := rdF s.scu.csr SCU_VM_NOW.VM
  let extra := tblTerms s.sce k.val (posIndex y)
  let done := fun (o : ActOut) (secs : List (Int × Int)) (a : Act) (s : State) =>
    let innov := if a.miss || decide (a.state = 6) then 0 else y - a.x0
    let x := estimate s.sce k.val (xs a) o.vcm innov
    modAct k (fun _ => { a with
      out := o
      secs := secs
      x0 := x.getD 0 0
      x1 := x.getD 1 0
      x2 := x.getD 2 0 }) s
  if a.state = 3 then
    let a := trajNext s.sce k.val a
    let o := seekLaw s.sce k.val vm a extra
    let a := if trajDone a then { a with state := 4, braking := false, secs := zeroSecs 16, setCnt := 0 } else a
    done o a.secs a s
  else if a.state = 4 ∨ a.state = 5 ∨ a.state = 8 then
    let e := a.target + atestShift s k atest - y
    let r := followLaw s.sce k.val vm e extra a.secs
    judge k e (done r.1 r.2 a s)
  else if a.state = 6 then done ⟨busCommand s (Config.holdLaw a.x1 + extra), 0⟩ a.secs a s
  else if a.state = 2 ∨ a.state = 7 then done ⟨moveCommand s k a, 0⟩ a.secs a s
  else done ⟨0, 0⟩ a.secs a s

/-- After the computation: LOAD ends with three plausible samples, LOST recovers or is entered. -/
def afterSample (k : Fin 4) (s : State) : State :=
  let a := actOf s k
  if a.state = 2 ∧ 3 ≤ a.plaus then modAct k (fun a => startTrajectory { a with state := 3 }) s
  else if a.state = 6 then
    let s := modAct k (fun a => { a with lostCnt := a.lostCnt + 1 }) s
    if 3 ≤ a.plaus ∧ a.lostCnt < 64 then modAct k (fun a => { a with state := 4, setCnt := 0 }) s else s
  else if lostLimit a then enterLost k s
  else s

/-- Whether the unload of a Cloudburst or of a reset dump is due on this wedge (R177, R450). -/
def burstUnload (s : State) (k : Fin 4) : Bool :=
  decide (s.sys.dump ≠ .none) && !(mcOf s k).wg && actOwned s k

/-- One wedge of an actuator: commands are taken, the sample is judged, and the loop computes. A loop that is not enabled only
refuses a GO (R150). -/
def runActuator (k : Fin 4) (pos : Option Int) (atest : Nat) (s : State) : State :=
  if !actExists s k then s
  else if (actOf s k).state = 0 then takeGo k s
  else
    let s := modAct k (fun a => { a with seekRun := a.seekRun.map (fun n => min 65535 (n + 1)) }) s
    let s := takeGo k (takeOffset k (takeSwap k s))
    let s := if burstUnload s k then unload k s else s
    let s := atestState k (takeSample k pos s)
    let a := actOf s k
    let y := if a.miss || decide (a.state = 6) then a.x0 else pos.getD a.x0
    let s := modAct k (fun a => { a with run := .busy }) s
    afterSample k (computeLoop k y atest s)

/-! ### The spindle loop (R162, R163) -/

/-- Whether a phase reference is in force: the one of SPSYNC, or with PHASE_FW at 1 firmware's (R163, R440). -/
def phaseHeld (s : State) : Bool := following s || rdB s.sce.csr SCE_SPN_CTL.PHASE_FW

/-- One run of the spindle loop: the phase corrects the speed by at most 0.1 %, the sections turn the speed error into
the amplitude, and the table slots add their terms. Without a phase reference, or with the phase held free, neither
the phase error nor its integral, which stands still, corrects the speed (R163). -/
def runSpindle (speed : Nat) (phase : Option Int) (idx : Option (Nat × Nat × Nat)) (s : State) : State :=
  if !rdB s.sce.csr SCE_CTL.SPN_EN then s
  else
    let w := rd s.sce.csr SCE_COEF_SWAP
    let s := if wordBit w 4 then
        let s := modSce (bankSwap 4) (sceReg (fun c => wr c SCE_COEF_SWAP (wordSetField w 4 4 0)) s)
        if wordBit w 16 then modSpn (fun p => { p with secs := zeroSecs 4 }) s else s
      else s
    let set := speedSet s
    let p := s.sce.spn
    let err : Option Int := if phaseHeld s then phase.map (fun x => sext 16 (toBits 16 ((rdF s.sce.csr SCE_SPN_SET.PHASE : Int) - x)))
      else none
    let perr := err.getD 0
    let integ := satInt 32 (p.integ + perr)
    let corr := if err.isSome then clampAbs (set / 1000 : Nat) (q28 (coefI s.sce 4 20 * perr + coefI s.sce 4 21 * integ)) else 0
    let r := cascade (coefSections s.sce 4 0 4) p.secs (satInt 32 ((set : Int) + corr - speed))
    let extra := match idx with
      | none => 0
      | some i => tblTerms s.sce 4 (fun _ => i)
    let s := modSpn (fun p => { p with integ := integ, secs := r.2, out := r.1 + extra, run := .busy }) s
    sceReg (fun c => wrF (wrF c SCE_SPN_STAT.SPEED speed) SCE_SPN_STAT.PERR (toBits 16 perr)) s

/-- The converter's code at a wedge of the actuator that SCE_ATEST names (R164). -/
def noteAtest (k : Fin 4) (code : Nat) (s : State) : State :=
  if rdF s.sce.csr SCE_ATEST.ACT = k.val then sceReg (fun c => wrF c SCE_ATEST.CODE code) s else s

/-- A wedge of the reference MC: wedge 0 begins a revolution (R440). -/
def noteRev (wedge : Nat) (s : State) : State := if wedge = 0 then modSpn (fun p => { p with rev := (p.rev + 1) % 2 ^ 32 }) s else s

/-- An actuator's next wedge: a frame that fails in it counts again (R166). -/
def newWedge (k : Fin 4) (s : State) : State := modAct k (fun a => { a with failSeen := false }) s

/-- SERVO_SAMPLE (R144): the MC's sample starts its actuator's run, and on the reference MC the spindle's too. -/
def servoSample (k : Fin 4) (i : SampleIn) (s : State) : State :=
  let s := modSce (fun c => { c with wedgeSpeed := i.speed }) (noteAtest k i.atest (newWedge k s))
  let s := runActuator k (some i.pos) i.atest s
  if refMc s = some k then
    runSpindle i.speed (some i.phase) (some (angleIndex i.wedge i.beat (entF (mcOf s k).zone 2 27 16) 0))
      (noteRev i.wedge (modSpn (fun p => { p with phase := i.phase }) s))
  else s

/-- A wedge without a sample: the MC coasted it (R86, R151). On the reference MC the spindle loop runs all the same,
with the speed and the phase last measured. -/
def sceSampleMissing (k : Fin 4) (atest : Nat) (s : State) : State :=
  let s := runActuator k none atest (noteAtest k atest (newWedge k s))
  if refMc s = some k then
    runSpindle s.sce.wedgeSpeed (some s.sce.spn.phase) (some (angleIndex (mcOf s k).wedge 0 (entF (mcOf s k).zone 2 27 16) 0))
      (noteRev (mcOf s k).wedge s)
  else s

/-- SPINDLE_LOOP_TICK (R144, R162): only while no MC is locked, with the observer's speed. Without a reference MC
there is no phase, so none corrects the speed (R163). The tick, which is as long as a wedge, stands for a wedge of
every actuator (DESIGN CHOICE, log 237). -/
def spindleLoopTick (s : State) : State :=
  if (([0, 1, 2, 3] : List (Fin 4)).any (fun k => mcLocked s k)) then s
  else runSpindle s.scu.obsSpeed none none (forMcs newWedge s)

/-! ### Results, deadlines and release (R145 to R147) -/

/-- The slack of a run, in 10 ns, taken into SCE_FINISH. -/
def recordSlack (slack : Int) (s : State) : State :=
  sceReg (fun c =>
    let n := satInt 16 slack
    let worst := sext 16 (rdF c SCE_FINISH.WORST)
    wrF (wrF c SCE_FINISH.LAST (toBits 16 n)) SCE_FINISH.WORST (toBits 16 (min worst n))) s

/-- LOOP_RESULT_READY (R146, R147): a result in time is sent; a late one leaves only its slack. -/
def loopResultReady (loop : Fin 5) (slack : Int) (s : State) : State :=
  if h : loop.val < 4 then
    let k : Fin 4 := ⟨loop.val, h⟩
    let a := actOf s k
    match a.run with
    | .idle => s
    | .busy => recordSlack slack (queueAct k a.out (modAct k (fun a => { a with run := .idle, lastOut := a.out }) s))
    | .late => recordSlack slack (modAct k (fun a => { a with run := .idle }) s)
  else
    match s.sce.spn.run with
    | .idle => s
    | .busy => recordSlack slack (modSpn (fun p => { p with run := .idle, lastOut := p.out }) s)
    | .late => recordSlack slack (modSpn (fun p => { p with run := .idle }) s)

/-- LOOP_DEADLINE (R146): the result is late; the previous output is sent again. -/
def loopDeadline (loop : Fin 5) (slack : Int) (s : State) : State :=
  let missed := fun (s : State) =>
    machineCheck 8 0x01 1 (BitVec.ofNat 32 loop.val) (BitVec.ofNat 32 (toBits 32 slack))
      (sceReg (fun c => incR (incR c SCE_LATE 1) SCE_OVERRUN 1) s)
  if h : loop.val < 4 then
    let k : Fin 4 := ⟨loop.val, h⟩
    if (actOf s k).run = .busy then
      missed (queueAct k (actOf s k).lastOut (modAct k (fun a => { a with run := .late }) s))
    else s
  else if s.sce.spn.run = .busy then missed (modSpn (fun p => { p with run := .late }) s)
  else s

/-- OUTPUT_RELEASE (R145): the output is applied at beat 0 of the next wedge. -/
def outputRelease (loop : Fin 5) (s : State) : State :=
  if h : loop.val < 4 then
    let k : Fin 4 := ⟨loop.val, h⟩
    modAct k (fun a => if a.wedgeBad then a else { a with applied := a.lastOut }) s
  else { s with scu := { s.scu with amp := s.sce.spn.lastOut } }

/-! ### Power Stage Link (R165 to R167) -/

/-- The CRC-8 of a frame over bits [63:8] (R165). -/
def pslCrc (top : Nat) : Nat := crc8 (bitsMsb 56 top)

/-- Bits [63:8] of a frame from its fields. -/
def pslFields (type ch : Nat) (claim en : Bool) (delay body seq : Nat) : Nat :=
  ((((((type % 16) * 4 + ch % 4) * 2 + b2n claim) * 2 + b2n en) * 4096 + delay % 4096) * 268435456
    + body % 268435456) * 256 + seq % 256

/-- A whole frame. -/
def pslFrame (top : Nat) : Nat := top * 256 + pslCrc top

/-- Bits [63:8] of the frame that carries a request. A firmware register frame always names CH 0: SCE_PSL_CMD
has no channel field and no rule says which CH it carries (DESIGN CHOICE, log 187). -/
def pslTop (req : PslReq) (claim : Bool) (delay seq : Nat) : Nat := match req with
  | .act ch o => pslFields 1 ch claim true delay (toBits 16 o.vcm * 4096 + toBits 12 o.ma) seq
  | .reg true addr _ => pslFields 3 0 false false 0 (addr * 1048576) seq
  | .reg false addr data => pslFields 2 0 false false 0 (addr * 1048576 + data * 16) seq

/-- Put one frame on the link. Only a frame with a request leaves a reply outstanding. -/
def pslPut (top : Nat) (o : List PslOut) (s : State) : State :=
  modSce (fun c => { c with
    pslOut := c.pslOut ++ o
    pslFrame := pslFrame top }) s

/-- The next frame sequence number. -/
def pslSeqNext (s : State) : State := modSce (fun c => { c with pslSeq := (c.pslSeq + 1) % 256 }) s

/-- Send a request's frame for the first time. CLAIM is set in the first frame of a newly enabled channel alone (R410). -/
def pslSend (req : PslReq) (delay : Nat) (s : State) : State :=
  let claim : Bool := match req with
    | .act ch _ => (actOf s ⟨ch % 4, Nat.mod_lt _ (by decide)⟩).claim
    | .reg _ _ _ => false
  let o : PslOut := ⟨req, claim, s.sce.pslSeq, rdF s.sce.csr SCE_PSL_CTL.RETRY, false⟩
  let s := pslSeqNext (pslPut (pslTop req claim delay o.seq) [o] s)
  match req with
  | .act ch _ => modAct ⟨ch % 4, Nat.mod_lt _ (by decide)⟩ (fun a => { a with claim := false }) s
  | .reg _ _ _ => s

/-- The next request for a frame slot: the oldest loop result before a register access (R166). -/
def pslNext (q : List PslReq) : Option PslReq :=
  match q.find? (fun r => match r with
    | .act _ _ => true
    | .reg _ _ _ => false) with
  | some r => some r
  | none => q.head?

/-- PSL_FRAME_SEND (R165): a free slot carries the next request, else an idle frame that collects an outstanding reply;
with neither nothing is sent. -/
def pslFrameSend (delay : Nat) (s : State) : State :=
  if !rdB s.sce.csr SCE_PSL_CTL.EN then s
  else match pslNext s.sce.pslQ with
    | some r => pslSend r delay (modSce (fun c => { c with pslQ := c.pslQ.erase r }) s)
    | none =>
      if s.sce.pslOut = [] then s else pslSeqNext (pslPut (pslFields 0 0 false false 0 0 s.sce.pslSeq) [] s)

/-- A channel's frame was accepted, or not (R166): FAILN counts wedges, so a wedge in which more than one frame fails
counts once. -/
def channelResult (k : Fin 4) (ok : Bool) (s : State) : State :=
  if ok then modAct k (fun a => { a with wedgeBad := false, failSeen := false, failWedges := 0 }) s
  else if (actOf s k).failSeen then modAct k (fun a => { a with wedgeBad := true }) s
  else
    let s := modAct k (fun a => { a with wedgeBad := true, failSeen := true, failWedges := a.failWedges + 1 }) s
    let n := max 1 (rdF s.sce.csr SCE_PSL_CTL.FAILN)
    if n ≤ (actOf s k).failWedges ∧ ((actOf s k).failWedges = n ∨ ¬ rdB s.sce.csr SCE_PSL_STAT.FAULT) then
      let s := raisePsl k (sceReg (fun c => wrB c SCE_PSL_STAT.FAULT true) s)
      machineCheck 8 0x03 2 (BitVec.ofNat 32 k.val) (rd s.sce.csr SCE_PSL_STAT) s
    else s

/-- A register access ends. -/
def regDone (data : Option Nat) (s : State) : State :=
  sceReg (fun c =>
    let c := wrB c SCE_PSL_CMD.GO false
    match data with
    | none => c
    | some d => wrB (wrF c SCE_PSL_RDATA.DATA d) SCE_PSL_RDATA.VALID true) s

/-- One bit of a four-bit group of SCE_PSL_STAT. -/
def pslBit (g : Fld) (ch : Nat) (b : Bool) (c : List (Nat × Word)) : List (Nat × Word) :=
  wr c g.off (wordSetField (rd c g.off) (g.lo + ch % 4) (g.lo + ch % 4) (b2n b))

/-- A reply's fields (R165). -/
def pslParse (w : Nat) : PslReply where
  status := w / 2 ^ 60 % 16
  ch := w / 2 ^ 58 % 4
  parked := decide (w / 2 ^ 57 % 2 = 1)
  otw := decide (w / 2 ^ 56 % 2 = 1)
  bemf := sext 12 (w / 2 ^ 44 % 4096)
  imeas := w / 2 ^ 28 % 65536
  seq := w / 2 ^ 20 % 256

/-- Whether a received frame carries the CRC-8 of its bits [63:8]. -/
def pslCrcOk (w : Nat) : Bool := decide (w % 256 = pslCrc (w / 256 % 2 ^ 56))

/-- What a good reply says of its channel: PARKED, back-EMF, over-temperature, and the measured current, in whose
place the reply to a register read carries the register's data. -/
def channelReport (isRead : Bool) (r : PslReply) (s : State) : State :=
  let k : Fin 4 := ⟨r.ch % 4, Nat.mod_lt _ (by decide)⟩
  let s := if r.otw then sceReg (fun c => wrB c SCE_PSL_STAT.OTW true) s else s
  let s := modAct k (fun a => { a with
    parkedSense := r.parked
    bemf := r.bemf
    imeas := if isRead then a.imeas else sext 16 r.imeas }) s
  if r.parked && decide ((actOf s k).state = 7) then parkNow k s else s

/-- The frame failed for good. -/
def frameLost (o : PslOut) (s : State) : State :=
  match o.req with
  | .act ch _ => channelResult ⟨ch % 4, Nat.mod_lt _ (by decide)⟩ false s
  | .reg _ _ _ => regDone none s

/-- Whether the device may still send the request: an actuator command only while its loop is enabled (R167). -/
def maySend (s : State) (req : PslReq) : Bool := match req with
  | .act ch _ => actEnabled s ⟨ch % 4, Nat.mod_lt _ (by decide)⟩
  | .reg _ _ _ => true

/-- A frame that failed is sent again while a retry is left and `fits` says that it can end before the release (R166): the same
frame, its SEQ and CLAIM too, with DELAY shortened. -/
def pslRetry (o : PslOut) (fits : Bool) (delay : Nat) (s : State) : State :=
  if !maySend s o.req then s
  else if 0 < o.retries && fits then
    pslPut (pslTop o.req o.claim delay o.seq) [{ o with
      retries := o.retries - 1
      cut := false }] (sceReg (fun c => incR c SCE_PSL_ERR 1) s)
  else frameLost o s

/-- Whether the planned handoff is armed for the actuator (R412). -/
def handoffArmed (s : State) (k : Fin 4) : Bool :=
  rdB s.tdl.csr TDL_HANDOFF.ARM && wordBit (rd s.tdl.csr TDL_HANDOFF) k.val

/-- An actuator command was answered (R166, R167). A device that meets STATUS 2 in a Cloudburst's unload of a
handed-off channel stops its loop, because the partner holds the channel (R414). A move in LOAD or UNLOAD goes on from
the reply. -/
def actAnswer (k : Fin 4) (out : ActOut) (r : PslReply) (s : State) : State :=
  let ok := decide (r.status = 0)
  let stops := decide (r.status = 2) && decide (s.sys.dump = .cloudburst) && handoffArmed s k
  let s := if stops ∧ (actOf s k).state = 7 then stopLoop k s else s
  let s := if ok then { s with tdl := { s.tdl with accepted := s.tdl.accepted.map (fun m => m ||| 2 ^ k.val) } } else s
  let s := if ok ∧ ((actOf s k).state = 2 ∨ (actOf s k).state = 7) then modAct k (fun a => { a with applied := out }) s else s
  let s := channelResult k ok (channelReport false r (sceReg (pslBit SCE_PSL_STAT.OWNED k.val ok) s))
  if actEnabled s k then moveNext k s else s

/-- What a good reply does (R166, R167). -/
def pslAnswer (o : PslOut) (r : PslReply) (s : State) : State :=
  let s := if r.status = 2 then sceReg (fun c => wrB c SCE_PSL_STAT.NOTOWN true) s else s
  let s := sceReg (pslBit SCE_PSL_STAT.PFLT r.ch (decide (r.status = 3))) s
  match o.req with
  | .act ch out => actAnswer ⟨ch % 4, Nat.mod_lt _ (by decide)⟩ out r s
  | .reg isRead _ _ => regDone (if isRead ∧ r.status = 0 then some r.imeas else none) (channelReport isRead r s)

/-- PSL_REPLY (R165 to R167): the reply's 64 bits in its slot, or none. A missing reply, one that fails its CRC, one
of another frame's SEQ and one of STATUS 1 fail the frame, and so does any reply of a frame that a CBP fault cut
(R15); `delay` is the DELAY of its retry. -/
def pslReply (r : Option Nat) (fits : Bool) (delay : Nat) (s : State) : State :=
  match s.sce.pslOut with
  | [] => s
  | o :: rest =>
    let s := modSce (fun c => { c with pslOut := rest }) s
    match r with
    | none => pslRetry o fits delay s
    | some w =>
      if o.cut then pslRetry o fits delay s
      else if !pslCrcOk w then pslRetry o fits delay (sceReg (fun c => wrB c SCE_PSL_STAT.CRC true) s)
      else if (pslParse w).seq ≠ o.seq ∨ (pslParse w).status = 1 then pslRetry o fits delay s
      else pslAnswer o (pslParse w) s

/-- SCE_PSL_CMD.GO (R166): queue the register frame; a write while GO reads 1 queues nothing more. -/
def pslReg (isRead : Bool) (addr data : Nat) (s : State) : State :=
  if rdB s.sce.csr SCE_PSL_CMD.GO then s
  else
    modSce (fun c => { c with pslQ := c.pslQ ++ [.reg isRead (addr % 256) (data % 65536)] }) (sceReg (fun c =>
      wrB (wrF (wrF (wrB (wrB c SCE_PSL_CMD.GO true) SCE_PSL_CMD.RD isRead) SCE_PSL_CMD.ADDR addr) SCE_PSL_CMD.DATA
        data) SCE_PSL_RDATA.VALID false) s)

/-! ### Commands of the SCE -/

/-- Issue an operation on an actuator: SCE_ACT_CMD with GO, and SCE_ACT_TRK. -/
def actCommand (k : Fin 4) (op head zone track : Nat) (s : State) : State :=
  if actExists s k then
    modAct k (fun a => { a with
      trk := BitVec.ofNat 32 (track % 2 ^ 21)
      cmd := wordSetField (wordSetField (wordSetField (wordSetField a.cmd 31 31 1) 29 27 op) 23 20 head) 12 8 zone }) s
  else s

/-- ZREBUILD (R149): the recompute starts. -/
def zrebuild (s : State) : State := sceReg (fun c => wrB c SCE_CTL.ZREBUILD true) s

/-- The bases and copies of one head, zone by zone, from the descriptors. -/
def copyZones (s : State) (k : Fin 4) (head : Nat) : Nat → Nat → Int → List (Nat × Option ZoneCopy)
  | 0, _, _ => []
  | n + 1, zone, base =>
    let d := zoneEntry s k false head zone
    let first := entF d 0 20 0
    let last := entF d 1 20 0
    let pitch := entF d 6 15 0
    let rest := copyZones s k head n (zone + 1) (base + ((last : Int) - first + 1) * pitch)
    if entF d 0 31 31 = 1 then ((k.val * 16 + head) * 32 + zone, some ⟨base, first, last, pitch⟩) :: rest else rest

/-- ZREBUILD_END (R149): every base and every copy is replaced, and waiting GOs may be taken. -/
def zrebuildEnd (s : State) : State :=
  if rdB s.sce.csr SCE_CTL.ZREBUILD then
    let all := ([0, 1, 2, 3] : List (Fin 4)).flatMap (fun k =>
      if actExists s k then (List.range 12).flatMap (fun h => copyZones s k h 32 0 0) else [])
    modSce (fun c => { c with zcopy := all, csr := wrB c.csr SCE_CTL.ZREBUILD false }) s
  else s

/-- COEF_SWAP (R157): request an exchange. -/
def coefSwap (loop : Fin 5) (s : State) : State :=
  sceReg (fun c => wr c SCE_COEF_SWAP (wordSetField (rd c SCE_COEF_SWAP) loop.val loop.val 1)) s

/-- SCE_ACT_STAT of an actuator. -/
def actStatWord (s : State) (k : Fin 4) : Word :=
  let a := actOf s k
  let inh := a.inhTrack || s.scu.inhibit || wordBit (rd s.sce.csr SCE_WINH) (8 + k.val)
  BitVec.ofNat 32 (a.state * 2 ^ 28 + b2n (onTrack s k) * 2 ^ 27 + b2n a.pesHigh * 2 ^ 26 + b2n inh * 2 ^ 25
    + b2n a.miss * 2 ^ 24 + a.ccnt * 2 ^ 16 + a.seekt)

/-- A LOST or LOAD that found no samples: machine check and unload. -/
def giveUp (k : Fin 4) (s : State) : State :=
  unload k (machineCheck 8 0x02 2 (BitVec.ofNat 32 k.val) (actStatWord s k) s)

/-- LOST_TIMEOUT (R152): 64 wedges have passed in LOST. -/
def lostTimeout (k : Fin 4) (s : State) : State :=
  if (actOf s k).state = 6 ∧ 64 ≤ (actOf s k).lostCnt then giveUp k s else s

/-- LOAD_TIMEOUT (R155): 200 ms of LOAD without plausible samples. -/
def loadTimeout (k : Fin 4) (s : State) : State := if (actOf s k).state = 2 then giveUp k s else s

/-- UNLOAD_BEMF_LOW (R161): the back-EMF stayed below 20 mV for 2 ms while the current pushed outward. -/
def unloadBemfLow (k : Fin 4) (s : State) : State :=
  if (actOf s k).state = 7 ∧ (actOf s k).bemf.natAbs < 20 ∧ outward (actOf s k).imeas then parkNow k s else s

/-- UNLOAD_TIMEOUT (R161): 300 ms have passed, and full outward current starts for 50 ms. -/
def unloadTimeout (k : Fin 4) (s : State) : State :=
  if (actOf s k).state = 7 ∧ (actOf s k).pushUntil = none then
    moveNext k (modAct k (fun a => { a with pushUntil := some (s.sys.us + 50000) }) s)
  else s

/-- The 50 ms of full outward current end, and the actuator is reported parked (R161). -/
def pushEnd (k : Fin 4) (s : State) : State :=
  match (actOf s k).pushUntil with
  | none => s
  | some t => if (actOf s k).state = 7 ∧ t ≤ s.sys.us then parkNow k s else s

/-- ACT_EN_WRITE (R410, SCE_CTL): a set bit starts the loop in its enable state; a cleared one unloads, or stops at
once under a handoff. DESIGN CHOICE (log 238): a set bit while a disable is still pending takes the disable back, so
the loop stays enabled once it has parked. -/
def actEnWrite (k : Fin 4) (on : Bool) (s : State) : State :=
  if !actExists s k then s
  else
    if on then
      let s := modAct k (fun a => { a with stopping := false }) s
      let enable := fun (f : Act → Act) (s : State) =>
        modAct k (fun a => { f a with claim := true, ccnt := 0, pushUntil := none })
          (sceReg (fun c => wr c SCE_CTL (wordSetField (rd c SCE_CTL) k.val k.val 1)) s)
      if actEnabled s k then s
      else if handoffArmed s k then
        enable (fun a => { takeTarget s k a with
          state := 4
          parked := false
          seeded := false
          setCnt := 0 }) s
      else
        moveNext k (enable (fun a => { a with
          state := if a.parkedSense then 1 else 7
          parked := a.parkedSense }) s)
    else if !actEnabled s k then s
    else if handoffArmed s k ∨ (actOf s k).state = 1 ∨ (actOf s k).state = 0 then stopLoop k s
    else unload k (modAct k (fun a => { a with stopping := true }) s)

/-! ### SPSYNC (R163) -/

/-- A rejected or missing pulse. -/
def spsyncBad (s : State) : State :=
  let s := modSpn (fun p => { p with badRun := p.badRun + 1, goodRun := 0 }) s
  if max 1 (rdF s.sce.csr SCE_SPN_CTL.MISSN) ≤ s.sce.spn.badRun then modSpn (fun p => { p with sync := false }) s else s

/-- SPSYNC_EDGE (R163): `speed` is the pulse's period as a speed, `late` an edge that lost to the missing-pulse timer. -/
def spsyncEdge (speed : Nat) (late : Bool) (s : State) : State :=
  if late then sceReg (fun c => incR c SCE_LATE 1) s
  else if !rdB s.sce.csr SCE_SPN_CTL.FOLLOW then s
  else
    let set : Int := rdF s.sce.csr SCE_SPN_SET.SPEED
    let tol : Int := rdF s.sce.csr SCE_SPN_CTL.SYNCTOL
    -- the period differs from the set-point's by more than SYNCTOL × 0.01 %
    if (10000 * (set - speed)).natAbs ≤ (tol * speed).natAbs ∧ speed ≠ 0 then
      let s := modSpn (fun p => { p with goodRun := p.goodRun + 1, badRun := 0, syncSpeed := speed }) s
      if 4 ≤ s.sce.spn.goodRun then modSpn (fun p => { p with sync := true }) s else s
    else spsyncBad s

/-- SPSYNC_MISSING (R163): no pulse within 1.5 periods. -/
def spsyncMissing (s : State) : State := if rdB s.sce.csr SCE_SPN_CTL.FOLLOW then spsyncBad s else s

/-! ### Clears (R179, R181) -/

/-- SCE_CLR.PSL. -/
def sceClrPsl (s : State) : State := sceReg (fun c => wr c SCE_PSL_ERR 0) s

/-- SCE_CLR.ACT, for the actuator that SCE_ACT_IDX selects. -/
def sceClrAct (s : State) : State :=
  let k : Fin 4 := ⟨rdF s.sce.csr SCE_ACT_IDX.ACT % 4, Nat.mod_lt _ (by decide)⟩
  if actExists s k then modAct k (fun a => { a with coast := 0, rej := 0 }) s else s

/-- SCE_CLR.FIN. -/
def sceClrFin (s : State) : State := sceReg (fun c => wr c SCE_FINISH 0x7FFF7FFF) s

/-- SCE_CLR.LATE. -/
def sceClrLate (s : State) : State := sceReg (fun c => wr c SCE_LATE 0) s

/-- SCE_CLR.OVR. -/
def sceClrOvr (s : State) : State := sceReg (fun c => wr c SCE_OVERRUN 0) s

end Sys2Proof.Machine
end

