-- ==== Sys2Proof/Machine/Buffer.lean ====
section
/-! DEFINITION. The Buffer Memory Controller (R302 to R314): the nested codes, partial writes, the protected region, Drizzle,
and the failure of a channel. -/

namespace Sys2Proof.Machine

/-- Update the BMC's registers. -/
def bmcReg (f : List (Nat × Word) → List (Nat × Word)) (s : State) : State := { s with bmc := { s.bmc with csr := f s.bmc.csr } }

/-! ### The codes (R305, R307), on what a page delivers besides what was written -/

/-- The XOR of every entry for an index. -/
def xorAt (l : List (Nat × Nat)) (i : Nat) : Nat := l.foldl (fun a e => if e.1 = i then a ^^^ e.2 else a) 0

/-- The parity of a byte. -/
def byteParity (x : Nat) : Bool := (List.range 8).foldl (fun a i => a != x.testBit i) false

/-- Whether a byte fails its parity. -/
def byteBad (e : PageErr) (i : Nat) : Bool := byteParity (xorAt e.data i) != e.par.contains i

/-- The offsets that an error touches. -/
def errBytes (e : PageErr) : List Nat := e.data.map Prod.fst ++ e.par

/-- The rows that hold a byte which fails parity. -/
def erasedRows (e : PageErr) : List Nat :=
  (List.range 64).filter (fun r => (errBytes e).any (fun i => decide (i / 64 = r) && byteBad e i))

/-- The two syndromes of a column. Both codes are linear, so the data as written adds nothing to them. -/
def colSyn (e : PageErr) (c : Nat) : Nat × Nat :=
  let rows := ((e.data.map (fun x => x.1)).filter (fun i => decide (i % 64 = c))).map (fun i => i / 64)
  let rows := (List.range 64).filter (fun r => rows.contains r)
  let c1 := xorAt e.strong (2 * c)
  let c0 := xorAt e.strong (2 * c + 1)
  let s0 := rows.foldl (fun a r => a ^^^ xorAt e.data (64 * r + c)) (c1 ^^^ c0)
  let s1 := rows.foldl (fun a r => a ^^^ gfMul (alphaPow (65 - r)) (xorAt e.data (64 * r + c))) (gfMul 2 c1 ^^^ c0)
  (s0, s1)

/-- What a decode comes to: nothing wrong, corrections as (offset, XOR) with the KIND, ROWA and ROWB that BMC_ERR_INFO records,
or uncorrectable. -/
inductive Decoded where
  | good
  | corrected (fix : List (Nat × Nat)) (kind rowA rowB : Nat)
  | bad (kind rowA rowB : Nat)
  deriving DecidableEq, Repr

/-- The row in which a column's single-byte error lies, if the location is in rows 0 to 63. -/
def errorRow (syn : Nat × Nat) : Option Nat :=
  (List.range 64).find? (fun r => decide (syn.1 ≠ 0) && decide (gfMul syn.1 (alphaPow (65 - r)) = syn.2))

/-- No row erased: each column with a nonzero syndrome is a single byte error, or has no valid location. -/
def decodeNone (e : PageErr) : Decoded :=
  let cols := (List.range 64).filter (fun c => decide (colSyn e c ≠ (0, 0)))
  if cols.isEmpty then .good
  else
    let fixes := cols.map (fun c => (errorRow (colSyn e c)).map (fun r => (64 * r + c, (colSyn e c).1)))
    if fixes.all Option.isSome then
      let l := fixes.filterMap id
      .corrected l 1 ((l.head?.map (fun x => x.1 / 64)).getD 0xFF) 0xFF
    else .bad 3 0xFF 0xFF

/-- One row erased: every column is solved for it, and the spare syndrome must be zero. -/
def decodeOne (e : PageErr) (r : Nat) : Decoded :=
  if (List.range 64).all (fun c => decide (gfMul (colSyn e c).1 (alphaPow (65 - r)) = (colSyn e c).2)) then
    .corrected (((List.range 64).map (fun c => (64 * r + c, (colSyn e c).1))).filter (fun x => decide (x.2 ≠ 0))) 2 r 0xFF
  else .bad 3 r 0xFF

/-- Two rows erased: every column is solved for both, and every rebuilt byte must match its stored parity bit. -/
def decodeTwo (e : PageErr) (a b : Nat) : Decoded :=
  let A := alphaPow (65 - a)
  let B := alphaPow (65 - b)
  let col := fun (c : Nat) =>
    let s := colSyn e c
    let eb := gfMul (s.2 ^^^ gfMul A s.1) (gfInv (A ^^^ B))
    [(64 * a + c, s.1 ^^^ eb), (64 * b + c, eb)]
  let fix := (List.range 64).flatMap col
  let fits := fun (x : Nat × Nat) => byteParity (xorAt e.data x.1 ^^^ x.2) == e.par.contains x.1
  if fix.all fits then .corrected (fix.filter (fun x => decide (x.2 ≠ 0))) 2 a b else .bad 3 a b

/-- Decode a page (R307). -/
def decodePage (stale : Bool) (e : PageErr) : Decoded :=
  let rows := erasedRows e
  if stale then (if rows.isEmpty then .good else .bad 5 (rows.getD 0 0xFF) (rows.getD 1 0xFF))
  else match rows with
    | [] => decodeNone e
    | [r] => decodeOne e r
    | [a, b] => decodeTwo e a b
    | a :: b :: _ => .bad 3 a b

/-- What is still wrong with a byte after corrections. -/
def residual (e : PageErr) (fix : List (Nat × Nat)) (i : Nat) : Nat := xorAt e.data i ^^^ xorAt fix i

/-! ### Pages (R303, R306, R313) -/

/-- Whether a protected page can be rebuilt: its group's other pages lie on channels that work (R313). -/
def rebuildable (s : State) (n : Nat) : Bool := match groupOf s n with
  | none => false
  | some g => ((List.range (groupSize s)).map (fun j => g.1 + j)).all (fun m =>
      decide (m = n) || decide (failedChannel s ≠ some (pageChannel s m)))

/-- Byte i of a protected page as the XOR of its group's other pages. -/
def rebuiltByte (s : State) (n i : Nat) : Byte := match groupOf s n with
  | none => 0
  | some g => ((List.range (groupSize s)).map (fun j => g.1 + j)).foldl
      (fun a m => if m = n then a else a ^^^ pageByte s m i) 0

/-- Record an error page (BMC_ERR_PAGE, BMC_ERR_INFO). -/
def noteErr (n kind rowA rowB : Nat) (s : State) : State :=
  bmcReg (fun c => wr (wrF (wrF (wrF (wrF c BMC_ERR_INFO.KIND kind) BMC_ERR_INFO.CH (pageChannel s n)) BMC_ERR_INFO.ROWA rowA)
    BMC_ERR_INFO.ROWB rowB) BMC_ERR_PAGE (BitVec.ofNat 32 n)) s

/-- The answer to a requester. -/
def bmcAnswer (out : List Byte) (poison : Bool) (s : State) : State := { s with bmc := { s.bmc with out := out, poison := poison } }

/-- A channel is declared failed (R314). The first failure starts a precautionary dump and makes the cache write-through; a
second one stops all I/O, with CSTS.CFS on every function. -/
def channelFail (ch : Nat) (s : State) : State :=
  if failedChannel s = some ch ∨ s.bmc.absent = some ch then s
  else if (failedChannel s).isSome ∨ s.bmc.absent.isSome then
    machineCheck 10 0x04 3 (BitVec.ofNat 32 ch) 0 { s with bmc := { s.bmc with down := true }, hqe := { s.hqe with
      csr := wrB s.hqe.csr HQE_CTL.EN false
      fns := s.hqe.fns.map (fun e => (e.1, e.2.map (fun f => { f with cfs := true }))) } }
  else
    let s := bmcReg (fun c => wrF (wrB c BMC_STAT.DEGRADED true) BMC_STAT.FAILCH ch) s
    machineCheck 10 0x03 2 (BitVec.ofNat 32 ch) 0 (energyEvent { s with
      elg := { s.elg with predumping := true }
      nv := { s.nv with predump := s.ple.dirty } })

/-- An uncorrectable page counts against its channel: the fourth within 1 s fails the channel. -/
def countBad (n : Nat) (s : State) : State :=
  let ch := pageChannel s n
  let kept := s.bmc.recent.filter (fun e => decide (s.sys.us < e.1 + 1000000))
  let s := { s with bmc := { s.bmc with recent := (s.sys.us, ch) :: kept } }
  if 4 ≤ (((s.sys.us, ch) :: kept).filter (fun e => decide (e.2 = ch))).length then channelFail ch s else s

/-- Rebuild a protected page from its group (R313), which takes every other page of it. It is checked against its own check
block where that is readable, and written back unless its channel has failed; the answer is the rebuilt data. -/
def pageRebuild (n off len : Nat) (s : State) : State :=
  let bytes := (List.range 4096).map (rebuiltByte s n)
  let agrees := decide (failedChannel s = some (checkChannel s n)) || (List.range 4096).all (fun i =>
    decide (rebuiltByte s n i = pageByte s n i))
  if agrees && rebuildable s n then
    let s := bmcReg (fun c => incR c BMC_REBUILT 1) s
    let s := noteErr n 4 0xFF 0xFF s
    let s := if failedChannel s = some (pageChannel s n) then s else unstale n s
    bmcAnswer ((bytes.drop off).take len) false s
  else bmcAnswer [] true (machineCheck 10 0x01 1 (BitVec.ofNat 32 n) (rd s.bmc.csr BMC_ERR_INFO) s)

/-- What follows an uncorrectable page, by its region (R308, R312). A Band Map page is restored by firmware from the
newest snapshot and the journal, which hold every change that the map has taken: the map's lookups of that range wait
for it, and the requester then has the restored bytes. DESIGN CHOICE (log 241): the restoring has no row, so it ends
with the row that finds the error. -/
def uncorrectable (n off len kind rowA rowB : Nat) (use : PageUse) (s : State) : State :=
  let s := countBad n (noteErr n kind rowA rowB (bmcReg (fun c => incR c BMC_UNCORR 1) s))
  if (groupOf s n).isSome then pageRebuild n off len s
  else match use with
    | .hostRead _ => bmcAnswer [] true s
    | .bandMap =>
      let s := unstale n (machineCheck 10 0x01 1 (BitVec.ofNat 32 n) (rd s.bmc.csr BMC_ERR_INFO) s)
      bmcAnswer ((List.range len).map (fun i => pageByte s n (off + i))) false s
    | _ => bmcAnswer [] true (machineCheck 10 0x01 1 (BitVec.ofNat 32 n) (rd s.bmc.csr BMC_ERR_INFO) s)

/-- Put right, or wrong, what corrections leave of a page; the page is written back whole. -/
def writeBack (n : Nat) (e : PageErr) (fix : List (Nat × Nat)) (s : State) : State :=
  let touched := e.data.map Prod.fst ++ fix.map Prod.fst
  let left := (List.range 4096).filter (fun i => touched.contains i && decide (residual e fix i ≠ 0))
  let s := left.foldl (fun s i => putByte n i (BitVec.ofNat 8 ((pageByte s n i).toNat ^^^ residual e fix i)) s) s
  unstale n s

/-- A Staging Buffer page's errors (R312): the same codes, the strong one only once the page's last byte has arrived;
an uncorrectable page of read data poisons, one of write data is fetched again from DRAM, and both raise the machine
check. -/
def stagingRead (n : Nat) (e : PageErr) (write whole : Bool) (s : State) : State :=
  match decodePage (!whole) e with
  | .good => bmcAnswer [] false s
  | .corrected _ _ _ _ => bmcAnswer [] false s
  | .bad _ _ _ => bmcAnswer [] (!write) (machineCheck 10 0x05 1 (BitVec.ofNat 32 n) 0 s)

/-- An entry of a table, a queue or a register file that fails its parity (R312, R496): the machine check names the
unit and the entry, and the CSR offset that gives access to the structure; a Media Channel's Job Table and its queues
have a code of their own. -/
def tableParity (unit off n : Nat) (e : PageErr) (s : State) : State :=
  if !(errBytes e).any (byteBad e) then s
  else if 4 ≤ unit ∧ unit < 8 then machineCheck unit 0x04 1 (BitVec.ofNat 32 n) 0 s
  else machineCheck unit 0x0F 1 (BitVec.ofNat 32 n) (BitVec.ofNat 32 off) s

/-- An entry of the queue-context cache that fails its parity is loaded again from DRAM, to which every change was
written through (R312): the entry leaves the cache, and its next use loads it. -/
def contextParity (n : Nat) (e : PageErr) (s : State) : State :=
  if (errBytes e).any (byteBad e) then { s with hqe := { s.hqe with qctx := s.hqe.qctx.eraseIdx n } } else s

/-- BUFFER_READ (R307, R308, R313): the rows read are checked; a byte that fails parity, or a whole-page read, brings the
page's decode. -/
def bufferRead (n off len : Nat) (use : PageUse) (requester : Nat) (e : PageErr) (s : State) : State :=
  match use with
  | .stagingRead whole => stagingRead n e false whole s
  | .stagingWrite whole => stagingRead n e true whole s
  | .queueContext => contextParity n e s
  | .table unit csr => tableParity unit csr n e s
  | .coreMemory core a => machineCheck 0 0x02 3 (BitVec.ofNat 32 core) (BitVec.ofNat 32 a) s
  | _ =>
  if !bmcServes s || decide (bufferPages s ≤ n) || decide (4096 < off + len) then s
  else if parityPage s n then
    bmcAnswer [] true (machineCheck 10 0x02 1 (BitVec.ofNat 32 n) (BitVec.ofNat 32 requester) s)
  else if failedChannel s = some (pageChannel s n) then
    (if (groupOf s n).isSome then pageRebuild n off len s else uncorrectable n off len 3 0 1 use s)
  else
    let touched := (erasedRows e).any (fun r => decide (off < 64 * r + 64 ∧ 64 * r < off + len))
    let raw := (List.range len).map (fun i => BitVec.ofNat 8 ((pageByte s n (off + i)).toNat ^^^ xorAt e.data (off + i)))
    if !touched && decide (len < 4096) then bmcAnswer raw false s
    else match decodePage (s.bmc.stale.contains n) e with
      | .good => bmcAnswer raw false s
      | .corrected fix kind a b =>
        let s := writeBack n e fix (noteErr n kind a b (bmcReg (fun c => incR c BMC_CORR 1) s))
        bmcAnswer ((List.range len).map (fun i => pageByte s n (off + i))) false s
      | .bad kind a b => uncorrectable n off len kind a b use s

/-- BUFFER_WRITE (R306, R309, R313): a whole page with its codes, or the bytes under a mask, which mark the page stale. -/
def bufferWrite (n : Nat) (bytes : List (Nat × Byte)) (requester : Nat) (s : State) : State :=
  let whole := (List.range 4096).all (fun i => bytes.any (fun e => decide (e.1 = i)))
  if !bmcServes s || decide (bufferPages s ≤ n) || bytes.any (fun e => decide (4096 ≤ e.1)) then s
  else if parityPage s n then
    bmcAnswer [] true (machineCheck 10 0x02 1 (BitVec.ofNat 32 n) (BitVec.ofNat 32 requester) s)
  else
    let s := bytes.foldl (fun s e => putByte n e.1 e.2 s) s
    if whole then unstale n s else markStale n s

/-! ### Drizzle (R309, R310) -/

/-- DRIZZLE_RECOMPUTE: the page asked for at once by the HQE, or the head of the queue. `raced` says that a write reached the
page between the read and the commit, which drops the commit. -/
def drizzleRecompute (now : Option Nat) (raced : Bool) (e : PageErr) (s : State) : State :=
  let pick := match now with
    | some n => if s.bmc.stale.contains n then some n else none
    | none => if rdB s.bmc.csr BMC_CTL.DRZ_EN then s.bmc.stale.head? else none
  match pick with
  | none => s
  | some n =>
    if !bmcServes s then s
    else if raced then { s with bmc := { s.bmc with stale := s.bmc.stale.filter (· ≠ n) ++ [n] } }
    else match decodePage true e with
      | .bad kind a b => uncorrectable n 0 4096 kind a b .other s
      | _ => writeBack n e [] s

/-- DRIZZLE_SCRUB: the next page of the pass is decoded, and a corrected or rebuilt page is written back; a page that
a write reached is read again. Recomputes take precedence over the pass (R309). -/
def drizzleScrub (use : PageUse) (raced : Bool) (e : PageErr) (s : State) : State :=
  let n := (rd s.bmc.csr BMC_DRZ_POS).toNat
  if !bmcServes s || !rdB s.bmc.csr BMC_CTL.DRZ_EN || !s.bmc.stale.isEmpty || decide (bufferPages s ≤ n) then s
  else
    let next := bmcReg (fun c => wr c BMC_DRZ_POS (BitVec.ofNat 32 ((n + 1) % bufferPages s)))
    if failedChannel s = some (pageChannel s n) then next s
    else match decodePage (s.bmc.stale.contains n) e with
      | .good => next s
      | .corrected fix kind a b =>
        if raced then s
        else next (writeBack n e fix (noteErr n kind a b (bmcReg (fun c => incR c BMC_CORR 1) s)))
      | .bad kind a b => if raced then s else next (uncorrectable n 0 4096 kind a b use s)

/-! ### Channels (R304, R314) -/

/-- DQS_OSC_CHECK: a drift above 5 % schedules a retrain of that channel's delays. -/
def dqsOscCheck (drifted : Nat) (s : State) : State :=
  { s with bmc := { s.bmc with retrain := s.bmc.retrain ||| (drifted % 16) } }

/-- DRAM_RETRAIN: a scheduled retrain runs; one that fails fails its channel, and so does one with a reserved BMC_CFG.DENS,
which fails training (BMC_CFG). -/
def dramRetrain (ch : Nat) (ok : Bool) (s : State) : State :=
  if s.bmc.retrain.testBit ch && decide (ch < 4) then
    let s := { s with bmc := { s.bmc with retrain := s.bmc.retrain ^^^ 2 ^ ch } }
    if ok && decide (1 ≤ rdF s.bmc.csr BMC_CFG.DENS ∧ rdF s.bmc.csr BMC_CFG.DENS ≤ 3) then s else channelFail ch s
  else s

/-- PERSISTENT_LINK_ERROR. -/
def persistentLinkError (ch : Nat) (s : State) : State := if ch < 4 then channelFail ch s else s

/-- BMC_CLR.ERR and BMC_CLR.CNT (R332). -/
def bmcClrErr (s : State) : State := bmcReg (fun c => wr (wr c BMC_ERR_PAGE 0) BMC_ERR_INFO 0) s
def bmcClrCnt (s : State) : State := bmcReg (fun c => wr (wr (wr c BMC_CORR 0) BMC_UNCORR 0) BMC_REBUILT 0) s

end Sys2Proof.Machine
end

