-- ==== Sys2Proof/Machine/Dma.lean ====
section
/-! DEFINITION. The DMA engines (R322 to R328). -/

namespace Sys2Proof.Machine

/-- Update the DMA's registers. -/
def dmaReg (f : List (Nat × Word) → List (Nat × Word)) (s : State) : State := { s with dma := { s.dma with csr := f s.dma.csr } }

/-- An idle channel. -/
def Chan.idle : Chan := ⟨none, none, false, false, false, false, 0, false, 0, []⟩

/-- A channel. -/
def chanAt (s : State) (c : Nat) : Chan := (tget none s.dma.chans c).getD Chan.idle

/-- Replace a channel. -/
def putChan (c : Nat) (x : Chan) (s : State) : State := { s with dma := { s.dma with
  chans := tput none s.dma.chans c (if x = Chan.idle then none else some x) } }

/-- Whether a channel belongs to the Downstream Engine. -/
def downstream (c : Nat) : Bool := decide (32 ≤ c)

/-- The port of a function (R231). -/
def fnPort (s : State) (fn : Nat) : Nat := if rdB s.hqe.csr HQE_PORT.MODE ∧ 128 ≤ fn then 1 else 0

/-- The window of a port in bytes (DMA_FC): values outside 16 to 512 KiB act as the nearer limit. -/
def dmaWindow (s : State) (port : Nat) : Nat :=
  let f := if port = 1 then rdF s.dma.csr DMA_FC.WIN1 else rdF s.dma.csr DMA_FC.WIN0
  1024 * max 16 (min 512 f)

/-- Window bytes in use at a port. -/
def inUse (s : State) (port : Nat) : Nat := if port = 1 then s.dma.inUse1 else s.dma.inUse0
def setInUse (port n : Nat) (s : State) : State :=
  { s with dma := if port = 1 then { s.dma with inUse1 := n } else { s.dma with inUse0 := n } }

/-- The done bit of a channel. -/
def setDone (c : Nat) (s : State) : State :=
  let off := if c < 32 then DMA_DONE_LO else DMA_DONE_HI
  dmaReg (fun t => wr t off (rd t off ||| BitVec.ofNat 32 (2 ^ (c % 32)))) s

/-- The staged descriptor (R323). -/
def stagedDesc (s : State) : Desc :=
  let d := fun (n : Nat) => rd s.dma.csr (DMA_DESC0 + 4 * n)
  ⟨(d 0).toNat + (d 1).toNat * 2 ^ 32, wordField (d 2) 21 0, wordField (d 3) 21 0, wordBit (d 4) 31, wordBit (d 4) 30,
   wordBit (d 4) 29, wordField (d 4) 23 16, wordField (d 4) 15 0⟩

/-- Make a descriptor active. -/
def activate (d : Desc) (x : Chan) : Chan := { x with active := some d, remain := d.len, ordering := false, reqs := [] }

/-- Put a descriptor behind the active one, or make it active on an idle channel (R324). -/
def loadDesc (c : Nat) (d : Desc) (s : State) : State :=
  let x := chanAt s c
  let x := { x with ign := false }
  putChan c (if x.active.isSome then { x with shadow := some d } else activate d x) s

/-- DMA_LOAD (R323, R324): refused or ignored, with IGN, or taken. -/
def dmaLoad (s : State) : State :=
  let c := rdF s.dma.csr DMA_CH_IDX.CH
  let d := stagedDesc s
  let x := chanAt s c
  if d.len = 0 ∨ 4 * 2 ^ 20 < d.saddr + d.len ∨ (d.bucket ∧ downstream c) ∨ x.shadow.isSome ∨ x.stopped then
    putChan c { x with ign := true } s
  else loadDesc c d s

/-- A STOP of a channel (R325): at once where it is idle, otherwise at the descriptor boundary. -/
def stopChan (c : Nat) (s : State) : State :=
  let x := chanAt s c
  if x.stopped then s
  else if x.active.isSome then putChan c { x with stopping := true } s
  else setDone c (putChan c { x with stopped := true } s)

/-- DMA_STOP. -/
def dmaStop (s : State) : State := stopChan (rdF s.dma.csr DMA_CH_IDX.CH) s

/-- DMA_CLEAR (R325): a stopped channel returns to idle. -/
def dmaClear (s : State) : State :=
  let c := rdF s.dma.csr DMA_CH_IDX.CH
  let x := chanAt s c
  if x.stopped then putChan c { x with stopped := false, stopping := false, err := false, ecode := 0 } s else s

/-- Leave the active descriptor: the shadow is promoted with no gap, or a waiting STOP takes effect. -/
def promote (c : Nat) (s : State) : State :=
  let x := { chanAt s c with ordering := false, reqs := [], remain := 0 }
  if x.stopping then setDone c (putChan c { x with active := none, shadow := none, stopping := false, stopped := true } s)
  else match x.shadow with
    | some d => putChan c (activate d { x with shadow := none }) s
    | none => putChan c { x with active := none } s

/-- Whether a channel's engine is enabled. -/
def engineOn (s : State) (c : Nat) : Bool :=
  !s.bmc.down && (if downstream c then rdB s.dma.csr DMA_CTL.DN_EN else rdB s.dma.csr DMA_CTL.UP_EN)

/-- DMA_DESCRIPTOR_DONE (R324 to R326): every request of the active descriptor is through. An upstream LAST descriptor sends
its ordering read, unless the channel is stopping, and is done when that completes. -/
def dmaDescriptorDone (c : Nat) (s : State) : State :=
  let x := chanAt s c
  match x.active with
  | none => s
  | some d =>
    if (!engineOn s c && !x.stopping) || x.ordering || (downstream c && (decide (x.remain ≠ 0) || !x.reqs.isEmpty)) || x.err then s
    else if !downstream c && d.last && !x.stopping then
      dmaReg (fun t => incR t DMA_ORDRD 1) (putChan c { x with ordering := true, remain := 0 } s)
    else
      let s := if d.last then setDone c s else s
      promote c s

/-- Window bytes of requests that are out, given back. -/
def giveBack (fn : Nat) (rs : List (Nat × Nat × Nat)) (s : State) : State :=
  let p := fnPort s fn
  setInUse p (inUse s p - rs.foldl (fun n r => n + r.2.1) 0) s

/-- The channel ends in error (R326, R328): its shadow is discarded, it is STOPPED, and its done bit is set. -/
def endErr (c : Nat) (s : State) : State :=
  setDone c (dmaReg (fun t => incR t DMA_ERRCNT 1) (putChan c { chanAt s c with
    active := none
    shadow := none
    stopping := false
    ordering := false
    stopped := true
    err := true
    reqs := [] } s))

/-- A data TLP of the channel fails (R328): ERR and ECODE are set, a downstream channel issues no further request, and
one that has others out collects them before it ends. Which of a channel's requests failed no row says: its oldest is
dropped (DESIGN CHOICE, log 259). -/
def dmaFail (c code : Nat) (s : State) : State :=
  let x := chanAt s c
  match x.active with
  | none => s
  | some d =>
    let s := giveBack d.fn (x.reqs.take 1) s
    let x := { x with
      err := true
      ecode := if x.err then x.ecode else code
      reqs := x.reqs.drop 1 }
    if x.reqs.isEmpty then endErr c (putChan c x s) else putChan c x s

/-- What a channel has in progress is cut (R15, R16): it is STOPPED with its done bit set, no error and REMAIN as it
stood, so that its owner sees the transfer cancelled and may start it again. -/
def cutChan (c : Nat) (s : State) : State :=
  let x := chanAt s c
  match x.active with
  | none => s
  | some d =>
    setDone c (putChan c { x with
      active := none
      shadow := none
      stopping := false
      ordering := false
      stopped := true
      err := false
      ecode := 0
      reqs := [] } (if downstream c then giveBack d.fn x.reqs s else s))

/-- Cut the transfers of functions. -/
def cutTransfers (p : Nat → Bool) (s : State) : State :=
  (s.dma.chans.filter (fun e => (e.2.bind (fun x => x.active)).any (fun d => p d.fn))).foldl (fun s e => cutChan e.1 s) s

/-- Read tags in use at a port: one per request out. -/
def tagsOut (s : State) (port : Nat) : Nat :=
  s.dma.chans.foldl (fun n e => match e.2 with
    | some x => match x.active with
      | some d => if fnPort s d.fn = port then n + x.reqs.length else n
      | none => n
    | none => n) 0

/-- DMA_READ_REQUEST (R327): the largest request that Max Read Request Size, the bytes left and the 4 KiB boundary allow, once
window space and a tag are free; one tag per port is kept for admin fetches. -/
def dmaReadRequest (c mrrs : Nat) (s : State) : State :=
  let x := chanAt s c
  match x.active with
  | none => s
  | some d =>
    let ofs := d.len - x.remain
    let n := min mrrs (min x.remain (4096 - (d.haddr + ofs) % 4096))
    let p := fnPort s d.fn
    if !downstream c || x.err || !(engineOn s c || x.stopping) || decide (n = 0) || decide (dmaWindow s p < inUse s p + n) ||
        decide (767 ≤ tagsOut s p) then s
    else setInUse p (inUse s p + n) (putChan c { x with remain := x.remain - n, reqs := x.reqs ++ [(ofs, n, n)] } s)

/-- Put bytes into the Staging Buffer by address. -/
def stagingPut (a : Nat) : List Byte → State → State
  | [], s => s
  | b :: r, s =>
    let old := tget 0 s.staging (a / 4096)
    let i := a % 4096
    let new := old - byteOf old i * 2 ^ (8 * i) + b.toNat * 2 ^ (8 * i)
    stagingPut (a + 1) r { s with staging := tput 0 s.staging (a / 4096) new }

/-- DMA_READ_COMPLETION (R327): bytes are placed by address; a request that is complete gives its window space back,
and the last one that a failed channel collects ends it (R328). `at0` is the offset within the descriptor. -/
def dmaReadCompletion (c at0 : Nat) (bytes : List Byte) (s : State) : State :=
  let x := chanAt s c
  match x.active with
  | none => s
  | some d =>
    match x.reqs.find? (fun r => decide (r.1 ≤ at0 ∧ at0 + bytes.length ≤ r.1 + r.2.1 ∧ bytes.length ≤ r.2.2)) with
    | none => s
    | some r =>
      let s := stagingPut (d.saddr + at0) bytes s
      let left := r.2.2 - bytes.length
      let others := x.reqs.filter (fun y => decide (y.1 ≠ r.1))
      let p := fnPort s d.fn
      if left = 0 then
        let s := setInUse p (inUse s p - r.2.1) (putChan c { x with reqs := others } s)
        if x.err && others.isEmpty then endErr c s else s
      else putChan c { x with reqs := others ++ [(r.1, r.2.1, left)] } s

/-- The channels whose active descriptor belongs to a slot. -/
def slotChans (s : State) (slot : Nat) : List Nat :=
  s.dma.chans.filterMap (fun e => match e.2 with
    | some x => match x.active with
      | some d => if d.slot = slot then some e.1 else none
      | none => none
    | none => none)

/-- Every channel of an engine is stopped when its enable is written 0 (DMA_CTL). -/
def stopEngine (down : Bool) (s : State) : State :=
  ((List.range 32).map (fun i => if down then 32 + i else i)).foldl (fun s c => stopChan c s) s

/-- DMA_CLR.CNT (R332). -/
def dmaClrCnt (s : State) : State := dmaReg (fun c => wr (wr c DMA_ORDRD 0) DMA_ERRCNT 0) s

end Sys2Proof.Machine
end

