-- ==== Sys2Proof/Machine/MapWords.lean ====
section
/-! DEFINITION. The Band Map's entries and the journal's records as bits and bytes (R64, R183, R186, R188, R217). -/

namespace Sys2Proof.Machine

/-- The little-endian bytes of a number. -/
def leBytes (n v : Nat) : List Nat := (List.range n).map (fun i => v / 2 ^ (8 * i) % 256)

/-- A defect entry's 64 bits (R64). -/
def defectBits (d : Defect) : Nat :=
  d.kind % 4 * 2 ^ 62 + d.mc % 4 * 2 ^ 60 + d.head % 16 * 2 ^ 56 + d.track % 2 ^ 21 * 2 ^ 35 + d.slot % 2 ^ 11 * 2 ^ 24 +
  d.run % 2 ^ 12 * 2 ^ 12 + d.reason % 16 * 2 ^ 8

/-- A Band Table entry's eight dwords (R183); VALID and OPENREF are counted from the map. -/
def bandWords (b : Band) (valid refs : Nat) : List Nat :=
  [b.st % 16 * 2 ^ 28 + b.use % 4 * 2 ^ 26 + b.p % 16 * 2 ^ 22 + b.gen % 256 * 2 ^ 14 + b.role % 4 * 2 ^ 12 + b.cls % 4 * 2 ^ 10,
   b.mc % 4 * 2 ^ 30 + b.head % 16 * 2 ^ 26 + b.zone % 32 * 2 ^ 21 + b.first % 2 ^ 21,
   b.dcap, b.wp, valid, b.peer % 2 ^ 21, b.lastw, min 65535 b.resets * 2 ^ 16 + min 65535 refs]

/-- An extent record's 128 bits (R186). -/
def extentBits (e : Extent) : Nat :=
  e.nsx % 2 ^ 10 * 2 ^ 118 + e.slba % 2 ^ 36 * 2 ^ 82 + e.len % 2 ^ 16 * 2 ^ 66 + e.paddr % 2 ^ 38 * 2 ^ 28 + e.cls % 4 * 2 ^ 26 +
  e.ecnt % 4 * 2 ^ 24 + e.echo % 2 ^ 20 * 2 ^ 4 + 8 + b2n e.stg * 4 + b2n e.ovr * 2 + b2n e.anchor

/-- An Echo Table entry's 128 bits (R188). -/
def echoBits (x : EchoEnt) : Nat :=
  x.addr0 % 2 ^ 38 + x.addr1 % 2 ^ 38 * 2 ^ 64 + x.st0 % 4 * 2 ^ 102 + x.st1 % 4 * 2 ^ 104 + x.pins % 2 ^ 16 * 2 ^ 106

/-- A Zone Binding Table entry's 16 bytes. The rules give its content and not its layout: DESIGN CHOICE (log 188): member 0's band
number, from which PEER names the others, with the override flag above it; the GENs, one byte each; the write pointer; the zone's
state. -/
def zoneBytes (z : Zone) : List Nat :=
  leBytes 4 (z.bands.getD 0 0x1FFFFF % 2 ^ 21 + b2n z.ovr * 2 ^ 31) ++ (List.range 4).map (fun i => z.gens.getD i 0 % 256) ++
  leBytes 4 z.wp ++ leBytes 4 z.st

/-- A written plan's entry (R126): FIRST, D and p. -/
def planWord (r : StripeRec) : Nat :=
  (r.data.headD 0) % 2 ^ 11 * 2 ^ 21 + r.data.length % 2 ^ 7 * 2 ^ 14 + r.par.length % 16 * 2 ^ 10

/-- A change as an item of a journal record (R217): its TYPE, how many items of that TYPE a record holds, and its
bytes. The order and the widths of an item's fields within its share of PAYLOAD are given only where a table of the
Band Map gives them: DESIGN CHOICE (log 188). A range placed in DRAM is an extent whose PADDR is all ones (log 189).
Temperatures and heads out of placement have no TYPE. -/
def opItem (counts : Nat → Nat × Nat) (op : MapOp) : Option (Nat × Nat × List Nat) :=
  match op with
  | .extent e => some (1, 3, leBytes 16 (extentBits e))
  | .dram lo n => some (1, 3, leBytes 16 (extentBits ⟨lo / 2 ^ 36, lo % 2 ^ 36, n, 2 ^ 38 - 1, 0, 0, 0, false, false, false⟩))
  | .trim nsx lo n => some (2, 3, leBytes 16 (nsx + lo % 2 ^ 36 * 2 ^ 16 + n * 2 ^ 64))
  | .zone key z => some (3, 1, (match z with
      | some z => zoneBytes z
      | none => List.replicate 16 0) ++ leBytes 8 (key / 2 ^ 20) ++ leBytes 8 (key % 2 ^ 20))
  | .zoneWp key wp => some (4, 4, leBytes 4 (key / 2 ^ 20) ++ leBytes 4 (key % 2 ^ 20) ++ leBytes 4 wp)
  | .band n b => some (5, 1, (match b with
      | some b => (bandWords b (counts n).1 (counts n).2).flatMap (leBytes 4)
      | none => List.replicate 32 0) ++ leBytes 4 n ++ List.replicate 12 0)
  | .plan r => some (6, 4, leBytes 4 (planWord r) ++
      leBytes 8 (r.mc % 4 * 2 ^ 36 + r.head % 16 * 2 ^ 32 + r.track % 2 ^ 21 * 2 ^ 11 + (r.data.headD 0) % 2 ^ 11))
  | .echo n _ => some (8, 6, leBytes 4 n ++ leBytes 4 0)
  | .echoSet n copy addr => some (7, 3, leBytes 4 n ++ leBytes 4 copy ++ leBytes 8 addr)
  | .echoDrop n copy => some (8, 6, leBytes 4 n ++ leBytes 4 copy)
  | .defect d => some (9, 6, leBytes 8 (defectBits d))
  | .addNs n => some (10, 1, leBytes 4 n.nsid ++ leBytes 4 n.nsx ++ leBytes 4 (b2n n.zoned) ++ leBytes 4 n.cls ++ leBytes 8 n.nsze)
  | .delNs n => some (10, 1, leBytes 4 0 ++ leBytes 4 n.nsx ++ List.replicate 16 0)
  | .epoch n => some (11, 1, leBytes 4 n)
  | .snap num seq => some (12, 1, leBytes 8 num ++ leBytes 8 seq)
  | .clean _ => none
  | .headOut _ => none
  | .temp _ _ _ => none

/-- Items of one TYPE after each other share a record as far as it holds them. -/
def packItems : List (Nat × Nat × List Nat) → List (Nat × Nat × List (List Nat))
  | [] => []
  | (ty, top, bs) :: r => match packItems r with
    | (ty', top', l) :: q => if ty' = ty ∧ l.length < top then (ty, top, bs :: l) :: q else (ty, top, [bs]) :: (ty', top', l) :: q
    | [] => [(ty, top, [bs])]

/-- One journal record: 64 bytes, its CRC-32C over the first 60 (R217). -/
def recordBytes (seq epoch type : Nat) (items : List (List Nat)) : List Nat :=
  let head := leBytes 8 seq ++ [type % 256, epoch % 256] ++ leBytes 2 items.length ++ ((items.flatten ++ List.replicate 48 0).take 48)
  head ++ leBytes 4 (crc32c head)

/-- The records of a change, under one range of SEQs that begins at `seq`; the final record of a range of several has
bit 7 of TYPE set. A change that needs no item is one PAD. -/
def opRecords (counts : Nat → Nat × Nat) (epoch seq : Nat) (ops : List MapOp) : List (List Nat) :=
  let l := (packItems (ops.filterMap (opItem counts))).map (fun r => (r.1, r.2.2))
  let l : List (Nat × List (List Nat)) := if l = [] then [(0, [])] else l
  ((List.range l.length).zip l).map (fun e =>
    recordBytes (seq + e.1) epoch (e.2.1 + (if 1 < l.length ∧ e.1 + 1 = l.length then 128 else 0)) e.2.2)

end Sys2Proof.Machine
end

