-- ==== Sys2Proof/Machine/Ecdsa.lean ====
section
/-! DEFINITION. ECDSA P-384 over SHA-384, by which images and unlock tokens are signed (R135, R272, R460). The spec names the two public
standards, FIPS 180-4 and FIPS 186-4 with the curve of NIST, and does not print them: what follows is taken from them (PRESUMED, log 246). -/

namespace Sys2Proof.Machine

/-! ### SHA-384 -/

/-- The largest x below 2 to the n-th whose k-th power is at most v. -/
def rootDown (k v : Nat) : Nat → Nat → Nat
  | 0, x => x
  | n + 1, x => rootDown k v n (if (x + 2 ^ n) ^ k ≤ v then x + 2 ^ n else x)

/-- The first eighty primes. -/
def shaPrimes : List Nat :=
  (List.range 410).filter (fun n => decide (2 ≤ n) && (List.range n).all (fun d => decide (d < 2 ∨ n % d ≠ 0)))

/-- The round constants, the first 64 bits behind the point of the primes' cube roots; and the initial state, those of
the square roots of the ninth to the sixteenth. -/
def shaRounds : List (BitVec 64) := shaPrimes.map (fun p => BitVec.ofNat 64 (rootDown 3 (p * 2 ^ 192) 68 0))
def shaStart : List (BitVec 64) := ((shaPrimes.drop 8).take 8).map (fun p => BitVec.ofNat 64 (rootDown 2 (p * 2 ^ 128) 68 0))

/-- Bytes as a number, most significant first. -/
def bytesBe (l : List Nat) : Nat := l.foldl (fun v b => v * 256 + b % 256) 0

/-- A message padded to blocks of 128 bytes. -/
def shaPad (l : List Nat) : List Nat :=
  l ++ 0x80 :: List.replicate ((239 - l.length % 128) % 128) 0 ++ (List.range 16).map (fun i => 8 * l.length / 256 ^ (15 - i) % 256)

/-- The message schedule of a block. -/
def shaSchedule (block : List Nat) : List (BitVec 64) :=
  let w := (List.range 16).map (fun i => BitVec.ofNat 64 (bytesBe ((block.drop (8 * i)).take 8)))
  (List.range 64).foldl (fun w t =>
    let at_ := fun (i : Nat) => w.getD (16 + t - i) 0
    let s1 := (at_ 2).rotateRight 19 ^^^ (at_ 2).rotateRight 61 ^^^ (at_ 2) >>> 6
    let s0 := (at_ 15).rotateRight 1 ^^^ (at_ 15).rotateRight 8 ^^^ (at_ 15) >>> 7
    w ++ [s1 + at_ 7 + s0 + at_ 16]) w

/-- One round on the working variables a to h, with the round's constant and schedule word. -/
def shaRound (v : List (BitVec 64)) (k : BitVec 64 × BitVec 64) : List (BitVec 64) :=
  match v with
  | [a, b, c, d, e, f, g, h] =>
    let t1 := h + (e.rotateRight 14 ^^^ e.rotateRight 18 ^^^ e.rotateRight 41) + ((e &&& f) ^^^ (~~~e &&& g)) + k.1 + k.2
    let t2 := (a.rotateRight 28 ^^^ a.rotateRight 34 ^^^ a.rotateRight 39) + ((a &&& b) ^^^ (a &&& c) ^^^ (b &&& c))
    [t1 + t2, a, b, c, d + t1, e, f, g]
  | _ => v

/-- SHA-384 of bytes, as a number. -/
def sha384 (l : List Nat) : Nat :=
  let m := shaPad l
  let h := (List.range (m.length / 128)).foldl (fun (h : List (BitVec 64)) i =>
    let v := (shaRounds.zip (shaSchedule ((m.drop (128 * i)).take 128))).foldl shaRound h
    (h.zip v).map (fun e => e.1 + e.2)) shaStart
  (h.take 6).foldl (fun n w => n * 2 ^ 64 + w.toNat) 0

/-! ### The curve P-384 -/

/-- The field's prime, the order of the base point, and the coefficient b of y² = x³ − 3x + b. -/
def p384 : Nat := 2 ^ 384 - 2 ^ 128 - 2 ^ 96 + 2 ^ 32 - 1
def p384Order : Nat := 0xffffffffffffffffffffffffffffffffffffffffffffffffc7634d81f4372ddf581a0db248b0a77aecec196accc52973
def p384B : Nat := 0xb3312fa7e23ee7e4988e056be3f82d19181d9c6efe8141120314088f5013875ac656398d8a2ed19d2a85c8edd3ec2aef

/-- A point, `none` for the one at infinity; the base point. -/
abbrev Point := Option (Nat × Nat)
def p384Base : Point := some (
  0xaa87ca22be8b05378eb1c71ef320ad746e1d3b628ba79b9859f741e082542a385502f25dbf55296c3a545e3872760ab7,
  0x3617de4a96262c6f5d9e98bf9292dc29f8f41dbd289a147ce9da3113b5f0b8c00a60b1ce1d7e819d7a431d7c90ea0e5f)

/-- A power modulo m, of an exponent below 2 to the n-th; and so the inverse modulo a prime. -/
def powMod (m : Nat) : Nat → Nat → Nat → Nat
  | 0, _, _ => 1 % m
  | n + 1, b, e => (if e % 2 = 1 then b else 1) * powMod m n (b * b % m) (e / 2) % m
def invMod (m x : Nat) : Nat := powMod m 384 (x % m) (m - 2)

/-- The sum of two points. -/
def pointAdd : Point → Point → Point
  | none, q => q
  | p, none => p
  | some (x, y), some (u, v) =>
    let m := p384
    if x = u ∧ (y + v) % m = 0 then none
    else
      let k := if x = u then (3 * x * x + m - 3) * invMod m (2 * y) % m else (v + m - y) * invMod m (u + m - x) % m
      let w := (k * k + 2 * m - x - u) % m
      some (w, (k * (x + m - w) + m - y) % m)

/-- A multiple of a point, by a factor below 2 to the n-th. -/
def pointMul : Nat → Nat → Point → Point
  | 0, _, _ => none
  | n + 1, e, p => pointAdd (if e % 2 = 1 then p else none) (pointMul n (e / 2) (pointAdd p p))

/-- Whether a point lies on the curve, with its coordinates in the field. -/
def onCurve (x y : Nat) : Bool := decide (x < p384 ∧ y < p384 ∧ y * y % p384 = (x * x * x + (p384 - 3) * x + p384B) % p384)

/-- Whether (r, s) is an ECDSA signature, over the SHA-384 of some bytes, under the public key (x, y). -/
def ecdsaOk (x y : Nat) (msg : List Nat) (r s : Nat) : Bool :=
  let n := p384Order
  let w := invMod n s
  decide (1 ≤ r ∧ r < n ∧ 1 ≤ s ∧ s < n) && onCurve x y &&
    (match pointAdd (pointMul 384 (sha384 msg * w % n) p384Base) (pointMul 384 (r * w % n) (some (x, y))) with
     | some (u, _) => decide (u % n = r)
     | none => false)

end Sys2Proof.Machine
end

