-- ==== Sys2Proof/Machine/Channel.lean ====
section
/-! DEFINITION. The meanings of the media format, read channel, write path, assist and Head Interface rows (spec/02,
spec/03). -/

namespace Sys2Proof.Machine

/-! ### Sync, recovery and decode (R58 to R62, R82 to R84) -/

/-- The window of a slot has found its mark, or closed without one (R58, R117). -/
def windowSeen (slot : Nat) (found : Bool) (j : Job) : Job :=
  let j := if found then { j with found := slot :: j.found } else { j with closed := slot :: j.closed }
  if j.window = some slot then { j with syncFound := found, syncMiss := !found } else j

/-- A sector goes to the streaming decoder whose turn it is (R82). -/
def toDecoder (slot : Nat) (m : Mc) : Mc := { m with
  decoding := m.decoding.filter (fun e => decide (e.1 ≠ slot)) ++ [(slot, m.decNext)]
  decNext := !m.decNext }

/-- SYNC_MARK_FOUND (R58): the 32 bits at a position within ±WIN of the expected one differ from SYNC_PAT of the zone in at most
TOL bits; the first such position is the mark, and the search stops. A candidate that does not match changes nothing. The sector
that follows, if it is to be decoded, goes to a streaming decoder. -/
def syncMarkFound (k : Fin 4) (slot : Nat) (pos : Int) (bits : Nat) (s : State) : State :=
  let m := mcOf s k
  let win := max 8 (min 48 (rdF m.csr MC_SYNC_CTL.WIN))
  let tol := min 4 (rdF m.csr MC_SYNC_CTL.TOL)
  let pat := (m.zone.getD 4 0).toNat
  if searchOpen s k slot && decide (-(win : Int) ≤ pos) && decide (pos ≤ win) && decide (hamming32 bits pat ≤ tol) then
    let wanted := awaits s k slot
    let s := acquire k (modJob k (windowSeen slot true) (mcCount k MC_SYNC_FOUND 1 s))
    if wanted then modMc k (toDecoder slot) s else s
  else s

/-- SYNC_WINDOW_CLOSE (R59, R61): a missed mark, late or not; a sector to be decoded goes on to timed sync. -/
def syncWindowClose (k : Fin 4) (slot : Nat) (lateMark : Bool) (runs : List SampleRun) (s : State) : State :=
  if searchOpen s k slot then
    let s := mcCount k MC_SYNC_MISS 1 s
    let s := if lateMark then noteRecovery k 6 0 slot (mcCount k MC_SYNC_LATE 1 s) else s
    let wanted := awaits s k slot
    let s := acquire k (modJob k (windowSeen slot false) s)
    if wanted then
      enterRecovery k slot .timed (decide (rdF (mcOf s k).csr MC_SYNC_CTL.TSPAN ≠ 0))
        (if asperities (mcOf s k) runs = [] then 4 else 8) 0 (erasedBits (mcOf s k) runs) s
    else s
  else s

/-- The physical address of a slot under the running job's head. -/
def slotHere (s : State) (k : Fin 4) (slot : Nat) : Nat :=
  match (mcOf s k).job with
  | none => 0
  | some j => underHead s k j.entry slot

/-- The offsets that a search tries, in order: 0, −1, +1, −2, … for timed sync, +1, +2, … and then −1, −2, … for realignment
(R61, R62). -/
def searchOffsets (timed : Bool) (span : Nat) : List Int :=
  let up := (List.range span).map (fun n => (n : Int) + 1)
  if timed then 0 :: up.flatMap (fun n => [-n, n]) else up ++ up.map (fun n => -n)

/-- The first offset whose attempt converges within 8 iterations with a correct tag, with its iterations and corrections (R61 to
R63, R48). No attempt can succeed on a slot that holds no sector of the job's seed (R506). -/
def searchHit (s : State) (k : Fin 4) (slot : Nat) (fix : Reading → Reading) (att : List (Int × Quad Reading)) :
    List Int → Option (Int × Nat × Nat)
  | [] => none
  | o :: r =>
    match att.find? (fun a => decide (a.1 = o)) with
    | none => searchHit s k slot fix att r
    | some a =>
      let x := fix (modeReading (modeIn (mcOf s k)) a.2)
      match readingIter 8 x with
      | some n => if tagGood s k slot then some (o, n, readingCorr x) else searchHit s k slot fix att r
      | none => searchHit s k slot fix att r

/-- The end of a timed-sync or realignment search, by what the decoder makes of each attempt on the held samples. -/
def searchEnd (k : Fin 4) (timed : Bool) (att : List (Int × Quad Reading)) (s : State) : State :=
  match (mcOf s k).sbuf with
  | none => s
  | some b =>
    if b.use = (if timed then .timed else .realign) then
      let c := (mcOf s k).csr
      let span := if timed then min 4 (rdF c MC_SYNC_CTL.TSPAN) else min 8 (rdF c MC_SYNC_CTL.RSPAN)
      let ta := decide (b.failCode = 8)
      let f := takeFree s
      let s := f.2
      match searchHit s k b.slot (erasedReading b.erased f.1) att (searchOffsets timed span) with
      | some (o, iter, corr) =>
        let s := deepRecovery (slotHere s k b.slot) (mcCount k (if timed then MC_TIMED_OK else MC_REALIGN_OK) 1 s)
        let s := noteRecovery k (if timed then 1 else 3) o b.slot s
        let s := mcReg k (ldpcLast true true iter corr) s
        let data := slotData s k b.slot
        searchEnds k true (report k ⟨b.slot, if timed then 1 else 2, true, iter, corr, ta⟩ b.bp data s)
      | none =>
        let s := mcCount k (if timed then MC_TIMED_FAIL else MC_REALIGN_FAIL) 1 s
        let s := noteRecovery k (if timed then 2 else 4) 0 b.slot s
        let s := mcReg k (ldpcLast true false 8 0xFFFF) s
        searchEnds k false (report k ⟨b.slot, b.failCode, false, 8, 0xFFFF, ta⟩ b.bp 0 s)
    else s

/-- The sector that a streaming decoder works on: the oldest it was given (R82). -/
def decoderHolds (m : Mc) (slot : Nat) : Bool :=
  match m.decoding.find? (fun e => decide (e.1 = slot)) with
  | none => false
  | some e => decide ((m.decoding.find? (fun x => x.2 == e.2)).map Prod.fst = some slot)

/-- DECODE_COMPLETE (R82, R48, R62, R75): a streaming decode ends, at a zero syndrome or after SITER iterations, on
the reading of the detector mode in force, with the LLRs about a thermal asperity at zero. A converged codeword has
its tag checked; one that does not converge enters realignment. A slot that holds no sector yields no codeword (R506).
-/
def decodeComplete (k : Fin 4) (d : DecodeIn) (s : State) : State :=
  if awaits s k d.slot && decoderHolds (mcOf s k) d.slot then
    let m := mcOf s k
    let erased := erasedBits m d.runs
    let ta := decide (asperities m d.runs ≠ [])
    let f := takeFree s
    let s := f.2
    let x := erasedReading erased f.1 (modeReading (modeIn m) d.byMode)
    let out := if slotWritten s k d.slot then readingIter (siter m) x else none
    let iter := out.getD (siter m)
    let corr := readingCorr x
    let s := if ta then s else adaptTaps k s
    let s := mcReg k (ldpcLast false out.isSome iter corr) (mcCount k (if out.isSome then MC_LDPC_CONV else MC_LDPC_FAIL) 1 s)
    if out.isSome then
      let bp := orderedBp s k d.slot
      if tagGood s k d.slot then report k ⟨d.slot, 0, true, iter, corr, ta⟩ bp (slotData s k d.slot) s
      else report k ⟨d.slot, 6, true, iter, corr, ta⟩ bp 0 (tagFailure k d.slot s)
    else
      let s := modMc k (fun m => { m with decoding := m.decoding.filter (fun e => decide (e.1 ≠ d.slot)) }) s
      enterRecovery k d.slot .realign (decide (rdF (mcOf s k).csr MC_SYNC_CTL.RSPAN ≠ 0)) (if ta then 8 else 5) iter erased s
  else s

/-- RDECODE_REPORT (R84, R123, R133): the retry decode path reports on the held samples, within its iteration limit, and frees the
buffer. -/
def rdecodeReport (k : Fin 4) (q : Quad Reading) (s : State) : State :=
  match (mcOf s k).sbuf with
  | none => s
  | some b =>
    if b.use = .rdecode then
      let m := mcOf s k
      let ta := decide (b.failCode = 8)
      let f := takeFree s
      let s := f.2
      let x := erasedReading b.erased f.1 (modeReading (modeIn m) q)
      let out := if slotWritten s k b.slot then readingIter (riterIn m) x else none
      let iter := out.getD (riterIn m)
      let corr := readingCorr x
      let s := mcReg k (ldpcLast true out.isSome iter corr) s
      let s := if out.isSome then
          (if tagGood s k b.slot then report k ⟨b.slot, 3, true, iter, corr, ta⟩ b.bp (slotData s k b.slot) s
           else report k ⟨b.slot, 6, true, iter, corr, ta⟩ b.bp 0 (tagFailure k b.slot s))
        else report k ⟨b.slot, b.failCode, false, iter, 0xFFFF, ta⟩ b.bp 0 s
      modMc k (fun m => { m with sbuf := none }) s
    else s

/-- Whether the grown defect list holds the slot as an erasure from the start (R67). -/
def gdlSlot (s : State) (k : Fin 4) (slot : Nat) : Bool :=
  match (mcOf s k).job with
  | none => false
  | some j => gdlHolds s (packAddr k.val (jobHead (mcOf s k) j.entry) (addrTrack (jobAddr (mcOf s k) j.entry)) slot)

/-- Commit the rebuilt data sectors that are still in the need map; each slot becomes a grown defect, with REASON 4
where its sector was TA-affected (R67, R75). -/
def commitRebuilt (k : Fin 4) : List (Nat × Nat) → State → State
  | [], s => s
  | (slot, data) :: r, s =>
    let wanted : Bool := match (mcOf s k).job with
      | some j => j.commit && j.need.contains slot
      | none => false
    let why : Nat := match (mcOf s k).job with
      | some j => if taSlot j slot then 4 else 1
      | none => 1
    commitRebuilt k r (if wanted then
      noteDefect (slotHere s k slot) why (commitSector k slot (orderedBp s k slot) data s) else s)

/-- Whether a solve of a collection is under way: ordered by a word, or in a vendor routine once every slot of the Stripe has been
read, has failed, or needs no reading (R57, R134). -/
def solves (s : State) (k : Fin 4) (j : Job) (c : Collection) : Bool :=
  c.solving || (decide (j.mode = .vendor 0 ∨ j.mode = .vendor 6) &&
    (c.dataSlots ++ c.paritySlots).all (fun x => c.good.contains x || c.erased.contains x || j.erasures.contains x || gdlSlot s k x))

/-- STRIPE_SOLVE_END (R57): a collected Stripe is solved; the slots that were not read, failed, or lie in the grown defect
list are the erasures. The rebuilt sectors follow from the code alone. -/
def stripeSolveEnd (k : Fin 4) (s : State) : State :=
  match (mcOf s k).job with
  | none => s
  | some j =>
    match j.collect.find? (solves s k j) with
    | none => s
    | some c =>
      let slots := c.dataSlots ++ c.paritySlots
      let p := c.paritySlots.length
      let bad := fun x => !c.good.contains x || j.erasures.contains x || gdlSlot s k x
      let era := (List.range slots.length).filter (fun i => bad (slots.getD i 0))
      let rs := slots.map (fun x => if bad x then 0 else slotData s k x)
      let out := if p < era.length then none else rsSolve p rs era
      let s := modJob k (fun j => { j with collect := j.collect.erase c, stripeOk := out.isSome }) s
      match out with
      | none =>
        mcCount k MC_STRIPE_FAIL 1 s
      | some vals =>
        let s := mcCount k MC_STRIPE_REBUILT era.length s
        let s := modJob k (fun j => { j with rebuilt := j.rebuilt + era.length }) s
        let s := commitRebuilt k (((era.map (fun i => slots.getD i 0)).zip vals).filter
          (fun e => c.dataSlots.contains e.1)) s
        match (mcOf s k).job with
        | some j => if j.mode = .vendor 0 then postEvt k 3 (slots.headD 0) j s else s
        | none => s

/-- MC_FMT_CLR.REC (R72). -/
def clrFmtRec (k : Fin 4) (s : State) : State :=
  mcReg k (fun c => wr (wr (wr (wr c MC_RECOV_LAST 0) MC_RECOV_TRACK 0) MC_TAG_DIFF_LO 0) MC_TAG_DIFF_HI 0) s

/-- MC_FMT_CLR.CNT (R72): every counter at offsets 0x0604 to 0x062C. -/
def clrFmtCnt (k : Fin 4) (s : State) : State := mcReg k (fun c => tdrop c 0x604 0x630) s

/-! ### ADC comparator masks (R79, R80) -/

/-- The comparators that a bank of an ADC's masks selects, in ladder order. -/
def adcBits (t : List (Nat × Word)) (adc bank : Nat) : List Nat :=
  (List.range 135).filter (fun i => wordBit (tget 0 t (adc * 16 + bank * 8 + i / 32)) (i % 32))

/-- A comparator's threshold as last measured, in 1/1,000 LSB. Before a measurement it is what the part came with: its
place on the ladder, 134 equal intervals over the 128 LSB of the full scale, and the comparator's own offset, which is
open. -/
def adcThreshold (k : Fin 4) (m : Mc) (adc i : Nat) : Int :=
  (tget none m.adcThr (adc * 256 + i)).getD ((i : Int) * 128000 / 134 + Config.comparatorOffset k.val adc i)

/-- Whether thresholds in order give a differential nonlinearity within ±0.5 LSB and an integral one within ±1 LSB (R79). -/
def linearFrom (n : Nat) : List Int → Bool
  | [] => true
  | x :: r =>
    decide ((x - 1000 * ((n : Int) + 1)).natAbs ≤ 1000) &&
    (match r with
      | [] => true
      | y :: _ => decide ((y - x - 1000).natAbs ≤ 500)) && linearFrom (n + 1) r

/-- The checks of R79 on a pending mask: 127 ones, and linear thresholds. -/
def adcMaskOk (k : Fin 4) (m : Mc) (adc : Nat) : Bool :=
  let sel := adcBits m.adcMask adc 1
  decide (sel.length = 127) && linearFrom 0 (sel.map (adcThreshold k m adc))

/-- MC_ADC_STAT.APPLY (R79, R80): each pending mask is checked; a rejected mask leaves the active one in force, and an
accepted one becomes the target that the exchanges lead to, whatever is written to the pending bank meanwhile. A
rejection during the exchanges of an earlier mask abandons them where they stand: the active mask, as it is in force
then, stays (DESIGN CHOICE, log 33). -/
def adcMaskApply (k : Fin 4) (s : State) : State :=
  modMc k (fun m =>
    let okA := adcMaskOk k m 0
    let okB := adcMaskOk k m 1
    let put := fun (ok : Bool) (adc : Nat) (t : List (Nat × Word)) => (List.range 5).foldl
      (fun t w => tput 0 t (adc * 16 + w) (tget 0 m.adcMask (adc * 16 + (if ok then 8 else 0) + w))) t
    let target := put okB 1 (put okA 0 m.adcTarget)
    let diff := fun adc => ((adcBits target adc 0).filter (fun i => !(adcBits m.adcMask adc 0).contains i)).length
    let n := diff 0 + diff 1
    let c := wrF (wrB m.csr MC_ADC_STAT.BUSY (decide (0 < n))) MC_ADC_STAT.REMAIN n
    { m with
      adcTarget := target
      csr := if okA && okB then c else wrB c MC_ADC_STAT.REJECT true }) s

/-- One comparator exchange towards the accepted masks (R80): the lowest comparator that differs leaves, the lowest
that is missing enters, so that 127 stay selected. -/
def adcExchange (m : Mc) : Mc :=
  let rem := rdF m.csr MC_ADC_STAT.REMAIN
  if rem = 0 then m else
    let adc := if adcBits m.adcMask 0 0 = adcBits m.adcTarget 0 0 then 1 else 0
    let act := adcBits m.adcMask adc 0
    let goal := adcBits m.adcTarget adc 0
    let out := act.find? (fun i => !goal.contains i)
    let inn := goal.find? (fun i => !act.contains i)
    let flip := fun (t : List (Nat × Word)) (o : Option Nat) (b : Bool) => match o with
      | none => t
      | some i => tput 0 t (adc * 16 + i / 32) (wordSetField (tget 0 t (adc * 16 + i / 32)) (i % 32) (i % 32) (b2n b))
    { m with adcMask := flip (flip m.adcMask out false) inn true,
             csr := wrB (wrF m.csr MC_ADC_STAT.REMAIN (rem - 1)) MC_ADC_STAT.BUSY (decide (1 < rem)) }

/-! ### Timing recovery (R85 to R88) -/

/-- Half the mark window, in beats (R86). -/
def markWin (m : Mc) : Nat := max 1 (min 8 (rdF m.csr MC_SYN_CTL.MWIN))

/-- A mark is found: within ±MWIN beats of beat 0 once one has been found, and in lock within the ±1/8 beat that the loop keeps
(R85, R86). -/
def markFits (m : Mc) (perr : Int) : Bool :=
  let lock := rdB m.csr MC_SYN_STAT.LOCK
  (!lock && decide (m.relock = 0)) || (decide (perr.natAbs ≤ 256 * markWin m) && (!lock || decide (perr.natAbs ≤ 32)))

/-- A wedge begins: WG is held low in its footprint (R90), and the gain and offset loops hold where it pauses a slot (R74). -/
def wedgeBegins (wedge : Nat) (m : Mc) : Mc :=
  let paused : Bool := match m.job with
    | none => false
    | some j => slotPaused m j.entry wedge
  { m with
    wedge := wedge
    wgHold := true
    syn := { m.syn with pos := m.syn.pos + m.syn.beats }
    loop := if paused && decide (m.loop.phase = .tracking) then { m.loop with phase := .held } else m.loop }

/-- The synthesiser's loop takes a phase error: KP ÷ 256 of it, and KI ÷ 4,096 of its sum (R85). -/
def synLoop (perr : Int) (m : Mc) : Mc :=
  let integ := m.syn.integ + perr * (rdF m.csr MC_SYN_CTL.KI : Nat)
  { m with syn := { m.syn with
      integ := integ
      corr := perr * 16 * (rdF m.csr MC_SYN_CTL.KP : Nat) + integ } }

/-- WEDGE_MARK (R85, R86, R87, R90): a mark within the window corrects the phase, ends a run of coasts, relocks at the
fourth found mark, and lets one comparator exchange happen where no slot is paused. R87 says only that lock comes within 4
wedges of the first found mark: coasted wedges between the marks are not counted (DESIGN CHOICE, log 220). A rate that an
APPLY left in free run takes effect at the lock (R88). HFLT_N has risen where it is high at the mark. -/
def wedgeMark (k : Fin 4) (x : WedgeIn) (s : State) : State :=
  if markFits (mcOf s k) x.perr then
    modMc k (fun m =>
      let lock := rdB m.csr MC_SYN_STAT.LOCK
      let relock := if lock then 0 else m.relock + 1
      let locked := !rdB m.csr MC_SYN_CTL.FREE && (lock || decide (4 ≤ relock))
      let c := wrF (wrF (wrB m.csr MC_SYN_STAT.COAST false) MC_SYN_STAT.CCNT 0) MC_SYN_STAT.PERR (toBits 16 x.perr)
      let low := m.hfltLow && x.hfltLow
      let m := synLoop x.perr (wedgeBegins (x.wedge % 640) { m with
        csr := wrB (wrB c MC_SYN_STAT.LOCK locked) MC_HIF_STAT.HFLT_NOW low
        hfltLow := low
        markSeen := true
        relock := relock })
      let m := if locked then { m with syn := { m.syn with
        beats := m.syn.next.getD m.syn.beats
        next := none } } else m
      let paused : Bool := match m.job with
        | none => false
        | some j => slotPaused m j.entry (x.wedge % 640)
      if paused then m else adcExchange m) s
  else s

/-- MARK_WINDOW_CLOSE (R86, R87): the wedge is coasted, its phase advanced by BEATS; the second in a row cuts a write, and MAXC in
a row lose lock. -/
def markWindowClose (k : Fin 4) (late : Bool) (atest : Nat) (s : State) : State :=
  let s := if late then mcCount k MC_SYN_LATE 1 s else s
  let s := mcCount k MC_SYN_COAST 1 s
  let s := modMc k (fun m => wedgeBegins ((m.wedge + 1) % 640)
    { m with csr := incF (wrB m.csr MC_SYN_STAT.COAST true) MC_SYN_STAT.CCNT 1 }) s
  let s := sceSampleMissing k atest s
  let m := mcOf s k
  let n := rdF m.csr MC_SYN_STAT.CCNT
  let maxc := max 3 (rdF m.csr MC_SYN_CTL.MAXC)
  let s := if n = 2 && m.wg then writeAbort k MC_WR_FAULT.COAST 7 s else s
  if n = maxc && rdB (mcOf s k).csr MC_SYN_STAT.LOCK then
    stopJob k 10 (mcCount k MC_SYN_UNLOCK 1
      (modMc k (fun m => { m with csr := wrB m.csr MC_SYN_STAT.LOCK false, relock := 0 }) s))
  else s

/-! ### Head Interface (R98 to R104) -/

/-- HFLT_FALL (R100, R91): WG and AG drop and HFLT is set; a write in progress is cut, and its slot enters the grown
defect list with REASON 2. A fall while WG or AG is high, the assist lead included, is a write fault and ends the job;
with both low nothing of the write path is in use, and a job that reads goes on (DESIGN CHOICE, log 220). `stays` says
whether the line is still low afterwards. -/
def hfltFall (k : Fin 4) (stays : Bool) (s : State) : State :=
  let m := mcOf s k
  let s := modMc k (fun m => { m with
    hfltLow := stays
    csr := wrB (wrB m.csr MC_HIF_STAT.HFLT true) MC_HIF_STAT.HFLT_NOW stays }) s
  let s := match m.job with
    | none => s
    | some j => match j.writing with
      | none => s
      | some slot => gdlWriteFault k (underHead s k j.entry slot) s
  if m.wg || m.ag then writeAbort k MC_WR_FAULT.HFLT 7 s
  else dropGates k s

/-- Take the next frame at the boundary after the frame in progress. -/
def frameDone (k : Fin 4) (s : State) : State := startFrame k (modMc k (fun m => { m with busy := none }) s)

/-- The acknowledgement of an ASC frame lets a held AG rise (R94). -/
def ackLevel (k : Fin 4) (s : State) : State :=
  modMc k (fun m => if m.agWait && !ascBusy m then
    agRise ((m.job.map (fun j => jobHead m j.entry)).getD 0) m else m) s

/-- What the preamp's bits say of a frame (R101): whether it ended well, and for a write frame that did not, whether
it was refused. `none` where the bits are not those of such a frame. -/
def frameVerdict (f : HifFrame) : HifResp → Option (Bool × Bool)
  | .status n => if f.read then none else some (decide (n = 0b1010), decide (n = 0b0110))
  | .data d crc => if f.read then some (decide (crc8 (bitsMsb 7 f.addr ++ bitsMsb 16 d) = crc), false) else none

/-- An acknowledged frame of the ASC puts its level index in force (R93). -/
def levelTaken (b : HifBusy) (m : Mc) : Mc :=
  if b.src ≠ .asc then m
  else if b.frame.addr = 0x10 then { m with level := b.frame.level }
  else { m with bias := b.frame.level }

/-- HIF_FRAME_END (R101, R102): the status or the returned CRC is taken. A refused, unanswered or damaged frame is sent
again up to RETRY times; then FAIL is set, a machine check is raised, and a job waiting on the frame stops. -/
def hifFrameEnd (k : Fin 4) (r : HifResp) (s : State) : State :=
  match (mcOf s k).busy with
  | none => s
  | some b =>
    match frameVerdict b.frame r with
    | none => s
    | some (good, refused) =>
      let endFw := fun (s : State) => if b.src = .firmware then mcReg k (fun c => wrB c MC_HIF_CMD.GO false) s else s
      if good then
        let s := match r with
          | .data d _ => if b.src = .firmware then
              mcReg k (fun c => wrB (wrF c MC_HIF_RDATA.DATA d) MC_HIF_RDATA.VALID true) s else s
          | .status _ => s
        ackLevel k (frameDone k (endFw (modMc k (levelTaken b) s)))
      else
        let s := if b.frame.read then s
          else mcReg k (fun c => wrB c (if refused then MC_HIF_STAT.NAK else MC_HIF_STAT.NORESP) true) s
        if b.repeats < min 7 (rdF (mcOf s k).csr MC_HIF_CTL.RETRY) then
          mcCount k MC_HIF_ERR 1 (modMc k (fun m => { m with busy := some { b with repeats := b.repeats + 1 } }) s)
        else
          let s := mcReg k (fun c => wrB c MC_HIF_STAT.FAIL true) s
          let s := machineCheck (4 + k.val) 0x03 1 (BitVec.ofNat 32 b.frame.addr) (rd (mcOf s k).csr MC_HIF_STAT) s
          let s := frameDone k (endFw s)
          if b.src = .firmware then s else stopJob k 9 s

/-- MC_HIF_CMD.GO (R104, R98): a firmware frame is queued; a write while GO reads 1 is ignored. -/
def hifFirmwareFrame (k : Fin 4) (w : Word) (s : State) : State :=
  let m := mcOf s k
  if rdB m.csr MC_HIF_CMD.GO then s else
    startFrame k (setMc k { m with
      csr := wrB (wr m.csr MC_HIF_CMD (w &&& 0xC07FFFFF)) MC_HIF_RDATA.VALID false
      fwQ := some ⟨wordBit w 30, wordField w 22 16, wordField w 15 0, 0⟩ } s)

/-- OWN becomes 1: the lines are driven and held frames go out (R98). -/
def takeOwn (k : Fin 4) (s : State) : State :=
  startFrame k (modMc k (fun m => { m with csr := wrB m.csr MC_HIF_CTL.OWN true, own := true, serialZ := false,
                                           ownRelease := false }) s)

/-- OWN becomes 0 (R98, R99): WG and AG low, WD idle, the serial lines in high impedance; no sector is being written any more. -/
def dropOwn (k : Fin 4) (s : State) : State :=
  modMc k (fun m => { gatesLow m with
    csr := wrB m.csr MC_HIF_CTL.OWN false
    own := false
    ownRelease := false
    serialZ := true
    job := m.job.map (fun j => { j with writing := none }) }) s

/-- HIF_OWN_WRITE (R98, R99): 1 takes the lines at once, 0 releases them, deferred to the sector boundary while WG is
high and to the end of a frame in progress. -/
def hifOwnWrite (k : Fin 4) (b : Bool) (s : State) : State :=
  if b then takeOwn k s
  else if (mcOf s k).wg || (mcOf s k).busy.isSome then modMc k (fun m => { m with ownRelease := true }) s
  else dropOwn k s

/-- HIF_OWN_RELEASE (R99): a deferred release takes effect after WG and AG have fallen at the sector boundary, and
after the frame in progress. -/
def hifOwnRelease (k : Fin 4) (s : State) : State :=
  if (mcOf s k).ownRelease && !(mcOf s k).wg && (mcOf s k).busy.isNone then dropOwn k s else s

/-! ### Energy assist (R92 to R97) -/

/-- The window of the duty ratio in µs, and the time that AG was high on a head within it (R96). -/
def dutyWinUs (m : Mc) : Nat := 1000 * max 1 (min 10000 (rdF m.csr MC_ASC_DUTY.WIN))
def onUsIn (m : Mc) (now head : Nat) : Nat :=
  (m.agHist.filter (fun e => decide (e.1 = head))).foldl (fun n e =>
    n + (min e.2.2 now - max e.2.1 (now - dutyWinUs m))) 0

/-- The duty of a head in percent. -/
def dutyNow (m : Mc) (now head : Nat) : Nat := onUsIn m now head * 100 / dutyWinUs m

/-- The head of the running job, or the head of the last assist event. -/
def curHead (m : Mc) : Nat := (m.job.map (fun j => jobHead m j.entry)).getD (rdF m.csr MC_ASC_STAT.HEAD)

/-- An assist event of a head (MC_ASC_STAT): HEAD names it, and DUTY_NOW is its own; DUTY_HOLD is computed where the register is
read. -/
def ascEvent (now head : Nat) (m : Mc) : Mc := { m with
  csr :=
  wrF (wrF m.csr MC_ASC_STAT.HEAD head) MC_ASC_STAT.DUTY_NOW
    (min 255 (dutyNow m now head)) }

/-- ASSIST_LEAD_LONG (R95): AG high longer than MAX without WG returns the element to bias; a later WG needs a new lead. -/
def assistLeadLong (k : Fin 4) (s : State) : State :=
  let m := mcOf s k
  if m.ag && !m.wg then
    setMc k (ascEvent s.sys.us (curHead m) { m with
      leadEnded := true
      elem := .bias
      csr := wrB m.csr MC_ASC_STAT.LEAD_LONG true }) s
  else s

/-- The duty limit in percent, clamped (R96). -/
def dutyLimit (m : Mc) : Nat := max 1 (min 100 (rdF m.csr MC_ASC_DUTY.LIMIT))

/-- Whether a head's duty has reached n percent of LIMIT. -/
def dutyReaches (m : Mc) (now head n : Nat) : Bool :=
  decide (n * dutyLimit m * dutyWinUs m ≤ 10000 * onUsIn m now head)

/-- ASSIST_DUTY_NEAR (R96): the ratio has reached 90 % of LIMIT. -/
def assistDutyNear (k : Fin 4) (head : Nat) (s : State) : State :=
  if dutyReaches (mcOf s k) s.sys.us head 90 then
    mcEvent k (modMc k (fun m => ascEvent s.sys.us head { m with csr := wrB m.csr MC_ASC_STAT.DUTY_NEAR true }) s)
  else s

/-- AG refused on a head in DUTY_HOLD (R96). -/
def dutyRefuse (k : Fin 4) (s : State) : State :=
  stopJob k 11 (mcReg k (fun c => wrB c MC_WR_FAULT.DUTY true) s)

/-- ASSIST_DUTY_LIMIT (R96): the ratio has reached LIMIT; every later AGATE rise on the head is refused. A job that
holds AG high on the head ends at the end of the sector being written, or at once where none is. -/
def assistDutyLimit (k : Fin 4) (head : Nat) (s : State) : State :=
  if dutyReaches (mcOf s k) s.sys.us head 100 then
    let s := modMc k (fun m => ascEvent s.sys.us head { m with dutyHold := head :: m.dutyHold.filter (· ≠ head) }) s
    let m := mcOf s k
    match m.job with
    | none => s
    | some j => if m.ag && decide (jobHead m j.entry = head) && j.writing.isNone then dutyRefuse k s else s
  else s

/-- ASSIST_DUTY_RELEASE (R96): back at 75 % of LIMIT, DUTY_HOLD clears. -/
def assistDutyRelease (k : Fin 4) (head : Nat) (s : State) : State :=
  let m := mcOf s k
  if 10000 * onUsIn m s.sys.us head ≤ 75 * dutyLimit m * dutyWinUs m then
    modMc k (fun m => if m.dutyHold.contains head then
      ascEvent s.sys.us head { m with dutyHold := m.dutyHold.filter (· ≠ head) } else m) s
  else s

/-- AGATE rises at a bit of the track (R94, R96): refused in DUTY_HOLD, held while a level frame is unacknowledged,
else AG rises there. -/
def agateRise (k : Fin 4) (head bit : Nat) (s : State) : State :=
  let m := mcOf s k
  if m.dutyHold.contains head then dutyRefuse k s
  else if ascBusy m then setMc k { m with agWait := true } s
  else setMc k (if m.ag then m else { agRise head m with agAt := some bit }) s

/-- Firmware's lifetime totals take up a head's on-time and rises before they are cleared (R97). -/
def keepAssist (k : Fin 4) (h : Nat) (s : State) : State :=
  let m := mcOf s k
  let i := (k.val * 16 + h) * 2
  let l := tput 0 s.nv.life i (tget 0 s.nv.life i + tget 0 m.onTimeUs h)
  { s with nv := { s.nv with life := tput 0 l (i + 1) (tget 0 l (i + 1) + tget 0 m.rises h) } }

/-- MC_CH_CLR.ASC (R106): the on-time, its fraction of a millisecond included, and the rises of the selected head. -/
def clrAsc (k : Fin 4) (s : State) : State :=
  let s := keepAssist k (rdF (mcOf s k).csr MC_ASC_IDX.HEAD) s
  modMc k (fun m => let h := rdF m.csr MC_ASC_IDX.HEAD
    { m with onTimeUs := tput 0 m.onTimeUs h 0, rises := tput 0 m.rises h 0 }) s

/-- MC_CH_CLR.HIF (R106). -/
def clrHif (k : Fin 4) (s : State) : State := mcReg k (fun c => wr c MC_HIF_ERR 0) s

/-- MC_CH_CLR.SYN (R106). -/
def clrSyn (k : Fin 4) (s : State) : State :=
  mcReg k (fun c => wr (wr (wr c MC_SYN_COAST 0) MC_SYN_LATE 0) MC_SYN_UNLOCK 0) s

/-- MC_CH_CLR.LDPC (R106). -/
def clrLdpc (k : Fin 4) (s : State) : State :=
  mcReg k (fun c => wrF (wr (wr c MC_LDPC_CONV 0) MC_LDPC_FAIL 0) MC_WR_FAULT.COUNT 0) s

end Sys2Proof.Machine
end

