-- ==== Sys2Proof/Machine/Msq.lean ====
section
/-! DEFINITION. The Media Sequencer's microword (spec/04): its fields, its parity, the illegal words, the actions of every
field, the conditions, and the eight sequencing modes. -/

namespace Sys2Proof.Machine

/-! ### The word (R113, R114, R122) -/

/-- Bits [hi:lo] of a microword. -/
def mwF (w hi lo : Nat) : Nat := (w >>> lo) % 2 ^ (hi + 1 - lo)

def mwNext (w : Nat) : Nat := mwF w 135 122
def mwSeq (w : Nat) : Nat := mwF w 121 119
def mwCond (w : Nat) : Nat := mwF w 118 114
def mwRgate (w : Nat) : Nat := mwF w 113 112
def mwWgate (w : Nat) : Nat := mwF w 111 110
def mwAgate (w : Nat) : Nat := mwF w 109 108
def mwOffset (w : Nat) : Nat := mwF w 107 103
def mwSync (w : Nat) : Nat := mwF w 102 100
def mwEcc (w : Nat) : Nat := mwF w 99 96
def mwStripe (w : Nat) : Nat := mwF w 95 93
def mwBuf (w : Nat) : Nat := mwF w 92 89
def mwXfer (w : Nat) : Nat := mwF w 88 86
def mwPre (w : Nat) : Nat := mwF w 85 78
def mwHtr (w : Nat) : Nat := mwF w 77 75
def mwAssist (w : Nat) : Nat := mwF w 74 71
def mwCtrA (w : Nat) : Nat := mwF w 70 68
def mwCtrB (w : Nat) : Nat := mwF w 67 65
def mwImm (w : Nat) : Nat := mwF w 64 49
def mwDest (w : Nat) : Nat := mwF w 48 45
def mwZone (w : Nat) : Nat := mwF w 44 43
def mwRetry (w : Nat) : Nat := mwF w 42 38
def mwEvt (w : Nat) : Nat := mwF w 37 34
def mwTimer (w : Nat) : Nat := mwF w 33 31
def mwSrv (w : Nat) : Nat := mwF w 30 28
def mwFlag (w : Nat) : Nat := mwF w 27 24
def mwTrace (w : Nat) : Nat := mwF w 23 22
def mwReserved (w : Nat) : Nat := mwF w 21 0

/-- Whether an odd number of the bits from lo, n of them, is one. -/
def oddOnes (w lo : Nat) : Nat → Bool
  | 0 => false
  | n + 1 => (w.testBit (lo + n)) != oddOnes w lo n

/-- Parity of a word (R114): each group of 17 control bits with its parity bit holds an odd number of ones. -/
def parityOk (w : Nat) : Bool := (List.range 8).all (fun g => oddOnes w (17 * g) 17 != w.testBit (136 + g))

/-- The illegal words of R122 that the word alone shows: reserved codes and bits, and fields that may not combine. -/
def illegalWord (w : Nat) : Bool :=
  decide (mwRgate w = 3 ∨ mwWgate w = 3 ∨ mwAgate w = 3 ∨ 5 ≤ mwSync w ∨ 7 ≤ mwEcc w ∨ 6 ≤ mwStripe w ∨ 7 ≤ mwBuf w ∨
    4 ≤ mwXfer w ∨ 4 ≤ mwHtr w ∨ 6 ≤ mwCtrA w ∨ 6 ≤ mwCtrB w ∨ 8 ≤ mwDest w ∨ 5 ≤ mwTimer w ∨ 3 ≤ mwSrv w ∨
    mwReserved w ≠ 0) ||
  decide (mwSeq w = 6 ∧ (mwCond w ≠ 0 ∨ mwCtrA w ≠ 0)) ||
  decide (mwSeq w = 2 ∧ 4 ≤ mwCond w) ||
  decide ((mwBuf w = 1 ∨ mwBuf w = 2 ∨ mwBuf w = 4 ∨ mwBuf w = 6) ∧ mwDest w = 1)

/-- Parity sectors of the open Stripe that remain to be queued, once it has taken its last data sector (PARITY_DUE). -/
def parityDue (j : Job) : Bool :=
  match j.stripe with
  | none => false
  | some st => decide (st.taken.length = st.dataSlots.length ∧ st.queued < st.paritySlots.length)

/-- The illegal orders of R122 that depend on the job's state. -/
def illegalOrder (s : State) (k : Fin 4) (j : Job) (w : Nat) : Bool :=
  let m := mcOf s k
  let ecc := mwEcc w
  let inRange := (jobRange m j.entry).contains j.sp
  let bpBad := (jobPage s k j.entry j.bp).isNone
  let full : Bool := match j.stripe with
    | none => false
    | some st => decide (st.dataSlots.length ≤ st.taken.length)
  let firsts := (jobPlan s k j.entry).map (fun st => (st.1 ++ st.2).headD 0)
  (decide (ecc = 1 ∨ ecc = 2 ∨ ecc = 3 ∨ ecc = 4 ∨ ecc = 6) && !inRange) ||
  (decide (mwStripe w = 1) && (j.stripe.isSome || !firsts.contains j.sp)) ||
  (decide (ecc = 2 ∨ ecc = 4) && full) ||
  (decide (ecc = 3) && !parityDue j) ||
  (decide (ecc = 2) && bpBad) ||
  (decide (ecc = 1) && j.commit && bpBad)

/-! ### Conditions (R117) -/

/-- STRIPE_BUSY: collecting, solving, or emitting parity of the open Stripe. -/
def stripeBusy (j : Job) : Bool :=
  !j.collect.isEmpty || j.stripe.any (fun st => j.writeQ.any (fun q => q.parity && st.paritySlots.contains q.slot))

/-- The condition that COND selects, sampled at the start of the beat. -/
def condVal (s : State) (k : Fin 4) (j : Job) (i : MsqIn) (c : Nat) : Bool :=
  let m := mcOf s k
  match c with
  | 0 => true
  | 1 => j.syncFound
  | 2 => j.syncMiss
  | 3 => decide (j.outcome ≤ 3)
  | 4 => decide (4 ≤ j.outcome)
  | 5 => decide (j.outcome = 6)
  | 6 => j.pendingDec.isEmpty
  | 7 => decide (j.outcome = 1 ∨ j.outcome = 2)
  | 8 => j.need.isEmpty
  | 9 => slotStartNext m j.entry j.sp i
  | 10 => slotEndNext m j.entry j.sp i
  | 11 => wedgeNext m i
  | 12 => inFootprint m i.beat
  | 13 => onTrack s k
  | 14 => pesHigh s k
  | 15 => decide (j.ctrA = 0)
  | 16 => decide (j.ctrB = 0)
  | 17 => j.expired
  | 18 => stripeBusy j
  | 19 => j.stripeOk
  | 20 => j.writeQ.any (fun q => decide (q.slot = j.sp))
  | 21 => hifIdle m
  | 23 => j.cancel
  | 24 => j.flags.testBit 0
  | 25 => j.flags.testBit 1
  | 26 => j.flags.testBit 2
  | 27 => j.flags.testBit 3
  | 28 => decide (j.sp + 1 = jobFirst m j.entry + jobCount m j.entry)
  | 29 => m.dutyHold.contains (jobHead m j.entry)
  | 30 => parityDue j
  | 31 => j.need.contains j.sp
  | _ => leadNext s m j.entry j.sp i

/-- The value that a DISPATCH source gives (R118). -/
def dispatchVal (j : Job) (c : Nat) : Nat :=
  match c with
  | 0 => j.disp % 16
  | 1 => j.outcome % 16
  | 2 => j.ctrA % 16
  | _ => j.gr0 % 16

/-! ### Writing slots (R109, R116, R89, R90) -/

/-- What the write path sends on WD for a sector (R42, R89): its bits, and with PCEN the delays that PC1 to PC3 of the
analog entry in force give its transitions. In a gapless run the transitions of the slot before come before its own.
-/
def wdOf (m : Mc) (slot : Nat) (x : MediaSector) : WdSector :=
  let bits := sectorBits x
  let before := match m.wd with
    | some w => if w.slot + 1 = slot then w.bits else []
    | none => []
  let tr := transitions (before.getLastD false) bits
  let last := (transitions false before).reverse
  let z := zaeIn m
  ⟨slot, bits, if rdB m.csr MC_WR_CTL.PCEN then
      precomp (entF z 4 29 24) (entF z 4 21 16) (entF z 4 13 8) (last.headD false) ((last.drop 1).headD false) tr
    else tr.map (fun _ => 0)⟩

/-- A sector has passed under the writing head: the slot holds it, with its own tag seed and the zone's sync mark (R43, R44, R47,
R51). The track tail behind the last slot is never written (R40). -/
def putSector (k : Fin 4) (e slot data : Nat) (s : State) : State :=
  let m := mcOf s k
  let sec : MediaSector := ⟨data, jobSeed s k e slot, (m.zone.getD 4 0).toNat, rdB m.csr MC_WR_CTL.RESUME⟩
  if zoneSlots m ≤ slot then s
  else modMc k (fun m => { m with wd := some (wdOf m slot sec) })
    { s with media := tput MediaSector.blank s.media (underHead s k e slot) sec }

/-- A vendor routine runs (R125). -/
def inVendor (j : Job) : Bool := match j.mode with
  | .vendor _ => true
  | _ => false

/-- Writing ends at a sector boundary: no sector is being written, and the sectors `q` stay queued. -/
def writingEnds (q : List QSector) (j : Job) : Job := { j with
  writeQ := q
  writing := none
  wgate := j.wgate && !inVendor j
  agate := j.agate && !inVendor j }

/-- The pad of the slot being written ends. A release of OWN (R99), a dump (R297) or a head at its duty limit (R96)
ends the write here. `cont` says that WG stays ordered high: the next slot's sector is then taken, or the job stops
with UNDERRUN (R116); a vendor routine drops the gates before a slot that it does not write. -/
def slotEnd (k : Fin 4) (cont : Bool) (s : State) : State :=
  match (mcOf s k).job with
  | none => s
  | some j =>
    match j.writing with
    | none => s
    | some slot =>
      let q := j.writeQ.find? (fun q => decide (q.slot = slot))
      let s := match q with
        | some q => putSector k j.entry slot q.data s
        | none => s
      let rest := j.writeQ.filter (fun q => decide (q.slot ≠ slot))
      let next := rest.find? (fun q => decide (q.slot = slot + 1))
      let ended := modJob k (writingEnds rest) s
      if (mcOf s k).ownRelease then dropGates k ended
      else if s.sys.dump ≠ .none then modMc k wgFall ended
      else if (mcOf s k).dutyHold.contains (jobHead (mcOf s k) j.entry) then dutyRefuse k ended
      else if cont && next.isSome then modJob k (fun j => { j with
        writeQ := rest
        writing := some (slot + 1) }) s
      else if inVendor j then dropGates k ended
      else if cont then stopJob k 13 (modMc k wgFall ended)
      else modMc k wgFall ended

/-- n pads end in a row; the last of them meets a word that drops WGATE where `off` says so. -/
def slotEnds (k : Fin 4) (off : Bool) : Nat → State → State
  | 0, s => s
  | n + 1, s => slotEnds k off n (slotEnd k (!(off && decide (n = 0))) s)

/-- The footprint that held WG low and the read loops may have passed (R74, R90): WG is free again from its last 64
bits on where they carry the resume field of a paused slot, else from its end; the loops acquire again on a resume
field that the slot carries, and track on from where they were held without one. -/
def footprintPassed (k : Fin 4) (e : Nat) (i : MsqIn) (s : State) : State :=
  let m := mcOf s k
  let inside := inFootprint m i.beat
  let resume := slotPaused m e i.wedge && rdB m.csr MC_WR_CTL.RESUME && decide (zoneServo m ≤ i.beat + 2)
  let s := modMc k (fun m => { m with wgHold := m.wgHold && inside && !resume }) s
  if inside || decide (m.loop.phase ≠ .held) then s
  else if (slotUnderHead s k e (dataPassed m e i.wedge i.beat / 1157)).resume then trackLoops k s
  else modMc k (fun m => { m with loop := { m.loop with phase := .tracking } }) s

/-- The head has come to where a word samples it: revolutions, footprints, and the pads that have ended since the last word. -/
def headMoves (k : Fin 4) (off : Bool) (i : MsqIn) (s : State) : State :=
  match (mcOf s k).job with
  | none => s
  | some j =>
    let m := mcOf s k
    let now := dataPassed m j.entry i.wedge i.beat
    let n := i.revs * zoneSlots m + padsEnded m now - padsEnded m j.passed
    slotEnds k off n (footprintPassed k j.entry i (modJob k (fun j => { j with
      revs := j.revs + i.revs
      passed := now }) s))

/-- WGATE rises for a slot (R94, R98, R100, R116, R154): WG needs a queued sector, a full lead and no write inhibit.
What is queued is what was queued at the start of the beat: a word that both encodes the slot's sector and raises
WGATE stops with UNDERRUN, where R108 and R116 leave it open (DESIGN CHOICE, log 187). A rise without its full lead
sets MC_WR_FAULT.LEAD_SHORT and does not count as a write abort in COUNT, as no write has begun (DESIGN CHOICE, log
220). -/
def wgateRise (k : Fin 4) (slot leadNs : Nat) (j : Job) (s : State) : State :=
  let m := mcOf s k
  if m.wg then s
  else if !(j.writeQ.any (fun q => decide (q.slot = slot))) then stopJob k 13 s
  else if !m.ag || m.leadEnded || decide (leadNs < max 2 (rdF m.csr MC_ASC_LEAD.MIN)) then
    let s := mcReg k (fun c => wrF (wrB (wrB c MC_ASC_STAT.LEAD_SHORT true) MC_WR_FAULT.LEAD_SHORT true)
      MC_ASC_STAT.HEAD (jobHead m j.entry)) s
    stopJob k 12 s
  else if m.hfltLow then writeAbort k MC_WR_FAULT.HFLT 7 s
  else if writeInhibited s k then writeAbort k MC_WR_FAULT.COAST 7 s
  else if s.sys.dump ≠ .none ∨ ¬ m.own ∨ m.ownRelease then s
  else modJob k (fun j => { j with writing := some slot }) (setMc k { m with
    wg := true
    wdIdle := false
    wd := none
    elem := .write } s)

/-- The bit at which a word's gate edges lie (R109), and at which its rising assist edge does: the edge of slot SP in
a word executed at LEAD_POINT (R111). -/
def edgeBit (m : Mc) (w : Nat) (i : MsqIn) : Nat := trackBit m i.wedge i.beat (mwOffset w)
def assistEdge (s : State) (m : Mc) (j : Job) (w : Nat) (i : MsqIn) : Nat :=
  if leadBeat s m j.entry j.sp = (i.wedge, i.beat) then leadBit s m j.entry j.sp else edgeBit m w i

/-- The three gates of a word (R109): read gate, assist gate, write gate. -/
def actGates (k : Fin 4) (w : Nat) (i : MsqIn) (j : Job) (s : State) : State :=
  let lvl := fun (code : Nat) (b : Bool) => if code = 1 then false else if code = 2 then true else b
  let s := modJob k (fun x => { x with
    rgate := lvl (mwRgate w) x.rgate
    wgate := lvl (mwWgate w) x.wgate
    agate := lvl (mwAgate w) x.agate }) s
  let s := if mwWgate w = 1 then modMc k wgFall (modJob k (fun x => { x with writing := none }) (cutWrite k s)) else s
  let s := if mwAgate w = 1 then modMc k (fun m => { m with
      ag := false
      agWait := false
      elem := .off }) s
    else if mwAgate w = 2 ∧ ¬ j.agate then agateRise k (jobHead (mcOf s k) j.entry) (assistEdge s (mcOf s k) j w i) s else s
  if mwWgate w = 2 ∧ ¬ j.wgate ∧ running s k then wgateRise k j.sp (leadTime s (mcOf s k) (edgeBit (mcOf s k) w i) i) j s else s

/-! ### Search, decode, encode and Stripe orders -/

/-- The window of a slot's present passage is ordered (R117, R507): an order that comes too late closes it at once. -/
def openWindow (slot : Nat) (late : Bool) (x : Job) : Job := { x with
  window := some slot
  syncFound := false
  syncMiss := late
  found := x.found.filter (· ≠ slot)
  closed := if late then slot :: x.closed.filter (· ≠ slot) else x.closed.filter (· ≠ slot) }

/-- The SYNC field. -/
def actSync (k : Fin 4) (w : Nat) (i : MsqIn) (j : Job) (s : State) : State :=
  match mwSync w with
  | 1 => modJob k (openWindow j.sp (orderLate (mcOf s k) j.entry j.sp i)) s
  | 2 => modMc k (fun m => { m with sbuf := match m.sbuf with
      | none => none
      | some b => if b.use = .heldOnly then none else some { b with release := true } }) s
  | 3 => modJob k (fun x => { x with autoOff := true }) s
  | 4 => modJob k (fun x => { x with autoOff := false }) s
  | _ => s

/-- Enter an order for a decode report. -/
def orderDecode (slot bp : Nat) (x : Job) : Job :=
  { x with pendingDec := x.pendingDec ++ [slot], ordered := (slot, bp) :: x.ordered.filter (fun e => decide (e.1 ≠ slot)) }

/-- Queue a sector for writing; the open Stripe takes the data. -/
def queueSector (slot data : Nat) (x : Job) : Job :=
  { x with writeQ := x.writeQ ++ [⟨slot, data, false⟩],
           stripe := x.stripe.map (fun st => { st with taken := st.taken ++ [data] }) }

/-- RDECODE (R123): the held samples go to the retry decode path; with none held the report is outcome 10. -/
def orderRdecode (k : Fin 4) (j : Job) (s : State) : State :=
  match (mcOf s k).sbuf with
  | some b =>
    if b.use = .heldOnly then
      modJob k (orderDecode b.slot b.bp) (modMc k (fun m => { m with sbuf := some { b with use := .rdecode } }) s)
    else report k (noDecode j.sp 10) j.bp 0 (modJob k (orderDecode j.sp j.bp) s)
  | none => report k (noDecode j.sp 10) j.bp 0 (modJob k (orderDecode j.sp j.bp) s)

/-- The ECC field. -/
def actEcc (k : Fin 4) (w : Nat) (i : MsqIn) (j : Job) (s : State) : State :=
  match mwEcc w with
  | 1 =>
    let late := orderLate (mcOf s k) j.entry j.sp i
    let s := modJob k (fun x => orderDecode j.sp j.bp { openWindow j.sp late x with syncMiss := false }) s
    if late then report k (noDecode j.sp 10) j.bp 0 s else s
  | 2 => modJob k (queueSector j.sp (tget 0 s.staging ((jobPage s k j.entry j.bp).getD 0))) s
  | 3 =>
    modJob k (fun x => match x.stripe with
      | none => x
      | some st => { x with
          writeQ := x.writeQ ++ [⟨j.sp, (rsParity st.paritySlots.length st.taken).getD st.queued 0, true⟩]
          stripe := if st.closing && decide (st.queued + 1 = st.paritySlots.length) then none
            else some { st with queued := st.queued + 1 } }) s
  | 4 => modJob k (queueSector j.sp 0) s
  | 5 => orderRdecode k j s
  | 6 => report k (noDecode j.sp 9) j.bp 0 (modJob k (fun x => orderDecode j.sp j.bp
      { x with erasures := j.sp :: x.erasures.filter (· ≠ j.sp) }) s)
  | _ => s

/-- Start collecting the Stripe of the plan that holds a slot, if it is not being collected; its slots are searched in
the pass that follows. -/
def collectStripe (st : List Nat × List Nat) (x : Job) : Job :=
  if x.collect.any (fun c => decide (c.dataSlots = st.1)) then x
  else { x with
    collect := x.collect ++ [⟨st.1, st.2, [], [], false⟩]
    found := x.found.filter (fun y => !st.1.contains y && !st.2.contains y)
    closed := x.closed.filter (fun y => !st.1.contains y && !st.2.contains y) }

/-- Mark the first Stripe that is collected and not yet being solved. -/
def solveFirst : List Collection → List Collection
  | [] => []
  | c :: r => if c.solving then c :: solveFirst r else { c with solving := true } :: r

/-- The STRIPE field. -/
def actStripe (k : Fin 4) (w : Nat) (j : Job) (s : State) : State :=
  match mwStripe w with
  | 1 => modJob k (fun x => { x with stripe := (stripeOf (jobPlan s k j.entry) j.sp).map (fun st => ⟨st.1, st.2, [], 0, false⟩) }) s
  | 2 => match stripeOf (jobPlan s k j.entry) j.sp with
    | some st => modJob k (collectStripe st) s
    | none => s
  | 3 => modJob k (fun x => if x.collect.any (fun c => !c.solving) then { x with collect := solveFirst x.collect }
      else { x with stripeOk := false }) s
  | 4 => modJob k (fun x => { x with stripe := match x.stripe with
      | some st => if st.queued = st.paritySlots.length then none else some { st with closing := true }
      | none => none }) s
  | 5 => modJob k (fun x => { x with stripe := none }) s
  | _ => s

/-- The BUF, XFER, CTRA, CTRB, DEST, TIMER and FLAG fields: the MSQ's own registers. `j` is the job at the start of the
beat, whose SP and BP every field uses (R108). -/
def actRegs (w : Nat) (dataSlot : Bool) (first count budget : Nat) (j : Job) (x : Job) : Job :=
  let imm := mwImm w
  let ctr := fun (code v par : Nat) => match code with
    | 1 => v - 1
    | 2 => min 0xFFFF (v + 1)
    | 3 => imm
    | 4 => par
    | 5 => 0
    | _ => v
  let x := match mwBuf w with
    | 1 => { x with sp := j.sp + 1, bp := j.bp + b2n dataSlot }
    | 2 => { x with sp := j.sp + 1 }
    | 3 => { x with bp := j.bp + 1 }
    | 4 => { x with sp := first, bp := 0 }
    | 5 => { x with markSp := j.sp, markBp := j.bp }
    | 6 => { x with sp := j.markSp, bp := j.markBp }
    | _ => x
  let x := match mwXfer w with
    | 1 => { x with commit := false }
    | 2 => { x with commit := true }
    | 3 => { x with writeQ := x.writeQ.filter (fun q => (cbpOf x.writeQ).contains q.slot) }
    | _ => x
  let x := { x with ctrA := ctr (mwCtrA w) j.ctrA count, ctrB := ctr (mwCtrB w) j.ctrB budget }
  let x := match mwDest w with
    | 1 => { x with sp := imm % 2 ^ 11 }
    | 2 => { x with disp := imm % 16 }
    | 3 => { x with status := imm % 256 }
    | 4 => { x with gr0 := imm }
    | 5 => { x with gr1 := imm }
    | 6 => { x with evtd := imm }
    | 7 => { x with srvofs := imm }
    | _ => x
  let x := match mwTimer w with
    | 0 => x
    | 4 => { x with timer := .off }
    | _ => { x with
        timer := .running
        expired := false }
  let f := mwFlag w
  let bit := 2 ^ (f % 4)
  { x with flags := match f / 4 with
    | 1 => j.flags ||| bit
    | 2 => j.flags &&& (15 - bit)
    | 3 => j.flags ^^^ bit
    | _ => j.flags }

/-! ### Zone, heater, assist and retry orders -/

/-- The first check of R38 that a descriptor fails; 0 where none does. -/
def zfdCheck (s : State) (k : Fin 4) (e : Nat) (z : List Word) : Nat :=
  let m := mcOf s k
  let beats := entF z 2 27 16
  let sb := entF z 2 7 0
  let track := addrTrack (jobAddr m e)
  if entF z 0 31 31 = 0 then 1
  else if 175 * wedgePeriodPs s < beats * 1000000 then 2
  else if beats - sb < 1157 then 3
  else if 2047 < entF z 3 26 16 ∨ (beats - sb) * 640 / 1157 < entF z 3 26 16 then 4
  else if entF z 5 3 0 < 2 ∨ 8 < entF z 5 3 0 then 5
  else if 639 < entF z 3 9 0 then 6
  else if entF z 1 20 0 < entF z 0 20 0 ∨ track < entF z 0 20 0 ∨ entF z 1 20 0 < track then 7
  else if entF z 7 31 24 ≠ jobZone m e ∨ entF z 7 23 20 ≠ jobHead m e ∨ entF z 7 19 18 ≠ addrMc (jobAddr m e) then 8
  else 0

/-- The first check of R77 that an analog entry fails; 0 where none does. -/
def zaeCheck (s : State) (k : Fin 4) (e : Nat) (z : List Word) : Nat :=
  let m := mcOf s k
  let mode := detMode m z
  let lead := entF z 5 23 16
  if entF z 0 31 31 = 0 then 1
  else if entF z 7 31 24 ≠ jobZone m e ∨ entF z 7 23 20 ≠ jobHead m e ∨ entF z 7 19 18 ≠ addrMc (jobAddr m e) then 2
  else if lead < 2 ∨ 200 < lead then 3
  else if tget 0 m.ascLevel (16 * jobHead m e + entF z 5 3 0) = 0 ∨
      tget 0 m.ascLevel (16 * jobHead m e + entF z 5 11 8) = 0 then 4
  else if (mode ≠ 1 ∧ ¬ rdB m.csr MC_AFE_CTL.RDA_EN) ∨ (mode ≠ 0 ∧ ¬ rdB m.csr MC_AFE_CTL.RDB_EN) then 5
  else 0

/-- A failed zone check: recorded, the shadow emptied, and the job ends with END 4 (R38, R77, R508). -/
def zoneFail (k : Fin 4) (analog : Bool) (code : Nat) (empty : Bool) (s : State) : State :=
  match (mcOf s k).job with
  | none => s
  | some j =>
    let zone := jobZone (mcOf s k) j.entry
    let s := mcReg k (fun c =>
      if analog then wrF (wrF (wrB c MC_ZAE_ERR.STICKY true) MC_ZAE_ERR.ZONE zone) MC_ZAE_ERR.CODE code
      else wrF (wrF (wrB c MC_ZFD_ERR.STICKY true) MC_ZFD_ERR.ZONE zone) MC_ZFD_ERR.CODE code) s
    endJob k 4 2 0 (if empty then modMc k (fun m => { m with shadow := none }) s else s)

/-- ZONE LOAD (R38, R76, R77, R508): both entries are read from DRAM and checked, the descriptor first. -/
def zoneLoad (k : Fin 4) (e : Nat) (s : State) : State :=
  let m := mcOf s k
  let zfd := zoneEntry s k false (jobHead m e) (jobZone m e)
  let zae := zoneEntry s k true (jobHead m e) (jobZone m e)
  let c1 := zfdCheck s k e zfd
  let c2 := zaeCheck s k e zae
  if c1 ≠ 0 then zoneFail k false c1 true s
  else if c2 ≠ 0 then zoneFail k true c2 true s
  else modMc k (fun m => { m with shadow := some (zfd, zae) }) s

/-- The synthesiser takes the beats of a zone: at once in lock, else when it locks (R88, R508). -/
def takeBeats (n : Nat) (m : Mc) : Mc :=
  if rdB m.csr MC_SYN_STAT.LOCK then { m with syn := { m.syn with
    beats := n
    next := none } }
  else { m with syn := { m.syn with next := some n } }

/-- ZONE APPLY (R508): the shadow is put in force, with the loops and the filter at its initial values; the head
select and WRITE_PRE frames are queued, and the ASC sends the bias and the level. -/
def zoneApply (k : Fin 4) (e : Nat) (s : State) : State :=
  let m := mcOf s k
  match m.shadow with
  | none => zoneFail k false 1 false s
  | some (zfd, zae) =>
    if entF zfd 7 31 24 ≠ jobZone m e ∨ entF zfd 7 23 20 ≠ jobHead m e ∨ entF zfd 7 19 18 ≠ addrMc (jobAddr m e) then
      zoneFail k false 8 false s
    else
      let head := jobHead m e
      let s := setMc k (afePut zae (0, 0, 0) (takeBeats (entF zfd 2 27 16) { m with zone := zfd ++ zae })) s
      let s := preloadFrame k (232 + head) s
      let s := if running s k then preloadFrame k (entF zae 4 7 0) s else s
      if running s k then
        ascFrame k 0x10 (levelCode m head (entF zae 5 3 0)) (entF zae 5 3 0)
          (ascFrame k 0x11 (levelCode m head (entF zae 5 11 8)) (entF zae 5 11 8) s)
      else s

/-- Put a servo offset in force where it differs from the one in force (R133). -/
def offsetIfNew (k : Fin 4) (ofs : Nat) (s : State) : State := if offsetInForce s k = ofs then s else sceOffset k ofs s

/-- Knob set n is put in force, or with n = 1 the zone's values (R133). Its deltas are taken at the next preamble, its
MODE and ITER by the next decode. -/
def putKnobs (k : Fin 4) (n : Nat) (s : State) : State :=
  let m := mcOf s k
  let zae := zaeIn m
  if n = 1 then
    let s := modJob k (fun x => { x with
      knob := 0
      srvofs := 0 }) s
    let s := preloadFrame k (248 + entF zae 6 2 0) s
    if running s k then offsetIfNew k 0 s else s
  else
    let d0 := tget 0 m.knobs (2 * n)
    let d1 := tget 0 m.knobs (2 * n + 1)
    let htr := wordField d0 3 0
    if 5 ≤ wordField d0 7 4 ∨ 9 ≤ htr then stopJob k 2 s
    else
      let s := modJob k (fun x => { x with
        knob := n
        srvofs := wordField d1 31 16 }) s
      let s := preloadFrame k (248 + (if htr = 0 then entF zae 6 2 0 else htr - 1)) s
      if running s k then offsetIfNew k (wordField d1 31 16) s else s

/-- The RETRY field (R133). -/
def actRetry (k : Fin 4) (w : Nat) (s : State) : State := if mwRetry w = 0 then s else putKnobs k (mwRetry w) s

/-- The PRE, HTR and ASSIST fields (R104, R93). -/
def actFrames (k : Fin 4) (w : Nat) (j : Job) (s : State) : State :=
  let zae := zaeIn (mcOf s k)
  let s := if mwPre w = 0 then s else preloadFrame k (mwPre w) s
  let s := if !running s k then s else match mwHtr w with
    | 1 => preloadFrame k (248 + entF zae 6 2 0) s
    | 2 => preloadFrame k (248 + entF zae 6 6 4) s
    | 3 => preloadFrame k 248 s
    | _ => s
  let code := levelCode (mcOf s k) (jobHead (mcOf s k) j.entry) (mwAssist w)
  if mwAssist w = 0 ∨ code = 0 ∨ ¬ running s k then s
  else ascFrame k 0x10 code (mwAssist w) s

/-- The SRV field (R115). -/
def actSrv (k : Fin 4) (w : Nat) (j : Job) (s : State) : State :=
  match mwSrv w with
  | 1 => sceOffset k j.srvofs s
  | 2 => sceOffset k 0 s
  | _ => s

/-- The EVT and TRACE fields; a job that records every word records this one (R141, R142). -/
def actEvents (k : Fin 4) (w : Nat) (j : Job) (s : State) : State :=
  let s := if mwEvt w = 0 then s else postEvt k (mwEvt w) j.sp j s
  let t := mwTrace w
  let s := if t = 1 ∨ t = 2 ∨ (j.traceAll ∧ t ≠ 3) then modMc k (traceWord j.entry j.sp j.pc) s else s
  modJob k (fun x => { x with traceAll := if t = 2 then true else if t = 3 then false else x.traceAll }) s

/-- Every action of a word, in its one beat. Fields act on the values at the start of the beat; a stop of one field
ends the job, and the later ones then find none. In a word with both STRIPE OPEN and ECC ENCODE or FILL, ECC acts
first and its sector lies outside the Stripe, which R108 leaves open (DESIGN CHOICE, log 187). -/
def actWord (k : Fin 4) (w : Nat) (i : MsqIn) (j : Job) (s : State) : State :=
  let m := mcOf s k
  let dataSlot := (jobDataSlots s k j.entry).contains j.sp
  let first := jobFirst m j.entry
  let count := jobCount m j.entry
  let budget := jtF m j.entry 3 31 24
  let s := actEvents k w j s
  let s := actSync k w i j s
  let s := actEcc k w i j s
  let s := actStripe k w j s
  let s := modJob k (actRegs w dataSlot first count budget j) s
  let s := actGates k w i j s
  let s := if running s k ∧ mwZone w % 2 = 1 then zoneLoad k j.entry s else s
  let s := if running s k ∧ 2 ≤ mwZone w then zoneApply k j.entry s else s
  let s := if running s k then actFrames k w j s else s
  let s := if running s k then actRetry k w s else s
  if running s k then actSrv k w j s else s

/-! ### Fetch and sequencing (R118 to R120, R124, R131) -/

/-- What the store's table holds for a word that nothing has been written to: no word of 144 bits. -/
abbrev storeUnset : Nat := 2 ^ 144

/-- The 144 bits of a word of the DRAM image at MSQ_IMG_BASE. -/
def imageWord (s : State) (k : Fin 4) (a : Nat) : Nat :=
  let base := (rd (mcOf s k).csr MSQ_IMG_BASE).toNat * 4096 + 32 * a
  (List.range 18).foldl (fun x i => x + memByte s.mem (base + i) * 2 ^ (8 * i)) 0

/-- Reload a word from the image; a word that cannot be reloaded leaves the MSQ DEAD, with a machine check (R131). -/
def reloadWord (k : Fin 4) (a : Nat) (imgBad : Bool) (s : State) : State :=
  let w := imageWord s k a
  if imgBad || !parityOk w then
    machineCheck (4 + k.val) 0x02 2 (BitVec.ofNat 32 a) 0 (mcReg k (fun c => wrB c MSQ_STAT.DEAD true) s)
  else modMc k (fun m => { m with store := tput storeUnset m.store a w }) s

/-- A parity stop (R131, R91). -/
def parityStop (k : Fin 4) (j : Job) (imgBad : Bool) (s : State) : State :=
  let s := if (mcOf s k).wg then mcReg k (fun c => incF (wrB c MC_WR_FAULT.PARITY true) MC_WR_FAULT.COUNT 1) s else s
  let s := stopJob k 1 s
  let s := machineCheck (4 + k.val) 0x01 1 (BitVec.ofNat 32 j.pc) (BitVec.ofNat 32 j.entry) s
  reloadWord k j.pc imgBad (mcCount k MSQ_PAR_ERR 1 s)

/-- Control passes from a to n: REGION where a customer word leads into vendor code (R124). -/
def goTo (k : Fin 4) (a n : Nat) (s : State) : State :=
  if 0x3800 ≤ a ∧ 0x0100 ≤ n ∧ n ≤ 0x37FF then stopJob k 6 s
  else modJob k (fun x => { x with pc := n, mode := .words }) s

/-- Whether the word's next address would be a + 1. -/
def fallsThrough (cond : Bool) (j : Job) (w : Nat) : Bool :=
  match mwSeq w with
  | 1 => false
  | 2 => false
  | 5 => false
  | 6 => decide (j.ctrA = 0)
  | _ => !cond

/-- A HALT takes effect, at the end of the pad of the sector being written where WG is high (R109). -/
def haltJob (k : Fin 4) (s : State) : State :=
  if (mcOf s k).wg then modJob k (fun x => { x with mode := .haltPad }) s else endJob k 0 0 0 s

/-- Where the word sends control, after its actions. -/
def sequence (k : Fin 4) (w : Nat) (cond : Bool) (j : Job) (s : State) : State :=
  let a := j.pc
  let n := mwNext w
  match mwSeq w with
  | 0 => goTo k a (if cond then n else a + 1) s
  | 1 => goTo k a (n / 2 * 2 + b2n cond) s
  | 2 => goTo k a (n / 16 * 16 + dispatchVal j (mwCond w)) s
  | 3 =>
    if !cond then goTo k a (a + 1) s
    else if 4 ≤ j.stack.length then stopJob k 3 s
    else goTo k a n (modJob k (fun x => { x with stack := (a + 1) :: x.stack }) s)
  | 4 =>
    if !cond then goTo k a (a + 1) s
    else match j.stack with
      | [] => stopJob k 4 s
      | r :: rest => goTo k a (r % 2 ^ 14) (modJob k (fun x => { x with stack := rest }) s)
  | 5 =>
    if cond then goTo k a n s
    else match (mcOf s k).job with
      | none => s
      | some x => if x.timer = .expired then
          (if a = 0x3FFF then stopJob k 2 s else goTo k a (a + 1) s)
        else modJob k (fun x => { x with mode := .waiting }) s
  | 6 =>
    if j.ctrA = 0 then goTo k a (a + 1) s
    else goTo k a n (modJob k (fun x => { x with ctrA := j.ctrA - 1 }) s)
  | _ =>
    if !cond then goTo k a (a + 1) s
    else haltJob k s

/-- A word with its eight parity bits (R114). -/
def withParity (w : Nat) : Nat :=
  (List.range 8).foldl (fun x g => x + b2n (!oddOnes w (17 * g) 17) * 2 ^ (136 + g)) w

/-- A HALT word that reports a STATUS (R137, R118). -/
def haltWord (status : Nat) : Nat := withParity (7 * 2 ^ 119 + status % 256 * 2 ^ 49 + 3 * 2 ^ 45)

/-- The word at the job's address: what the store holds, or none where the address lies in vendor code that firmware has
loaded and the spec does not print (R125). A customer word that no image has written is a HALT word with STATUS 0xFF
(R137); a store that nothing has loaded holds zeros. -/
def fetchWord (m : Mc) (a : Nat) : Option Nat :=
  let w := tget storeUnset m.store a
  if w ≠ storeUnset then some w
  else if !m.vendorLoaded then some 0
  else if a < 0x3800 then none else some (haltWord 0xFF)

/-- One microword: pads that ended before it, parity, legality, actions, next address. -/
def runWord (k : Fin 4) (w : Nat) (i : MsqIn) (s : State) : State :=
  let s := headMoves k (decide (mwWgate w = 1)) i s
  match (mcOf s k).job with
  | none => s
  | some j =>
    let cond := condVal s k j i (mwCond w)
    if illegalWord w || illegalOrder s k j w || (decide (j.pc = 0x3FFF) && fallsThrough cond j w) then stopJob k 2 s
    else
      let s := actWord k w i j s
      if running s k then sequence k w cond j s else s

/-! ### Vendor routines (R125, R134, R509) -/

/-- Whether the job's descriptors hold n sectors from BP on (R122). -/
def bpHolds (s : State) (k : Fin 4) (e bp n : Nat) : Bool := (List.range n).all (fun i => (jobPage s k e (bp + i)).isSome)

/-- The sectors that WRITE_TRACK writes, in order: each Stripe's data from BP on, then its parity. -/
def trackSectors (s : State) (k : Fin 4) (e : Nat) : List (List Nat × List Nat) → Nat → List QSector
  | [], _ => []
  | (ds, ps) :: r, bp =>
    let data := (List.range ds.length).map (fun i => tget 0 s.staging ((jobPage s k e (bp + i)).getD 0))
    (ds.zip data).map (fun x => ⟨x.1, x.2, false⟩) ++ (ps.zip (rsParity ps.length data)).map (fun x => ⟨x.1, x.2, true⟩) ++
      trackSectors s k e r (bp + ds.length)

/-- The Stripes of the plan that lie in the job's range, and whether the range is whole Stripes (R125, WRITE_TRACK). -/
def wholeStripes (s : State) (k : Fin 4) (e : Nat) : List (List Nat × List Nat) × Bool :=
  let m := mcOf s k
  let range := jobRange m e
  let inR := (jobPlan s k e).filter (fun st => (st.1 ++ st.2).all range.contains)
  let slots := inR.flatMap (fun st => st.1 ++ st.2)
  let okEnds := decide (slots.head? = some (jobFirst m e)) && decide (slots.getLast? = some (jobFirst m e + jobCount m e - 1))
  (inR, okEnds && range.all (fun x => jobSkip s m e x || slots.contains x))

/-- The sectors of CLOSE_STRIPE (R56): fill from the job's first slot on, then parity over what the Stripe then holds. -/
def closeSectors (s : State) (k : Fin 4) (e : Nat) (st : List Nat × List Nat) : List QSector :=
  let first := jobFirst (mcOf s k) e
  let data := st.1.map (fun x => if x < first then slotData s k x else 0)
  (st.1.filter (fun x => decide (first ≤ x))).map (fun x => ⟨x, 0, false⟩) ++
    (st.2.zip (rsParity st.2.length data)).map (fun x => ⟨x.1, x.2, true⟩)

/-- The Stripe of the job's plan whose data slots hold the job's first slot. -/
def stripeToClose (s : State) (k : Fin 4) (e : Nat) : Option (List Nat × List Nat) :=
  (jobPlan s k e).find? (fun st => st.1.contains (jobFirst (mcOf s k) e))

/-- The STATUS of READ_TRACK (R509). -/
def readStatus (j : Job) : Nat :=
  if !j.need.isEmpty then 0x21 else if 0 < j.rebuilt then 0x02
  else if 0 < j.recov ∨ ¬ j.failedOnce.isEmpty then 0x01 else 0x00

/-- Post UNRECOVERED for each slot left (R134, step 5). -/
def postUnrecovered (k : Fin 4) : List Nat → State → State
  | [], s => s
  | x :: r, s => postUnrecovered k r (match (mcOf s k).job with
    | some j => postEvt k 4 x j s
    | none => s)

/-- ZONE LOAD and APPLY, and a heater profile. -/
def zoneSetup (k : Fin 4) (e : Nat) (writes : Bool) (s : State) : State :=
  let s := zoneLoad k e s
  let s := if running s k then zoneApply k e s else s
  let zae := zaeIn (mcOf s k)
  if running s k then preloadFrame k (248 + (if writes then entF zae 6 6 4 else entF zae 6 2 0)) s else s

/-- Queue the sectors of a vendor write, with the gates still low. -/
def vendorQueue (q : List QSector) (j : Job) : Job := { j with
  writeQ := j.writeQ ++ q
  vstep := .lead }

/-- The ladder list of the parameter block: up to eight set numbers, ended by a 0 (R126). -/
def ladderList (s : State) (m : Mc) (e : Nat) : List Nat :=
  ((List.range 8).map (fun i => memByte s.mem ((jtW m e 4).toNat * 8 + 768 + i))).takeWhile (fun n => decide (n ≠ 0))

/-- Enter a published entry's routine (R125). The job entries set the zone up first. A subroutine that uses two stack
entries makes a CALL of its own, which overflows a full stack; a read that commits needs a buffer for each slot
(R122). -/
def vendorEnter (k : Fin 4) (n : Nat) (s : State) : State :=
  let enter := fun (step : VendorStep) => modJob k (fun x => { x with
    mode := .vendor n
    vstep := step
    vstatus := 0 })
  match (mcOf s k).job with
  | none => s
  | some j =>
    let m := mcOf s k
    let e := j.entry
    let deep := decide (n = 4 ∨ n = 6 ∨ n = 7) && decide (4 ≤ j.stack.length)
    let bpBad := decide (n = 0 ∨ n = 4) && j.commit &&
      (j.need.filter (fun x => decide (n = 0 ∨ j.sp ≤ x))).any (fun x => (jobPage s k e ((jobDataSlots s k e).idxOf x)).isNone)
    let unlessBad := fun (s : State) => if bpBad && running s k then stopJob k 2 s else s
    if deep then stopJob k 3 s
    else match n with
    | 0 =>
      let s := enter .firstPass (modJob k (fun x => { x with
        vbudget := jtF m e 3 31 24
        vsets := ladderList s m e
        found := []
        closed := [] }) s)
      unlessBad (zoneSetup k e false s)
    | 1 =>
      let s := enter .writing s
      let (sts, ok) := wholeStripes s k e
      if !ok then modJob k (fun x => { x with vstatus := 0x30 }) s
      else if !bpHolds s k e 0 (sts.flatMap Prod.fst).length then stopJob k 2 s
      else modJob k (vendorQueue (trackSectors s k e sts 0)) (zoneSetup k e true s)
    | 2 =>
      let s := enter .writing s
      match stripeToClose s k e with
      | none => modJob k (fun x => { x with vstatus := 0x31 }) s
      | some st =>
        let first := jobFirst m e
        if !((st.1.filter (fun x => decide (first ≤ x)) ++ st.2).all (jobRange m e).contains) then stopJob k 2 s
        else zoneSetup k e true (modJob k (fun x => { collectStripe (st.1.filter (fun y => decide (y < first)), []) x with
          vstep := .readBack }) s)
    | 3 => zoneSetup k e false (enter .firstPass s)
    | 4 => unlessBad (enter .firstPass (modJob k (fun x => { x with
        found := []
        closed := [] }) s))
    | 5 => orderRdecode k j (enter .firstPass s)
    | 6 => enter .rebuild (modJob k (fun x =>
        (j.need.filterMap (stripeOf (jobPlan s k e))).foldl (fun x st => collectStripe st x) x) s)
    | 7 =>
      let full : Bool := match j.stripe with
        | none => false
        | some st => decide (st.dataSlots.length ≤ st.taken.length)
      if !(jobRange m e).contains j.sp || (jobPage s k e j.bp).isNone || full then stopJob k 2 s
      else modJob k (fun x => vendorQueue [] (queueSector j.sp (tget 0 s.staging ((jobPage s k e j.bp).getD 0)) x))
        (enter .writing s)
    | _ => enter .firstPass s

/-- RETRY_DECODE has its turn: in the first pass of READ_TRACK, on a needed sector whose samples are still held (R134, step 2). -/
def rdecodeDue (m : Mc) (j : Job) : Bool :=
  decide (j.mode = .vendor 0) && decide (j.vstep = .firstPass) && m.sbuf.any (fun b => decide (b.use = .heldOnly) && j.need.contains b.slot)

/-- A pass of a vendor read is over: every slot that it needed has come by, and every decode has reported; the first
pass of READ_TRACK has its RETRY_DECODE too (R134). -/
def passOver (m : Mc) (j : Job) : Bool :=
  (j.need.filter (fun x => decide (j.mode = .vendor 0 ∨ j.sp ≤ x))).all (fun x => j.found.contains x || j.closed.contains x) &&
  m.decoding.isEmpty && !rdecodeDue m j && (match m.sbuf with
    | none => true
    | some b => decide (b.use = .heldOnly))

/-- A JUMP inside READ_TRACK, at the end of a pass that leaves slots needed (R134): step 3, a re-read pass under the
next knob set of the ladder, or step 4 with the last revolution of the budget or when the ladder list has ended, under
the zone's values. -/
def ladderNext (k : Fin 4) (s : State) : State :=
  match (mcOf s k).job with
  | none => s
  | some j =>
    if j.need.isEmpty || decide (j.vbudget = 0) || decide (j.vstep = .rebuild) || !passOver (mcOf s k) j then s
    else
      let s := modJob k (fun x => { x with
        vbudget := x.vbudget - 1
        found := []
        closed := [] }) s
      match j.vsets with
      | n :: r =>
        if j.vbudget = 1 then rebuildStep k j s
        else putKnobs k n (modJob k (fun x => { x with
          vstep := .reread
          vsets := r }) s)
      | [] => rebuildStep k j s
where
  /-- Step 4: every Stripe with a needed slot is collected, under the zone's values. -/
  rebuildStep (k : Fin 4) (j : Job) (s : State) : State :=
    putKnobs k 1 (modJob k (fun x => { (j.need.filterMap (stripeOf (jobPlan s k j.entry))).foldl (fun x st => collectStripe st x) x with
      vstep := .rebuild }) s)

/-- A CALL inside READ_TRACK (R134, step 2): RETRY_DECODE of a failed sector whose samples are still held. -/
def ladderRdecode (k : Fin 4) (s : State) : State :=
  match (mcOf s k).job with
  | some j => if rdecodeDue (mcOf s k) j then orderRdecode k j s else s
  | none => s

/-- The read-back of CLOSE_STRIPE is over: fill and parity are queued, or the slot that could not be read back stays needed and
nothing is written (R56, R125, R509). -/
def closeReadBack (k : Fin 4) (c : Collection) (s : State) : State :=
  match (mcOf s k).job with
  | none => s
  | some j =>
    let s := modJob k (fun x => { x with collect := x.collect.erase c }) s
    match c.dataSlots.find? (fun x => c.erased.contains x) with
    | some x => modJob k (fun y => { y with
        vstep := .writing
        vstatus := 0x32
        need := x :: y.need.filter (· ≠ x) }) s
    | none => match stripeToClose s k j.entry with
      | none => s
      | some st => modJob k (vendorQueue (closeSectors s k j.entry st)) s

/-- The waits of a vendor write routine, as the head moves (R111, R125): HIF_IDLE and LEAD_POINT before the assist
edge, SLOT_START before the write gate, and the read-back of CLOSE_STRIPE. -/
def vendorWait (k : Fin 4) (i : MsqIn) (s : State) : State :=
  let s := headMoves k false i s
  match (mcOf s k).job with
  | none => s
  | some j =>
    let m := mcOf s k
    match j.vstep, j.writeQ.head? with
    | .lead, some q =>
      if hifIdle m && leadNext s m j.entry q.slot i then
        agateRise k (jobHead m j.entry) (leadBit s m j.entry q.slot) (modJob k (fun x => { x with
          vstep := .rise
          agate := true }) s)
      else s
    | .rise, some q =>
      if slotStartNext m j.entry q.slot i then
        let n := nextBeat m i.wedge i.beat
        wgateRise k q.slot (leadTime s m (trackBit m n.1 n.2 0) i) j (modJob k (fun x => { x with
          vstep := .writing
          wgate := true }) s)
      else s
    | .writing, some _ => if j.writing.isNone then modJob k (fun x => { x with vstep := .lead }) s else s
    | .readBack, _ => match j.collect.head? with
      | none => s
      | some c => if c.dataSlots.all (fun x => c.good.contains x || c.erased.contains x) then closeReadBack k c s else s
    | _, _ => s

/-- Whether a vendor write has ended: nothing queued, nothing being written, nothing being read back. -/
def writeOver (j : Job) : Bool := j.writeQ.isEmpty && j.writing.isNone && decide (j.vstep ≠ .readBack)

/-- RETURN from a vendor subroutine, once its effect is whole (R125): the popped address. -/
def vendorReturn (k : Fin 4) (n : Nat) (s : State) : State :=
  match (mcOf s k).job with
  | none => s
  | some j =>
    let ended : Bool := match n with
      | 4 => passOver (mcOf s k) j
      | 5 => j.pendingDec.isEmpty
      | 6 => j.collect.isEmpty
      | 7 => writeOver j
      | _ => true
    if !ended then s
    else match j.stack with
      | [] => stopJob k 4 s
      | r :: rest => modJob k (fun x => { x with
        stack := rest
        pc := r % 2 ^ 14
        mode := .words }) s

/-- HALT of a vendor job entry, once its effect is whole, with the STATUS of R509; FINISH halts with STATUS as it stands. -/
def vendorHalt (k : Fin 4) (n : Nat) (s : State) : State :=
  match (mcOf s k).job with
  | none => s
  | some j =>
    if n = 0 then
      let spent := decide (j.vbudget = 0) && passOver (mcOf s k) j && j.collect.isEmpty
      let rebuilt := decide (j.vstep = .rebuild) && j.collect.isEmpty
      if j.need.isEmpty || spent || rebuilt then
        endJob k 0 0 0 (modJob k (fun x => { x with status := readStatus j }) (postUnrecovered k j.need s))
      else s
    else if n = 8 then haltJob k s
    else if writeOver j then endJob k 0 0 0 (modJob k (fun x => { x with status := j.vstatus }) s)
    else s

/-- A word of a sequencing mode is executed: the word at the job's address if it is of that mode, the parity stop where the
word fails parity, the vendor routine where the address lies in published vendor code. -/
def stepWord (k : Fin 4) (seq : Nat) (i : MsqIn) (s : State) : State :=
  match (mcOf s k).job with
  | none => s
  | some j =>
    match j.mode with
    | .words =>
      let s := modJob k (fun x => { x with lastPc := j.pc }) s
      match fetchWord (mcOf s k) j.pc with
      | some w =>
        if !parityOk w then parityStop k j i.imgBad s
        else if mwSeq w = seq then runWord k w i s else s
      | none =>
        if j.pc ≤ 8 then (if seq = 0 then vendorEnter k j.pc (headMoves k false i s) else s)
        else if j.pc ≤ 0xFE then stopJob k 6 s
        else if j.pc = 0xFF then (if seq = 7 then haltJob k (headMoves k false i s) else s)
        else s
    | .vendor n =>
      let s := headMoves k false i s
      if seq = 0 ∧ n = 0 then ladderNext k s
      else if seq = 3 ∧ n = 0 then ladderRdecode k s
      else if seq = 4 ∧ 3 ≤ n ∧ n ≤ 7 then vendorReturn k n s
      else if seq = 7 ∧ (n ≤ 2 ∨ n = 8) then vendorHalt k n s
      else s
    | _ => s

/-- WAIT_PASS (R119): the waiting word's condition is true, and control passes to NEXT. In a vendor write routine it is the
passing of slots. -/
def waitPass (k : Fin 4) (i : MsqIn) (s : State) : State :=
  match (mcOf s k).job with
  | none => s
  | some j =>
    match j.mode with
    | .waiting =>
      let w := (fetchWord (mcOf s k) j.pc).getD 0
      let s := headMoves k false i s
      if running s k ∧ condVal s k j i (mwCond w) then goTo k j.pc (mwNext w) s else s
    | .vendor _ => vendorWait k i s
    | _ => s

/-- MSQ_TIMER_EXPIRY (R119): TIMER_EXP; a bounded WAIT passes to a + 1, or to NEXT where its condition wins the race. -/
def timerExpiry (k : Fin 4) (race : Option Bool) (s : State) : State :=
  match (mcOf s k).job with
  | none => s
  | some j =>
    if j.timer = .running then
      let s := modJob k (fun x => { x with
        timer := .expired
        expired := true }) s
      if j.mode = .waiting then
        let w := (fetchWord (mcOf s k) j.pc).getD 0
        match race with
        | some true => goTo k j.pc (mwNext w) s
        | some false =>
          let s := mcCount k MSQ_WAIT_LATE 1 s
          if j.pc = 0x3FFF then stopJob k 2 s else goTo k j.pc (j.pc + 1) s
        | none => if j.pc = 0x3FFF then stopJob k 2 s else goTo k j.pc (j.pc + 1) s
      else s
    else s

/-- WAIT_WATCHDOG (R119): an unbounded WAIT has lasted MSQ_CTL.WDOG wedge marks. -/
def waitWatchdog (k : Fin 4) (s : State) : State :=
  match (mcOf s k).job with
  | none => s
  | some j => if j.mode = .waiting ∧ j.timer = .off then stopJob k 5 s else s

/-- HALT_PAD_END (R109): the pad of the sector being written has ended, and the halt takes effect. -/
def haltPadEnd (k : Fin 4) (s : State) : State :=
  match (mcOf s k).job with
  | none => s
  | some j => if j.mode = .haltPad then endJob k 0 0 0 (slotEnd k false s) else s

end Sys2Proof.Machine
end

