-- ==== Sys2Proof/Machine/Psa.lean ====
section
/-! DEFINITION. The Persistence Array controller (R333 to R359): the descriptor ring, pulses, the erased state, interruption,
suspends, die faults and wear. -/

namespace Sys2Proof.Machine

/-- Update the PCT and its registers. -/
def modPct (f : Pct → Pct) (s : State) : State := { s with pct := f s.pct }
def pctReg (f : List (Nat × Word) → List (Nat × Word)) (s : State) : State := modPct (fun p => { p with csr := f p.csr }) s

/-! ### Addresses and blocks (R333, R337, R341, R352) -/

def psaDie (a : Nat) : Nat := (a / 2 ^ 20) % 2
def psaBlock (a : Nat) : Nat := (a / 256) % 4096
def psaPlane (a : Nat) : Nat := psaBlock a % 4
def psaPageIx (a : Nat) : Nat := a % 256

/-- A block of the whole array: die × 4,096 + block. -/
def psaBlk (a : Nat) : Nat := psaDie a * 4096 + psaBlock a

/-- Whether a block of a die is of the bulk class. -/
def isBulk (s : State) (block : Nat) : Bool := decide (max 0xC0 (rdF s.pct.csr PCT_CLASS.BULK_FIRST) ≤ block)

/-- U of a block, and its frontier F. A block with no entry is unknown with F = 0. -/
def blkKnown (s : State) (blk : Nat) : Bool := decide (tget 0 s.pct.blocks blk % 2 = 1)
def blkF (s : State) (blk : Nat) : Nat := tget 0 s.pct.blocks blk / 2

/-- Set U and F of a block. -/
def setBlk (blk : Nat) (known : Bool) (f : Nat) (s : State) : State :=
  modPct (fun p => { p with blocks := tput 0 p.blocks blk (2 * f + b2n known) }) s

/-- The address of a block's wear entry. -/
def wearAddr (s : State) (blk : Nat) : Nat := (rd s.pct.csr PCT_WEAR_BASE).toNat * 4096 + 32 * blk

/-- A wear entry as a number, and its fields by their bytes. -/
def wearField (s : State) (blk byte n : Nat) : Nat :=
  (List.range n).foldl (fun x i => x + memByte s.mem (wearAddr s blk + byte + i) * 2 ^ (8 * i)) 0

/-- Replace bytes of a wear entry. -/
def putWear (blk byte n v : Nat) (s : State) : State :=
  dramPut ((List.range n).map (fun i => (wearAddr s blk + byte + i, BitVec.ofNat 8 (v / 2 ^ (8 * i))))) s

/-- Whether a block is marked retired. -/
def blkRetired (s : State) (blk : Nat) : Bool := decide (wearField s blk 28 1 % 2 = 1)

/-- Whether a die has failed. -/
def dieFailed (s : State) (d : Nat) : Bool := (rdF s.pct.csr PCT_STAT.DIEFAIL).testBit d

/-- PCT_ERASED: known-erased pages of the bulk region, on dies that have not failed (R342); retired blocks are outside it. -/
def pctErased (s : State) : Nat :=
  s.pct.blocks.foldl (fun n e => if isBulk s (e.1 % 4096) && !dieFailed s (e.1 / 4096) && decide (e.2 % 2 = 1) &&
    !blkRetired s e.1 then n + (256 - e.2 / 2) else n) 0

/-! ### The ring (R356, R357) -/

/-- A descriptor's dword. -/
def ringAddr (s : State) (i dw : Nat) : Nat := (rd s.pct.csr PCT_RING_BASE).toNat * 4096 + 64 * (i % 256) + 4 * dw
def ringDw (s : State) (i dw : Nat) : Word := memWord s (ringAddr s i dw)

/-- Write a dword of memory. -/
def memPutWord (a : Nat) (w : Word) (s : State) : State :=
  dramPut ((List.range 4).map (fun i => (a + i, BitVec.ofNat 8 (w.toNat / 2 ^ (8 * i))))) s

def ringDone (s : State) (i : Nat) : Bool := wordBit (ringDw s i 0) 31
def ringOp (s : State) (i : Nat) : Nat := wordField (ringDw s i 0) 27 24
def ringMp (s : State) (i : Nat) : Bool := wordBit (ringDw s i 0) 23
def ringAddrOf (s : State) (i : Nat) : Nat := wordField (ringDw s i 0) 20 0

def ringHead (s : State) : Nat := rdF s.pct.csr PCT_RING_HEAD.IDX
def ringTail (s : State) : Nat := rdF s.pct.csr PCT_RING_TAIL.IDX

/-- The entries between HEAD and TAIL, in ring order. -/
def ringEntries (s : State) : List Nat :=
  (List.range ((ringTail s + 256 - ringHead s) % 256)).map (fun n => (ringHead s + n) % 256)

/-- Move HEAD past completed entries. -/
def advanceHead : Nat → State → State
  | 0, s => s
  | n + 1, s =>
    if ringHead s ≠ ringTail s ∧ ringDone s (ringHead s) then
      advanceHead n (pctReg (fun c => wrF c PCT_RING_HEAD.IDX (ringHead s + 1)) s)
    else s

/-- Complete a descriptor: dword 9 with its STATUS, then DONE. -/
def ringEnd (i status pulses susps bits : Nat) (s : State) : State :=
  let w := BitVec.ofNat 32 (2 ^ 31 + status % 128 * 2 ^ 24 + min 255 pulses * 2 ^ 16 + min 255 susps * 2 ^ 8 + min 255 bits)
  let s := memPutWord (ringAddr s i 9) w s
  let s := memPutWord (ringAddr s i 0) (wordSetField (ringDw s i 0) 31 31 1) s
  advanceHead 256 s

/-- The group that begins at an entry: the entries with MP set, and the one that ends it. -/
def ringGroup (s : State) : Nat → Nat → List Nat
  | 0, _ => []
  | n + 1, i => if ringMp s i then i :: ringGroup s n ((i + 1) % 256) else [i]

/-- Whether an entry is running. -/
def isRunning (s : State) (i : Nat) : Bool := s.pct.runs.any (fun r => decide (r.idx = i))

/-- The entries ahead of one in ring order. -/
def aheadOf (s : State) (i : Nat) : List Nat := (ringEntries s).takeWhile (fun j => decide (j ≠ i))

/-- Whether a die is suspended. -/
def dieSusp (s : State) (d : Nat) : Bool := if d = 0 then s.pct.susp.1 else s.pct.susp.2
def setSusp (d : Nat) (b : Bool) (s : State) : State :=
  modPct (fun p => { p with susp := if d = 0 then (b, p.susp.2) else (p.susp.1, b) }) s
def waitsSusp (s : State) (d : Nat) : Bool := if d = 0 then s.pct.waitSusp.1 else s.pct.waitSusp.2
def setWaitSusp (d : Nat) (b : Bool) (s : State) : State :=
  modPct (fun p => { p with waitSusp := if d = 0 then (b, p.waitSusp.2) else (p.waitSusp.1, b) }) s

/-- Whether an entry's turn has come: its planes are free and nothing of the same planes is ahead of it. On a suspended die a
READ, MARGIN_READ or BLANK of another block overtakes (R347). -/
def ringTurn (s : State) (g : List Nat) : Bool :=
  let i := g.headD 0
  let one := fun (j : Nat) =>
    let a := ringAddrOf s j
    let same := fun (b : Nat) => decide (psaDie b = psaDie a ∧ psaPlane b = psaPlane a)
    let ahead := (aheadOf s i).any (fun x => !ringDone s x && !isRunning s x && same (ringAddrOf s x))
    let read := fun (op : Nat) => decide (op = 1 ∨ op = 4 ∨ op = 5)
    if dieSusp s (psaDie a) then
      read (ringOp s j) && !(s.pct.runs.any (fun r => decide (psaBlk r.addr = psaBlk a) || (read r.op && same r.addr))) &&
        !((aheadOf s i).any (fun x => !ringDone s x && !isRunning s x && read (ringOp s x) && same (ringAddrOf s x)))
    else !ahead && !(s.pct.runs.any (fun r => same r.addr))
  g.all one

/-- Whether an entry begins a group, or stands alone: the entry before it does not lead into it. -/
def startsGroup (s : State) (i : Nat) : Bool := decide (i = ringHead s) || !ringMp s ((i + 255) % 256)

/-- The entry may start: the ring runs, the entry is queued and neither done nor running. -/
def ringReady (s : State) (i : Nat) : Bool :=
  rdB s.pct.csr PCT_CTL.EN && rdB s.pct.csr PCT_CTL.RING_EN && (ringEntries s).contains i && startsGroup s i &&
  (ringGroup s 4 i).all (fun j => !ringDone s j && !isRunning s j && (ringEntries s).contains j) && ringTurn s (ringGroup s 4 i)

/-- An MP group that spans dies or repeats a plane (R357). -/
def groupIllegal (s : State) (g : List Nat) : Bool :=
  let a := g.map (ringAddrOf s)
  !(a.all (fun x => decide (psaDie x = psaDie (a.headD 0)))) || decide ((a.map psaPlane).dedup.length ≠ a.length) ||
  (decide (g.length = 4) && ringMp s (g.getD 3 0))

/-- What ends a descriptor before it starts, by R337, R344, R350 and R357. -/
def refuses (s : State) (op a : Nat) : Option Nat :=
  if dieFailed s (psaDie a) then some 9
  else if blkRetired s (psaBlk a) ∨ ((op = 2 ∨ op = 3) ∧ psaBlock a < 4 ∧ ¬ rdB s.pct.csr PCT_CTL.OPTWE) then some 10
  else if rdB s.pct.csr PCT_STAT.BOD ∧ ¬ isBulk s (psaBlock a) then some 4
  else none

/-! ### Pages -/

/-- The bytes of 16 KiB of buffer memory that are not zero, by offset. -/
def bufBody (s : State) (a : Nat) : List (Nat × Byte) :=
  (s.mem.filter (fun e => decide (a ≤ e.1 ∧ e.1 < a + 16384))).map (fun e => (e.1 - a, e.2))

/-- Put a page's main area into buffer memory: a write of all its bytes. -/
def bodyToBuf (a : Nat) (b : List (Nat × Byte)) (s : State) : State :=
  dramPut ((List.range 16384).map (fun i => (a + i, tget 0 b i))) s

/-- The bytes of a page's main area, from its bytes that are not zero. -/
def bodyBytes (b : List (Nat × Byte)) : List Nat := (List.range 16384).map (fun i => (tget 0 b i).toNat)

/-- The codes that the PCT generates (R334): the CRC-32C over the main area and header bytes 0 to 27, entered as bytes
28 to 31, and the 16 BCH codewords, the first of which covers the header too. -/
def sealPage (body : List (Nat × Byte)) (hdr : List Word) : PsaPage :=
  let main := bodyBytes body
  let words := fun (h : List Word) => h.flatMap (fun w => (List.range 4).map (byteOf w.toNat))
  let full := hdr ++ [BitVec.ofNat 32 (crc32c (main ++ words hdr))]
  let number := fun (l : List Nat) => l.foldr (fun b n => b + 256 * n) 0
  ⟨body, full, (List.range 16).map (fun k =>
    Config.bchCheck (number ((main.drop (1024 * k)).take 1024 ++ (if k = 0 then words full else []))))⟩

/-- The page that a PROGRAM carries: dwords 2 to 8 as its header, with the class of its block (R335, R356), under its codes. -/
def pageToProgram (s : State) (i : Nat) : PsaPage :=
  let hdr := (List.range 7).map (fun n => ringDw s i (2 + n))
  let cls := if isBulk s (psaBlock (ringAddrOf s i)) then 0 else 1
  sealPage (bufBody s ((ringDw s i 1).toNat * 4096)) (hdr.set 2 (wordSetField (hdr.getD 2 0) 7 0 cls))

/-- A page's content; one that is erased or was cut mid-program reads as values that the spec does not give (R346). -/
def psaContent (a : Nat) (s : State) : PsaPage × State :=
  match tget none s.pct.pages a with
  | some p => (p, s)
  | none =>
    let f := takeFree s
    (⟨(List.range 16384).filterMap (fun i => let b := BitVec.ofNat 8 (byteOf f.1 i)
        if b = 0 then none else some (i, b)),
      (List.range 8).map (fun n => Config.freeWord (f.1 + n)), (List.range 16).map (fun n => Config.freeNat (f.1 + n))⟩, f.2)

/-- Set or empty a page. -/
def putPage (a : Nat) (p : Option PsaPage) (s : State) : State := modPct (fun x => { x with pages := tput none x.pages a p }) s

/-- Empty every page of a block. -/
def dropPages (blk : Nat) (s : State) : State :=
  modPct (fun x => { x with pages := x.pages.filter (fun e => decide (psaBlk e.1 ≠ blk)) }) s

/-! ### Starting a descriptor -/

/-- The register that counts a die's suspends of its current operation. -/
def suspCount (s : State) (d : Nat) : Nat := if d = 0 then rdF s.pct.csr PCT_SUSP_STAT.CNT0 else rdF s.pct.csr PCT_SUSP_STAT.CNT1
def setSuspCount (d n : Nat) (s : State) : State :=
  pctReg (fun c => wrF c (if d = 0 then PCT_SUSP_STAT.CNT0 else PCT_SUSP_STAT.CNT1) n) s

/-- Enter a run. -/
def addRun (r : PsaRun) (s : State) : State :=
  let s := modPct (fun p => { p with runs := p.runs ++ [r], touched := p.touched || decide (r.op = 2 ∨ r.op = 3) })  s
  if r.op = 2 ∨ r.op = 3 then setSuspCount (psaDie r.addr) 0 s else s

/-- A program's start (R341, R342): a page that is not erased is refused, an unknown page is blank-checked first, and F moves
past the page at the first pulse. -/
def startProgram (i grp : Nat) (found : PsaIn) (s : State) : State :=
  let a := ringAddrOf s i
  let blk := psaBlk a
  let p := psaPageIx a
  let notErased := fun (s : State) => ringEnd i 1 0 0 0 (pctReg (fun c => incR c PCT_NOTERASED 1) s)
  if p < blkF s blk then notErased s
  else
    let known := blkKnown s blk
    let s := if known then s else pctReg (fun c => incR c PCT_BLANK 1) s
    if !known && !found.blank then notErased (setBlk blk false (p + 1) s)
    else
      let page := pageToProgram s i
      addRun ⟨i, grp, 2, a, 0, false, 0, found, some page⟩ (putPage a none (setBlk blk known (p + 1) s))

/-- Start one member of a group. -/
def startOne (op i grp : Nat) (found : PsaIn) (s : State) : State :=
  let a := ringAddrOf s i
  match refuses s op a with
  | some st => ringEnd i st 0 0 0 s
  | none =>
    if op = 2 then startProgram i grp found s
    else
      let s := if op = 4 then pctReg (fun c => incR c PCT_BLANK 1) s else s
      addRun ⟨i, grp, op, a, 0, decide (op ≠ 3), 0, found, none⟩ s

/-- Start the descriptor at a ring index, with its group. A reserved OP, and a group that R357 forbids, end with ILLEGAL. -/
def psaStart (op i : Nat) (found : List PsaIn) (s : State) : State :=
  if !ringReady s i then s
  else
    let g := ringGroup s 4 i
    let reserved := decide (ringOp s i = 0 ∨ 7 ≤ ringOp s i)
    if reserved || (decide (ringOp s i = op) && decide (1 < g.length) && groupIllegal s g) then
      g.foldl (fun s j => ringEnd j 12 0 0 0 s) s
    else if ringOp s i ≠ op then s
    else ((List.range g.length).zip g).foldl (fun s e =>
      startOne op e.2 i (found.getD e.1 ⟨0, true, true, true, true⟩) s) s

/-- PSA_READ, PSA_PROGRAM, PSA_ERASE, PSA_BLANK and PSA_MARGIN_READ. -/
def psaRead (i : Nat) (found : List PsaIn) (s : State) : State := psaStart 1 i found s
def psaProgram (i : Nat) (found : List PsaIn) (s : State) : State := psaStart 2 i found s
def psaErase (i : Nat) (s : State) : State := psaStart 3 i [] s
def psaBlank (i : Nat) (found : List PsaIn) (s : State) : State := psaStart 4 i found s
def psaMarginRead (i : Nat) (found : List PsaIn) (s : State) : State := psaStart 5 i found s

/-- PSA_FRONTIER_LOAD (R343): every block's U and F from the table, only before anything was programmed, erased or loaded. -/
def psaFrontierLoad (i : Nat) (s : State) : State :=
  if !ringReady s i || decide (ringOp s i ≠ 6) then s
  else if s.pct.touched then ringEnd i 12 0 0 0 s
  else
    let base := (ringDw s i 1).toNat * 4096
    let ent := fun (s : State) (a : Nat) => memByte s.mem a + 256 * memByte s.mem (a + 1)
    let all := (List.range 8192).filterMap (fun blk =>
      let w := ent s (base + blk % 4096 * 2 + blk / 4096 * 8192)
      let v := 2 * (w % 512) + (if w / 32768 % 2 = 1 then 0 else 1)
      if v = 0 then none else some (blk, v))
    ringEnd i 0 0 0 0 (modPct (fun p => { p with blocks := all, touched := true }) s)

/-! ### Wear (R352) -/

/-- The histogram field that a pulse count falls in, by the upper bounds of its bins; fails fall in the last. -/
def wearBin (bounds : List Nat) (pulses : Nat) (fails : Bool) : Nat :=
  if fails then 4 else (bounds.findIdx? (fun b => decide (pulses ≤ b))).getD 3

/-- The running mean in 8.8 fixed point; R352 states no rounding of the quotient. -/
def wearMean (mean pulses div : Nat) : Nat := ((mean : Int) + roundDiv ((256 * pulses : Int) - mean) div).toNat

/-- Count a program. -/
def wearProgram (blk pulses : Nat) (fails : Bool) (s : State) : State :=
  let b := 8 + 2 * wearBin [3, 5, 8] pulses fails
  let s := putWear blk b 2 (satAdd 65535 (wearField s blk b 2) 1) s
  let s := putWear blk 4 2 (wearMean (wearField s blk 4 2) pulses 64) s
  let fl := wearField s blk 28 1
  putWear blk 28 1 ((fl &&& 13) ||| (if isBulk s (blk % 4096) then 0 else 2) ||| (if fails then 8 else 0)) s

/-- Count an erase: passed, failed, or cut. -/
def wearErase (blk pulses : Nat) (fails cut : Bool) (s : State) : State :=
  let b := 18 + 2 * wearBin [4, 8, 16] pulses fails
  let s := if cut then s else putWear blk b 2 (satAdd 65535 (wearField s blk b 2) 1) s
  let s := if fails || cut then s else putWear blk 0 4 (wearField s blk 0 4 + 1) s
  let s := if cut then s else putWear blk 6 2 (wearMean (wearField s blk 6 2) pulses 8) s
  let s := putWear blk 29 1 pulses s
  let fl := wearField s blk 28 1
  putWear blk 28 1 ((fl &&& 9) ||| (if isBulk s (blk % 4096) then 0 else 2) ||| (if cut then 4 else 0) |||
    (if fails then 8 else 0)) s

/-! ### Die faults (R350), and the Dump Cost that follows one (R367, R368) -/

/-- Update the Ledger and its registers. -/
def modElg (f : Elg → Elg) (s : State) : State := { s with elg := f s.elg }
def elgReg (f : List (Nat × Word) → List (Nat × Word)) (s : State) : State := modElg (fun e => { e with csr := f e.csr }) s

/-- DCOST_MEASURE: a higher measurement replaces the Dump Cost at once; a lower one lowers it by at most one eighth of the
difference, which R367 does not fix further. -/
def dcostMeasure (v : Nat) (s : State) : State :=
  let old := (rd s.elg.csr ELG_DCOST).toNat
  if v = 0 then s
  else if old < v then elgReg (fun c => wr c ELG_DCOST (BitVec.ofNat 32 v)) s
  else
    let f := takeFree s
    elgReg (fun c => wr c ELG_DCOST (BitVec.ofNat 32 (old - f.1 % ((old - v) / 8 + 1)))) f.2

/-- A die is marked failed, with a machine check, and firmware reports twice the Dump Cost in force (R368). The spec
does not code the cause. -/
def failDie (d : Nat) (s : State) : State :=
  if dieFailed s d then s
  else
    let s := pctReg (fun c => wrF c PCT_STAT.DIEFAIL (rdF c PCT_STAT.DIEFAIL ||| 2 ^ d)) s
    let s := dcostMeasure (2 * (rd s.elg.csr ELG_DCOST).toNat) s
    let f := takeFree s
    machineCheck 13 0x01 2 (BitVec.ofNat 32 d) (Config.freeWord f.1) f.2

/-- An erase fail counts towards the die's failure: 8 blocks within one hour. -/
def noteEraseFail (blk : Nat) (s : State) : State :=
  let kept := s.pct.efails.filter (fun e => decide (nowSec s < e.2 + 3600))
  let s := modPct (fun p => { p with efails := (blk, nowSec s) :: kept }) s
  let mine := (((blk, nowSec s) :: kept).map Prod.fst).filter (fun b => decide (b / 4096 = blk / 4096))
  if 8 ≤ mine.dedup.length then failDie (blk / 4096) s else s

/-! ### Retiring a block (R353) -/

/-- Firmware's marks of wear, beyond which a block is retired: PMEAN of 6.00, EMEAN of 12.00, or a fail flag seen. -/
def blkWorn (s : State) (blk : Nat) : Bool :=
  decide (0x600 ≤ wearField s blk 4 2) || decide (0xC00 ≤ wearField s blk 6 2) || decide (wearField s blk 28 1 / 8 % 2 = 1)

/-- The pages of a block that have been programmed. -/
def blkPages (s : State) (blk : Nat) : List (Nat × Option PsaPage) := s.pct.pages.filter (fun e => decide (psaBlk e.1 = blk))

/-- The first block of each region of R336 within a die; the bulk region begins at BULK_FIRST. -/
def psaRegion (s : State) (block : Nat) : Nat :=
  if isBulk s block then 5
  else ([4, 64, 128, 192].filter (fun n => decide (n ≤ block))).length

/-- The block that takes a retired block's content: the lowest of its die and region that is known erased as a whole
and not worn. -/
def spareBlock (s : State) (blk : Nat) : Option Nat :=
  (s.pct.blocks.find? (fun e => decide (e.1 / 4096 = blk / 4096 ∧ e.1 ≠ blk ∧ e.2 = 1 ∧
    psaRegion s (e.1 % 4096) = psaRegion s (blk % 4096)) && !blkRetired s e.1 && !blkWorn s e.1)).map Prod.fst

/-- The pages of a dump at its largest in this configuration: the protected region of the buffer and the fixed dump of R338. -/
def largestDump (s : State) : Nat :=
  (rd s.bmc.csr BMC_PROT_SIZE).toNat / 4 + (if rdB s.tdl.csr TDL_CTL.PAIR then 1088 else 544)

/-- Unretired blocks of the bulk region, against twice the largest dump. -/
def bulkShort (s : State) : Bool :=
  let first := max 0xC0 (rdF s.pct.csr PCT_CLASS.BULK_FIRST)
  let gone := (s.nv.retired.filter (fun b => decide (first ≤ b % 4096))).length
  decide (256 * (2 * (4096 - first) - gone) < 2 * largestDump s)

/-- Firmware retires a block (R353): its content moves to a spare block at the same page indices, FLAGS bit 0 and the
retired-block list are written, and the Event Recorder records it. Content with no spare block to go to keeps the
block waiting. -/
def retireBlock (blk : Nat) (s : State) : State :=
  let old := blkPages s blk
  let moved := match old, spareBlock s blk with
    | [], _ => some s
    | _, none => none
    | _, some b => some (modPct (fun p => { p with
        pages := old.foldl (fun t e => tput none t (b * 256 + psaPageIx e.1) e.2) p.pages
        blocks := tput 0 p.blocks b (2 * blkF s blk + 1) }) s)
  match moved with
  | none => s
  | some s =>
    let s := modPct (fun p => { p with worn := p.worn.erase blk }) (dropPages blk s)
    let s := putWear blk 28 1 (wearField s blk 28 1 ||| 1) s
    let s := firmwareEvent { s with nv := { s.nv with retired := s.nv.retired ++ [blk] } }
    if bulkShort s then setReliability s else s

/-- After a program or an erase, the worn blocks that nothing runs on are retired. -/
def retireWorn (blk : Nat) (s : State) : State :=
  let s := if blkWorn s blk && !s.nv.retired.contains blk && !s.pct.worn.contains blk then
      modPct (fun p => { p with worn := p.worn ++ [blk] }) s
    else s
  s.pct.worn.foldl (fun s b => if s.pct.runs.any (fun r => decide (psaBlk r.addr = b)) then s else retireBlock b s) s

/-! ### Brown-out items in two copies (R336, R345, R350) -/

/-- The brown-out items by identifier, with the content that firmware holds for each. The identifiers are the model's
(DESIGN CHOICE, log 236). -/
def recordVals (v : Nv) : List (Nat × RecordVal) :=
  [(0, .keys v.keys), (1, .sanitize v.san), (2, .logC1 v.logC1), (3, .features v.feats), (4, .slots v.fwActive v.fwNext),
   (5, .retired v.retired), (6, .replay v.clpTable), (7, .image v.fwSlots.1), (8, .image v.fwSlots.2)] ++
  (List.range 4).map (fun k => (9 + k, .custom (tget none v.custImg k)))

/-- Put an item's content into what firmware holds. -/
def setRecord (id : Nat) (r : RecordVal) (v : Nv) : Nv := match r with
  | .keys l => { v with keys := l }
  | .sanitize z => { v with san := z }
  | .logC1 l => { v with logC1 := l }
  | .features l => { v with feats := l }
  | .slots a n => { v with fwActive := a, fwNext := n }
  | .retired l => { v with retired := l }
  | .replay t => { v with clpTable := t }
  | .image n => { v with fwSlots := if id = 7 then (n, v.fwSlots.2) else (v.fwSlots.1, n) }
  | .custom g => { v with custImg := tput none v.custImg (id - 9) g }

/-- The copies on a die, and the item that is current: the copy with the highest SEQ. -/
def recordsOn (v : Nv) (d : Nat) : List (Nat × Option RecordCopy) := if d = 0 then v.rec0 else v.rec1
def recordSeq (v : Nv) (d id : Nat) : Nat := ((tget none (recordsOn v d) id).map RecordCopy.seq).getD 0
def recordCurrent (v : Nv) (id : Nat) : Option RecordCopy :=
  tget none (recordsOn v (if recordSeq v 0 id < recordSeq v 1 id then 1 else 0)) id

/-- Write a copy on a die. -/
def putRecord (d id : Nat) (c : RecordCopy) (s : State) : State :=
  if dieFailed s d then s
  else if d = 0 then { s with nv := { s.nv with rec0 := tput none s.nv.rec0 id (some c) } }
  else { s with nv := { s.nv with rec1 := tput none s.nv.rec1 id (some c) } }

/-- Copy 1 of an item whose copy 0 has ended. -/
def secondCopies (s : State) : State :=
  (s.nv.rec0.filterMap (fun e => e.2.map (fun c => (e.1, c)))).foldl (fun s e =>
    if recordSeq s.nv 1 e.1 < e.2.seq then putRecord 1 e.1 e.2 s else s) s

/-- Write an item under a new SEQ: copy 0 on die 0; copy 1 follows when copy 0 has ended. With die 0 failed, the other
die's copy alone is written (R350). -/
def writeRecord (id : Nat) (r : RecordVal) (s : State) : State :=
  let n := max (recordSeq s.nv 0 id) (recordSeq s.nv 1 id) + 1
  putRecord (b2n (dieFailed s 0)) id ⟨n, r⟩ s

/-! ### The option area's copies (R354, R355, R457) -/

/-- A copy of the option area: true for B, on die 1. -/
def optCopyOf (v : Nv) (b : Bool) : OptCopy := if b then v.optB else v.optA
def optSeq (v : Nv) (b : Bool) : Nat := (((optCopyOf v b).vers.head?).map (fun e => e.2.seq)).getD 0

/-- Write a version to a copy at its next page index. A full copy is erased, and written from the start, only while
the other copy holds the newest valid version; blocks 0 to 3 take both only while PCT_CTL.OPTWE is 1 (R337). -/
def putOption (b : Bool) (x : OptVersion) (s : State) : State :=
  let c := optCopyOf s.nv b
  let put := fun (c : OptCopy) => { s with nv := if b then { s.nv with optB := c } else { s.nv with optA := c } }
  let other := !dieFailed s (b2n !b) && decide ((optCopyOf s.nv !b).vers ≠ [] ∧ optSeq s.nv b ≤ optSeq s.nv !b)
  if dieFailed s (b2n b) || !rdB s.pct.csr PCT_CTL.OPTWE then s
  else if c.top < 256 then put ⟨(c.top, x) :: c.vers, c.top + 1⟩
  else if other then put ⟨[(0, x)], 1⟩
  else s

/-- The second half of an update: the other copy is written, and OPTWE falls again. -/
def optionSecond (s : State) : State := match s.nv.optDue with
  | none => s
  | some b =>
    let s := match (optCopyOf s.nv !b).vers.head? with
      | some x => if optSeq s.nv b < x.2.seq then putOption b x.2 s else s
      | none => s
    pctReg (fun c => wrB c PCT_CTL.OPTWE false) { s with nv := { s.nv with optDue := none } }

/-- Firmware opens blocks 0 to 3 for an update; with the PCT locked it cannot. -/
def openOptions (s : State) : State :=
  if rdB s.pct.csr PCT_CTL.LOCK then s else pctReg (fun c => wrB c PCT_CTL.OPTWE true) s

/-- An update of the option area (R355): the fields as they shall be, under SEQ one above the newest, first to the
copy whose newest valid SEQ is lower, or which has none, and to A where they are equal (R457); the other copy is still
due. -/
def optUpdate (words : List (Nat × Word)) (s : State) : State :=
  let s := openOptions (optionSecond s)
  let first := decide (optSeq s.nv true < optSeq s.nv false)
  let s := putOption first ⟨max (optSeq s.nv false) (optSeq s.nv true) + 1, words⟩ s
  { s with nv := { s.nv with
    opt := words
    optDue := some !first } }

/-- What firmware has saved or changed goes to the Persistence Array: the copies still due, and then the items whose
content has changed. With the brown-out detector tripped nothing is written (R344). -/
def saveRecords (s : State) : State :=
  if rdB s.pct.csr PCT_STAT.BOD then s
  else
    let s := optionSecond (secondCopies s)
    let due := (recordVals s.nv).filter (fun e => match recordCurrent s.nv e.1 with
      | some c => decide (c.val ≠ e.2)
      | none => !(recordVals Nv.blank).contains e)
    due.foldl (fun s e => writeRecord e.1 e.2 s) s

/-! ### The saved frontier table (R343) -/

/-- The records that the region holds now. -/
def recordsNow (s : State) : Records :=
  ⟨((s.nv.logC1.head?.map (fun e => e.num)).getD 0), s.nv.feats, (s.nv.fwActive, s.nv.fwNext), s.nv.retired, s.nv.san⟩

/-- The table is saved once the PCT is idle and no controller reset has still to write its log. -/
def saveFrontier (s : State) : State :=
  let idle := s.pct.runs.isEmpty && (ringEntries s).all (ringDone s)
  let resets := s.hqe.fns.any (fun e => (e.2.map (fun x => x.resetting)).getD false)
  if s.pct.saving && idle && !resets then
    modPct (fun p => { p with saving := false }) { s with nv := { s.nv with frontier := some ⟨s.nv.pwrcyc, s.pct.blocks, recordsNow s⟩ } }
  else s

/-- Firmware saves Carillon's replay table every 60 s and at an orderly shutdown, in a brown-out record (R430). -/
def saveReplayTable (s : State) : State :=
  if rdB s.clp.csr CLP_CTL.EN then
    let a := clpBase s + 0x15000
    { s with nv := { s.nv with clpTable :=
      (s.mem.filter (fun e => decide (a ≤ e.1 ∧ e.1 < a + 262144))).map (fun e => (e.1 - a, e.2)) } }
  else s

/-- An orderly shutdown: CC.SHN, or entry to PS4. Carillon's replay table is saved, and the frontier table once the
PCT is idle. -/
def orderlyShutdown (s : State) : State := saveFrontier (modPct (fun p => { p with saving := true }) (saveReplayTable s))

/-- Whether the saved table's record is the newest one, and its tag the power cycle before this one. -/
def frontierFits (s : State) : Bool := s.nv.frontier.any (fun r =>
  decide (r.tag + 1 = s.nv.pwrcyc ∧ r.records = recordsNow s ∧ s.nv.dump = none))

/-- At boot the table is loaded only if it fits. -/
def bootFrontier (s : State) : State := match s.nv.frontier with
  | some r =>
    if frontierFits s then modPct (fun p => { p with blocks := r.table, touched := true }) s
    else s
  | none => s

/-- The brown-out items as a boot finds them (R345): copies that do not read are none, and of each item the highest
SEQ is current. An item without a copy is as in a device that was never written. -/
def readRecords (bad : List (Nat × Nat)) (s : State) : State :=
  let keep := fun (d : Nat) (l : List (Nat × Option RecordCopy)) => l.filter (fun e => !bad.contains (d, e.1) && !dieFailed s d)
  let had := (s.nv.rec0 ++ s.nv.rec1).map Prod.fst
  let s := { s with nv := { s.nv with
    rec0 := keep 0 s.nv.rec0
    rec1 := keep 1 s.nv.rec1 } }
  had.foldl (fun s id =>
    let v := match recordCurrent s.nv id with
      | some c => some c.val
      | none => ((recordVals Nv.blank).find? (fun e => decide (e.1 = id))).map Prod.snd
    match v with
    | some r => { s with nv := setRecord id r s.nv }
    | none => s) s

/-- After an unclean power-down every current item has been read again with MARGIN_READ; one of which a copy has
failed, or is older, is written again, both copies, under a new SEQ (R345). -/
def rewriteRecords (s : State) : State :=
  ((s.nv.rec0 ++ s.nv.rec1).map Prod.fst).foldl (fun s id => match recordCurrent s.nv id with
    | some c =>
      if recordSeq s.nv 0 id = recordSeq s.nv 1 id then s
      else putRecord 1 id ⟨c.seq + 1, c.val⟩ (putRecord 0 id ⟨c.seq + 1, c.val⟩ s)
    | none => s) s

/-! ### Ending (R339, R349) -/

/-- Complete one run: what it read goes to the buffer, what it changed is entered, and the descriptor is written. -/
def endRun (r : PsaRun) (s : State) : State :=
  let s := modPct (fun p => { p with runs := p.runs.filter (fun x => decide (x.idx ≠ r.idx)) }) s
  let blk := psaBlk r.addr
  let susps := suspCount s (psaDie r.addr)
  match r.op with
  | 2 =>
    let s := if r.status = 0 then putPage r.addr r.page s else s
    let s := if r.status = 2 then pctReg (fun c => incR c PCT_PFAIL 1) s else s
    retireWorn blk (ringEnd r.idx r.status r.pulses susps 0 (wearProgram blk r.pulses (decide (r.status = 2)) s))
  | 3 =>
    let s := dropPages blk s
    let s := if r.status = 0 then setBlk blk true 0 s else setBlk blk false 0 s
    let s := wearErase blk r.pulses (decide (r.status = 3)) (decide (r.status ≠ 0 ∧ r.status ≠ 3)) s
    let s := if r.status = 3 then noteEraseFail blk (pctReg (fun c => incR c PCT_EFAIL 1) s) else s
    retireWorn blk (ringEnd r.idx r.status r.pulses susps 0 s)
  | 4 => ringEnd r.idx (if r.status ≠ 0 then r.status else if r.found.blank then 0 else 7) 0 0 0 s
  | _ =>
    let st := if r.status ≠ 0 then r.status else if r.op = 5 ∧ ¬ r.found.margin then 11
      else if !r.found.bch || decide (8 < r.found.bits) then 5 else if !r.found.crc then 6 else 0
    let s := if st = 5 ∨ st = 6 then pctReg (fun c => incR c PCT_UNCORR 1) s
      else if st = 0 ∧ r.found.bits ≠ 0 then pctReg (fun c => incR c PCT_CORR 1) s else s
    let c := psaContent r.addr s
    let s := if st = 0 then
        (List.range 7).foldl (fun s n => memPutWord (ringAddr s r.idx (2 + n)) (c.1.hdr.getD n 0) s)
          (bodyToBuf ((ringDw c.2 r.idx 1).toNat * 4096) c.1.body c.2)
      else s
    ringEnd r.idx st 0 0 r.found.bits s

/-- The runs of a group. -/
def groupRuns (s : State) (grp : Nat) : List PsaRun := s.pct.runs.filter (fun r => decide (r.grp = grp))

/-- Update the run of a descriptor. -/
def modRun (i : Nat) (f : PsaRun → PsaRun) (s : State) : State :=
  modPct (fun p => { p with runs := p.runs.map (fun r => if r.idx = i then f r else r) }) s

/-- A waiting SUSPEND of a program takes effect at its pulse's end, or is missed by the operation's end (R347, R348). -/
def settleSuspend (d : Nat) (s : State) : State :=
  if !waitsSusp s d then s
  else if s.pct.runs.any (fun r => decide (psaDie r.addr = d) && decide (r.op = 2 ∨ r.op = 3) && !r.ended) then
    setSuspCount d (min 255 (suspCount s d + 1)) (setSusp d true (setWaitSusp d false s))
  else pctReg (fun c => wrB c PCT_SUSP_STAT.MISSED true) (setWaitSusp d false s)

/-- PSA_PULSE_END (R339): a pulse and its verify end; the operation stops at the first pass or at its limit. With the
brown-out detector tripped no new pulse starts on a brown-out block (R344). -/
def psaPulseEnd (i : Nat) (pass : Bool) (s : State) : State :=
  match s.pct.runs.find? (fun r => decide (r.idx = i)) with
  | none => s
  | some r =>
    if r.ended || decide (r.op ≠ 2 ∧ r.op ≠ 3) || dieSusp s (psaDie r.addr) then s
    else
      let n := r.pulses + 1
      let limit := if r.op = 2 then 12 else 24
      let bod := rdB s.pct.csr PCT_STAT.BOD && !isBulk s (psaBlock r.addr)
      let s := modRun i (fun r => { r with
        pulses := n
        ended := pass || decide (limit ≤ n) || bod
        status := if pass then 0 else if limit ≤ n then r.op else if bod then 4 else 0 }) s
      settleSuspend (psaDie r.addr) s

/-- End every run of a group. -/
def endGroup (grp : Nat) (s : State) : State :=
  let l := groupRuns s grp
  let s := l.foldl (fun s r => endRun r s) s
  saveRecords (saveFrontier (modPct (fun p => { p with restarted := p.restarted.filter (· ≠ grp) }) s))

/-- PSA_DIE_READY (R349): the die's ready indication ends its operation. One that comes after its timeout is late. -/
def psaDieReady (grp : Nat) (s : State) : State :=
  let l := groupRuns s grp
  match l.head? with
  | none =>
    if s.pct.owed.contains grp then
      pctReg (fun c => incR c PCT_LATE 1) (modPct (fun p => { p with owed := p.owed.erase grp }) s)
    else s
  | some _ => if l.all (fun r => r.ended) then endGroup grp s else s

/-- PSA_DIE_TIMEOUT (R349): the timer has won. The die's status register is read: done takes the status it finds, busy
restarts the timer once, and a second timeout is a die fault. The timer stands still while the die is suspended. -/
def psaDieTimeout (grp : Nat) (done : Bool) (s : State) : State :=
  let l := groupRuns s grp
  match l.head? with
  | none => s
  | some r0 =>
    let d := psaDie r0.addr
    if dieSusp s d then s
    else if done && l.all (fun r => r.ended) then pctReg (fun c => incR c PCT_LATE 1) (endGroup grp s)
    else if !s.pct.restarted.contains grp then modPct (fun p => { p with restarted := grp :: p.restarted }) s
    else
      let s := l.foldl (fun s r => endRun { r with status := 9 } s) s
      failDie d (modPct (fun p => { p with
        restarted := p.restarted.filter (· ≠ grp)
        owed := grp :: p.owed }) s)

/-! ### Interruption (R344, R351) -/

/-- Entries that are queued and have not started. -/
def unstarted (s : State) : List Nat := (ringEntries s).filter (fun i => !ringDone s i && !isRunning s i)

/-- BROWN_OUT_TRIP: the detector trips. -/
def brownOutTrip (s : State) : State :=
  let s := pctReg (fun c => incR (wrB c PCT_STAT.BOD true) PCT_BODCNT 1) s
  ((unstarted s).filter (fun i => !isBulk s (psaBlock (ringAddrOf s i)))).foldl (fun s i => ringEnd i 4 0 0 0 s) s

/-- PCT_SUSPEND (R347, R348): an erase's pulse is cut at once; a program is suspended after its pulse; with nothing to
suspend the request is missed. -/
def pctSuspend (d : Nat) (s : State) : State :=
  let l := s.pct.runs.filter (fun r => decide (psaDie r.addr = d) && decide (r.op = 2 ∨ r.op = 3) && !r.ended)
  if dieSusp s d then s
  else if l.isEmpty then pctReg (fun c => wrB c PCT_SUSP_STAT.MISSED true) s
  else if l.any (fun r => decide (r.op = 2)) then setWaitSusp d true s
  else setSuspCount d (min 255 (suspCount s d + 1)) (setSusp d true s)

/-- PCT_RESUME. -/
def pctResume (d : Nat) (s : State) : State := setSusp d false (setWaitSusp d false s)

/-- What a Cloudburst trigger does to the PCT (R351): erases are cut, unstarted erases aborted, suspended programs resumed. -/
def pctCloudburst (s : State) : State :=
  let cut := s.pct.runs.filter (fun r => decide (r.op = 3))
  let s := cut.foldl (fun s r => endRun { r with status := 8 } s) s
  let s := ((unstarted s).filter (fun i => decide (ringOp s i = 3))).foldl (fun s i => ringEnd i 8 0 0 0 s) s
  pctReg (fun c => wrB c PCT_STAT.CBURST true) (pctResume 1 (pctResume 0 s))

/-- A reset of the PCT ends what runs (R351): a program's page counts as programmed, an erase is cut, and every block is
unknown again. Contents stay. -/
def pctStop (s : State) : State :=
  let cut := s.pct.runs.filter (fun r => decide (r.op = 3))
  let s := cut.foldl (fun s r => dropPages (psaBlk r.addr) s) s
  modPct (fun p => { p with
    runs := []
    susp := (false, false)
    waitSusp := (false, false)
    restarted := []
    owed := []
    efails := []
    worn := []
    blocks := []
    touched := false
    saving := false }) s

/-- PCT_CLR.CNT (R359): offsets 0x0028 to 0x0044. -/
def pctClrCnt (s : State) : State := pctReg (fun c => tdrop c 0x28 0x48) s

/-- PCT_STAT.PBUSY. -/
def pctBusy (s : State) : Nat := s.pct.runs.foldl (fun n r => n ||| 2 ^ (4 * psaDie r.addr + psaPlane r.addr)) 0

end Sys2Proof.Machine
end

