-- ==== Sys2Proof/Machine/Spindle.lean ====
section
/-! DEFINITION. The Spindle Control Unit: commutation, the observer, the state table of R172, catch-spin and the VM
thresholds (R168 to R178). -/

namespace Sys2Proof.Machine

/-! ### The commutation table (R168) -/

/-- Entries 0 to 63 of the first quarter of the sine. -/
def sine0 : List Int :=
  [0, 201, 402, 603, 804, 1005, 1206, 1407, 1608, 1809, 2009, 2210, 2410, 2611, 2811, 3012, 3212, 3412, 3612, 3811,
   4011, 4210, 4410, 4609, 4808, 5007, 5205, 5404, 5602, 5800, 5998, 6195, 6393, 6590, 6786, 6983, 7179, 7375,
   7571, 7767, 7962, 8157, 8351, 8545, 8739, 8933, 9126, 9319, 9512, 9704, 9896, 10087, 10278, 10469, 10659, 10849,
   11039, 11228, 11417, 11605, 11793, 11980, 12167, 12353]

/-- Entries 64 to 127 of the first quarter of the sine. -/
def sine1 : List Int :=
  [12539, 12725, 12910, 13094, 13279, 13462, 13645, 13828, 14010, 14191, 14372, 14553, 14732, 14912, 15090, 15269,
   15446, 15623, 15800, 15976, 16151, 16325, 16499, 16673, 16846, 17018, 17189, 17360, 17530, 17700, 17869, 18037,
   18204, 18371, 18537, 18703, 18868, 19032, 19195, 19357, 19519, 19680, 19841, 20000, 20159, 20317, 20475, 20631,
   20787, 20942, 21096, 21250, 21403, 21554, 21705, 21856, 22005, 22154, 22301, 22448, 22594, 22739, 22884, 23027]

/-- Entries 128 to 191 of the first quarter of the sine. -/
def sine2 : List Int :=
  [23170, 23311, 23452, 23592, 23731, 23870, 24007, 24143, 24279, 24413, 24547, 24680, 24811, 24942, 25072, 25201,
   25329, 25456, 25582, 25708, 25832, 25955, 26077, 26198, 26319, 26438, 26556, 26674, 26790, 26905, 27019, 27133,
   27245, 27356, 27466, 27575, 27683, 27790, 27896, 28001, 28105, 28208, 28310, 28411, 28510, 28609, 28706, 28803,
   28898, 28992, 29085, 29177, 29268, 29358, 29447, 29534, 29621, 29706, 29791, 29874, 29956, 30037, 30117, 30195]

/-- Entries 192 to 255 of the first quarter of the sine. -/
def sine3 : List Int :=
  [30273, 30349, 30424, 30498, 30571, 30643, 30714, 30783, 30852, 30919, 30985, 31050, 31113, 31176, 31237, 31297,
   31356, 31414, 31470, 31526, 31580, 31633, 31685, 31736, 31785, 31833, 31880, 31926, 31971, 32014, 32057, 32098,
   32137, 32176, 32213, 32250, 32285, 32318, 32351, 32382, 32412, 32441, 32469, 32495, 32521, 32545, 32567, 32589,
   32609, 32628, 32646, 32663, 32678, 32692, 32705, 32717, 32728, 32737, 32745, 32752, 32757, 32761, 32765, 32766]

/-- Entries 256 to 256 of the first quarter of the sine. -/
def sine4 : List Int :=
  [32767]

/-- round(32,767 × sin(2πn ÷ 1,024)) for n from 0 to 256. -/
def sineQuarter (n : Nat) : Int := (sine0 ++ sine1 ++ sine2 ++ sine3 ++ sine4).getD n 0

/-- The reset contents of the commutation table. -/
def ctabReset (n : Nat) : Int :=
  let q := n % 256
  match (n / 256) % 4 with
  | 0 => sineQuarter q
  | 1 => sineQuarter (256 - q)
  | 2 => -sineQuarter q
  | _ => -sineQuarter (256 - q)

/-- A table entry as its 16-bit pattern. -/
def ctabAt (u : Scu) (n : Nat) : Nat := tget 0 u.ctab n ^^^ toBits 16 (ctabReset n)

/-- Write a table entry. -/
def ctabPut (n v : Nat) (u : Scu) : Scu := { u with ctab := tput 0 u.ctab n (v % 65536 ^^^ toBits 16 (ctabReset n)) }

/-- The table at a 16-bit angle, indexed by bits [15:6] and interpolated; in 1/64 of an entry. -/
def ctabInterp (u : Scu) (theta : Nat) : Int :=
  let i := theta / 64
  let a := sext 16 (ctabAt u i)
  let b := sext 16 (ctabAt u ((i + 1) % 1024))
  a * 64 + (b - a) * (theta % 64 : Nat)

/-! ### Access -/

/-- Update the SCU. -/
def modScu (f : Scu → Scu) (s : State) : State := { s with scu := f s.scu }

/-- Update the SCU's registers. -/
def scuReg (f : List (Nat × Word) → List (Nat × Word)) (s : State) : State :=
  modScu (fun u => { u with csr := f u.csr }) s

/-- The state code of SCU_STAT. -/
def scuState (s : State) : Nat := rdF s.scu.csr SCU_STAT.STATE

/-- Enter a state with the gates as given. -/
def scuEnter (st : Nat) (g : Gates) (s : State) : State :=
  modScu (fun u => { u with csr := wrF u.csr SCU_STAT.STATE st, gates := g }) s

/-- Set an event flag; the Event Recorder records it (R490). -/
def scuEvt (f : Fld) (s : State) : State := motionEvent (scuReg (fun c => wrB c f true) s)

/-- The speed of the source in use. -/
def scuSpeed (s : State) : Nat := rdF s.scu.csr SCU_STAT.SPEED

/-- Whether the speed has fallen to a percentage of the set-point. -/
def fallenTo (s : State) (pct : Nat) : Bool := decide (100 * scuSpeed s ≤ pct * speedSet s)

/-- Whether the speed is below a percentage of the set-point. -/
def slowerThan (s : State) (pct : Nat) : Bool := decide (100 * scuSpeed s < pct * speedSet s)

/-! ### Entries of states -/

/-- Start-up: TRIES is kept by the caller; a stationary vector at ALIGN_A (R172). -/
def enterAlign (s : State) : State :=
  modScu (fun u => { u with lockedWait := false, obsValid := false, bandSeen := false, wedgeSrc := false })
    (scuEnter 1 .vector s)

/-- CATCH (R174): write inhibit on every MC, the bridge in high impedance, the observer reacquiring. -/
def enterCatch (s : State) : State :=
  motionEvent <| modScu (fun u => { u with
    agree := 0
    losRun := 0
    obsValid := false
    wedgeSrc := false
    brakeHold := false })
    (scuEnter 5 .off (raiseSpindle s))

/-- Loss of synchronism (R171). A rectification goes on after the catch (R176). -/
def loseSync (s : State) : State :=
  let rect := decide (scuState s = 9)
  let s := scuEvt SCU_EVT.LOS (scuReg (fun c => incR c SCU_LOS_CNT 1) s)
  let s := if rect then scuReg (fun c => wrB c SCU_STAT.REC_PEND true) s else s
  enterCatch s

/-- BEMF_RUN, with the observer as the source. -/
def enterBemf (limit : Nat) (s : State) : State :=
  modScu (fun u => { u with wedgeSrc := false, obsValid := true, bandSeen := false, losRun := 0, ampLim := limit })
    (scuEnter 3 .pwm s)

/-- RECTIFY (R176). -/
def enterRectify (byCommand : Bool) (s : State) : State :=
  modScu (fun u => { u with rectCmd := byCommand, brakeHold := false })
    (scuReg (fun c => wrB c SCU_STAT.REC_PEND false) (scuEnter 9 .rectify s))

/-- COAST: every gate off. -/
def enterCoast (s : State) : State := modScu (fun u => { u with brakeHold := false }) (scuEnter 8 .off s)

/-- STOP: every gate off. -/
def enterStop (s : State) : State :=
  modScu (fun u => { u with brakeHold := false, obsValid := false }) (scuEnter 0 .off s)

/-- FAULT: every gate off; a pair or chassis hears of it by TOCSIN code 2 (R442). -/
def enterFault (s : State) : State := tocsin 2 (modScu (fun u => { u with brakeHold := false }) (scuEnter 10 .off s))

/-- What a Cloudburst trigger does to the SCU (R172, R176): a driven bridge rectifies, a catch remembers to. -/
def scuCloudburst (s : State) : State :=
  if scuState s = 5 then scuReg (fun c => wrB c SCU_STAT.REC_PEND true) s
  else if s.scu.gates ≠ .off ∧ rdB s.scu.csr SCU_CTL.DRIVE then enterRectify false s
  else s

/-! ### Commands (R172) -/

/-- Every command is ignored while a Cloudburst is in progress. -/
def scuCommand (f : State → State) (s : State) : State := if s.sys.dump = .cloudburst then s else f s

/-- SCU_CMD_START, acted on only in STOP. -/
def scuCmdStart (s : State) : State :=
  scuCommand (fun s => if scuState s = 0 then enterAlign (scuReg (fun c => wrF c SCU_STAT.TRIES 0) s) else s) s

/-- The amplitude with which regenerative braking starts, within AMAX; no rule gives the value. -/
def freeBrake (s : State) : State :=
  let f := takeFree s
  modScu (fun u => { u with brakeAmp := (f.1 % (rdF u.csr SCU_PWM.AMAX + 1) : Nat) }) f.2

/-- The braking amplitude of RECTIFY for the next half-period (R176): it is raised, or stays at AMAX, while VM is below REC, falls
while VM is above it, and stays where VM is at REC. By how much it moves no rule says. -/
def rectifyStep (s : State) : State :=
  let amax : Int := rdF s.scu.csr SCU_PWM.AMAX
  let rec_ := 100 * rdF s.scu.csr SCU_VM_THR0.REC
  let vm := rdF s.scu.csr SCU_VM_NOW.VM
  let a := max 0 (min amax s.scu.brakeAmp)
  let f := takeFree s
  if vm < rec_ then modScu (fun u => { u with brakeAmp := a + (f.1 : Int) % (amax - a + 1) }) f.2
  else if rec_ < vm then modScu (fun u => { u with brakeAmp := (f.1 : Int) % (a + 1) }) f.2
  else modScu (fun u => { u with brakeAmp := a }) s

/-- SCU_CMD_STOP: regenerative braking, or the way out of FAULT. -/
def scuCmdStop (s : State) : State :=
  scuCommand (fun s =>
    let st := scuState s
    if st = 3 ∨ st = 4 ∨ (st = 9 ∧ s.scu.rectCmd) then freeBrake (scuEnter 6 .pwm s)
    else if st = 10 then
      if slowerThan s 1 then enterStop (scuReg (fun c => wrF c SCU_STAT.TRIES 0) s) else enterCoast s
    else s) s

/-- SCU_CMD_COAST. -/
def scuCmdCoast (s : State) : State := scuCommand enterCoast s

/-- SCU_CMD_CATCH. -/
def scuCmdCatch (s : State) : State :=
  scuCommand (fun s =>
    let st := scuState s
    if st = 3 ∨ st = 4 ∨ (st = 9 ∧ s.scu.rectCmd) then enterCatch s
    else if st = 8 ∨ st = 10 then
      if slowerThan s 10 then tocsin 2 (scuEvt SCU_EVT.CATCH_FAIL s) else enterCatch s
    else s) s

/-- SCU_CMD_RECTIFY. -/
def scuCmdRectify (s : State) : State :=
  scuCommand (fun s => if scuState s = 3 ∨ scuState s = 4 then enterRectify true s else s) s

/-- Whether the six gate pins and BRK_G are in high impedance: with DRIVE at 0, and while a fatal syndrome stands (R178). -/
def pinsFloat (s : State) : Bool := !rdB s.scu.csr SCU_CTL.DRIVE || rdB s.mck.csr MCK_STAT.FATAL

/-- The level of BRK_G: none in high impedance, else as SCU_STAT.CHOP commands it (R175, R178). -/
def brkG (u : Scu) : Option Bool := if u.pinsZ then none else some (rdB u.csr SCU_STAT.CHOP)

/-- The phases of a bridge that conducts nowhere: each stays at the level it has. -/
def restLegs (u : Scu) : List Leg := u.legs.map (fun l => { l with
  duty := 0
  hiOn := 0
  loOn := 0
  floated := false })

/-- The pins follow DRIVE at once; in high impedance no switch conducts. -/
def pinsFollow (s : State) : State :=
  let z := pinsFloat s
  modScu (fun u => { u with
    pinsZ := z
    legs := if z then restLegs u else u.legs }) s

/-- SCU_DRIVE_WRITE (R178): DRIVE at 0 puts the pins in high impedance at once. A device that sets DRIVE while the
spindle turns takes it over through CATCH. The spindle turns when the observer's speed is not 0: no rule gives a
threshold (DESIGN CHOICE, log 187). -/
def scuDriveWrite (b : Bool) (s : State) : State :=
  let was := rdB s.scu.csr SCU_CTL.DRIVE
  let s := pinsFollow (scuReg (fun c => wrB c SCU_CTL.DRIVE b) s)
  if b && !was && decide (s.scu.obsSpeed ≠ 0) then enterCatch s else s

/-! ### Timers of the state table (R172 to R174) -/

/-- ALIGN_TIMEOUT: forced commutation starts from the angle of the stationary vector (R172). -/
def alignTimeout (s : State) : State :=
  if scuState s = 1 then
    modScu (fun u => { u with
      anyCross := false
      zcRun := 0
      rampN := 0
      rampAcc := 0 }) (scuEnter 2 .pwm s)
  else s

/-- LOCKED_ROTOR (R173). -/
def lockedRotor (s : State) : State :=
  if scuState s = 2 && !s.scu.anyCross then
    let s := scuReg (fun c => incF c SCU_STAT.TRIES 1) s
    if rdF s.scu.csr SCU_STAT.TRIES < max 1 (rdF s.scu.csr SCU_START.LR_TRIES) then
      modScu (fun u => { u with lockedWait := true }) (enterStop s)
    else
      enterFault (machineCheck 9 0x01 2 0 (BitVec.ofNat 32 (rdF s.scu.csr SCU_STAT.TRIES))
        (scuEvt SCU_EVT.LOCKED_ROTOR s))
  else s

/-- LOCKED_ROTOR_RETRY (R173): 1 s later. -/
def lockedRotorRetry (s : State) : State := if scuState s = 0 && s.scu.lockedWait then enterAlign s else s

/-- CATCH_TIMEOUT (R174): 50 ms without reacquisition. -/
def catchTimeout (s : State) : State :=
  if scuState s = 5 then
    tocsin 2 (enterCoast (unloadOwned (scuEvt SCU_EVT.CATCH_FAIL (scuReg (fun c => incR c SCU_CATCH_CNT 1) s))))
  else s

/-- BRAKE_HOLD_END (R172): 100 ms with the low sides on. -/
def brakeHoldEnd (s : State) : State := if s.scu.brakeHold then enterStop s else s

/-- COAST_TIMEOUT (R172): with AUTORST and no Cloudburst, a start; else STOP. -/
def coastTimeout (s : State) : State :=
  if scuState s = 8 then
    if rdB s.scu.csr SCU_CTL.AUTORST ∧ s.sys.dump ≠ .cloudburst then
      enterAlign (scuReg (fun c => wrF c SCU_STAT.TRIES 0) s)
    else enterStop s
  else s

/-! ### The observer (R170, R171, R174) -/

/-- How far one electrical angle lies from another, in 1/65,536 turn. -/
def angleDev (a b : Nat) : Nat := (sext 16 (toBits 16 ((a : Int) - b))).natAbs

/-- Whether two angles differ by more than LOSANG, which counts 1/256 electrical turn. -/
def angleOff (s : State) (a b : Nat) : Bool := decide (256 * rdF s.scu.csr SCU_OBS.LOSANG < angleDev a b)

/-- The lag of a phase behind phase A, as the duties of R168 place it. -/
def phaseLag (p : Nat) : Int := match p with
  | 0 => 0
  | 1 => 21845
  | _ => 43691

/-- The electrical angle at which a phase's back-EMF crosses zero: where its drive is zero too (R170). -/
def crossAngle (p : Fin 3) (rising : Bool) : Nat := toBits 16 (phaseLag p.val + (if rising then 0 else 32768))

/-- The wedge angle by the reference MC (R169). -/
def wedgeAngle (s : State) (wedge beat : Nat) : Option Nat :=
  (refMc s).map (fun m =>
    let beats : Int := max 1 (entF (mcOf s m).zone 2 27 16)
    let pp : Int := max 1 (rdF s.scu.csr SCU_CTL.PP)
    let ofs : Int := wordField (rd s.scu.csr (SCU_ANG_OFS0 + 4 * m.val)) 15 0
    toBits 16 (roundDiv (pp * (wedge * beats + beat) * 65536) (640 * beats) + ofs))

/-- Whether the crossing can be seen: the whole bridge is off, or the phase is floated (R170, R174). -/
def crossSeen (u : Scu) (p : Fin 3) : Bool :=
  decide (u.gates = .off) || u.pinsZ || ((u.legs[p.val]?).map (fun l => l.floated)).getD false

/-- A crossing in CATCH: six in a row that agree reacquire. -/
def catchCross (i : CrossIn) (s : State) : State :=
  let ok := !angleOff s (i.pred % 65536) (crossAngle i.phase i.rising) && inBand s i.speed
  let s := modScu (fun u => { u with agree := if ok then u.agree + 1 else 0 }) s
  if 6 ≤ s.scu.agree then
    let s := modScu (fun u => { u with obsValid := true }) (scuEvt SCU_EVT.CATCH_OK s)
    if rdB s.scu.csr SCU_STAT.REC_PEND then enterRectify (s.scu.rectCmd && decide (s.sys.dump ≠ .cloudburst)) s
    else enterBemf (6400 * rdF s.scu.csr SCU_ILIM.CATCH_A) s
  else s

/-- A check float: the observer's angle against the wedge angle. LOSN failures in a row lose synchronism (R171). -/
def checkFloat (i : CrossIn) (s : State) : State :=
  match wedgeAngle s i.wedge i.beat with
  | none => s
  | some w =>
    let s := modScu (fun u => { u with losRun := if angleOff s (i.angle % 65536) w then u.losRun + 1 else 0 }) s
    if max 1 (rdF s.scu.csr SCU_OBS.LOSN) ≤ s.scu.losRun then loseSync s else s

/-- The observer's speed against the band in BEMF_RUN and WEDGE_RUN; judged once the spin-up has reached the band. -/
def bandCheck (s : State) : State :=
  let ok := inBand s s.scu.obsSpeed
  if scuState s = 3 ∨ scuState s = 4 then
    if ok then modScu (fun u => { u with bandSeen := true }) s
    else if s.scu.bandSeen then loseSync s
    else s
  else s

/-- The float of one phase ends; in the phases given, all of them. -/
def endFloat (f : Nat → Bool) (s : State) : State :=
  modScu (fun u => { u with legs := u.legs.zipIdx.map (fun p => if f p.2 then { p.1 with floated := false } else p.1) }) s

/-- BEMF_ZERO_CROSSING (R170): the observer takes the crossing of a floated phase, and the state table sees it. In RAMP a phase is
floated around its crossing by the forced angle, so a crossing within the float is consistent with that angle. -/
def bemfZeroCrossing (i : CrossIn) (s : State) : State :=
  if !crossSeen s.scu i.phase then s
  else
    let s := modScu (fun u => { u with obsAngle := i.angle % 65536, obsFrac := 0, obsSpeed := i.speed % 65536, anyCross := true }) s
    let s :=
      if scuState s = 2 then
        let s := modScu (fun u => { u with zcRun := u.zcRun + 1 }) s
        if max 6 (rdF s.scu.csr SCU_START.ZC_N) ≤ s.scu.zcRun then
          enterBemf (6400 * rdF s.scu.csr SCU_PWM.AMAX) s
        else s
      else if scuState s = 5 then catchCross i s
      else if s.scu.wedgeSrc && (decide (scuState s = 4) || decide (scuState s = 9)) then checkFloat i s
      else s
    bandCheck (endFloat (fun p => decide (p = i.phase.val)) s)

/-- FLOAT_WINDOW_CLOSE (R170): the window closed without its crossing, the observer coasts over it, and a late
crossing is counted. A run of consistent crossings in RAMP is broken. Where the crossing won, its timer is cancelled,
and nothing closes (R12). -/
def floatWindowClose (late : Bool) (s : State) : State :=
  if !s.scu.legs.any (fun l => l.floated) then s else
  let s := if late then scuReg (fun c => incR c SCU_LATE 1) s else s
  endFloat (fun _ => true) (modScu (fun u => { u with zcRun := 0 }) s)

/-! ### The PWM half-period (R168, R169, R172, R175, R176) -/

/-- The source of angle at this half-period boundary, and the move between BEMF_RUN and WEDGE_RUN. -/
def pickSource (s : State) : State :=
  let auto := decide (rdF s.scu.csr SCU_CTL.SRC ≠ 1)
  let ref := (refMc s).isSome
  let st := scuState s
  if st = 3 ∧ ref ∧ auto then
    let s := modScu (fun u => { u with wedgeSrc := true, losRun := 0 }) (scuEnter 4 .pwm s)
    if inBand s s.scu.obsSpeed then modScu (fun u => { u with inhibit := false }) s else s
  else if st = 4 ∧ ¬ ref then modScu (fun u => { u with wedgeSrc := false }) (scuEnter 3 .pwm s)
  else modScu (fun u => { u with wedgeSrc := (decide (st = 4) || decide (st = 9)) && ref && auto }) s

/-- The forced angle of RAMP: its speed rises linearly from 0 to HANDOFF, in 10 rpm, over half of LR_WIN, in 10 ms,
and stays there; the half-periods last 10 µs (R168, R172). -/
def rampAngle (u : Scu) : Nat :=
  let n := 500 * max 1 (rdF u.csr SCU_START.LR_WIN)
  let pp : Nat := max 1 (rdF u.csr SCU_CTL.PP)
  toBits 16 ((Config.alignAngle : Int) + roundDiv (u.rampAcc * pp * 10 * 65536 : Nat) (n * 6000000 : Nat))

/-- One half-period of RAMP: its speed, in units of HANDOFF over the whole ramp, adds to the sum that gives the angle. -/
def rampStep (s : State) : State :=
  if scuState s = 2 then
    let n := 500 * max 1 (rdF s.scu.csr SCU_START.LR_WIN)
    modScu (fun u => { u with
      rampN := min n (u.rampN + 1)
      rampAcc := u.rampAcc + rdF u.csr SCU_START.HANDOFF * min n u.rampN }) s
  else s

/-- The observer goes on between crossings at its speed, and so coasts over one that it missed (R170): in a
half-period of 10 µs, obsSpeed × 0.25 rpm turn the motor by obsSpeed × PP ÷ 24,000,000 electrical turns. -/
def observerStep (u : Scu) : Scu :=
  let pp : Nat := max 1 (rdF u.csr SCU_CTL.PP)
  let n := u.obsFrac + u.obsSpeed * pp * 65536
  { u with
    obsAngle := (u.obsAngle + n / 24000000) % 65536
    obsFrac := n % 24000000 }

/-- The electrical angle of the source in use: fixed in ALIGN, forced in RAMP, else as R169 has it. -/
def sourceAngle (i : PwmIn) (s : State) : Nat :=
  if scuState s = 1 then Config.alignAngle % 65536
  else if scuState s = 2 then rampAngle s.scu
  else if s.scu.wedgeSrc then (wedgeAngle s i.wedge i.beat).getD s.scu.obsAngle
  else s.scu.obsAngle

/-- The amplitude of this half-period, clamped to AMAX. -/
def ampNow (s : State) : Int :=
  let amax : Int := rdF s.scu.csr SCU_PWM.AMAX
  match scuState s with
  | 1 => clampAbs amax (rdF s.scu.csr SCU_ILIM.ALIGN_A)
  | 2 => clampAbs amax (rdF s.scu.csr SCU_ILIM.ALIGN_A)
  | 3 => clampAbs (min amax (s.scu.ampLim / 6400 : Nat)) s.scu.amp
  | 4 => clampAbs (min amax (s.scu.ampLim / 6400 : Nat)) s.scu.amp
  | 6 => -clampAbs amax s.scu.brakeAmp
  | 9 => -clampAbs amax s.scu.brakeAmp
  | _ => 0

/-- One phase's duty in counts of 1,000 (R168). A table entry of 32,767 counts as 1.0: the rule does not state the
scale of an entry (DESIGN CHOICE, log 187). -/
def phaseDuty (s : State) (amp : Int) (theta : Nat) : Nat :=
  let x := 500 * amp * 12000 * ctabInterp s.scu (theta % 65536)
  let d := 500 + roundDiv x (65536 * 64 * 32767 * max 6000 (rdF s.scu.csr SCU_VM_NOW.VM))
  (max 0 (min 1000 d)).toNat

/-- One pulse of a phase within the half-period, `n` counts at level `high`. A pulse that would change the level and
is shorter than MINP is dropped, and the switch stays as it was; a change of level costs the switch that turns on the
dead time. -/
def legPulse (minp dead : Nat) (high : Bool) (n : Nat) (l : Leg) : Leg :=
  let lvl := if n < minp then l.high else high
  let on := if lvl = l.high then n else n - dead
  if n = 0 then l
  else { l with
    high := lvl
    duty := l.duty + (if lvl then n else 0)
    hiOn := l.hiOn + (if lvl then on else 0)
    loOn := l.loOn + (if lvl then 0 else on) }

/-- A half-period of a phase with `d` counts at the high level: last in the rising half of a centre-aligned period, first in the
falling half (R168). -/
def legHalf (minp dead d : Nat) (falling : Bool) (l : Leg) : Leg :=
  let l : Leg := ⟨0, l.high, 0, 0, false⟩
  if falling then legPulse minp dead false (1000 - d) (legPulse minp dead true d l)
  else legPulse minp dead true d (legPulse minp dead false (1000 - d) l)

/-- Whether a phase is within half of FLOATW of one of its crossings at an electrical angle (R170). -/
def nearCross (s : State) (theta p : Nat) : Bool :=
  decide (min (angleDev theta (toBits 16 (phaseLag p))) (angleDev theta (toBits 16 (phaseLag p + 32768)))
    ≤ 128 * rdF s.scu.csr SCU_OBS.FLOATW)

/-- The phases floated in this half-period (R170, R176): around every crossing outside WEDGE_RUN and RECTIFY, in those
two around one crossing of phase A on every CHKINT electrical turns. -/
def floats (s : State) (theta p : Nat) : Bool :=
  let st := scuState s
  if st = 4 ∨ st = 9 then
    s.scu.check && decide (p = 0) && decide (angleDev theta 32768 ≤ 128 * rdF s.scu.csr SCU_OBS.FLOATW)
  else decide (st = 2 ∨ st = 3 ∨ st = 6) && nearCross s theta p

/-- The electrical turns towards the next check float: a turn ends where the angle passes 0 (R170). -/
def countTurn (was now : Nat) (u : Scu) : Scu :=
  if now + 32768 < was then
    let n := u.turns + 1
    if max 1 (rdF u.csr SCU_OBS.CHKINT) ≤ n then { u with turns := 0, check := true } else { u with turns := n, check := false }
  else u

/-- What each phase does over the half-period, by what the gates do (R168, R170, R172). -/
def driveLegs (s : State) (theta td : Nat) (amp : Int) : List Leg :=
  let minp := rdF s.scu.csr SCU_PWM.MINP
  let dead := max 5 (rdF s.scu.csr SCU_PWM.DEAD)
  if s.scu.pinsZ then restLegs s.scu
  else match s.scu.gates with
    | .off => restLegs s.scu
    | .lowSides => s.scu.legs.map (fun l => legPulse 0 dead false 1000 ⟨0, l.high, 0, 0, false⟩)
    | .vector | .pwm | .rectify =>
      s.scu.legs.zipIdx.map (fun p =>
        if floats s theta p.2 then { p.1 with
          duty := 0
          hiOn := 0
          loOn := 0
          floated := true }
        else legHalf minp dead (phaseDuty s amp (toBits 16 ((td : Int) - phaseLag p.2))) s.scu.half p.1)

/-- The angle, the check floats and the three phases of this half-period (R168). -/
def computeDuties (i : PwmIn) (s : State) : State :=
  let adv : Int := sext 16 (rdF s.scu.csr SCU_ADV.ADV0)
    + roundDiv (sext 16 (rdF s.scu.csr SCU_ADV.ADV1) * scuSpeed s) 4000
  let theta := sourceAngle i s
  let td := toBits 16 (theta + adv)
  let s := modScu (countTurn s.scu.angle theta) s
  let legs := driveLegs s theta td (ampNow s)
  modScu (fun u => { u with
    angle := theta
    legs := legs }) s

/-- The chopper's thresholds (R175). -/
def chopper (s : State) : State :=
  let vm := rdF s.scu.csr SCU_VM_NOW.VM
  if 100 * rdF s.scu.csr SCU_VM_THR0.CHON ≤ vm then scuReg (fun c => wrB c SCU_STAT.CHOP true) s
  else if vm ≤ 100 * rdF s.scu.csr SCU_VM_THR0.CHOFF then scuReg (fun c => wrB c SCU_STAT.CHOP false) s
  else s

/-- CLAMP and VOFF (R175), each in its own state. -/
def brakeThresholds (s : State) : State :=
  let vm := rdF s.scu.csr SCU_VM_NOW.VM
  if scuState s = 6 ∧ 100 * rdF s.scu.csr SCU_VM_THR1.CLAMP ≤ vm then
    if rdB s.scu.csr SCU_STAT.BRKFB then modScu (fun u => { u with brakeAmp := u.brakeAmp / 2 }) s
    else scuEnter 7 .lowSides (scuEvt SCU_EVT.ZV_BRAKE s)
  else if scuState s = 7 ∧ 100 * rdF s.scu.csr SCU_VM_THR1.VOFF ≤ vm then
    enterFault (machineCheck 9 0x02 2 0 (rd s.scu.csr SCU_VM_NOW) (scuEvt SCU_EVT.VOFF_CUT s))
  else s

/-- The speeds of the state table: the end of braking and of rectification, and the forced unload (R172, R177). -/
def speedThresholds (s : State) : State :=
  let s := if fallenTo s (rdF s.scu.csr SCU_VM_THR1.UNL_SPD) then
      forMcs (fun k s => unload k s) s else s
  let st := scuState s
  if (st = 6 ∨ st = 7) ∧ slowerThan s 1 then
    modScu (fun u => { u with gates := .lowSides, brakeHold := true }) s
  else if st = 9 ∧ slowerThan s (rdF s.scu.csr SCU_VM_THR1.REC_MIN) then enterCoast s
  else s

/-- Whether the angle source in use is valid. -/
def angleOk (s : State) : Bool := if s.scu.wedgeSrc then (refMc s).isSome else s.scu.obsValid

/-- PWM_HALF_PERIOD but for the power-fail threshold: the inputs are taken, the source is picked, the thresholds are
evaluated once a period, and the duties are computed. -/
def pwmHalf (i : PwmIn) (s : State) : State :=
  let s := modScu observerStep (scuReg (fun c => wrB (wrF c SCU_VM_NOW.VM i.vm) SCU_STAT.BRKFB i.brkFb) s)
  let s := pickSource s
  let s := scuReg (fun c => wrF c SCU_STAT.SPEED (if s.scu.wedgeSrc then i.speed else s.scu.obsSpeed)) s
  let s := if s.scu.half then s else speedThresholds (brakeThresholds (chopper s))
  let s := if scuState s = 9 then rectifyStep s else s
  let s := modScu (fun u => { u with
    ampLim := min (6400 * rdF u.csr SCU_PWM.AMAX) (u.ampLim + rdF u.csr SCU_PWM.AMAX) }) s
  let s := scuReg (fun c => wrB c SCU_STAT.ANGLE_OK (angleOk s)) s
  modScu (fun u => { u with half := !u.half }) (computeDuties i (pinsFollow (rampStep s)))

/-- Whether the period's VM measurement triggers a Cloudburst (R175, R296). -/
def vmFails (s : State) (vm : Nat) : Bool := !s.scu.half && decide (vm < 100 * rdF s.scu.csr SCU_VM_THR0.PF)

/-- SCU_CLR.CNT (R181). -/
def scuClrCnt (s : State) : State := scuReg (fun c => wr (wr (wr c SCU_LOS_CNT 0) SCU_CATCH_CNT 0) SCU_LATE 0) s

end Sys2Proof.Machine
end

