-- ==== Sys2Proof/Machine/Energy.lean ====
section
/-! DEFINITION. The Energy Ledger and the Energy Governor (R360 to R379), the admission ceiling, and the cache's write-through
(R287, R289). -/

namespace Sys2Proof.Machine

/-- Whether the device is in pair configuration, and whether its link is up. -/
def inPair (s : State) : Bool := rdB s.tdl.csr TDL_CTL.PAIR
def linkUp (s : State) : Bool := rdB s.tdl.csr TDL_STAT.LINK

/-! ### Meters (R360 to R363) -/

/-- What one sample adds to each meter. SPINDLE, OTHER and BOARD are differences. -/
def meterAdds (i : MeterIn) : List (Nat × Int) :=
  [(0, (i.vin : Int)), (1, (i.bus12 : Int)), (2, (i.bus12 : Int) - i.vcm.m0 - i.vcm.m1 - i.vcm.m2 - i.vcm.m3),
   (3, (i.vcm.m0 : Int)), (4, (i.vcm.m1 : Int)), (5, (i.vcm.m2 : Int)), (6, (i.vcm.m3 : Int)), (7, (i.core : Int)),
   (8, (i.dram : Int)), (9, (i.pcie : Int)), (10, (i.psa : Int)), (11, (i.regIn : Int) - i.core - i.pcie - i.psa),
   (12, (i.vin : Int) - i.regIn - i.dram)] ++
  (i.assist.filter (fun e => decide (16 ≤ e.1 ∧ e.1 < 64))).map (fun e => (e.1, (e.2 : Int)))

/-- A counter of a meter. -/
def meter (s : State) (n : Nat) : Nat := tget 0 s.elg.meters n

/-- METER_SAMPLE: the energy of the sample is added to the counters, which wrap at 2^64, and to the current bin; the VIN sense
is taken, and arms the VIN monitor above 2.75 V (R474). -/
def meterSample (i : MeterIn) (s : State) : State :=
  let s := { s with pins := { s.pins with
    vin := i.vinMv
    vinArmed := s.pins.vinArmed || decide (2750 < i.vinMv) } }
  modElg (fun e => (meterAdds i).foldl (fun e a => { e with
    meters := tput 0 e.meters a.1 (toBits 64 (((tget 0 e.meters a.1 : Nat) : Int) + a.2))
    bin := tput 0 e.bin a.1 (tget 0 e.bin a.1 + a.2) }) e) s

/-- METER_BIN_END (R362): the bin is closed, and each meter's window power is the sum of ten bins over 10 ms. R362 states no
rounding of the quotient. -/
def meterBinEnd (s : State) : State :=
  modElg (fun e =>
    let bins := (e.bin :: e.bins).take 10
    let sum := fun (n : Nat) => bins.foldl (fun a b => a + tget (0 : Int) b n) (0 : Int)
    { e with
      bin := []
      bins := bins
      power := (List.range 64).filterMap (fun n =>
        let p := (roundDiv (sum n) 10).toNat
        if p = 0 then none else some (n, p)) }) s

/-- Window power of a meter in mW; drive power and device power (R362). -/
def windowPower (s : State) (n : Nat) : Nat := tget 0 s.elg.power n
def drivePower (s : State) : Nat := windowPower s 0 + windowPower s 1
def devicePower (s : State) : Nat := windowPower s 7 + windowPower s 9 + windowPower s 10 + windowPower s 11

/-- The meter that ELG_MTR_IDX selects; reserved indices read zero. -/
def meterSelected (s : State) : Nat :=
  let n := rdF s.elg.csr ELG_MTR_IDX.METER
  if n = 13 ∨ n = 14 ∨ n = 15 then 0 else meter s n

/-- MTR_LO_READ (R361): the low half is read, and the upper half latched. -/
def mtrLoRead (s : State) : State :=
  let v := meterSelected s
  let s := modElg (fun e => { e with hiLatch := BitVec.ofNat 32 (v / 2 ^ 32) }) s
  { s with sys := { s.sys with rdata := BitVec.ofNat 32 v } }

/-! ### Dump Reserve (R364 to R366) -/

/-- An anchor of ELG_ANCH_DATA. -/
def anchor (s : State) (n : Nat) : Nat := tget 0 s.elg.anchors n

/-- Whether the spindle does not turn for the Ledger: STOP, ALIGN and FAULT (R365). -/
def spindleDead (s : State) : Bool := decide (scuState s = 0 ∨ scuState s = 1 ∨ scuState s = 10)

/-- Note the speed in use's evidence: the last valid speed, and when ANGLE_OK fell. -/
def noteSpeed (s : State) : State :=
  modElg (fun e => if angleOk s then { e with sLast := scuSpeed s, fell := none }
    else if e.fell.isNone then { e with fell := some s.sys.us } else e) s

/-- The speed in use and its source: 0 zero, 1 measured, 2 the floor. R365 states no rounding of the floor. -/
def speedInUse (s : State) : Nat × Nat :=
  if spindleDead s then (0, 0)
  else if angleOk s then (scuSpeed s, 1)
  else
    let t := s.sys.us - (s.elg.fell.getD s.sys.us)
    let drop := roundDiv ((anchor s 4 : Int) * (rdF s.sce.csr SCE_SPN_SET.SPEED : Int) * (t : Int)) (10000 * 1000000)
    (((s.elg.sLast : Int) - drop).toNat, 2)

/-- Owned actuators that are not PARKED. -/
def loadedActuators (s : State) : Nat :=
  (([0, 1, 2, 3] : List (Fin 4)).filter (fun k => actOwned s k && decide ((actOf s k).state ≠ 1))).length

/-- π² as a fraction; R364's arithmetic names π and no precision. -/
def piSquared : Int × Int := (9869604401089358618834490999876151135, 10 ^ 36)

/-- The Dump Reserve in mJ (R364), as one quotient of whole numbers, from the anchors' units (R388). -/
def dumpReserve (s : State) : Nat :=
  let n : Int := (speedInUse s).1
  let set : Int := rdF s.sce.csr SCE_SPN_SET.SPEED
  let r : Int := rdF s.scu.csr SCU_VM_THR1.REC_MIN
  let d := max 0 (10000 * n * n - r * r * set * set)
  let spinNum := (anchor s 0 : Int) * piSquared.1 * d * (anchor s 2 : Int)
  let spinDen := 2 * 10000 * 14400 * 10000 * piSquared.2 * 1024
  let vmin : Int := anchor s 5
  let capNum := (anchor s 1 : Int) * max 0 ((s.pins.vin : Int) * s.pins.vin - vmin * vmin)
  let capDen := 2 * 10 ^ 9
  let unl := (anchor s 3 : Int) * loadedActuators s
  (max 0 (roundDiv (spinNum * capDen + capNum * spinDen - unl * spinDen * capDen) (spinDen * capDen))).toNat

/-! ### Dump Cost (R367) -/

/-- TEST_DUMP (R368): the measurement of a test dump is reported. -/
def testDump (v : Nat) (s : State) : State := if s.sys.dump = .none then dcostMeasure v s else s

/-! ### Ceilings (R338, R369 to R371) -/

/-- The fixed dump in 16 KiB pages (R338, R369). -/
def dumpAllowance (s : State) : Nat := if inPair s then 1088 else 544

/-- Keys of dirty data that a power loss would have to dump: those not yet persistent by a precautionary dump (R289). -/
def unpersisted (s : State) : List Nat := (s.ple.dirty.map Prod.fst).filter (fun k => !s.ple.persisted.contains k)

/-- The holdings in 4 KiB pages (R369): own dirty data, and the partner's mirrored data. -/
def holdings (s : State) : Nat := (unpersisted s).length + s.tdl.held.length + (s.tdl.cmds.flatMap (fun c => c.data)).length

/-- The space ceiling in 4 KiB pages. -/
def spaceCeiling (s : State) : Nat := 4 * (pctErased s - dumpAllowance s)

/-- cache_max in 4 KiB pages. -/
def cacheMax (s : State) : Nat := if rdF s.bmc.csr BMC_CFG.DENS = 1 then 262144 else 524288

/-- The energy ceiling in 4 KiB pages at a share of num ÷ den. -/
def energyCeiling (s : State) (num den : Nat) : Nat :=
  let dcost := (rd s.elg.csr ELG_DCOST).toNat
  let m := max 16 (rdF s.elg.csr ELG_RSV_CFG.MARGIN)
  let reserve := rdF s.elg.csr ELG_RESERVE.MJ
  let top : Int := (reserve : Int) * 1000 * num * 16 * 64 - (dumpAllowance s : Int) * dcost * den * m
  if dcost = 0 then 0 else (roundDiv (top * 256) ((den : Int) * m * 64 * dcost)).toNat

/-- The ceilings that the Ledger publishes. -/
def ceilSolo (s : State) : Nat := min (cacheMax s) (min (spaceCeiling s) (energyCeiling s 1 1))
def ceilPair (s : State) : Nat := min (cacheMax s) (min (spaceCeiling s) (energyCeiling s 1 2))

/-- The admission ceiling in bytes, as published. -/
def admitCeil (s : State) : Nat :=
  if rdB s.elg.csr ELG_CTL.EN then 4096 * (rd s.elg.csr ELG_CEIL).toNat else 0

/-- The power state in force (Feature 02h). -/
def powerState (s : State) : Nat := (featGet 0 s.hqe.feats 2).toNat % 32

/-! ### Write-through and precautionary dumps (R287, R289, R314) -/

/-- The reasons of R287 that hold now, as ELG_WT.REASON codes them. In PS4 the spindle counts as stopped from the
command to stop it on (R379). -/
def wtReasons (s : State) : Nat :=
  let over_ := decide (admitCeil s < 4096 * holdings s)
  let stopping := decide (powerState s = 4 ∧ (scuState s = 6 ∨ scuState s = 7))
  let lost := inPair s && !rdB s.elg.csr ELG_CTL.PAIR_OK && decide ((rd s.elg.csr ELG_CEIL_SOLO).toNat < holdings s)
  b2n over_ + 2 * b2n lost + 4 * b2n (spindleDead s || stopping)

/-- A failed DRAM channel keeps the cache in write-through (R314); ELG_WT has no reason bit for it. -/
def channelLost (s : State) : Bool := rdB s.bmc.csr BMC_STAT.DEGRADED || s.bmc.absent.isSome

/-- Whether write-through is in force: entered and not left, or with a reason that holds now. -/
def writeThrough (s : State) : Bool := s.elg.wt || decide (wtReasons s ≠ 0) || channelLost s

/-- Enter or leave write-through; it is left when nothing holds it and the ceiling exceeds the dirty data by 64 MiB. -/
def settleWt (s : State) : State :=
  let r := wtReasons s
  let holds := decide (r ≠ 0) || channelLost s
  if holds then
    let s := if s.elg.wt then s else
      energyEvent <| elgReg (fun c => incF (wrB c ELG_WT.STICKY true) ELG_WT.ENTRIES 1)
        (modElg (fun e => { e with wt := true, wtSince := nowSec s }) s)
    modElg (fun e => { e with reason := r }) s
  else if s.elg.wt ∧ 4096 * holdings s + 64 * 2 ^ 20 < admitCeil s then
    energyEvent <| modElg (fun e => { e with
      wt := false
      reason := 0
      wtTotal := e.wtTotal + (nowSec s - e.wtSince) }) s
  else modElg (fun e => { e with reason := 0 }) s

/-- Whether the reserve is below the cost of dumping everything, taken without margin. -/
def reserveShort (s : State) : Bool :=
  let dcost := (rd s.elg.csr ELG_DCOST).toNat
  decide (rdF s.elg.csr ELG_RESERVE.MJ * 1000 * 256 < holdings s * dcost + dumpAllowance s * dcost * 4)

/-- Begin a precautionary dump: what is dirty now is written to bulk blocks. -/
def startPredump (s : State) : State :=
  if s.elg.predumping then s
  else energyEvent { modElg (fun e => { e with predumping := true }) s with nv := { s.nv with predump := s.ple.dirty } }

/-- RESERVE_RECOMPUTE (R364, R369, R287, R289): the reserve, both ceilings, the cache's mode, and a precautionary dump. -/
def reserveRecompute (s : State) : State :=
  let s := noteSpeed s
  let s := elgReg (fun c => wr c ELG_RESERVE (BitVec.ofNat 32 (dumpReserve s))) s
  let healthy := inPair s && rdB s.elg.csr ELG_CTL.PAIR_OK
  let solo := ceilSolo s
  let c := if healthy then ceilPair s else solo
  let s := if rdB s.elg.csr ELG_CTL.EN then
      elgReg (fun t => wr (wr t ELG_CEIL_SOLO (BitVec.ofNat 32 solo)) ELG_CEIL (BitVec.ofNat 32 c)) s
    else s
  let s := settleWt s
  if reserveShort s && decide (s.sys.dump = .none) && decide (s.ple.dirty ≠ []) then startPredump s else s

/-! ### The Governor (R372 to R377) -/

/-- The maximum power of a power state in mW, from the option area (fields 40 to 44), or the value R261 shows. -/
def statePower (s : State) (ps : Nat) : Nat :=
  let shown := match ps with
    | 0 => 12500
    | 1 => 9600
    | 2 => 7000
    | 3 => 2100
    | _ => 600
  let v := (tget 0 s.nv.opt (40 + ps)).toNat
  if v = 0 then shown else v

/-- The cap in force (R372). -/
def capInForce (s : State) : Option Nat :=
  let ps := powerState s
  let a : Option Nat := if ps = 1 ∨ ps = 2 then some (statePower s ps) else none
  let b : Option Nat := if rdB s.elg.csr ELG_CAP.EN then some (rdF s.elg.csr ELG_CAP.CAP) else none
  match a, b with
  | some x, some y => some (min x y)
  | some x, none => some x
  | none, y => y

/-- The floor of PLIM in mW. -/
def plimFloor (s : State) : Nat := 100 * max 0x14 (rdF s.elg.csr ELG_CAP.PMIN)

/-- The compared power. -/
def comparedPower (s : State) : Nat := if rdB s.elg.csr ELG_CAP.SRC then devicePower s else drivePower s

/-- A lowered cap acts at once; a raised or removed one does not raise PLIM; a raised floor does (R374). -/
def capSettle (s : State) : State :=
  let cap := capInForce s
  let low := plimFloor s
  modElg (fun e => { e with plim := match cap, e.plim with
    | none, p => p.map (fun p => max low p)
    | some c, none => some (max low c)
    | some c, some p => some (max low (min c p)) }) s

/-- PLIM as the Governor compares with it: where no cap has acted, the package ceiling of 15 W. -/
def plimNow (s : State) : Nat := s.elg.plim.getD 15000

/-- A step down of 250 mW. -/
def stepDown (s : State) : State :=
  modElg (fun e => { e with plim := some (max (plimFloor s) (plimNow s - 250)), quiet := 0 }) s

/-- Whether a thermal threshold is active. -/
def thermalActive (s : State) : Bool := s.tmn.sensors.any (fun e => match e.2 with
  | some x => decide (x.active ≠ 0) && !x.absent
  | none => false)

/-- Whether CRIT is active. -/
def critActive (s : State) : Bool := s.tmn.sensors.any (fun e => match e.2 with
  | some x => x.active.testBit 2 && !x.absent
  | none => false)

/-- The whole 250 mW steps between PLIM and the cap (R374). -/
def govSteps (s : State) : Nat := match capInForce s, s.elg.plim with
  | some c, some p => min 255 ((c - p) / 250)
  | none, some p => min 255 ((15000 - p) / 250)
  | _, none => 0

/-- The owned MCs. -/
def ownedMcs (s : State) : Nat := (([0, 1, 2, 3] : List (Fin 4)).filter (fun k => actOwned s k)).length

/-- The number of permits (R375, and CRIT of R381). -/
def permitCount (s : State) : Nat :=
  if critActive s then 0
  else match s.elg.plim with
    | none => ownedMcs s
    | some p => if s.elg.pMc = 0 then ownedMcs s else min (ownedMcs s) ((p - s.elg.pIdle) / s.elg.pMc)

/-- Whether an MC may take a permit for ranks 3 to 5. -/
def permitOk (s : State) (_k : Fin 4) : Bool :=
  decide ((([0, 1, 2, 3] : List (Fin 4)).filter (fun k => !(quadGet s.ple.sched k).armed.isEmpty)).length < permitCount s)

/-- The Governor's WE and HOLDBG (R377). -/
def govWeights (s : State) : State :=
  let n := govSteps s
  let we := min 255 (10 * 2 ^ n)
  let hold := decide (2 * permitCount s < ownedMcs s)
  { s with ple := { s.ple with csr := wrB (wrF s.ple.csr PLE_SCH_WGT.WE we) PLE_SCH_WGT.HOLDBG hold } }

/-- GOVERNOR_WINDOW_END (R374): the averages are taken, PLIM takes its step, and permits and WE follow. With no cap, a
PLIM that is back at the package ceiling is no limit any more (DEDUCED, log 134). -/
def governorWindowEnd (pIdle pMc : Nat) (s : State) : State :=
  let s := capSettle (modElg (fun e => { e with pIdle := pIdle, pMc := pMc }) s)
  let p := plimNow s
  let compared := comparedPower s
  let thermal := s.elg.newCross || (thermalActive s && decide (s.elg.lastStep + 1000000 ≤ s.sys.us))
  let down := (s.elg.plim.isSome && decide (p < compared)) || decide (15000 < devicePower s) || thermal
  let s :=
    if down then
      let s := stepDown s
      if thermal then modElg (fun e => { e with newCross := false, lastStep := s.sys.us }) s else s
    else match s.elg.plim with
      | none => s
      | some p =>
        if compared + 500 ≤ p && !thermalActive s then
          (if s.elg.quiet + 1 = 4 then
            let up := p + 250
            modElg (fun e => { e with quiet := 0, plim := match capInForce s with
              | some c => some (max (plimFloor s) (min c up))
              | none => if 15000 ≤ up then none else some up }) s
           else modElg (fun e => { e with quiet := e.quiet + 1 }) s)
        else modElg (fun e => { e with quiet := 0 }) s
  govWeights s

/-! ### VCORE (R378) -/

/-- Whether the 0.72 V floor is in force. -/
def vcoreRt (s : State) : Bool :=
  decide (rdF s.sce.csr SCE_CTL.ACT_EN ≠ 0) || rdB s.sce.csr SCE_CTL.SPN_EN || linkUp s ||
  ([0, 1, 2, 3] : List (Fin 4)).any (fun k => (mcOf s k).job.isSome || !(mcOf s k).armed.isEmpty) ||
  decide (4 ≤ rdF s.hqe.csr HQE_PORT.P0_SPEED) || decide (4 ≤ rdF s.hqe.csr HQE_PORT.P1_SPEED) ||
  decide (s.sys.dump = .cloudburst)

/-- VCORE_STEP: up under a pace alarm; to TARGET when fixed; otherwise towards the lowest value that keeps the pace, as the
command's judgement `lower` says. -/
def vcoreStep (lower : Bool) (s : State) : State :=
  let floor := if vcoreRt s then 720 else 600
  let now := rdF s.elg.csr ELG_VCORE.NOW
  let target := rdF s.elg.csr ELG_VCORE.TARGET / 10 * 10
  let set := fun (v : Nat) => elgReg (fun c => wrF c ELG_VCORE.NOW v) s
  if now = 0 then set (max floor (min 850 target))
  else if rdB s.sys.csr SYS_PACE_STAT.ALARM then set (min 850 (now + 10))
  else if now < floor then set (now + 10)
  else if rdB s.elg.csr ELG_VCORE.FIX then
    let t := max floor (min 850 target)
    set (if now < t then now + 10 else if t < now then now - 10 else now)
  else if rdF s.sys.csr SYS_PACE_NOW.TOKENS < 960 then set (min 850 (now + 10))
  else if lower ∧ floor + 10 ≤ now then set (now - 10)
  else s

end Sys2Proof.Machine
end

