-- ==== Sys2Proof/Machine/TdlLink.lean ====
section
/-! DEFINITION. The Tandem Link's flits, credits and mirror records (R397 to R403), as far as the sender's side goes. -/

namespace Sys2Proof.Machine

/-- Update the TDL and its registers. -/
def modTdl (f : Tdl → Tdl) (s : State) : State := { s with tdl := f s.tdl }
def tdlReg (f : List (Nat × Word) → List (Nat × Word)) (s : State) : State := modTdl (fun t => { t with csr := f t.csr }) s

/-- Whether this device serves host I/O (R393), writes the system area (R405), and mirrors what it accepts (R277, R407). -/
def serving (s : State) : Bool := !inPair s || rdB s.tdl.csr TDL_CTL.SERVE
def servesSystem (s : State) : Bool := serving s
def mirroring (s : State) : Bool :=
  inPair s && rdB s.tdl.csr TDL_CTL.SERVE && rdB s.elg.csr ELG_CTL.PAIR_OK

/-- Whether the partner and the link are in service. -/
def pairService (s : State) : Bool := inPair s && linkUp s && rdB s.elg.csr ELG_CTL.PAIR_OK

/-- The actuators that this device owns, as a mask (TDL_STAT.OWNED). -/
def ownedMask (s : State) : Nat :=
  ([0, 1, 2, 3] : List (Fin 4)).foldl (fun n k => if actOwned s k then n + 2 ^ k.val else n) 0

/-- The home actuators of a device of a pair (R392), as a mask. -/
def homeMask (s : State) : Nat := if rdB s.tdl.csr TDL_CTL.POS then 12 else 3

/-- Flits that a message takes: 256 payload bytes each. Only sector data needs more than one. -/
def msgFlits : TdlMsg → Nat
  | .mirror _ (.data _ _ _ _) => 17
  | .readData _ vals => 16 * vals.length + 1
  | _ => 1

/-- Credits held. -/
def creditC (s : State) : Nat := rdF s.tdl.csr TDL_CREDIT.CTRL
def creditM (s : State) : Nat := rdF s.tdl.csr TDL_CREDIT.MIRROR

/-- Send one flit of a channel: it takes a credit and a place in the replay buffer. -/
def sendFlit (mirror : Bool) (s : State) : State :=
  let step := fun (q : List (TdlMsg × Nat)) => match q with
    | [] => []
    | (m, n) :: r => if n ≤ 1 then r else (m, n - 1) :: r
  let s := modTdl (fun t => { t with
    replay := t.replay ++ [⟨t.nextSeq, mirror, 0⟩]
    nextSeq := (t.nextSeq + 1) % 65536
    outC := if mirror then t.outC else step t.outC
    outM := if mirror then step t.outM else t.outM
    lastCtrl := !mirror }) s
  if mirror then tdlReg (fun c => wrF c TDL_CREDIT.MIRROR (creditM s - 1)) s
  else tdlReg (fun c => wrF c TDL_CREDIT.CTRL (creditC s - 1)) s

/-- Send what credits and the replay buffer allow: CTRL first, but at most every other flit while MIRROR flits wait (R399). -/
def pump : Nat → State → State
  | 0, s => s
  | n + 1, s =>
    let canC := !s.tdl.outC.isEmpty && decide (0 < creditC s)
    let canM := !s.tdl.outM.isEmpty && decide (0 < creditM s)
    if !linkUp s || decide (64 ≤ s.tdl.replay.length) then s
    else if canC && !(canM && s.tdl.lastCtrl) then pump n (sendFlit false s)
    else if canM then pump n (sendFlit true s)
    else s

/-- Send a message of the CTRL channel. -/
def sendCtrl (m : TdlMsg) (s : State) : State :=
  pump 256 (modTdl (fun t => { t with outC := t.outC ++ [(m, msgFlits m)] }) s)

/-- Send a message of the MIRROR channel that is no mirror record. -/
def sendRead (tag : Nat) (vals : List Nat) (s : State) : State :=
  pump 256 (modTdl (fun t => { t with outM := t.outM ++ [(.readData tag vals, msgFlits (.readData tag vals))] }) s)

/-- Send a mirror record under the next MSEQ (R400). -/
def sendMirror (r : MirrorRec) (s : State) : State :=
  let n := s.tdl.mseqTx + 1
  pump 256 (modTdl (fun t => { t with
    mseqTx := n
    unacked := t.unacked ++ [(n, r)]
    outM := t.outM ++ [(.mirror n r, msgFlits (.mirror n r))] }) s)

/-- Resend mirror records from an MSEQ on (R403). -/
def resendFrom (mseq : Nat) (s : State) : State :=
  pump 256 (modTdl (fun t => { t with
    outM := t.outM ++ (t.unacked.filter (fun e => decide (mseq ≤ e.1))).map (fun e => (.mirror e.1 e.2, msgFlits (.mirror e.1 e.2))) }) s)

/-- The link goes down (R398): counted, and it retrains. -/
def linkDown (s : State) : State :=
  if linkUp s then pairEvent (tdlReg (fun c => incR (wrB c TDL_STAT.LINK false) TDL_DOWN 1) s) else s

/-- Resend the flits that are not acknowledged; the eighth consecutive resend of one takes the link down. -/
def resendFlits (s : State) : State :=
  let n := s.tdl.replay.length
  let s := tdlReg (fun c => incR c TDL_REPLAY n) s
  let s := modTdl (fun t => { t with replay := t.replay.map (fun e => { e with resends := e.resends + 1 }) }) s
  if s.tdl.replay.any (fun e => decide (8 ≤ e.resends)) then linkDown s else s

/-- An acknowledgement of flits up to an FSEQ. -/
def ackFlits (a : Nat) (s : State) : State :=
  modTdl (fun t => { t with replay := t.replay.filter (fun e => !decide ((a + 65536 - e.fseq) % 65536 < 32768)) }) s

/-- Valid flits have arrived: their acknowledgement and credits are taken, unless the 4 µs timer won over the
acknowledgement. -/
def takeHeader (h : FlitHdr) (s : State) : State :=
  let s := if h.ackLate then tdlReg (fun c => incR c TDL_LATE 1) s else ackFlits h.ack s
  let s := tdlReg (fun c => wrB (wrF (wrF c TDL_CREDIT.CTRL (min 16 (rdF c TDL_CREDIT.CTRL + h.credC)))
    TDL_CREDIT.MIRROR (min 128 (rdF c TDL_CREDIT.MIRROR + h.credM))) TDL_STAT.HEARD true) s
  pump 256 (modTdl (fun t => { t with rxSeq := (t.rxSeq + h.flits) % 65536, nak := false }) s)

/-- PAIR_OK is cleared (R407): what waited for the partner's ACK goes on alone, and destaged data is dropped. -/
def pairLost (s : State) : State := elgReg (fun c => wrB c ELG_CTL.PAIR_OK false) s

end Sys2Proof.Machine
end

