-- ==== Sys2Proof/Machine/MsqJobs.lean ====
section
/-! DEFINITION. The Job Table, the store and its windows, the event queue and the trace buffer (spec/04). -/

namespace Sys2Proof.Machine

/-! ### The store (R131, R132, R141) -/

/-- STORE_SCRUB (R132): while no job runs, one word is checked; a word that fails parity is reloaded from the image. -/
def storeScrub (k : Fin 4) (a : Nat) (imgBad : Bool) (s : State) : State :=
  match (mcOf s k).job, fetchWord (mcOf s k) (a % 2 ^ 14) with
  | none, some w => if parityOk w then s else reloadWord k (a % 2 ^ 14) imgBad (mcCount k MSQ_SCRUB_FIX 1 s)
  | _, _ => s

/-- The store word as a window reads it. -/
def storeWord (m : Mc) (a : Nat) : Nat := (fetchWord m a).getD (Config.vendorWord a)

/-- Advance MSQ_ST_IDX after an access (AUTOINC). -/
def stAdvance (m : Mc) : Mc :=
  if rdB m.csr MSQ_ST_IDX.AUTOINC then
    let l := rdF m.csr MSQ_ST_IDX.LANE
    if 4 ≤ l then
      { m with csr := wrF (wrF m.csr MSQ_ST_IDX.LANE 0) MSQ_ST_IDX.WORD (rdF m.csr MSQ_ST_IDX.WORD + 1) }
    else { m with csr := wrF m.csr MSQ_ST_IDX.LANE (l + 1) }
  else m

/-- Lane L of a store word. -/
def laneOf (w l : Nat) : Word :=
  if l ≤ 3 then BitVec.ofNat 32 (w >>> (32 * l)) else if l = 4 then BitVec.ofNat 32 ((w >>> 128) % 2 ^ 16) else 0

/-- A read of MSQ_ST_DATA: lane 0 latches the whole word, and the other lanes show the latched word (R141). -/
def stRead (m : Mc) : Word × Mc :=
  let a := rdF m.csr MSQ_ST_IDX.WORD
  let l := rdF m.csr MSQ_ST_IDX.LANE
  let m := if l = 0 then { m with readLatch := storeWord m a } else m
  (laneOf m.readLatch l, stAdvance m)

/-- A read of what is not there returns zero (R3, R25). -/
def readsZero (s : State) : State := { s with sys := { s.sys with rdata := 0 } }

/-- STORE_LANE0_READ (R141): a read of lane 0 latches the whole store word. -/
def storeLane0Read (k : Fin 4) (s : State) : State :=
  let m := mcOf s k
  if mcAbsent s k then readsZero s
  else if rdF m.csr MSQ_ST_IDX.LANE = 0 then
    let (v, m) := stRead m
    let s := setMc k m s
    { s with sys := { s.sys with rdata := v } }
  else s

/-- A write of MSQ_ST_DATA (R141): lanes 0 to 3 are staged, lane 4 commits the staged word, parity as written. A commit is
ignored while a job runs, and for words 0x0000 to 0x37FF under LOCK. -/
def stWrite (w : Word) (m : Mc) : Mc :=
  let a := rdF m.csr MSQ_ST_IDX.WORD
  let l := rdF m.csr MSQ_ST_IDX.LANE
  let m := if l ≤ 3 then { m with staged := tput 0 m.staged l w }
    else if l = 4 ∧ m.job.isNone ∧ ¬ (a < 0x3800 ∧ rdB m.csr MC_ASC_CTL.LOCK) then
      let v := (List.range 4).foldl (fun x i => x + (tget 0 m.staged i).toNat * 2 ^ (32 * i)) (wordField w 15 0 * 2 ^ 128)
      { m with store := tput storeUnset m.store a v }
    else m
  stAdvance m

/-- STORE_WORD_COMMIT (R141). -/
def storeWordCommit (k : Fin 4) (w : Word) (s : State) : State :=
  modMc k (fun m => if rdF m.csr MSQ_ST_IDX.LANE = 4 then stWrite w m else m) s

/-! ### Arming, cancelling and beginning jobs (R127 to R129, R505) -/

/-- MSQ_STAT.STATE: 0 disabled or DEAD, 1 idle, 2 armed, 3 running. -/
def msqState (m : Mc) : Nat :=
  if !rdB m.csr MSQ_CTL.EN || rdB m.csr MSQ_STAT.DEAD then 0
  else if m.job.isSome then 3 else if m.armed.isEmpty then 1 else 2

/-- Whether a structure of n bytes at a lies wholly within the buffer space. -/
def inBuffer (s : State) (a n : Nat) : Bool := decide (a + n ≤ bufferSpace s)

/-- The reasons for which an ARM is rejected (R127, R30, R131, R459, and step 2 of R297). -/
def armRejected (s : State) (k : Fin 4) (e : Nat) : Bool :=
  let m := mcOf s k
  let a := jobAddr m e
  decide (jtState m e ≠ 0) || addrReserved s.part a || decide (addrMc a ≠ k.val) ||
  (decide (s.part = .dhk7420) && decide (2 ≤ k.val)) || !m.own || decide (msqState m = 0) ||
  decide (jobCount m e = 0) || decide (2046 < jobFirst m e + jobCount m e - 1) || decide (639 < jtF m e 0 9 0) ||
  !inBuffer s ((jtW m e 4).toNat * 8) 1024 ||
  (decide (jtF m e 6 15 0 ≠ 0) && !inBuffer s ((jtW m e 5).toNat * 8) (jtF m e 6 15 0 * 16)) ||
  (decide ((jtW m e 7).toNat ≠ 0) && !inBuffer s ((jtW m e 7).toNat * 8) 512) ||
  mcOutOfService s k || decide (s.sys.dump ≠ .none)

/-- JT_ARM (R127): the entry is armed behind those armed before it; a rejected free entry ends with END 5. -/
def jtArm (k : Fin 4) (e : Nat) (s : State) : State :=
  let m := mcOf s k
  if armRejected s k e then
    let s := mcReg k (fun c => wrB c MSQ_JT_CMD.REJ true) s
    if jtState m e = 0 then modMc k (endUnrun e 5 2) s else s
  else
    modMc k (fun m => jtSetState e 1 { m with
      csr := wrB m.csr MSQ_JT_CMD.REJ false
      armed := m.armed ++ [e]
      holds := tput 0 m.holds e 0 }) s

/-- JT_CANCEL (R129), by the entry's state. LATE says whether this cancel found the job done. -/
def jtCancel (k : Fin 4) (e : Nat) (s : State) : State :=
  let m := mcOf s k
  let late := fun (b : Bool) => mcReg k (fun c => wrB c MSQ_JT_CMD.LATE b) s
  match jtState m e with
  | 1 => jobEndHook k e 3 (modMc k (endUnrun e 1 3) (late false))
  | 2 => modJob k (fun j => if j.entry = e then { j with cancel := true } else j) (late false)
  | 3 => late true
  | _ => late false

/-- CANCEL_EFFECT (R129): at a sector boundary, with the sector being written completed, the job ends with END 1. -/
def cancelEffect (k : Fin 4) (s : State) : State :=
  match (mcOf s k).job with
  | none => s
  | some j => if j.cancel then endJob k 1 3 0 (slotEnd k false s) else s

/-- The checks of R505 on a written plan, entry by entry: the previous Stripe's last slot is `prev`. -/
def planOk (slots : Nat) (usable : List Nat) (skip : Nat → Bool) : List Word → Int → Bool
  | [], _ => true
  | w :: r, prev =>
    let first := wordField w 31 21
    let d := wordField w 20 14
    let p := wordField w 13 10
    let st := planStripe usable w
    let all := st.1 ++ st.2
    decide (1 ≤ d ∧ d ≤ 64 ∧ 2 ≤ p ∧ p ≤ 8) && decide (first ≤ 2046) && !skip first &&
    decide (all.length = d + p) && decide ((all.getLast?.getD 0) < slots) && decide (prev < (first : Int)) &&
    planOk slots usable skip r (all.getLast?.getD 0)

/-- The checks of R505 that a job passes before its first word. -/
def jobParamsOk (s : State) (k : Fin 4) (e : Nat) : Bool :=
  let m := mcOf s k
  let plan := (jtW m e 7).toNat
  (jobDescs s m e).all (fun d => decide (d.2 ≠ 0) && decide (d.1 + d.2 ≤ 1024)) &&
  (decide (plan = 0) || planOk (entF (jobZfd s k e) 3 26 16) (jobUsable s k e) (jobSkip s m e) (planEntries s (plan * 8)) (-1))

/-- What is set when a job starts (R121). -/
def freshJob (s : State) (k : Fin 4) (e : Nat) : Job :=
  let m := mcOf s k
  { entry := e, pc := jtF m e 0 29 16, lastPc := jtF m e 0 29 16, mode := .words, stack := [], sp := jobFirst m e, bp := 0,
    markSp := jobFirst m e, markBp := 0, ctrA := 0, ctrB := 0, disp := 0, status := 0, gr0 := jtF m e 8 15 0,
    gr1 := jtF m e 8 31 16, evtd := 0, srvofs := 0, flags := 0, timer := .off, expired := false, knob := 0, commit := true, autoOff := false,
    need := jobNeed s k e, ordered := [], pendingDec := [], outcome := 10, window := none, syncFound := false,
    syncMiss := false, failedOnce := [], writeQ := [], writing := none, stripe := none, collect := [], erasures := [],
    stripeOk := false, traceAll := false, cancel := false, rgate := false, wgate := false, agate := false, done := 0,
    rebuilt := 0, recov := 0, fails := 0, revs := 1, evtLost := false, sectors := [],
    passed := dataPassed m e (jtF m e 0 9 0) 0, found := [], closed := [], vstep := .firstPass, vstatus := 0, vbudget := 0, vsets := [] }

/-- A job that is ready begins at its mark: R505 is checked, then its first word may run. The read loops stand at the
values of the zone in force (R121), and the SCE gets READER_OFS of the job's own head and zone (R73). -/
def startJob (k : Fin 4) (e : Nat) (s : State) : State :=
  let m := mcOf s k
  let plan := (jtW m e 7).toNat
  let zfd := jobZfd s k e
  if plan ≠ 0 ∧ entF zfd 0 31 31 = 0 then
    jobEndHook k e 2 (modMc k (endUnrun e 4 2) (mcReg k (fun c =>
      wrF (wrF (wrB c MC_ZFD_ERR.STICKY true) MC_ZFD_ERR.ZONE (jobZone m e)) MC_ZFD_ERR.CODE 1) s))
  else if !jobParamsOk s k e then jobEndHook k e 2 (modMc k (endUnrun e 6 2) s)
  else
    let j := freshJob s k e
    let ofs := entF (zoneEntry s k true (jobHead m e) (jobZone m e)) 2 15 0
    sceReaderOfs k ofs (modMc k (fun m => jtSetState e 2 (afePut (zaeIn m) (0, 0, 0) { m with
      job := some j
      armed := m.armed.filter (· ≠ e) })) s)

/-- JOB_BEGIN (R128, R20): at the mark of its start wedge an armed job begins, unless it is held, late or at its
limit. In free run LOCK is 0 (R88). -/
def jobBegin (k : Fin 4) (e : Nat) (lateArm : Bool) (s : State) : State :=
  let m := mcOf s k
  if !m.armed.contains e || decide (jtF m e 0 9 0 ≠ m.wedge) || !rdB m.csr MSQ_CTL.EN || rdB m.csr MSQ_STAT.DEAD ||
      (m.loadHold && decide (0x3800 ≤ jtF m e 0 29 16)) then s
  else if lateArm then
    mcCount k MSQ_LATE_ARM 1 (modMc k (fun m => { m with holds := tput 0 m.holds e (tget 0 m.holds e + 1) }) s)
  else if !onTrack s k || !rdB m.csr MC_SYN_STAT.LOCK || m.hfltLow || m.job.isSome || decide (m.armed.head? ≠ some e) then
    if max 1 (rdF m.csr MSQ_CTL.MAXHOLD) ≤ tget 0 m.holds e then jobEndHook k e 1 (modMc k (endUnrun e 3 1) s)
    else mcCount k MSQ_HELD 1 (modMc k (fun m => { m with holds := tput 0 m.holds e (tget 0 m.holds e + 1) }) s)
  else startJob k e s

/-- MSQ_EN_WRITE (R128, R141): 1 enables; 0 takes effect when no job is running. -/
def msqEnWrite (k : Fin 4) (b : Bool) (s : State) : State :=
  modMc k (fun m =>
    if b then { m with csr := wrB m.csr MSQ_CTL.EN true, disablePending := false }
    else if m.job.isSome then { m with disablePending := true }
    else { m with csr := wrB m.csr MSQ_CTL.EN false, disablePending := false }) s

/-- JT_DONE_CLEAR (R129): clearing an entry's done bit frees the entry. -/
def jtDoneClear (k : Fin 4) (e : Nat) (s : State) : State :=
  modMc k (fun m => if jtState m e = 3 then jtDone e false (jtSetState e 0 m) else m) s

/-! ### Event queue and trace buffer (R141, R142) -/

/-- A read of MSQ_EVT_LO latches the oldest event. -/
def evtLo (m : Mc) : Word × Mc :=
  match m.events with
  | [] => (0, { m with evtLatch := none })
  | e :: _ => (e.1, { m with evtLatch := some e })

/-- A read of MSQ_EVT_HI returns the latched event's high word and removes the event. -/
def evtHi (m : Mc) : Word × Mc :=
  match m.evtLatch with
  | some e => (e.2, { m with evtLatch := none, events := if m.events.head? = some e then m.events.drop 1 else m.events })
  | none => ((m.events.head?.map Prod.snd).getD 0, { m with events := m.events.drop 1 })

/-- A read of MSQ_TRACE returns the oldest entry and removes it. -/
def traceOut (m : Mc) : Word × Mc := (m.trace.headD 0, { m with trace := m.trace.drop 1 })

/-- Give the reader what a window of a Media Channel returned. -/
def mcReadOut (k : Fin 4) (f : Mc → Word × Mc) (s : State) : State :=
  let r := f (mcOf s k)
  let s := setMc k r.2 s
  { s with sys := { s.sys with rdata := r.1 } }

/-- MSQ_CLR.EVT (R143): events removed this way are not counted as lost. -/
def clrEvt (k : Fin 4) (s : State) : State := modMc k (fun m => { m with events := [], evtLatch := none }) s

/-- MSQ_CLR.TRACE (R143). -/
def clrTrace (k : Fin 4) (s : State) : State := modMc k (fun m => { m with trace := [] }) s

/-- MSQ_CLR.CNT (R143): every counter at offsets 0x0840 to 0x0854. -/
def clrMsqCnt (k : Fin 4) (s : State) : State := mcReg k (fun c => tdrop c 0x840 0x858) s

/-! ### Loading a customer image (R135 to R137) -/

/-- A little-endian field of an image: n bytes from byte i on (R135). -/
def GrlnImage.le (img : GrlnImage) (i n : Nat) : Nat :=
  (List.range n).foldl (fun v j => v + img.bytes.getD (i + j) 0 % 256 * 2 ^ (8 * j)) 0

/-- The fields of an image (R135): MAGIC, FORMAT, ETV, BASE, WORDS, the words of 18 bytes from byte 64 on, and the signature, the
last 96 bytes, r and then s, most significant byte first. -/
def GrlnImage.magic (img : GrlnImage) : Nat := img.le 0 4
def GrlnImage.format (img : GrlnImage) : Nat := img.le 4 2
def GrlnImage.etv (img : GrlnImage) : Nat := img.le 6 2
def GrlnImage.base (img : GrlnImage) : Nat := img.le 8 2
def GrlnImage.count (img : GrlnImage) : Nat := img.le 10 2
def GrlnImage.words (img : GrlnImage) : List Nat := (List.range img.count).map (fun i => img.le (64 + 18 * i) 18)
def GrlnImage.sigBytes (img : GrlnImage) : List Nat := img.bytes.drop (img.bytes.length - 96)
def GrlnImage.r (img : GrlnImage) : Nat := (img.sigBytes.take 48).foldl (fun v b => v * 256 + b % 256) 0
def GrlnImage.s (img : GrlnImage) : Nat := (img.sigBytes.drop 48).foldl (fun v b => v * 256 + b % 256) 0

/-- The header of an image is valid (R135). The image fills whole dwords (CDW10), so that up to three bytes may lie
between the words and the signature. -/
def GrlnImage.headerOk (img : GrlnImage) : Bool :=
  let size := 64 + 18 * img.count + 96
  decide (img.magic = 0x4E4C5247 ∧ img.format = 1 ∧ 1 ≤ img.count ∧ img.count ≤ 2048) && decide (img.le 12 52 = 0) &&
  decide (size ≤ img.bytes.length ∧ img.bytes.length < size + 4)

/-- A key that the option area enrolls, 96 bytes from a field on, as a number; 0 where none is enrolled (R354). -/
def enrolledKey (s : State) (n : Nat) : Nat :=
  (List.range 24).foldl (fun v i => v + (tget 0 s.nv.opt (n + i)).toNat * 2 ^ (32 * i)) 0

/-- Whether bytes carry the signature (r, s) under an enrolled key: 97 bytes of a point, of which the first, 4, is
left out here (R354). -/
def signedBy (key : Nat) (msg : List Nat) (r s : Nat) : Bool :=
  let bytes := (List.range 96).map (fun j => key / 256 ^ j % 256)
  decide (key ≠ 0) && ecdsaOk (bytesBe (bytes.take 48)) (bytesBe (bytes.drop 48)) msg r s

/-- The customer microcode key (R136). -/
def customerKey (s : State) : Nat := enrolledKey s 700

/-- The signature of an image is valid: over all the bytes before it, under the enrolled key (R135, R136). -/
def imageSigned (s : State) (img : GrlnImage) : Bool :=
  signedBy (customerKey s) (img.bytes.take (img.bytes.length - 96)) img.r img.s

/-- The first word of an image that fails a test, by its index. -/
def firstBad (f : Nat → Bool) (ws : List Nat) : Option Nat := (List.range ws.length).find? (fun i => f (ws.getD i 0))

/-- The status of a Microprogram Load by the image alone (R136), with the failing word's index: `none` where it passes.
`absent` says that the mask names a Media Channel that the part lacks. -/
def imageStatus (s : State) (img : GrlnImage) (absent : Bool) : Option (Nat × Nat) :=
  if !imageSigned s img then some (0xC0, 0)
  else if !img.headerOk then some (0xC1, 0)
  else if img.base < 0x3800 ∨ 0x4000 < img.base + img.count then some (0xC2, 0)
  else match firstBad (fun w => !parityOk w) img.words with
    | some i => some (0xC3, i)
    | none => match firstBad illegalWord img.words with
      | some i => some (0xC7, i)
      | none =>
        if img.etv ≠ mwImm (storeWord (mcOf s 0) 0x00FF) then some (0xC4, 0)
        else if absent then some (0xC5, 0) else none

/-- Step 3 of R137: the customer region becomes the image, and HALT words with STATUS 0xFF around it. -/
def loadRegion (img : GrlnImage) (m : Mc) : Mc :=
  let cleared := tdrop m.store 0x3800 0x4000
  { m with
    store := (List.range img.count).foldl (fun t i => tput storeUnset t (img.base + i) (img.words.getD i 0)) cleared
    loadHold := false }

/-- No job of the customer region is running (R137, step 2). -/
def customerQuiet (m : Mc) : Bool :=
  match m.job with
  | none => true
  | some j => decide (jtF m j.entry 0 29 16 < 0x3800)

end Sys2Proof.Machine
end

