-- ==== Sys2Proof/Machine/PlaceMap.lean ====
section
/-! DEFINITION. The Band Map: bands and their plans, extents, computed mappings, lookup, and what a map change does
(R182 to R202, R214, R215). -/

namespace Sys2Proof.Machine

/-! ### Access -/

/-- Update the PLE. -/
def modPle (f : Ple → Ple) (s : State) : State := { s with ple := f s.ple }

/-- Update the map. -/
def modMap (f : MapImage → MapImage) (s : State) : State := modPle (fun p => { p with map := f p.map }) s

/-- Update the PLE's registers. -/
def pleReg (f : List (Nat × Word) → List (Nat × Word)) (s : State) : State := modPle (fun p => { p with csr := f p.csr }) s

/-- The scheduler of an MC. -/
def schedOf (s : State) (k : Fin 4) : Sched := quadGet s.ple.sched k

/-- Update the scheduler of an MC. -/
def modSched (k : Fin 4) (f : Sched → Sched) (s : State) : State :=
  modPle (fun p => { p with sched := quadSet p.sched k (f (quadGet p.sched k)) }) s

/-- The key of an LBA of a namespace index. -/
def lkey (nsx lba : Nat) : Nat := nsx * 2 ^ 36 + lba

/-- The key of a namespace zone. -/
def zkey (nsx z : Nat) : Nat := nsx * 2 ^ 20 + z

/-- Milliseconds of the timebase. -/
def nowMs (s : State) : Nat := s.sys.us / 1000

/-- A media channel number as an index. -/
def mcIx (n : Nat) : Fin 4 := ⟨n % 4, Nat.mod_lt _ (by decide)⟩

/-- A namespace by its NSID. -/
def nsById (s : State) (nsid : Nat) : Option Ns := s.ple.map.nss.find? (fun n => decide (n.nsid = nsid))

/-- A pool of compaction as a namespace: indices 1,024 + class × 3 + temperature (R213). -/
def poolNsx (cls temp : Nat) : Nat := 1024 + cls * 3 + temp
def poolNs (x : Nat) : Ns := ⟨0, x, true, (x - 1024) / 3, 0, 0, 0, 0, 0, false⟩

/-- A namespace by its index, a pool among them. -/
def nsByX (s : State) (nsx : Nat) : Option Ns :=
  if 1024 ≤ nsx then some (poolNs nsx) else s.ple.map.nss.find? (fun n => decide (n.nsx = nsx))

/-- Whether a key names a sector of a pool. -/
def poolKey (key : Nat) : Bool := decide (1024 ≤ key / 2 ^ 36 ∧ key / 2 ^ 36 < 1033)

/-! ### Option area values (R31, R185, R198) -/

/-- A field of the option area, or its default where the area leaves it zero. -/
def optOr (s : State) (f dflt : Nat) : Nat :=
  let v := (tget 0 s.nv.opt f).toNat
  if v = 0 then dflt else v

/-- CMR_ZONES: the rate zones of the conventional region. -/
def cmrZones (s : State) : Nat := optOr s 0 1

/-- BQ, the band quantum in sectors. -/
def bandQuantum (s : State) : Nat := optOr s 1 131072

/-- SEQMIN in sectors. -/
def seqMin (s : State) : Nat := optOr s 2 1024

/-! ### Bands and their plans (R31 to R36, R49, R52, R53, R68, R69, R183) -/

/-- A band of the Band Table. -/
def bandAt (s : State) (b : Nat) : Option Band := tget none s.ple.map.bands b

/-- Replace a band. -/
def putBand (b : Nat) (x : Band) (s : State) : State := modMap (fun m => { m with bands := tput none m.bands b (some x) }) s

/-- Update a band that is listed. -/
def modBand (b : Nat) (f : Band → Band) (s : State) : State :=
  match bandAt s b with
  | none => s
  | some x => putBand b (f x) s

/-- The listed bands that meet a condition. -/
def bandsWhere (s : State) (p : Nat → Band → Bool) : List (Nat × Band) :=
  s.ple.map.bands.filterMap (fun e => match e.2 with
    | some b => if p e.1 b then some (e.1, b) else none
    | none => none)

/-- The descriptor of a band's zone. -/
def bandZfd (s : State) (b : Band) : List Word := zoneEntry s (mcIx b.mc) false b.head b.zone

/-- Whether a band lies in the conventional region: rate zones 0 to CMR_ZONES − 1 (R31). -/
def convBand (s : State) (b : Band) : Bool := decide (b.zone < cmrZones s)

/-- Whether a track is of the system area: the first 64 tracks of the conventional region on head 0 of MC0 and MC1 (R36). -/
def systemTrack (s : State) (mc head track : Nat) : Bool :=
  let first := entF (zoneEntry s (mcIx mc) false head 0) 0 20 0
  decide (mc ≤ 1 ∧ head = 0 ∧ first ≤ track ∧ track < first + 64)

/-- The data tracks that a zone's end leaves a band that begins at a track, in the zone's writing direction (R32): a
whole band has BAND_TRACKS before GUARD guard tracks, a short one what is left less GUARD, if at least 16 + GUARD are
left; a staging band has 64 tracks or those that remain. -/
def bandLength (conv : Bool) (z : List Word) (first : Nat) : Nat :=
  let left := if entF z 0 29 29 = 1 then first + 1 - entF z 0 20 0 else entF z 1 20 0 + 1 - first
  let n := entF z 5 27 16
  let g := entF z 5 10 8
  if conv then min 64 left else if n + g ≤ left then n else if 16 + g ≤ left then left - g else 0

/-- The data tracks of a band in writing order, its retired tracks and the system area passed over. -/
def bandTracks (s : State) (b : Band) : List Nat :=
  let z := bandZfd s b
  let at_ := fun (i : Nat) => if entF z 0 29 29 = 1 then b.first - i else b.first + i
  ((List.range (bandLength (convBand s b) z b.first)).map at_).filter (fun t =>
    !b.skips.contains t && (decide (b.st = 4) || !systemTrack s b.mc b.head t))

/-- Whether a defect entry covers a slot. -/
def defectHits (kind mc head track slot : Nat) (d : Defect) : Bool :=
  decide (d.kind = kind ∧ d.mc = mc ∧ d.head = head ∧ d.track = track ∧ d.slot ≤ slot ∧ slot < d.slot + d.run)

/-- Sorted entry of a defect by bits [61:24] (R65). -/
def defectKey (d : Defect) : Nat := ((d.mc * 16 + d.head) * 2 ^ 21 + d.track) * 2 ^ 23 + d.slot * 2 ^ 12 + d.run
def insertDefect (d : Defect) : List Defect → List Defect
  | [] => [d]
  | x :: xs => if defectKey d < defectKey x then d :: x :: xs else x :: insertDefect d xs

/-- Cut a list into pieces of at most n. -/
def chunksOf {α : Type} (n : Nat) (l : List α) : List (List α) :=
  (List.range ((l.length + n - 1) / n)).map (fun i => (l.drop (i * n)).take n)

/-- The usable slots of a track: every slot of the zone but the slipped ones (R66), and for a new plan (`fresh`) without the grown
defects too (R68). -/
def usableAt (s : State) (mc head slots : Nat) (fresh : Bool) (track : Nat) : List Nat :=
  let off := (s.ple.map.pdl ++ s.ple.map.gdl).filter (fun d => decide ((d.kind = 0 ∨ (fresh ∧ d.kind = 1)) ∧ d.mc = mc ∧
    d.head = head ∧ d.track = track))
  (List.range slots).filter (fun x => !off.any (fun d => decide (d.slot ≤ x ∧ x < d.slot + d.run)))
def usableOf (s : State) (b : Band) (fresh : Bool) (track : Nat) : List Nat :=
  usableAt s b.mc b.head (entF (bandZfd s b) 3 26 16) fresh track
def usableSlots (s : State) (b : Band) (track : Nat) : List Nat := usableOf s b false track

/-- The Stripes of a system-area track (R36, R54): 16 data sectors, a journal unit of 64 KiB, and 8 parity sectors
each, over its usable slots in their order; slots that are left over stay unused. The rules give the area's parity
count and no plan (DESIGN CHOICE, log 254). -/
def sysPlans (s : State) (mc track : Nat) : List StripeRec :=
  let slots := entF (zoneEntry s (mcIx mc) false 0 0) 3 26 16
  ((chunksOf 24 (usableAt s mc 0 slots false track)).filter (fun l => decide (l.length = 24))).map (fun l =>
    ⟨mc, 0, track, l.take 16, l.drop 16, 0, true⟩)

/-- The recorded written plans of a conventional track (R53). -/
def plansOn (s : State) (mc head track : Nat) : List StripeRec :=
  if systemTrack s mc head track then sysPlans s mc track
  else s.ple.map.plans.filter (fun r => r.live && decide (r.mc = mc ∧ r.head = head ∧ r.track = track))

/-- The Stripes of a track of a band, data slots and parity slots: the fixed plan (R52), or in the conventional region
the recorded written plans in the order of their slots (R53). -/
def trackPlan (s : State) (b : Band) (track : Nat) : List (List Nat × List Nat) :=
  if convBand s b then
    (plansOn s b.mc b.head track).map (fun r => (r.data, r.par))
  else fixedPlan b.p (usableSlots s b track)

/-- The Stripes of a band in writing order, each with its track. -/
def bandStripes (s : State) (b : Band) : List (Nat × List Nat × List Nat) :=
  (bandTracks s b).flatMap (fun t => (trackPlan s b t).map (fun p => (t, p)))

/-- The Stripe that begins at a data offset of a band. -/
def stripeFrom : List (Nat × List Nat × List Nat) → Nat → Option (Nat × List Nat × List Nat)
  | [], _ => none
  | p :: ps, off => if off = 0 then some p else if off < p.2.1.length then none else stripeFrom ps (off - p.2.1.length)

/-- The Stripe of a data offset of a band, with the offset of its first data sector. -/
def stripeHolding : List (Nat × List Nat × List Nat) → Nat → Nat → Option (Nat × Nat × List Nat × List Nat)
  | [], _, _ => none
  | p :: ps, acc, off =>
    if off < acc + p.2.1.length then some (acc, p) else stripeHolding ps (acc + p.2.1.length) off

/-- The data slots of a track, in plan order. -/
def trackData (s : State) (b : Band) (track : Nat) : List Nat := (trackPlan s b track).flatMap Prod.fst

/-- The data sectors that a band of parity p holds under the fixed plan, for a staging band the most that its written
plans can. -/
def planCapacity (s : State) (b : Band) (fresh : Bool) : Nat :=
  (bandTracks s b).foldl (fun n t => n + ((fixedPlan b.p (usableOf s b fresh t)).flatMap Prod.fst).length) 0

/-- Find a data offset among tracks. -/
def locate (s : State) (b : Band) : List Nat → Nat → Option (Nat × Nat)
  | [], _ => none
  | t :: ts, off =>
    let d := trackData s b t
    match d[off]? with
    | some slot => some (t, slot)
    | none => locate s b ts (off - d.length)

/-- The packed physical address of a data offset of a band. -/
def bandAddr (s : State) (n off : Nat) : Option Nat :=
  match bandAt s n with
  | none => none
  | some b => (locate s b (bandTracks s b) off).map (fun p => packAddr b.mc b.head p.1 p.2)

/-- The data offset of a slot, counted over tracks. -/
def offsetIn (s : State) (b : Band) (track slot : Nat) : List Nat → Nat → Option Nat
  | [], _ => none
  | t :: ts, acc =>
    let d := trackData s b t
    if t = track then (d.findIdx? (fun x => decide (x = slot))).map (fun i => acc + i)
    else offsetIn s b track slot ts (acc + d.length)

/-- The band whose data tracks a track is among. -/
def bandOfTrack (s : State) (mc head track : Nat) : Option (Nat × Band) :=
  (bandsWhere s (fun _ b => decide (b.mc = mc ∧ b.head = head) && (bandTracks s b).contains track)).head?

/-- The band and the data offset that hold a physical address. -/
def bandOf (s : State) (addr : Nat) : Option (Nat × Nat) :=
  match bandOfTrack s (addrMc addr) (addrHead addr) (addrTrack addr) with
  | none => none
  | some (n, b) => (offsetIn s b (addrTrack addr) (addrSlot addr) (bandTracks s b) 0).map (fun o => (n, o))

/-- Whether an address lies in a band. -/
def addrIn (s : State) (b addr : Nat) : Bool := decide ((bandOf s addr).map Prod.fst = some b)

/-- The address n data sectors after an address, in the same band. -/
def addrPlus (s : State) (addr n : Nat) : Option Nat :=
  if n = 0 then some addr else match bandOf s addr with
    | none => none
    | some (b, o) => bandAddr s b (o + n)

/-- The recorded plan that holds a slot. -/
def planOf (s : State) (addr : Nat) : Option StripeRec :=
  (plansOn s (addrMc addr) (addrHead addr) (addrTrack addr)).find? (fun r =>
    r.data.contains (addrSlot addr) || r.par.contains (addrSlot addr))

/-- GEN for the tag of a slot (R47): the Stripe's rewrite generation in the conventional region, 0 in the system area, the band's
otherwise. -/
def genAt (s : State) (addr : Nat) : Nat :=
  if systemTrack s (addrMc addr) (addrHead addr) (addrTrack addr) then 0
  else match planOf s addr, bandOfTrack s (addrMc addr) (addrHead addr) (addrTrack addr) with
    | some r, _ => r.gen
    | none, some (_, b) => b.gen
    | none, none => 0

/-! ### Extents (R186, R187, R199) -/

/-- Whether a record maps an LBA. -/
def Extent.covers (e : Extent) (nsx lba : Nat) : Bool :=
  decide (e.nsx = nsx ∧ e.slba ≤ lba ∧ lba < e.slba + e.len)

/-- Whether a record overlaps a range. -/
def Extent.meets (e : Extent) (nsx lo n : Nat) : Bool :=
  decide (e.nsx = nsx ∧ e.slba < lo + n ∧ lo < e.slba + e.len)

/-- What is left of a record when a range is taken out of it: up to two records without echo copies (R199, R209). -/
def trimOne (s : State) (nsx lo n : Nat) (e : Extent) : List Extent :=
  if e.meets nsx lo n then
    let left : List Extent := if e.slba < lo then
      [{ e with len := lo - e.slba, ecnt := 0, echo := 0 }] else []
    let hi := lo + n
    let right : List Extent := if hi < e.slba + e.len then
      [{ e with slba := hi, len := e.slba + e.len - hi, paddr := (addrPlus s e.paddr (hi - e.slba)).getD e.paddr,
                ecnt := 0, echo := 0 }] else []
    if e.anchor then [] else left ++ right
  else [e]

/-- Take a range out of the extent records. -/
def trimExtents (nsx lo n : Nat) (s : State) : State :=
  modMap (fun m => { m with extents := m.extents.flatMap (trimOne s nsx lo n) }) s

/-- Enter a record in order of namespace index and first LBA; a record that continues its neighbour's LBAs and data offsets
joins it. -/
def insertExtent (joins : Extent → Extent → Bool) (e : Extent) : List Extent → List Extent
  | [] => [e]
  | x :: xs =>
    if lkey e.nsx e.slba < lkey x.nsx x.slba then e :: x :: xs
    else if joins x e then { x with len := x.len + e.len } :: xs
    else x :: insertExtent joins e xs

/-- Whether a record continues another (R186): same namespace, kind and class, no echo live or being made, next LBA
and next data offset. -/
def extentJoins (s : State) (x e : Extent) : Bool :=
  decide (x.nsx = e.nsx ∧ x.slba + x.len = e.slba ∧ x.cls = e.cls ∧ x.stg = e.stg ∧ x.ovr = e.ovr ∧ x.anchor = e.anchor ∧
    x.ecnt = 0 ∧ e.ecnt = 0 ∧ x.echo = 0 ∧ e.echo = 0 ∧ x.len + e.len ≤ 65535) && decide (addrPlus s x.paddr x.len = some e.paddr)

/-- Enter a record. -/
def putExtent (e : Extent) (s : State) : State :=
  modMap (fun m => { m with extents := insertExtent (extentJoins s) e m.extents }) s

/-- The record that maps an LBA, if one does. -/
def extentOf (s : State) (nsx lba : Nat) : Option Extent :=
  s.ple.map.extents.find? (fun e => !e.anchor && e.covers nsx lba)

/-! ### Zones and computed mappings (R190 to R193) -/

/-- The width of a class. -/
def classWidth (cls : Nat) : Nat := if cls = 1 then 3 else 1

/-- ZCAP in sectors. -/
def zcap (s : State) (n : Ns) : Nat := classWidth n.cls * bandQuantum s

/-- The smallest power of two that is not below n. -/
def pow2Up (n : Nat) : Nat := if n ≤ 1 then 1 else 2 ^ (Nat.log2 (n - 1) + 1)

/-- ZSZE in sectors; a pool's zones have room for any group of bands. -/
def zsze (s : State) (n : Ns) : Nat := if 1024 ≤ n.nsx then 2 ^ 26 else pow2Up (zcap s n)

/-- A zone of a namespace. An unlisted zone is empty. -/
def zoneAt (s : State) (nsx z : Nat) : Zone := (tget none s.ple.map.zones (zkey nsx z)).getD ⟨1, 0, [], [], false⟩

/-- Replace a zone. -/
def putZone (nsx z : Nat) (x : Zone) (s : State) : State :=
  modMap (fun m => { m with zones := tput none m.zones (zkey nsx z) (some x) }) s

/-- Where a band's data is written: the band that replaces a DEGRADED one under rebuild (R202), or the band itself. -/
def putTarget (s : State) (b : Nat) : Nat := ((s.ple.remakes.find? (fun r => decide (r.old = b))).map (fun r => r.new)).getD b

/-- A zone as its data is written. -/
def placedZone (s : State) (z : Zone) : Zone := { z with bands := z.bands.map (putTarget s) }

/-- Whether a band is DEGRADED (R183). -/
def bandDegraded (s : State) (b : Nat) : Bool := decide ((bandAt s b).map (fun x => x.st) = some 7)

/-- Whether an address lies in a DEGRADED band. -/
def addrDegraded (s : State) (a : Nat) : Bool := ((bandOf s a).map (fun e => bandDegraded s e.1)).getD false

/-- Whether a data offset of a band is on media with its data, and not as fill. -/
def offsetWritten (s : State) (b off : Nat) : Bool :=
  match bandAt s b with
  | some x => decide (off < x.wp) && !x.holes.contains off
  | none => false

/-- Whether a data offset can still get its data at its place: the band is OPEN, or a rebuild goes on, and no fill
stands there. -/
def offsetOpen (s : State) (b off : Nat) : Bool :=
  match bandAt s b with
  | some x => !x.holes.contains off && (decide (off < x.next) || decide (x.st = 1 ∨ x.st = 7))
  | none => false

/-- The key of a parity sum: a zone and an offset within its parity unit's band (R193). -/
def parityKey (nsx z off : Nat) : Nat := 2 ^ 60 + zkey nsx z * 2 ^ 28 + off

/-- Whether a row of a P1 zone takes no more data, so that its parity is final (R194). -/
def rowWhole (z : Zone) (row : Nat) : Bool := decide ((row + 1) * 768 ≤ z.wp ∨ z.st = 14)

/-- The band and data offset behind a zone offset, by member of a P2 pair (R193). -/
def computedHome (n : Ns) (z : Zone) (o member : Nat) : Option (Nat × Nat) :=
  if n.cls = 1 then
    let r := o / 768
    let k := (o % 768) / 256
    let g := (z.bands.getD 0 0) % 4
    let par := (r + g) % 4
    let acts := ([0, 1, 2, 3] : List Nat).filter (fun m => decide (m ≠ par))
    (z.bands[acts.getD k 0]?).map (fun b => (b, r * 256 + o % 256))
  else (z.bands[member]?).map (fun b => (b, o))

/-- Where an offset of a band is read: what was written beside a rebuild lies in the band that replaces a DEGRADED one (R202). -/
def readHome (s : State) (h : Nat × Nat) : Nat × Nat :=
  match s.ple.remakes.find? (fun r => decide (r.old = h.1)) with
  | some r => if bandDegraded s h.1 && !r.need.contains h.2 && offsetWritten s r.new h.2 then (r.new, h.2) else h
  | none => h

/-- The places of a zone offset that hold its data: one, or two of a P2 pair with the asked member first. -/
def zoneHomes (s : State) (n : Ns) (z : Zone) (o member : Nat) : List (Nat × Nat) :=
  let all := if n.cls = 2 then [computedHome n z o member, computedHome n z o (1 - member)] else [computedHome n z o 0]
  (all.filterMap (fun h => h.map (readHome s))).filter (fun h => offsetWritten s h.1 h.2)

/-- The physical address of a zone offset that is on media. -/
def computedAddr (s : State) (n : Ns) (z : Zone) (o member : Nat) : Option Nat :=
  (zoneHomes s n z o member).findSome? (fun h => bandAddr s h.1 h.2)

/-- The zone that a band belongs to, with its namespace. -/
def zoneOf (s : State) (b : Nat) : Option (Ns × Nat × Zone) :=
  s.ple.map.zones.findSome? (fun e => match e.2 with
    | some z => if z.bands.contains b then (nsByX s (e.1 / 2 ^ 20)).map (fun n => (n, e.1 % 2 ^ 20, z)) else none
    | none => none)

/-- The zone offset of a data offset of a member of a zone: its data sector, or the row and offset of a parity unit (R193). -/
inductive BandUnit where
  | data (o : Nat)
  | parity (row : Nat)
  deriving DecidableEq, Repr
def unitOf (n : Ns) (z : Zone) (b off : Nat) : BandUnit :=
  if n.cls = 1 then
    let row := off / 256
    let par := (row + z.bands.getD 0 0 % 4) % 4
    let acts := ([0, 1, 2, 3] : List Nat).filter (fun m => decide (m ≠ par))
    let m := z.bands.idxOf b
    if m = par then .parity row else .data (row * 768 + acts.idxOf m * 256 + off % 256)
  else .data off

/-- The second copy's band of staged data of class P1 or P2 (R198). -/
def peerBand (s : State) (band : Nat) : Option Nat :=
  match bandAt s band with
  | none => none
  | some b => if b.use = 1 ∧ b.peer ≠ 0x1FFFFF ∧ convBand s b then some b.peer else none

/-- The places that hold the same data as an offset of a band: both members of a pair, or the place alone. -/
def copiesAt (s : State) (h : Nat × Nat) : List (Nat × Nat) :=
  match zoneOf s h.1 with
  | some (n, _, z) => if n.cls = 2 then h :: (z.bands.filter (· ≠ h.1)).map (fun q => (q, h.2)) else [h]
  | none => h :: ((peerBand s h.1).toList.map (fun q => (q, h.2)))

/-! ### Lookup (R187, R193, R282, R299) -/

/-- The data of a key that DRAM holds: dirty, or copied by compaction and not yet written. -/
def heldVal (s : State) (key : Nat) : Option Nat := if poolKey key then tget none s.ple.pool key else tget none s.ple.dirty key

/-- What an LBA holds: a lost range fails, dirty data is in DRAM, a record or a computed mapping names its place, and
anything else is deallocated and reads as zeros. -/
def lookup (s : State) (n : Ns) (lba member : Nat) : ReadPart :=
  let key := lkey n.nsx lba
  if s.ple.map.lost.contains key then .fails
  else match heldVal s key with
    | some v => .data v
    | none =>
      match extentOf s n.nsx lba with
      | some e => match addrPlus s e.paddr (lba - e.slba) with
        | some a => .media a
        | none => .fails
      | none =>
        if n.zoned then
          let zn := lba / zsze s n
          let o := lba % zsze s n
          let z := zoneAt s n.nsx zn
          if o < z.wp then match computedAddr s n z o member with
            | some a => .media a
            | none => if 1024 ≤ n.nsx then .zeros else .fails
          else .zeros
        else .zeros

/-- Every place on media that an LBA's data lies at, by the map (R212). -/
def placesOf (s : State) (key : Nat) : List Nat :=
  match nsByX s (key / 2 ^ 36) with
  | none => []
  | some n => match lookup s n (key % 2 ^ 36) 0 with
    | .media a => match bandOf s a with
      | some h => (copiesAt s h).filterMap (fun q => bandAddr s q.1 q.2)
      | none => [a]
    | _ => []

/-! ### Counts and map state (R183, R214, R215) -/

/-- Parity units of a group's rows that some referenced data stands in, of one member. -/
def parityValid (n : Ns) (z : Zone) (b : Nat) (used : Nat → Bool) : Nat :=
  ((List.range ((z.wp + 767) / 768)).filter (fun row =>
    decide (z.bands[(row + z.bands.getD 0 0 % 4) % 4]? = some b ∧ n.cls = 1) &&
      ((List.range 768).any (fun i => used (row * 768 + i))))).length * 256

/-- Data sectors of a band that the map still references (R183): those of extents, their second copies in a pair, and those of a
zone's computed mapping that no override covers, with the parity units that protect them. -/
def bandValid (s : State) (b : Nat) : Nat :=
  let here := s.ple.map.extents.foldl (fun n e => if e.anchor then n else match bandOf s e.paddr with
    | some h => if (copiesAt s h).any (fun q => decide (q.1 = b)) then n + e.len else n
    | none => n) 0
  let zon := match zoneOf s b with
    | none => 0
    | some (n, zn, z) =>
      let used := fun (o : Nat) =>
        let lba := zn * zsze s n + o
        if 1024 ≤ n.nsx then
          match computedHome n z o 0 with
          | some h => s.ple.map.extents.any (fun e => !e.anchor && (match bandOf s e.paddr with
              | some g => decide (g.1 = h.1 ∧ g.2 ≤ h.2 ∧ h.2 < g.2 + e.len)
              | none => false))
          | none => false
        else decide (o < z.wp) && (extentOf s n.nsx lba).isNone
      let own := if 1024 ≤ n.nsx then 0 else ((List.range z.wp).filter (fun o =>
        used o && ([0, 1] : List Nat).any (fun m => decide ((computedHome n z o m).map Prod.fst = some b)))).length
      own + parityValid n z b used
  here + zon

/-- Open references to a band (R183): zone bindings, streams and compaction targets. -/
def openRefs (s : State) (b : Nat) : Nat :=
  (s.ple.map.zones.filter (fun e => match e.2 with
    | some z => z.bands.contains b && (decide (e.1 < 1024 * 2 ^ 20) || decide (z.st = 2))
    | none => false)).length + (s.ple.streamBand.filter (fun e => decide (e.2 = b + 1))).length

/-- A band's entry of the Band Table, its 32 bytes (R183). -/
def bandEntry (s : State) (n : Nat) : List Nat :=
  match bandAt s n with
  | some b => (bandWords b (bandValid s n) (openRefs s n)).flatMap (leBytes 4)
  | none => List.replicate 32 0

/-! ### Journal (R217, R401) -/

/-- A namespace as the journal and the snapshots keep it, without its key: that stands in a record of its own, wrapped (R265). -/
def bareNs (n : Ns) : Ns := { n with key := min 1 n.key }
def bareOp : MapOp → MapOp
  | .addNs n => .addNs (bareNs n)
  | o => o
def bareMap (m : MapImage) : MapImage := { m with nss := m.nss.map bareNs }

/-- Journal a change: its records take the next SEQs and join the buffer (R217), and in pair mode the serving device
mirrors them with the last one final (R401). `slot` is 65536 for a change of no command. -/
def journalFor (slot : Nat) (ops : List MapOp) (assigned : Option Nat) (s : State) : State :=
  let l := opRecords (fun b => (bandValid s b, openRefs s b)) s.ple.map.epoch (s.ple.jseq + 1) ops
  let s := modPle (fun p => { p with
    jseq := p.jseq + l.length
    jbuf := p.jbuf ++ [⟨p.jseq + 1, slot, ops.map bareOp, l⟩] }) s
  if mirroring s then sendMirror (.journal s.ple.jseq slot true ops assigned) s else s
def journal (ops : List MapOp) (s : State) : State := journalFor 65536 ops none s

/-- Bands and zones as they stand now, as items of a journal record. -/
def bandOps (s : State) (l : List Nat) : List MapOp := l.map (fun b => .band b (bandAt s b))
def zoneOp (s : State) (nsx z : Nat) : MapOp := .zone (zkey nsx z) (tget none s.ple.map.zones (zkey nsx z))

/-! ### Bands that nothing needs -/

/-- Every candidate that has not ended. -/
def outstanding (s : State) : List Cand :=
  ([0, 1, 2, 3] : List (Fin 4)).flatMap (fun k =>
    (schedOf s k).waiting ++ (schedOf s k).ready ++ (schedOf s k).armed.map Prod.snd) ++ s.tdl.sent.map Prod.snd

/-- The band that a write's Stripe is of. -/
def CandKind.band : CandKind → Option Nat
  | .destage b _ => some b
  | .close b _ _ => some b
  | .copyWrite b _ => some b
  | .echoWrite _ _ b _ => some b
  | .snapWrite b => some b
  | _ => none

/-- Whether a band is still named: by a zone, a stream, a rebuild or move, a write that has not ended, or a read (R184, R282). -/
def bandNamed (s : State) (b : Nat) : Bool :=
  s.ple.map.zones.any (fun e => match e.2 with
    | some z => z.bands.contains b
    | none => false) ||
  s.ple.streamBand.any (fun e => decide (e.2 = b + 1)) ||
  s.ple.remakes.any (fun r => decide (r.old = b ∨ r.new = b)) ||
  (outstanding s).any (fun c => decide (c.kind.band = some b))

/-- Whether an echo copy lies in the band. -/
def bandEchoed (s : State) (b : Nat) : Bool :=
  s.ple.map.echoes.any (fun e => match e.2 with
    | some x => (decide (x.st0 ≠ 0) && addrIn s b x.addr0) || (decide (x.st1 ≠ 0) && addrIn s b x.addr1)
    | none => false)

/-- Whether a read in progress still needs the band: the old place is pinned until the read's job ends (R282). -/
def bandPinned (s : State) (b : Nat) : Bool :=
  s.hqe.slots.any (fun e => match e.2 with
    | some x => x.parts.any (fun p => match p.2 with
        | .media a => addrIn s b a
        | _ => false)
    | none => false) || (outstanding s).any (fun c => !c.write && addrIn s b c.addr)

/-- Whether a head is out of new placement: the GDL was full when it grew a defect (R65). -/
def headOut (s : State) (mc head : Nat) : Bool := s.ple.map.outHeads.contains (mc * 16 + head)

/-- Pools whose bands hold nothing that the map references are gone. -/
def freePools (s : State) : State :=
  modMap (fun m => { m with zones := m.zones.filter (fun e => match e.2 with
    | some z => !(decide (1024 * 2 ^ 20 ≤ e.1 ∧ z.st = 14) && z.bands.all (fun b => decide (bandValid s b = 0)))
    | none => true) }) s

/-- Change bands as a function gives, and journal those that have changed (R217). -/
def putBands (f : Nat → Band → Band) (s : State) : State :=
  let l := (bandsWhere s (fun n b => decide (f n b ≠ b))).map Prod.fst
  if l = [] then s
  else
    let s := modMap (fun m => { m with bands := m.bands.map (fun e => (e.1, e.2.map (f e.1))) }) s
    journal (bandOps s l) s

/-- FULL bands that nothing references go FREE (R184), or RETIRED on a head out of placement. -/
def freeBands (s : State) : State :=
  let s := freePools s
  putBands (fun n b => if decide (b.st = 2) && decide (bandValid s n = 0) && !bandEchoed s n && !bandPinned s n && !bandNamed s n then
    { b with st := if headOut s b.mc b.head then 6 else 0 } else b) s

/-- The thresholds in force (PLE_MAP_THR). -/
def mapThresholds (s : State) : Nat × Nat × Nat :=
  let w := rdF s.ple.csr PLE_MAP_THR.WARN
  let h := rdF s.ple.csr PLE_MAP_THR.HIGH
  let f := rdF s.ple.csr PLE_MAP_THR.FULL
  if w < h ∧ h < f ∧ f ≤ 99 then (w, h, f) else (85, 92, 97)

/-- The records the map can hold, and the records in use. In three-channel mode the PLE sizes the map from the smaller
buffer, which is three quarters of the former one (R314). -/
def mapCapacity (s : State) : Nat :=
  let n := (rd s.ple.csr PLE_MAP_SIZE).toNat * 1024
  if s.bmc.absent.isSome then n / 4 * 3 else n
def mapUsed (s : State) : Nat := s.ple.map.extents.length

/-- The next map state: each is entered at its threshold and left two points below it. -/
def nextMapState (s : State) : Nat :=
  let t := mapThresholds s
  let occ := fun (pct : Nat) => decide (pct * mapCapacity s ≤ 100 * mapUsed s)
  let enter := fun (st : Nat) => match st with
    | 1 => occ t.1
    | 2 => occ t.2.1
    | _ => occ t.2.2
  let stay := fun (st : Nat) => match st with
    | 1 => occ (t.1 - 2)
    | 2 => occ (t.2.1 - 2)
    | _ => occ (t.2.2 - 2)
  let holds := fun (st : Nat) => enter st || (decide (st ≤ s.ple.mapst) && stay st)
  if mapCapacity s = 0 then 0 else if holds 3 then 3 else if holds 2 then 2 else if holds 1 then 1 else 0

/-- An Echo Table entry takes a new value; with its last copy it goes, and an ANCHOR record and the index of any other
record with it. -/
def putEcho (idx : Nat) (y : EchoEnt) (m : MapImage) : MapImage :=
  if y.st0 = 0 ∧ y.st1 = 0 then { m with
    echoes := tput none m.echoes idx none
    extents := (m.extents.filter (fun e => !(decide (e.echo = idx) && e.anchor))).map (fun e =>
      if e.echo = idx then { e with echo := 0, ecnt := 0 } else e) }
  else { m with echoes := tput none m.echoes idx (some y) }

/-- What an operation for an echo copy that is given up becomes: a write in progress goes on with no use, and a read
serves nothing. -/
def CandKind.unEcho (p : Nat → Nat → Bool) : CandKind → CandKind
  | .echoWrite i c b l => if p i c then .destage b none else .echoWrite i c b l
  | .echoRead i c => if p i c then .dropped else .echoRead i c
  | k => k

/-- The making of some echo copies ends: their jobs are gone, their reads are withdrawn, and their writes serve nothing (R209). -/
def echoJobsEnd (p : Nat → Nat → Bool) (s : State) : State :=
  let f := fun (c : Cand) => { c with kind := c.kind.unEcho p }
  let keep := fun (l : List Cand) => (l.map f).filter (fun c => decide (c.kind ≠ .dropped))
  let s := modPle (fun q => { q with echoJobs := q.echoJobs.filter (fun j => !p j.idx j.copy) }) s
  let s := { s with tdl := { s.tdl with sent := s.tdl.sent.map (fun e => (e.1, f e.2)) } }
  ([0, 1, 2, 3] : List (Fin 4)).foldl (fun s k => modSched k (fun q => { q with
    waiting := keep q.waiting
    ready := keep q.ready
    armed := q.armed.map (fun e => (e.1, f e.2)) }) s) s

/-- A copy that is still being made is abandoned, and leaves no trace (R209). -/
def echoAbandon (idx copy : Nat) (s : State) : State :=
  match tget none s.ple.map.echoes idx with
  | none => s
  | some x =>
    if (if copy = 0 then x.st0 else x.st1) ≠ 1 then s
    else
      let y := if copy = 0 then { x with st0 := 0, addr0 := 0 } else { x with st1 := 0, addr1 := 0 }
      modMap (putEcho idx y) (echoJobsEnd (fun i c => decide (i = idx ∧ c = copy)) s)

/-- A drop condition meets a copy: a live one is marked for drop, one that is being made is abandoned (R209). -/
def echoDropMark (idx copy : Nat) (s : State) : State :=
  match tget none s.ple.map.echoes idx with
  | none => s
  | some x =>
    let st := if copy = 0 then x.st0 else x.st1
    if st = 1 then echoAbandon idx copy s
    else if st ≠ 2 then s
    else
      let y := if copy = 0 then { x with drop0 := true } else { x with drop1 := true }
      modMap (fun m => { m with echoes := tput none m.echoes idx (some y) }) s

/-- The copies of some entries meet a drop condition. -/
def dropCopies (p : Nat → Bool) (s : State) : State :=
  ((s.ple.map.echoes.map Prod.fst).filter p).foldl (fun s i => echoDropMark i 1 (echoDropMark i 0 s)) s

/-- Copies that lie at some addresses meet one. -/
def dropCopiesIn (p : Nat → Bool) (s : State) : State :=
  s.ple.map.echoes.foldl (fun s e => match e.2 with
    | some x =>
      let s := if x.st0 ≠ 0 && p x.addr0 then echoDropMark e.1 0 s else s
      if x.st1 ≠ 0 && p x.addr1 then echoDropMark e.1 1 s else s
    | none => s) s

/-- The heat of a record: of the hottest chunk that it has sectors in (R207 says "its chunk": DESIGN CHOICE, log 257). -/
def extentHeat (s : State) (e : Extent) : Nat :=
  let lo := lkey e.nsx e.slba / 16384
  (List.range (lkey e.nsx (e.slba + e.len - 1) / 16384 + 1 - lo)).foldl (fun m i => max m (tget 0 s.ple.heat (lo + i))) 0

/-- The coldest record with a live copy has its copies marked for drop. -/
def dropColdest (s : State) : State :=
  let live := fun (e : Extent) => match tget none s.ple.map.echoes e.echo with
    | some x => decide (e.echo ≠ 0) && (decide (x.st0 = 2) && !x.drop0 || decide (x.st1 = 2) && !x.drop1)
    | none => false
  let l := s.ple.map.extents.filter live
  match l with
  | [] => s
  | e :: es =>
    let cold := es.foldl (fun m x => if extentHeat s x < extentHeat s m then x else m) e
    dropCopies (fun i => decide (i = cold.echo)) s

/-- MAP_STATE_CHANGE (R215): under HIGH no new echo copies are made and live ones drop. -/
def updateMapState (s : State) : State :=
  let n := nextMapState s
  let old := s.ple.mapst
  let s := modPle (fun p => { p with mapst := n, echoSusp := decide (2 ≤ n) }) s
  let s := if old ≠ n then mediaEvent s else s
  if 2 ≤ n then dropColdest s else s

/-! ### What a write does to the map (R199, R209) -/

/-- A live or copying echo of a range ends with the write that overlaps it (R209): its entry goes, and its record's
ECNT and index. -/
def dropEchoes (nsx lo n : Nat) (s : State) : State :=
  let gone := (s.ple.map.extents.filter (fun e => decide (e.echo ≠ 0) && e.meets nsx lo n)).map (fun e => e.echo)
  if gone = [] then s
  else
    let s := echoJobsEnd (fun i _ => gone.contains i) s
    modMap (fun m => gone.foldl (fun m i => putEcho i ⟨0, 0, 0, 0, 0, false, false⟩ m) m) s

/-- Put data of consecutive keys into DRAM as dirty. -/
def putDirty : List Nat → Nat → State → State
  | [], _, s => s
  | v :: vs, key, s =>
    putDirty vs (key + 1) (modMap (fun m => { m with
        dram := key :: m.dram.filter (· ≠ key)
        lost := m.lost.filter (· ≠ key) })
      (modPle (fun p => { p with dirty := tput none p.dirty key (some v)
                                 persisted := p.persisted.filter (· ≠ key) }) s))

/-- Drop dirty data of a range of keys. -/
def dropDirty (lo n : Nat) (s : State) : State :=
  let inside := fun (k : Nat) => decide (lo ≤ k ∧ k < lo + n)
  modMap (fun m => { m with
      dram := m.dram.filter (fun k => !inside k)
      lost := m.lost.filter (fun k => !inside k) })
    (modPle (fun p => { p with
      dirty := p.dirty.filter (fun e => !inside e.1)
      persisted := p.persisted.filter (fun k => !inside k) }) s)

/-- Bytes of dirty data. -/
def dirtyBytes (s : State) : Nat := 4096 * s.ple.dirty.length

end Sys2Proof.Machine
end

