-- ==== Sys2Proof/Machine/Homes.lean ====
section
/-! DEFINITION. Where new data goes: tiers, actuators and heads, taking bands, and written plans (R52 to R54, R68 to R70, R184,
R185, R192, R198, R200, R203 to R206). -/

namespace Sys2Proof.Machine

/-! ### Plans as the defect lists stand (R54, R68, R69) -/

/-- The sectors that a head and zone had rebuilt within its last 10^8 sectors read (R54). -/
def rebuildRate (s : State) (mc head zone : Nat) : Nat :=
  let z := (mc * 16 + head) * 32 + zone
  let total := tget 0 s.nv.zoneReads z
  (s.nv.zoneFix.filter (fun r => decide (r.1 = z ∧ total ≤ r.2 + 100000000))).length

/-- The parity count of a band, or of a conventional Stripe, from its use and class (R54, R200): 8 for the system area
and the map, PARITY_BASE for P0 and never below 4, 3 for P1 and P2, raised by the rebuild rate. -/
def parityFor (s : State) (b : Band) (use cls : Nat) : Nat :=
  let base := entF (bandZfd s b) 5 3 0
  let low := if cls = 0 then max 4 base else 3
  let rate := rebuildRate s b.mc b.head b.zone
  if use = 3 ∨ b.st = 4 then 8 else if 100 < rate then 8 else if 10 < rate then max low (min 8 (base + 2)) else low

/-- The slipped and grown-defect slots of a track. -/
def badSlots (s : State) (mc head track : Nat) : Nat :=
  ((List.range 2047).filter (fun x => (s.ple.map.pdl ++ s.ple.map.gdl).any (fun d =>
    defectHits 0 mc head track x d || defectHits 1 mc head track x d))).length

/-- Whether a track is retired: by a KIND 3 entry of either list. -/
def trackRetired (s : State) (mc head track : Nat) : Bool :=
  (s.ple.map.pdl ++ s.ple.map.gdl).any (fun d => decide (d.kind = 3 ∧ d.mc = mc ∧ d.head = head ∧ d.track = track))

/-- A band as its next reset plans it: no track that is retired, or past one eighth of its slots (R69), and the parity
count of now. -/
def freshBand (s : State) (use cls : Nat) (b : Band) : Band :=
  let slots := entF (bandZfd s b) 3 26 16
  let bare := { b with skips := [] }
  { bare with
    p := parityFor s b use cls
    skips := (bandTracks s bare).filter (fun t => trackRetired s b.mc b.head t || decide (slots < 8 * badSlots s b.mc b.head t)) }

/-! ### Choosing a home (R203 to R206) -/

/-- Temperature 0 Hot, 1 Default, 2 Cold from the Access Frequency last given for an LBA (R203). -/
def temperature (s : State) (nsx lba : Nat) : Nat :=
  let key := lkey nsx lba
  match ((s.ple.map.temps.find? (fun r => decide (r.1 ≤ key ∧ key < r.1 + r.2.1))).map (fun r => r.2.2)).getD 0 with
  | 2 => 2
  | 3 => 0
  | 5 => 0
  | _ => 1

/-- Whether a rate zone belongs to a tier, in the order of R204: Hot, Default, Cold. -/
def tierHolds (s : State) (tier zone : Nat) : Bool :=
  let hot := rdF s.ple.csr PLE_TIER.HOT_LAST
  let cold := rdF s.ple.csr PLE_TIER.COLD_FIRST
  if cold ≤ hot ∨ hot < cmrZones s then decide (cmrZones s ≤ zone)
  else match tier with
    | 0 => decide (cmrZones s ≤ zone ∧ zone ≤ hot)
    | 2 => decide (cold ≤ zone)
    | _ => decide (cmrZones s ≤ zone)

/-- The tiers that a temperature looks in, in order. -/
def tierOrder (temp : Nat) : List Nat := match temp with
  | 0 => [0, 1, 2]
  | 2 => [2, 1, 0]
  | _ => [1]

/-- RESV of an actuator: 2 % of its shingled bands; and its free ones (R208). -/
def resvBands (s : State) (mc : Nat) : Nat := (bandsWhere s (fun _ b => decide (b.mc = mc ∧ cmrZones s ≤ b.zone))).length * 2 / 100
def freeCount (s : State) (mc : Nat) : Nat :=
  (bandsWhere s (fun _ b => decide (b.mc = mc ∧ cmrZones s ≤ b.zone ∧ b.st = 0))).length

/-- A place to look for a band: the rate zones, and whether its actuator must keep more than RESV free bands (R204, R208). -/
structure Place where
  keep : Bool
  zones : Nat → Bool

/-- Where a band may lie, place by place in the order to look: the tiers of a temperature, or the conventional region.
A tier counts as holding a free band only on an actuator that keeps more than RESV; where no tier does, every free
band counts, in the same order: the rules do not say that data then stays without a home (DESIGN CHOICE, log 253). -/
def tierPlaces (s : State) (temp : Nat) : List Place :=
  (tierOrder temp).map (fun t => ⟨true, tierHolds s t⟩) ++ (tierOrder temp).map (fun t => ⟨false, tierHolds s t⟩)
def stagingPlace (s : State) : List Place := [⟨false, fun z => decide (z < cmrZones s)⟩]

/-- What a new band is wanted for: its use, class, the places to look in order, and the data sectors that it must hold. -/
structure Want where
  use : Nat
  cls : Nat
  places : List Place
  need : Nat

/-- FREE bands of an actuator in a place, on heads in placement that no duty limit holds, which would hold what is needed (R185,
R206). -/
def freeOn (s : State) (w : Want) (mc : Nat) (place : Place) : List (Nat × Band) :=
  if place.keep && decide (freeCount s mc ≤ resvBands s mc) then []
  else bandsWhere s (fun _ b => decide (b.mc = mc ∧ b.st = 0) && place.zones b.zone && !headOut s b.mc b.head &&
    !(mcOf s (mcIx b.mc)).dutyHold.contains b.head && decide (w.need ≤ planCapacity s (freshBand s w.use w.cls b) true))

/-- OPEN bands of a head. -/
def openOn (s : State) (mc head : Nat) : Nat := (bandsWhere s (fun _ b => decide (b.mc = mc ∧ b.head = head ∧ b.st = 1))).length

/-- The least element by a measure; ties go to the earlier one. -/
def leastBy {α : Type} (f : α → Nat) : List α → Option α
  | [] => none
  | x :: xs => match leastBy f xs with
    | none => some x
    | some y => if f x ≤ f y then some x else some y

/-- The band on an actuator (R206): the head with the fewest OPEN bands, its first rate zone of the place, its lowest number. -/
def pickBand (s : State) (w : Want) (mc : Nat) : Option Nat :=
  match w.places.find? (fun t => !(freeOn s w mc t).isEmpty) with
  | none => none
  | some t =>
    let all := freeOn s w mc t
    match leastBy (fun (e : Nat × Band) => openOn s mc e.2.head * 16 + e.2.head) all with
    | none => none
    | some h =>
      let mine := all.filter (fun e => decide (e.2.head = h.2.head))
      match leastBy (fun (e : Nat × Band) => e.2.zone) mine with
      | none => none
      | some z => (leastBy Prod.fst (mine.filter (fun e => decide (e.2.zone = z.2.zone)))).map Prod.fst

/-- Queued media time of an actuator: the estimated job times of its ready candidates (R205). -/
def queuedTime (s : State) (mc : Nat) : Nat := (schedOf s (mcIx mc)).ready.foldl (fun n c => n + c.est) 0

/-- Whether an actuator takes no new data: a self-test took its Media Channel out of service, or its preamp's serial
port has failed (R102, R284). -/
def actDown (s : State) (k : Fin 4) : Bool := mcOutOfService s k || rdB (mcOf s k).csr MC_HIF_STAT.FAIL

/-- The actuators that may take data: present, in service, with a suitable band, and owned unless a group takes all
four (R205). -/
def actuators (s : State) (w : Want) : List Nat :=
  ([0, 1, 2, 3] : List Nat).filter (fun m => actExists s (mcIx m) && (actOwned s (mcIx m) || decide (w.cls = 1 ∧ w.use ≠ 2)) &&
    !actDown s (mcIx m) && (pickBand s w m).isSome)

/-- The actuator of R205: the stream's next in turn, or the least queued. -/
def pickActuator (s : State) (w : Want) (stream : Option Nat) (nsx : Nat) : Option Nat :=
  let ok := (actuators s w).filter (fun m => actOwned s (mcIx m))
  match stream with
  | some id =>
    let total := (([0, 1, 2, 3] : List Nat).filter (fun m => actExists s (mcIx m))).length
    let start := match tget 0 s.ple.streams (nsx * 65536 + id) with
      | 0 => id % max 1 total
      | n => n
    ((List.range 4).map (fun i => (start + i) % max 1 total)).find? (fun m => ok.contains m)
  | none => leastBy (queuedTime s) ok

/-- Two actuators: the chosen one and the next one that qualifies. -/
def pickTwo (s : State) (w : Want) (stream : Option Nat) (nsx : Nat) : Option (List Nat) :=
  match pickActuator s w stream nsx with
  | none => none
  | some m =>
    (((List.range 3).map (fun i => (m + 1 + i) % 4)).find? (fun x => (actuators s w).contains x && actOwned s (mcIx x))).map
      (fun x => [m, x])

/-- The actuators of a new binding in one place: one, four for a group, or two for a pair (R189, R190, R205). -/
def chooseActs (s : State) (w : Want) (stream : Option Nat) (nsx : Nat) : Option (List Nat) :=
  if w.cls = 1 then (if actuators s w = [0, 1, 2, 3] then some [0, 1, 2, 3] else none)
  else if w.cls = 2 then pickTwo s w stream nsx
  else (pickActuator s w stream nsx).map (fun m => [m])

/-- The members of a new binding: the first place, then the actuators, then the band of each (R203 to R206). -/
def chooseMembers (s : State) (w : Want) (stream : Option Nat) (nsx : Nat) : Option (List Nat) :=
  w.places.findSome? (fun p =>
    let w := { w with places := [p] }
    (chooseActs s w stream nsx).map (fun l => l.filterMap (pickBand s w)))

/-! ### Taking bands (R68, R184) -/

/-- What the reset of a band does to the lists (R68): at the reset of a shingled band every grown defect of its tracks is slipped,
those of a Stripe that was never retired too: R68 says it of a retired Stripe's slots and leaves the others open (DESIGN CHOICE,
log 191); the KIND 2 entries of the tracks are deleted. The written plans of a staging band end with it. -/
def resetTracks (slip : Bool) (on : Nat → Nat → Nat → Bool) (m : MapImage) : MapImage := { m with
  gdl := if slip then (m.gdl.filter (fun d => !(decide (d.kind = 2) && on d.mc d.head d.track))).map (fun d =>
    if d.kind = 1 ∧ on d.mc d.head d.track then { d with kind := 0 } else d) else m.gdl
  plans := m.plans.map (fun r => if on r.mc r.head r.track then { r with live := false } else r) }

/-- Whether a track is among a band's, the retired ones with them. -/
def bandCovers (s : State) (x : Band) (mc head track : Nat) : Bool :=
  decide (mc = x.mc ∧ head = x.head) && (bandTracks s { x with skips := [] }).contains track

/-- A band is reset when it is taken from FREE (R184): GEN advances, the pointer returns to 0, and the plan follows the defect
lists as they stand, with retired tracks passed over (R69). -/
def takeBand (use cls role peer : Nat) (b : Nat) (s : State) : State :=
  match bandAt s b with
  | none => s
  | some x =>
    let y := freshBand s use cls { x with
      st := if use = 3 then 5 else if use = 1 ∧ convBand s x then 3 else 1
      use := use
      cls := cls
      gen := (x.gen + 1) % 256
      wp := 0
      next := 0
      holes := []
      role := role
      peer := peer
      resets := min 65535 (x.resets + 1)
      snap := decide (use = 3)
      lastw := nowSec s }
    let slip := !convBand s x
    let s := modMap (resetTracks slip (bandCovers s x)) s
    let y := { y with dcap := planCapacity s y (!slip) }
    journal [.band b (some y)] (putBand b y s)

/-- Take every member of a binding, each naming the next as its PEER. -/
def takeMembers (use cls : Nat) (ms : List Nat) (s : State) : State :=
  ((List.range ms.length).zip ms).foldl (fun s e =>
    takeBand use cls e.1 (if ms.length ≤ 1 then 0x1FFFFF else ms.getD ((e.1 + 1) % ms.length) 0x1FFFFF) e.2 s) s

/-- Note a binding for log C3h (R228): the eight most recent, newest first. -/
def noteBinding (b : Binding) (s : State) : State := modPle (fun p => { p with binds := (b :: p.binds).take 8 }) s

/-- The actuators of a list of bands as bits. -/
def actBits (s : State) (ms : List Nat) : Nat :=
  ms.foldl (fun n b => match bandAt s b with
    | some x => n ||| 2 ^ x.mc
    | none => n) 0

/-- The last actuator of a stream, for the next turn of the rotation. -/
def noteStream (stream : Option Nat) (nsx : Nat) (ms : List Nat) (s : State) : State :=
  match stream, ms with
  | some id, b :: _ => match bandAt s b with
    | some x => modPle (fun p => { p with streams := tput 0 p.streams (nsx * 65536 + id) (x.mc + 1) }) s
    | none => s
  | _, _ => s

/-- Choose and take the bands for a want, and note the binding: the members with the state. The binding's tier is the
temperature that was asked for, also where R204's order led to another tier's rate zones: log C3h does not say which
of the two its Tier byte is (DESIGN CHOICE, log 252). -/
def takeHome (w : Want) (n : Ns) (lba temp reason : Nat) (stream : Option Nat) (s : State) : Option (List Nat × State) :=
  (chooseMembers s w stream n.nsx).map (fun ms =>
    let s := takeMembers w.use w.cls ms s
    let s := noteBinding ⟨ms.getD 0 0, n.nsid, lba, temp, reason, actBits s ms, w.cls, nowSec s⟩ s
    (ms, noteStream stream n.nsx ms s))

/-- Bind a zone to its bands at the first write accepted for it (R192); `none` where no home has room. -/
def bindZone (n : Ns) (z : Nat) (stream : Option Nat) (s : State) : Option State :=
  let zo := zoneAt s n.nsx z
  if zo.bands ≠ [] then some s
  else
    let lba := z * zsze s n
    let temp := temperature s n.nsx lba
    (takeHome ⟨0, n.cls, tierPlaces s temp, bandQuantum s⟩ n lba temp 0 stream s).map (fun r =>
      let gens := r.1.map (fun b => ((bandAt r.2 b).map (fun x => x.gen)).getD 0)
      let s := putZone n.nsx z { zo with bands := r.1, gens := gens } r.2
      journal [zoneOp s n.nsx z] s)

/-! ### Streams and staging (R53, R198) -/

/-- The stream's open shingled band, opened where it has none (R198). -/
def streamHome (n : Ns) (id lba : Nat) (stream : Option Nat) (s : State) : Option (Nat × State) :=
  let key := n.nsx * 65536 + id
  let cur := tget 0 s.ple.streamBand key
  match bandAt s (cur - 1) with
  | some b => if cur ≠ 0 ∧ b.st = 1 then some (cur - 1, s) else fresh key
  | none => fresh key
where
  fresh (key : Nat) : Option (Nat × State) :=
    let temp := temperature s n.nsx lba
    (takeHome ⟨1, 0, tierPlaces s temp, 1⟩ n lba temp 1 stream s).map (fun r =>
      (r.1.getD 0 0, modPle (fun p => { p with streamBand := tput 0 p.streamBand key (r.1.getD 0 0 + 1) }) r.2))

/-- Where a written plan of d data and p parity sectors goes next on a staging band: on the last track in use or a
later one, behind what is recorded there, over slots that are neither slipped nor grown defects, and on no retired
track (R69). -/
def stripeRoom (s : State) (b : Band) (d p : Nat) : Option (Nat × List Nat × List Nat) :=
  let tracks := bandTracks s b
  let used := tracks.filter (fun t => !(trackPlan s b t).isEmpty)
  let rest := match used.getLast? with
    | none => tracks
    | some t => tracks.dropWhile (fun x => decide (x ≠ t))
  (rest.filter (fun t => !trackRetired s b.mc b.head t)).findSome? (fun t =>
    let lo := ((trackPlan s b t).flatMap (fun p => p.1 ++ p.2)).foldl (fun n x => max n (x + 1)) 0
    let free := (usableOf s b true t).filter (fun x => decide (lo ≤ x))
    if d + p ≤ free.length then some (t, free.take d, (free.drop d).take p) else none)

/-- A written plan enters the records: in the place of the one of the same slots, or behind the others, whose slots it
takes; the KIND 2 entries of Stripes that it covers are deleted (R53, R68). -/
def putPlan (r : StripeRec) (m : MapImage) : MapImage :=
  let slots := r.data ++ r.par
  let same := fun (x : StripeRec) => decide (x.mc = r.mc ∧ x.head = r.head ∧ x.track = r.track ∧ x.data = r.data ∧ x.par = r.par)
  let cut := fun (x : StripeRec) => if x.mc = r.mc ∧ x.head = r.head ∧ x.track = r.track then { x with
    data := x.data.filter (fun k => !slots.contains k)
    par := x.par.filter (fun k => !slots.contains k) } else x
  { m with
    plans := if m.plans.any same then m.plans.map (fun x => if same x then r else x)
      else ((m.plans.map cut).filter (fun x => decide (x.data ++ x.par ≠ []))) ++ [r]
    gdl := m.gdl.filter (fun d => !(decide (d.kind = 2 ∧ d.mc = r.mc ∧ d.head = r.head ∧ d.track = r.track) &&
      slots.any (fun x => decide (d.slot ≤ x ∧ x < d.slot + d.run)))) }

/-- Record a written plan (R53): its rewrite generation follows the highest of the plans that its slots had before. It
is journaled before its data is relied on. -/
def recordPlan (mc head track : Nat) (data par : List Nat) (s : State) : State :=
  let old := fun (r : StripeRec) => decide (r.mc = mc ∧ r.head = head ∧ r.track = track) &&
    (r.data ++ r.par).any (fun x => (data ++ par).contains x)
  let gen := (s.ple.map.plans.filter old).foldl (fun n r => max n (r.gen + 1)) 0
  let r : StripeRec := ⟨mc, head, track, data, par, gen % 256, true⟩
  journal [.plan r] (modMap (putPlan r) s)

/-- A conventional Stripe is written once more in place (R35): its generation advances. -/
def replan (addr : Nat) (s : State) : State :=
  match planOf s addr with
  | none => s
  | some r =>
    let r := { r with gen := (r.gen + 1) % 256 }
    journal [.plan r] (modMap (putPlan r) s)

/-- Staging bands of a class that can take a Stripe of d data sectors: one, or two on different actuators (R198). -/
def stagingFits (s : State) (cls d : Nat) (b : Nat) : Bool :=
  match bandAt s b with
  | none => false
  | some x =>
    let fits := fun (y : Band) => !headOut s y.mc y.head && !actDown s (mcIx y.mc) && actOwned s (mcIx y.mc) &&
      (stripeRoom s y d (parityFor s y 1 cls)).isSome
    decide (x.st = 3 ∧ x.cls = cls ∧ x.role = 0) && fits x && (decide (cls = 0) || (match (peerBand s b).bind (bandAt s) with
      | some y => decide (y.st = 3) && fits y
      | none => false))

/-- The staging bands for a Stripe: open ones with room, or new ones, for data of a stream on that stream's next actuator (R205,
R206). -/
def stagingHome (n : Ns) (stream : Option Nat) (lba d : Nat) (s : State) : Option (List Nat × State) :=
  match (bandsWhere s (fun b _ => stagingFits s n.cls d b)).head? with
  | some (b, _) => some (b :: (peerBand s b).toList, s)
  | none =>
    let w : Want := ⟨1, n.cls, stagingPlace s, d⟩
    let acts := if n.cls = 0 then (pickActuator s w stream n.nsx).map (fun m => [m]) else pickTwo s { w with cls := 2 } stream n.nsx
    match acts with
    | none => none
    | some l =>
      let ms := l.filterMap (pickBand s w)
      let s := takeMembers 1 n.cls ms s
      let s := noteBinding ⟨ms.getD 0 0, n.nsid, lba, temperature s n.nsx lba, 2, actBits s ms, n.cls, nowSec s⟩ s
      if stagingFits s n.cls d (ms.getD 0 0) then some (ms, noteStream stream n.nsx ms s) else none

end Sys2Proof.Machine
end

