-- ==== Sys2Proof/Machine/MapOps.lean ====
section
/-! DEFINITION. What one change of the map does, as a journal record or a mirror record carries it (R193, R209, R217, R219, R402). -/

namespace Sys2Proof.Machine

/-- A sector of a P1 zone joins the sum of its row. -/
def addParity (n : Ns) (z o v : Nat) (s : State) : State :=
  if n.cls = 1 then
    let k := parityKey n.nsx z (o / 768 * 256 + o % 256)
    modMap (fun m => { m with parity := tput 0 m.parity k (tget 0 m.parity k ^^^ v) }) s
  else s

/-- An echo copy leaves the map: its record's ECNT falls, and the entry and an ANCHOR record go with its last copy (R209). -/
def dropCopy (idx copy : Nat) (m : MapImage) : MapImage :=
  match tget none m.echoes idx with
  | none => m
  | some x =>
    let y := if copy = 0 then { x with st0 := 0, addr0 := 0, drop0 := false } else { x with st1 := 0, addr1 := 0, drop1 := false }
    putEcho idx y { m with extents := m.extents.map (fun e => if e.echo = idx then { e with ecnt := e.ecnt - 1 } else e) }

/-- A zone's pointer reaches a new place (R192): at ZCAP the zone is full; an empty or closed one opens. The sums of a
P1 zone's rows take in what the pointer passes, from the mirrored data. -/
def zoneTo (key wp : Nat) (s : State) : State :=
  match nsByX s (key / 2 ^ 20), tget none s.ple.map.zones key with
  | some n, some z =>
    let zn := key % 2 ^ 20
    let s := (List.range (wp - z.wp)).foldl (fun s i =>
      addParity n zn (z.wp + i) ((tget none s.tdl.held (lkey n.nsx (zn * zsze s n + z.wp + i))).getD 0) s) s
    putZone n.nsx zn { z with wp := wp, st := if zcap s n ≤ wp then 14 else if z.st = 1 ∨ z.st = 4 then 2 else z.st } s
  | _, _ => s

/-- A zone's pointer goes back: the sums of a P1 zone's rows lose what is behind it, and a zone that is unbound loses them all. -/
def zoneBack (key : Nat) (y : Zone) (s : State) : State :=
  match nsByX s (key / 2 ^ 20), tget none s.ple.map.zones key with
  | some n, some z =>
    let zn := key % 2 ^ 20
    if y.bands = [] then modMap (fun m => { m with parity := tdrop m.parity (parityKey n.nsx zn 0) (parityKey n.nsx (zn + 1) 0) }) s
    else (List.range (z.wp - y.wp)).foldl (fun s i =>
      addParity n zn (y.wp + i) ((tget none s.tdl.held (lkey n.nsx (zn * zsze s n + y.wp + i))).getD 0) s) s
  | _, _ => s

/-- Whether the parity unit of a sum is on media with its whole row, so that the sum is not needed any more. -/
def sumWritten (s : State) (key : Nat) : Bool :=
  match tget none s.ple.map.zones ((key - 2 ^ 60) / 2 ^ 28) with
  | none => true
  | some z =>
    let off := key % 2 ^ 28
    rowWhole z (off / 256) && (match z.bands[(off / 256 + z.bands.getD 0 0 % 4) % 4]? with
      | some b => offsetWritten s b off
      | none => false)

/-- A band changes, and the change is journaled (R217). -/
def setBand (b : Nat) (f : Band → Band) (s : State) : State := putBands (fun n x => if n = b then f x else x) s

/-- The key records follow the namespaces (R265). -/
def keepKeys (s : State) : State :=
  { s with nv := { s.nv with keys := (s.ple.map.nss.filter (fun n => decide (n.key ≠ 0))).map (fun n => (n.nsx, n.key)) } }

/-- Apply one change of the map, as the partner journaled it (R402) or a replay finds it (R219). A band that was reset
slips its defects here too, and an override flags its zone. -/
def applyOp (s : State) : MapOp → State
  | .addNs n =>
    let put := fun (l : List Ns) => if l.any (fun x => decide (x.nsx = n.nsx)) then l.map (fun x => if x.nsx = n.nsx then n else x)
      else l ++ [n]
    modMap (fun m => { m with nss := put m.nss }) s
  | .delNs n => modMap (fun m => { m with nss := m.nss.filter (fun x => decide (x.nsx ≠ n.nsx)) }) s
  | .trim nsx lo n =>
    let inside := fun (k : Nat) => decide (lkey nsx lo ≤ k ∧ k < lkey nsx lo + n)
    modMap (fun m => { m with
      dram := m.dram.filter (fun k => !inside k)
      lost := m.lost.filter (fun k => !inside k) }) (trimExtents nsx lo n (dropEchoes nsx lo n s))
  | .extent e =>
    let s := putExtent e (trimExtents e.nsx e.slba e.len s)
    match nsByX s e.nsx with
    | some n => if e.ovr ∧ n.zoned then putZone e.nsx (e.slba / zsze s n) { zoneAt s e.nsx (e.slba / zsze s n) with ovr := true } s else s
    | none => s
  | .zone key z => modMap (fun m => { m with zones := tput none m.zones key z }) (zoneBack key (z.getD ⟨1, 0, [], [], false⟩) s)
  | .zoneWp key wp => zoneTo key wp s
  | .band n b =>
    let old := bandAt s n
    let s := match old, b with
      | some x, some y => if x.gen = y.gen then s else modMap (resetTracks (!convBand s x) (bandCovers s x)) s
      | _, _ => s
    let s := modMap (fun m => { m with bands := tput none m.bands n b }) s
    modMap (fun m => { m with parity := m.parity.filter (fun e => !sumWritten s e.1) }) s
  | .plan r => modMap (putPlan r) s
  | .echo n e => modMap (fun m => { m with echoes := tput none m.echoes n e }) s
  | .echoSet n copy addr => modMap (fun m =>
      let x := (tget none m.echoes n).getD ⟨0, 0, 0, 0, 0, false, false⟩
      let y := if copy = 0 then { x with addr0 := addr, st0 := 2 } else { x with addr1 := addr, st1 := 2 }
      { m with echoes := tput none m.echoes n (some y) }) s
  | .echoDrop n copy => modMap (dropCopy n copy) s
  | .dram lo n =>
    let keys := (List.range n).map (lo + ·)
    modMap (fun m => { m with
      dram := keys ++ m.dram.filter (fun k => !keys.contains k)
      lost := m.lost.filter (fun k => !keys.contains k) }) (dropEchoes (lo / 2 ^ 36) (lo % 2 ^ 36) n s)
  | .clean keys => modMap (fun m => { m with dram := m.dram.filter (fun k => !keys.contains k) }) s
  | .defect d => modMap (fun m => { m with gdl := insertDefect d m.gdl }) s
  | .headOut h => modMap (fun m => { m with outHeads := if m.outHeads.contains h then m.outHeads else m.outHeads ++ [h] }) s
  | .temp key len v => modMap (fun m => { m with temps := (key, len, v) :: m.temps }) s
  | .epoch n => modMap (fun m => { m with epoch := n }) s
  | .snap _ _ => s

end Sys2Proof.Machine
end

