-- ==== Sys2Proof/Machine/Xts.lean ====
section
/-! DEFINITION. XTS-AES-256 over one sector (R264). The spec names the cipher and gives the data unit, the tweak and the key
size; the cipher itself is that of FIPS 197 and IEEE 1619 (PRESUMED). A block is a number, byte c in bits 8c to 8c + 7. -/

namespace Sys2Proof.Machine.Xts

/-- Multiplication by x in the field of AES. -/
def xtime (a : Nat) : Nat := if 128 ≤ a then (2 * a) ^^^ 0x11B else 2 * a

/-- Multiplication in the field of AES, bit by bit. -/
def mulGo : Nat → Nat → Nat → Nat → Nat
  | 0, _, _, r => r
  | n + 1, a, b, r => mulGo n (xtime a) (b / 2) (if b % 2 = 1 then r ^^^ a else r)
def mul (a b : Nat) : Nat := mulGo 8 a b 0

/-- The multiplicative inverse, with 0 for 0: the 254th power. -/
def inv (a : Nat) : Nat :=
  let x2 := mul a a
  let x4 := mul x2 x2
  let x8 := mul x4 x4
  let x16 := mul x8 x8
  let x32 := mul x16 x16
  let x64 := mul x32 x32
  let x128 := mul x64 x64
  mul x2 (mul x4 (mul x8 (mul x16 (mul x32 (mul x64 x128)))))

/-- A byte rotated left. -/
def rotl (n a : Nat) : Nat := (a * 2 ^ n) % 256 + a / 2 ^ (8 - n)

/-- The substitution box and its inverse. -/
def sbox (a : Nat) : Nat :=
  let i := inv a
  i ^^^ rotl 1 i ^^^ rotl 2 i ^^^ rotl 3 i ^^^ rotl 4 i ^^^ 0x63
def sboxInv (a : Nat) : Nat := inv (rotl 1 a ^^^ rotl 3 a ^^^ rotl 6 a ^^^ 0x05)

/-- The bytes of a number, lowest first. -/
def bytesOf (n x : Nat) : List Nat := (List.range n).map (fun i => (x / 2 ^ (8 * i)) % 256)

/-- The number of some bytes, lowest first. -/
def ofBytes (l : List Nat) : Nat := l.foldr (fun b x => b + 256 * x) 0

/-- Bytewise sum. -/
def xorL (a b : List Nat) : List Nat := List.zipWith (fun x y => x ^^^ y) a b

/-- The next words of the key schedule; `ws` holds those so far, newest first, and i numbers the next. -/
def expandGo : Nat → Nat → Nat → List (List Nat) → List (List Nat)
  | 0, _, _, ws => ws
  | n + 1, i, rcon, ws =>
    let last := ws.getD 0 []
    let t := if i % 8 = 0 then xorL ((last.drop 1 ++ last.take 1).map sbox) [rcon, 0, 0, 0]
      else if i % 8 = 4 then last.map sbox else last
    expandGo n (i + 1) (if i % 8 = 0 then xtime rcon else rcon) (xorL (ws.getD 7 []) t :: ws)

/-- The fifteen round keys of a 256-bit key. -/
def roundKeys (key : Nat) : List (List Nat) :=
  let kb := bytesOf 32 key
  let first := (List.range 8).map (fun i => (kb.drop (4 * i)).take 4)
  let ws := (expandGo 52 8 1 first.reverse).reverse
  (List.range 15).map (fun r => ((ws.drop (4 * r)).take 4).flatten)

/-- Shift the rows of a block, columns first; `d` is 1 for encryption and 3 for decryption. -/
def shiftRows (d : Nat) (b : List Nat) : List Nat :=
  (List.range 16).map (fun i => b.getD (4 * ((i / 4 + d * (i % 4)) % 4) + i % 4) 0)

/-- Mix the columns of a block with the circulant of `m`. -/
def mixCols (m : List Nat) (b : List Nat) : List Nat :=
  (List.range 16).map (fun i => (List.range 4).foldl (fun x j =>
    x ^^^ mul (m.getD ((j + 4 - i % 4) % 4) 0) (b.getD (4 * (i / 4) + j) 0)) 0)

/-- AES-256 of one block, by its round keys. -/
def encBlock (ks : List (List Nat)) (b : List Nat) : List Nat :=
  let s := (List.range 13).foldl (fun s r =>
    xorL (mixCols [2, 3, 1, 1] (shiftRows 1 (s.map sbox))) (ks.getD (r + 1) [])) (xorL b (ks.getD 0 []))
  xorL (shiftRows 1 (s.map sbox)) (ks.getD 14 [])
def decBlock (ks : List (List Nat)) (b : List Nat) : List Nat :=
  let s := (List.range 13).foldl (fun s r =>
    mixCols [14, 11, 13, 9] (xorL ((shiftRows 3 s).map sboxInv) (ks.getD (13 - r) []))) (xorL b (ks.getD 14 []))
  xorL ((shiftRows 3 s).map sboxInv) (ks.getD 0 [])

/-- The tweak of the next block: multiplication by x in the field of 2^128 elements. -/
def tweakNext (t : Nat) : Nat := if 2 ^ 127 ≤ t then (2 * t) % 2 ^ 128 ^^^ 0x87 else 2 * t

/-- The blocks of a sector, each under its tweak. -/
def blocks (f : List Nat → List Nat) : Nat → Nat → Nat → Nat
  | 0, _, _ => 0
  | n + 1, t, x =>
    let y := ofBytes (f (bytesOf 16 ((x % 2 ^ 128) ^^^ t))) ^^^ t
    y + 2 ^ 128 * blocks f n (tweakNext t) (x / 2 ^ 128)

/-- A sector's first 4,096 bytes under a 512-bit key with its LBA as the tweak; the bytes after them pass unchanged. -/
def sector (dec : Bool) (key lba v : Nat) : Nat :=
  let k1 := roundKeys (key % 2 ^ 256)
  let k2 := roundKeys ((key / 2 ^ 256) % 2 ^ 256)
  let t := ofBytes (encBlock k2 (bytesOf 16 lba))
  blocks (if dec then decBlock k1 else encBlock k1) 256 t (v % 2 ^ 32768) + 2 ^ 32768 * (v / 2 ^ 32768)

end Sys2Proof.Machine.Xts
end

