-- ==== Sys2Proof/Machine/Sched.lean ====
section
/-! DEFINITION. Media candidates, the schedulers' decisions, and the Track Jobs that are built for them (R14, R19, R126, R138, R211,
R220 to R227). -/

namespace Sys2Proof.Machine

/-! ### Slots of commands that wait for media -/

/-- A slot. -/
def slotAt (s : State) (n : Nat) : Option Slot := tget none s.hqe.slots n

/-- Update a slot in use. -/
def modSlot (n : Nat) (f : Slot → Slot) (s : State) : State :=
  match slotAt s n with
  | none => s
  | some x => { s with hqe := { s.hqe with slots := tput none s.hqe.slots n (some (f x)) } }

/-- A function as a controller reset leaves it. -/
def Fn.init : Fn where
  cc := 0
  rdy := false
  cfs := false
  sqs := []
  cqs := []
  aers := []
  ends := []
  events := []
  filters := []
  feats := []
  credH := 1
  credM := 1
  credL := 1
  rr := []
  cap := 0
  nss := []
  coal := []
  ints := []
  changed := []
  streams := []
  made := false
  vfEnable := false
  errs := []
  resetting := false
  resetKind := 0
  disp := []

/-- A function. -/
def fnOf (s : State) (f : Nat) : Fn := (tget none s.hqe.fns f).getD Fn.init

/-- A queue of a function. -/
def sqOf (s : State) (f q : Nat) : Option Sq := tget none (fnOf s f).sqs q
def cqOf (s : State) (f q : Nat) : Option Cq := tget none (fnOf s f).cqs q

/-- A slot's opcode and fields, and whether it is an admin slot (R243). -/
def Slot.opc (x : Slot) : Nat := wordField (x.dw.getD 0 0) 7 0
def Slot.cdw (x : Slot) (n : Nat) : Word := x.dw.getD n 0

/-- The SLBA and the sector count of a command that has them. -/
def slba (x : Slot) : Nat := (x.cdw 10).toNat + (x.cdw 11).toNat * 2 ^ 32
def nlb (x : Slot) : Nat := wordField (x.cdw 12) 15 0 + 1

/-- The first LBA that a command writes: a Zone Append's is the one assigned. -/
def firstLba (x : Slot) : Nat := if x.opc = 0x7D then x.assigned else slba x

/-- The class of an I/O submission queue: 0 Urgent, 1 High, 2 Medium, 3 Low (R238). -/
def sqClass (x : Fn) (q : Sq) : Nat := if wordField x.cc 13 11 = 1 then q.prio else 2

/-- The media class of a slot's candidates: urgent from an Urgent submission queue, host otherwise (R221). -/
def slotClass (s : State) (x : Slot) : Nat :=
  match sqOf s x.fn x.sqid with
  | some q => if sqClass (fnOf s x.fn) q = 0 then 0 else 1
  | none => 1

/-- Whether the PLE serves lookups and map changes (PLE_CTL, R229); without it, reads and writes wait. -/
def pleServes (s : State) : Bool := rdB s.ple.csr PLE_CTL.EN

/-! ### Candidates (R220, R221) -/

/-- The key of a sector that holds no data: fill (R56). -/
def fillKey : Nat := 2 ^ 58

/-- The key of a data offset of a band that is rebuilt or moved. -/
def unitKey (b off : Nat) : Nat := 2 ^ 62 + b * 2 ^ 32 + off

/-- The keys of a journal unit's sectors and of a snapshot's media copy (R218). -/
def unitSector (first count i : Nat) : Nat := 2 ^ 61 + (first * 2048 + count) * 16 + i
def snapSector (i : Nat) : Nat := 2 ^ 61 + 2 ^ 60 + i

/-- The Stripe of a slot under its band's plan or the system area's, data slots and parity slots. -/
def stripeAt (s : State) (mc head track slot : Nat) : Option (List Nat × List Nat) :=
  let has := fun (p : List Nat × List Nat) => p.1.contains slot || p.2.contains slot
  if systemTrack s mc head track then ((plansOn s mc head track).map (fun r => (r.data, r.par))).find? has
  else match bandOfTrack s mc head track with
    | some (_, b) => (trackPlan s b track).find? has
    | none => none

/-- The rate zone of a track. -/
def zoneOfTrack (s : State) (mc head track : Nat) : Nat :=
  ((List.range 32).find? (fun z =>
    let e := zoneEntry s (mcIx mc) false head z
    decide (entF e 0 31 31 = 1 ∧ entF e 0 20 0 ≤ track ∧ track ≤ entF e 1 20 0))).getD 0

/-- The first and the last slot of a candidate's job: of a read its own sectors, of a write its whole Stripe from the candidate's
first slot on (R34, R35). -/
def candSpan (s : State) (c : Cand) : Nat × Nat :=
  let first := addrSlot c.addr
  match c.kind, c.write with
  | .runSeq slot, _ => match tget none s.hqe.slots slot with
    | some x => (first, first + wordField (x.dw.getD 12 0) 26 16 - 1)
    | none => (first, first)
  | _, true => match stripeAt s (addrMc c.addr) (addrHead c.addr) (addrTrack c.addr) first with
    | some st => (first, (st.1 ++ st.2).getLast?.getD first)
    | none => (first, first)
  | _, false => (first, ((addrPlus s c.addr (c.keys.length - 1)).map addrSlot).getD first)

/-- Whether two candidates touch the same slots. -/
def spansMeet (s : State) (a b : Cand) : Bool :=
  let x := candSpan s a
  let y := candSpan s b
  decide (a.addr / 2 ^ 11 = b.addr / 2 ^ 11 ∧ x.1 ≤ y.2 ∧ y.1 ≤ x.2)

/-- The band that a write goes to: its own, or for a write that the partner asked for the band of its track. -/
def writeBand (s : State) (c : Cand) : Option Nat :=
  if c.write then match c.kind with
    | .remote _ => (bandOfTrack s (addrMc c.addr) (addrHead c.addr) (addrTrack c.addr)).map Prod.fst
    | k => k.band
  else none

/-- The earlier candidates that a new one depends on (R220): writers of LBAs that it writes, writers of the media that
it reads, and for a band's write the earlier writes of the band, whose tracks are written in order (R33). -/
def dependsOn (s : State) (c : Cand) : List Nat :=
  let band := writeBand s c
  ((outstanding s).filter (fun x => x.write &&
    ((c.write && x.keys.any (fun k => decide (k ≠ fillKey) && c.keys.contains k)) ||
     (!c.write && spansMeet s x c) ||
     (band.isSome && decide (writeBand s x = band))))).map (fun x => x.id)

/-- Whether the dependencies of a candidate have ended. -/
def depsEnded (out : List Cand) (c : Cand) : Bool := !(out.any (fun x => c.deps.contains x.id))

/-- Keep a list in age order: born first, then by number. -/
def insertCand (c : Cand) : List Cand → List Cand
  | [] => [c]
  | x :: xs => if c.born < x.born ∨ (c.born = x.born ∧ c.id < x.id) then c :: x :: xs else x :: insertCand c xs

/-- Whether an operation on an actuator is the partner's to run (R404). -/
def remoteWork (s : State) (mc : Nat) : Bool := inPair s && serving s && linkUp s && !actOwned s (mcIx mc)

/-- A free run of n pages of the Staging Buffer's 1,024 (R14), which jobs and remote reads have reserved. -/
def freePages (s : State) (n : Nat) : Option Nat :=
  (List.range (1025 - n)).find? (fun a => !s.ple.pages.any (fun e => decide (a < e.2.1 + e.2.2 ∧ e.2.1 < a + n)))

/-- A host candidate stands at a scheduler now (R213). -/
def noteHost (k : Fin 4) (cls : Nat) (s : State) : State :=
  if cls = 1 then modSched k (fun q => { q with hostAt := nowMs s }) s else s

/-- The slot whose data a write candidate writes through. -/
def throughSlot (c : Cand) : Option Nat := match c.kind with
  | .destage _ wt => wt
  | .close _ _ wt => wt
  | _ => none

/-- A media write of a command's data has begun: the command is past its point of no return (R255). -/
def writeBegun (c : Cand) (s : State) : State := match throughSlot c with
  | some n => modSlot n (fun x => { x with pnr := true }) s
  | none => s

/-- Enter a numbered candidate on its actuator; in pair mode an operation on an actuator that the partner owns is sent
to it, a read once Staging Buffer space for its data is reserved, either once what it depends on has ended (R220,
R404). Until then it waits here. -/
def queueCand (c : Cand) (s : State) : State :=
  let s := noteHost (mcIx (addrMc c.addr)) c.cls s
  let wait := modSched (mcIx (addrMc c.addr)) (fun q => { q with waiting := insertCand c q.waiting })
  let send := fun (s : State) => sendCtrl (.mediaReq c.id c.write c.addr c.keys.length c.cls (nowMs s - c.born) c.claim)
    (modTdl (fun t => { t with sent := t.sent ++ [(c.id, c)] }) s)
  if !remoteWork s (addrMc c.addr) || !depsEnded ((outstanding s).filter (fun x => decide (x.id ≠ c.id))) c then wait s
  else if c.write then writeBegun c (send s)
  else match freePages s c.keys.length with
    | none => wait s
    | some page => send (modPle (fun p => { p with pages := p.pages ++ [(256 + c.id, (page, c.keys.length))] }) s)

/-- Enter a new candidate. -/
def enterCand (c : Cand) (s : State) : State :=
  let c := { c with id := s.ple.nextId, deps := dependsOn s c }
  queueCand c (modPle (fun p => { p with nextId := p.nextId + 1 }) s)

/-- Put a candidate back under its own number, as firmware does with a retryable failure. -/
def reenter (c : Cand) (s : State) : State := queueCand c s

/-- A candidate before it is numbered. -/
def newCand (s : State) (cls : Nat) (write : Bool) (kind : CandKind) (addr : Nat) (keys data : List Nat) : Cand :=
  ⟨0, cls, nowMs s, write, kind, addr, keys, data, 0, [], 0, 0, 0⟩

/-- The Echo Table index of the record, an ANCHOR record too, that covers an LBA's key; 0 for none. -/
def echoIndex (s : State) (key : Nat) : Nat :=
  ((s.ple.map.extents.find? (fun e => decide (e.echo ≠ 0) && e.covers (key / 2 ^ 36) (key % 2 ^ 36))).map (fun e => e.echo)).getD 0

/-- Cut sectors into runs that one Track Job can take: one track, slots that follow each other in the plan, one GEN,
at most 512, and the same echo copies for all of them (R211). -/
def cutRuns (s : State) : List (Nat × Nat) → List (List (Nat × Nat))
  | [] => []
  | e :: es =>
    match cutRuns s es with
    | [] => [[e]]
    | r :: rs =>
      match r with
      | [] => [e] :: rs
      | f :: _ =>
        if e.2 / 2048 = f.2 / 2048 ∧ addrPlus s e.2 1 = some f.2 ∧ genAt s e.2 = genAt s f.2 ∧
            echoIndex s e.1 = echoIndex s f.1 ∧ r.length < 512 then (e :: r) :: rs
        else [e] :: r :: rs

/-- Enter read candidates for sectors given as (key, address); the claim group is shared by all of them. -/
def enterReads (cls : Nat) (kind : CandKind) (claim echo : Nat) (es : List (Nat × Nat)) (s : State) : State :=
  (cutRuns s es).foldl (fun s r => match r with
    | [] => s
    | f :: _ => enterCand { newCand s cls false kind f.2 (r.map Prod.fst) [] with claim := claim, echo := echo } s) s

/-- Withdraw candidates at once; armed ones are cancelled (R227, R129), and the partner is told of its own. -/
def withdraw (p : Cand → Bool) (s : State) : State :=
  let s := (s.tdl.sent.filter (fun e => p e.2)).foldl (fun s e =>
    sendCtrl (.mediaCancel e.1) (modTdl (fun t => { t with sent := t.sent.filter (fun x => decide (x.1 ≠ e.1)) }) s)) s
  forMcs (fun k s =>
    let s := if ((schedOf s k).waiting ++ (schedOf s k).ready).any (fun c => p c && decide (c.cls = 1)) then noteHost k 1 s else s
    let hit := ((schedOf s k).armed.filter (fun e => p e.2)).map Prod.fst
    let s := modSched k (fun q => { q with
      waiting := q.waiting.filter (fun c => !p c)
      ready := q.ready.filter (fun c => !p c)
      armed := q.armed.map (fun e => if p e.2 then (e.1, { e.2 with kind := .dropped }) else e) }) s
    hit.foldl (fun s e => jtCancel k e s) s) s

/-- The class of a destage by the dirty data against the ceiling; urgent in write-through (R221, R288). -/
def destageClass (s : State) : Nat :=
  if writeThrough s then 0 else if 90 * admitCeil s ≤ 100 * dirtyBytes s then 0 else if 50 * admitCeil s ≤ 100 * dirtyBytes s then 1 else 2

/-! ### The decision (R222 to R226) -/

/-- Whether a candidate is a destage of dirty data, and not of a pool's, a rebuild's, or a command's. -/
def plainDestage (c : Cand) : Bool :=
  let own := c.keys.all (fun k => decide (k ≤ fillKey) && !poolKey k || decide (2 ^ 60 ≤ k ∧ k < 2 ^ 60 + 2 ^ 58))
  match c.kind with
  | .destage _ none => own
  | .close _ _ none => own
  | _ => false

/-- The destages that wait have the class that the dirty data gives them now (R221). -/
def reclass (k : Fin 4) (s : State) : State :=
  let f := fun (c : Cand) => if plainDestage c then { c with cls := destageClass s } else c
  modSched k (fun q => { q with waiting := q.waiting.map f, ready := q.ready.map f }) s

/-- The lowest slot of the ready set that is free. -/
def freeSlotOf (l : List Cand) : Nat := ((List.range 4096).find? (fun n => !l.any (fun x => decide (x.rslot = n)))).getD 4096

/-- Fill the ready set from the waiting list, oldest first, with the background bound of R220; each takes the lowest free slot. -/
def fillReady (k : Fin 4) (s : State) : State :=
  let out := outstanding s
  let bgmax := 16 * max 1 (rdF s.ple.csr PLE_SCH_BG.BGMAX)
  modSched k (fun q =>
    let go := fun (acc : List Cand × List Cand) (c : Cand) =>
      let bg := (acc.1.filter (fun x => decide (x.cls = 2))).length
      if acc.1.length < 4096 && depsEnded out c && (decide (c.cls ≠ 2) || decide (bg < bgmax)) then
        (insertCand { c with rslot := freeSlotOf acc.1 } acc.1, acc.2) else (acc.1, acc.2 ++ [c])
    let r := q.waiting.foldl go (q.ready, [])
    { q with ready := r.1, waiting := r.2 }) s

/-- The age of a candidate in ms. -/
def candAge (s : State) (c : Cand) : Nat := nowMs s - c.born

/-- Rank 1: urgent and aged (R222). -/
def dueUrgent (s : State) (c : Cand) : Bool :=
  decide (c.cls = 0) && decide (max 1 (rdF s.ple.csr PLE_SCH_AGE.URGAGE) ≤ candAge s c)

/-- Rank 2: host or background, starved. -/
def dueOther (s : State) (c : Cand) : Bool :=
  (decide (c.cls = 1) && decide (max 100 (rdF s.ple.csr PLE_SCH_AGE.STARVE) ≤ candAge s c)) ||
  (decide (c.cls = 2) && decide (100 * max 1 (rdF s.ple.csr PLE_SCH_BG.BGSTARVE) ≤ candAge s c))

/-- Whether no job may be armed on an actuator for the pair's sake: it is being handed off (R412), or this device yields
(R408). -/
def pairHolds (s : State) (k : Fin 4) : Bool :=
  s.tdl.yielding || (match s.tdl.handoff with
    | .draining acts _ => acts.testBit k.val
    | .released acts _ => acts.testBit k.val
    | _ => false)

/-- Whether a spindle handoff holds write candidates, from its start until the taking device's SCU reports WEDGE_RUN (R413). -/
def spindleHolds (s : State) : Bool := match s.tdl.handoff with
  | .none => false
  | .waiting _ _ => false
  | .draining _ spindle => spindle
  | .released _ spindle => spindle
  | .taking _ spindle => spindle

/-- What the scheduler never chooses (R226); background work stops in PS3 and PS4 (R379), and a remote claim waits for its
reply (R404). -/
def choosable (s : State) (k : Fin 4) (c : Cand) : Bool :=
  !(c.write && (mcOf s k).dutyHold.contains (addrHead c.addr)) && actEnabled s k && actOwned s k &&
  decide (msqState (mcOf s k) ≠ 0) && !pairHolds s k && !(c.write && spindleHolds s) && !(decide (c.cls = 2) && decide (3 ≤ powerState s)) &&
  (match c.kind with
   | .remote tag => !(s.tdl.asked.contains tag && !s.tdl.won.contains tag)
   | _ => true)

/-- Whether the seek window is open (R224). -/
def windowOpen (s : State) : Bool :=
  let p := rdF s.ple.csr PLE_VIB_WIN.PERIOD
  decide (p ≠ 0) &&
    decide ((((nowMs s : Int) - rdF s.ple.csr PLE_VIB_WIN.PHASE) % (p : Int)) < rdF s.ple.csr PLE_VIB_WIN.LEN)

/-- The distance of a candidate's seek in servo tracks, from the target that the actuator holds when its current job
ends (R224). -/
def seekDist (s : State) (k : Fin 4) (c : Cand) : Nat :=
  match trackPos s k (addrHead c.addr) (zoneOfTrack s k.val (addrHead c.addr) (addrTrack c.addr)) (addrTrack c.addr) with
  | some p => (p - (actOf s k).target).natAbs / 1024
  | none => 0

/-- Whether a seek is long. -/
def longSeek (s : State) (k : Fin 4) (c : Cand) : Bool :=
  decide (0 < stroke s k) && decide (max 1 (rdF s.ple.csr PLE_VIB_CTL.LFRAC) * stroke s k ≤ 256 * seekDist s k c)

/-- Whether the vibration penalty applies; an actuator is in a long seek while the seek of a choice whose seek is long lasts. -/
def vibApplies (s : State) (k : Fin 4) (c : Cand) : Bool :=
  let others := (([0, 1, 2, 3] : List (Fin 4)).filter (fun j => decide (j ≠ k) && (schedOf s j).inLong && decide ((actOf s j).state = 3))).length
  longSeek s k c && rdB s.ple.csr PLE_VIB_CTL.EN &&
    (!windowOpen s || decide (max 1 (rdF s.ple.csr PLE_VIB_CTL.LSMAX) ≤ others))

/-- The wedge of a candidate's first needed slot (R40, R224). -/
def firstWedge (s : State) (c : Cand) : Nat :=
  let z := zoneEntry s (mcIx (addrMc c.addr)) false (addrHead c.addr) (zoneOfTrack s (addrMc c.addr) (addrHead c.addr) (addrTrack c.addr))
  let sw := startWedge (entF z 3 9 0) (entF z 0 29 29) (entF z 0 20 0) (entF z 1 20 0) (addrTrack c.addr)
  (slotStart (entF z 2 27 16) (entF z 2 7 0) sw (addrSlot c.addr)).1

/-- The calibrated seek time of an actuator at a candidate's distance, in wedges (R224). -/
def seekWedges (s : State) (k : Fin 4) (c : Cand) : Nat := (tget 0 s.cal.seeks (seekBin s k (seekDist s k c))).toNat

/-- The wedge at which a candidate's seek is predicted to end, begun now. -/
def arrivalWedge (s : State) (k : Fin 4) (c : Cand) : Nat := ((mcOf s k).wedge + seekWedges s k c) % 640

/-- The energy estimate of a candidate in mJ (R224): the Ledger's seek energy, its per-sector energy, and assist
energy per written sector; the rules give the three terms and none of their values. -/
def candEnergy (s : State) (k : Fin 4) (c : Cand) : Nat :=
  let n := (candSpan s c).2 + 1 - (candSpan s c).1
  Config.seekEnergy k.val (seekDist s k c) + n * Config.sectorEnergy c.write + (if c.write then n * Config.assistEnergy else 0)

/-- The cost of a candidate in µs (R224). -/
def candCost (s : State) (k : Fin 4) (c : Cand) : Nat :=
  let seek := seekWedges s k c * wedgePeriodPs s / 1000000 + (if c.write then Config.writeSettleUs else 0)
  let rot := ((firstWedge s c + 640 - arrivalWedge s k c) % 640) * wedgePeriodPs s / 1000000
  seek + rot + rdF s.ple.csr PLE_SCH_WGT.WE * candEnergy s k c +
    (if vibApplies s k c then rdF s.ple.csr PLE_SCH_WGT.PVIB else 0)

/-- The rank that a decision takes and its choice. Within rank 1 and rank 2 the oldest is first, and rank 1 comes
before rank 2, as R222 orders them; where R223's order by the time at which candidates become due would differ, R222's
is kept (DESIGN CHOICE, log 192). -/
def rankChoice (s : State) (k : Fin 4) (cs : List Cand) : Option (Nat × Cand) :=
  let oldest := fun (l : List Cand) => leastBy (fun c => c.born * 2 ^ 40 + c.rslot) l
  let cheap := fun (l : List Cand) => leastBy (fun c => candCost s k c * 2 ^ 100 + c.born * 2 ^ 40 + c.rslot) l
  let r1 := cs.filter (dueUrgent s)
  let r2 := cs.filter (dueOther s)
  let r3 := cs.filter (fun c => decide (c.cls = 0))
  let r4 := cs.filter (fun c => decide (c.cls = 1))
  let r5 := if rdB s.ple.csr PLE_SCH_WGT.HOLDBG then [] else cs.filter (fun c => decide (c.cls = 2))
  let bgn := rdF s.ple.csr PLE_SCH_BG.BGN
  let turn := decide (0 < bgn) && decide (((schedOf s k).both + 1) % bgn = 0)
  match oldest r1 with
  | some c => some (1, c)
  | none => match oldest r2 with
    | some c => some (2, c)
    | none =>
      if !permitOk s k then none
      else match cheap r3 with
        | some c => some (3, c)
        | none =>
          if !r4.isEmpty && !r5.isEmpty && turn then (cheap r5).map (fun c => (5, c))
          else match cheap r4 with
            | some c => some (4, c)
            | none => (cheap r5).map (fun c => (5, c))

/-- Pin or unpin the echo copy that a candidate reads (R211). -/
def pinEcho (c : Cand) (up : Bool) (s : State) : State :=
  if c.echo = 0 then s
  else modMap (fun m => { m with echoes := m.echoes.map (fun e =>
    if e.1 = (c.echo - 1) / 2 then (e.1, e.2.map (fun x => { x with pins := if up then x.pins + 1 else x.pins - 1 }))
    else e) }) s

/-- Take a choice: a claim that loses discards it and the scheduler decides again without it (R211). -/
def decide_ (k : Fin 4) : Nat → State → Option (Nat × Cand) × State
  | 0, s => (none, s)
  | n + 1, s =>
    match rankChoice s k ((schedOf s k).ready.filter (choosable s k)) with
    | none => (none, s)
    | some (r, c) =>
      let remote : Bool := match c.kind with
        | .remote _ => true
        | _ => false
      if c.claim ≠ 0 && !remote && s.ple.claims.contains c.claim then
        decide_ k n (modSched k (fun q => { q with
          ready := q.ready.filter (fun x => decide (x.id ≠ c.id))
          claimTot := satAdd 0xFFFFFFFF q.claimTot 1
          claimLost := BitVec.ofNat 32 (satAdd 0xFFFFFFFF q.claimLost.toNat 1) }) s)
      else (some (r, c), s)

/-- The counters of a decision (R222, R228, PLE_SCH_MAXW, PLE_SCH_DUEPK). -/
def countDecision (k : Fin 4) (r : Nat) (c : Cand) (s : State) : State :=
  let long := longSeek s k c
  let pen := vibApplies s k c
  let age := candAge s c
  let open_ := (schedOf s k).ready.filter (choosable s k)
  let hasBoth := open_.any (fun c => decide (c.cls = 1)) && open_.any (fun c => decide (c.cls = 2)) &&
    !rdB s.ple.csr PLE_SCH_WGT.HOLDBG
  modSched k (fun q => { q with
    decisions := q.decisions + 1
    both := if hasBoth && decide (4 ≤ r) then q.both + 1 else q.both
    rank1 := q.rank1 + (if r = 1 then 1 else 0)
    rank2 := q.rank2 + (if r = 2 then 1 else 0)
    duepk := if r ≤ 2 then BitVec.ofNat 32 (satAdd 0xFFFFFFFF q.duepk.toNat 1) else q.duepk
    maxw := if c.cls = 1 then BitVec.ofNat 32 (min 0xFFFFFFFF (max q.maxw.toNat age)) else q.maxw
    maxwTot := if c.cls = 1 then min 0xFFFFFFFF (max q.maxwTot age) else q.maxwTot
    longSeeks := q.longSeeks + b2n long
    longPen := q.longPen + b2n pen
    echoReads := q.echoReads + b2n (decide (c.echo ≠ 0))
    inLong := long }) s

/-! ### Track Jobs (R14, R23, R126) -/

/-- The retry budget of a read job under Error Recovery's TLER (R261): BUDGET times the revolution within TLER × 100 ms. -/
def capBudget (s : State) (tler budget : Nat) : Nat :=
  if tler = 0 then budget else min budget (tler * 100000000000 / max 1 (640 * wedgePeriodPs s))

/-- The Error Recovery time limit in force, 0 for none. -/
def tlerOf (s : State) : Nat := wordField (featGet 0 s.hqe.feats 5) 15 0

/-- Whether a slot of a track is slipped. -/
def slotSlipped (s : State) (mc head track slot : Nat) : Bool :=
  (s.ple.map.pdl ++ s.ple.map.gdl).any (defectHits 0 mc head track slot)

/-- The recorded plans of a candidate's track that its job meets, in the order of their slots (R53). -/
def jobPlans (s : State) (c : Cand) : List StripeRec :=
  let sp := candSpan s c
  (plansOn s (addrMc c.addr) (addrHead c.addr) (addrTrack c.addr)).filter (fun r =>
    decide (r.data.headD 0 ≤ sp.2 ∧ sp.1 ≤ (r.par.getLast?.getD (r.data.headD 0))))

/-- What a candidate's Track Job asks for: its entry word, whether it counts parity slots, P, GEN, GR1 and GR0, and
its retry budget. A Run Sequence gives them itself (R138); the PLE's own reads are READ_TRACK with the drive's budget,
its writes WRITE_TRACK, or CLOSE_STRIPE where the candidate does not begin at its Stripe's first data slot (R56, R125,
R134). -/
structure JobAsk where
  entry : Nat
  allSlots : Bool
  p : Nat
  gen : Nat
  gr : Word
  budget : Nat
  written : Bool

def jobAsk (s : State) (c : Cand) : JobAsk :=
  let p := if systemTrack s (addrMc c.addr) (addrHead c.addr) (addrTrack c.addr) then 8
    else ((bandOfTrack s (addrMc c.addr) (addrHead c.addr) (addrTrack c.addr)).map (fun e => e.2.p)).getD 0
  let plans := jobPlans s c
  match c.kind, c.write with
  | .runSeq slot, w => match tget none s.hqe.slots slot with
    | some x =>
      let b := wordField (x.dw.getD 10 0) 31 24
      ⟨wordField (x.dw.getD 10 0) 13 0, wordBit (x.dw.getD 14 0) 17, wordField (x.dw.getD 14 0) 11 8, wordField (x.dw.getD 14 0) 7 0,
        x.dw.getD 13 0, if w then b else capBudget s (tlerOf s) b, false⟩
    | none => ⟨0, false, 0, 0, 0, 0, false⟩
  | _, true =>
    let head := (stripeAt s (addrMc c.addr) (addrHead c.addr) (addrTrack c.addr) (addrSlot c.addr)).bind (fun st => st.1.head?)
    ⟨if head = some (addrSlot c.addr) then 1 else 2, false, p, genAt s c.addr, 0, 0, !plans.isEmpty⟩
  | _, false => ⟨0, false, p, genAt s c.addr, 0, capBudget s (tlerOf s) 6, !plans.isEmpty⟩

/-- Whether a candidate is a Run Sequence with NODATA: its job's data is not kept (R138). -/
def noData (s : State) (c : Cand) : Bool := match c.kind with
  | .runSeq slot => ((slotAt s slot).map (fun x => wordBit (x.dw.getD 14 0) 16)).getD false
  | _ => false

/-- The buffer descriptors of a candidate's job as runs of pages, each by its first page past the job's own and its
length: one run for all data, or for data that is not kept as many runs of the same pages as it takes (DESIGN CHOICE,
log 256: R138 says only that no buffer of the host is used). -/
def descRuns (c : Cand) (drop : Bool) : List Nat :=
  if c.keys = [] then [] else if drop then (chunksOf 64 c.keys).map List.length else [c.keys.length]

/-- The Staging Buffer pages that a candidate's job needs. -/
def jobPages (s : State) (c : Cand) : Nat := if noData s c then min 64 c.keys.length else c.keys.length

/-- The ten dwords of a candidate's Job Table entry (R126), its parameter block standing at `at_` × 8 with the
descriptor behind it. -/
def jobDwords (s : State) (i : SchedIn) (c : Cand) : List Word :=
  let a := jobAsk s c
  let sp := candSpan s c
  let zone := zoneOfTrack s (addrMc c.addr) (addrHead c.addr) (addrTrack c.addr)
  let w := fun (n : Nat) => BitVec.ofNat 32 n
  [w (a.entry * 2 ^ 16 + i.start % 2 ^ 10), w c.addr, w (zone * 2 ^ 19 + (sp.2 + 1 - sp.1) % 2 ^ 11 * 2 ^ 8 + c.addr / 2 ^ 32),
   w (a.budget % 256 * 2 ^ 24 + b2n c.write * 2 ^ 17 + b2n a.allSlots * 2 ^ 16 + a.p % 16 * 2 ^ 8 + a.gen % 256),
   w i.at_, w (i.at_ + 128), w (descRuns c (noData s c)).length, if a.written then w (i.at_ + 32) else 0, a.gr, 0]

/-- The parameter block (R126) and the buffer descriptors behind it: the skip bitmap, which flags slipped slots and under written
plans every slot of none; the written plan; the default ladder list (R134); runs of sectors from a Staging Buffer page on. -/
def jobBlock (s : State) (c : Cand) (page : Nat) : List Nat :=
  let plans := jobPlans s c
  let written := (jobAsk s c).written
  let skip := fun (x : Nat) => slotSlipped s (addrMc c.addr) (addrHead c.addr) (addrTrack c.addr) x ||
    (written && !plans.any (fun r => r.data.contains x || r.par.contains x))
  let bits := (List.range 256).map (fun i => (List.range 8).foldl (fun v j => v + b2n (skip (8 * i + j)) * 2 ^ j) 0)
  let plan := (plans.flatMap (fun r => leBytes 4 (planWord r)) ++ List.replicate 512 0).take 512
  bits ++ plan ++ [3, 4, 5, 6, 7, 0, 0, 0] ++ List.replicate 248 0 ++
    (descRuns c (noData s c)).flatMap (fun n => leBytes 4 page ++ leBytes 2 n ++ List.replicate 10 0)

/-- Build a candidate's Track Job in an entry: Staging Buffer space is reserved and holds zeros, or a write's sectors
(R14, R23), and the entry, its parameter block and its descriptor are filled. -/
def buildJob (k : Fin 4) (i : SchedIn) (c : Cand) (page : Nat) (s : State) : State :=
  let n := jobPages s c
  let words := jobDwords s i c
  let block := jobBlock s c page
  let data := if c.write then c.data else []
  let put := fun (t : List (Nat × Nat)) (e : Nat × Nat) => tput 0 t (page + e.1) e.2
  let staged := ((List.range data.length).zip data).foldl put (tdrop s.staging page (page + n))
  let s := { s with staging := staged }
  let s := modPle (fun p => { p with pages := p.pages ++ [(k.val * 64 + i.entry, (page, n))] }) s
  modMc k (fun m => (List.range 10).foldl (fun m d => jtPut i.entry d (words.getD d 0) m) m) (bufPut (i.at_ * 8) block s)

/-- The Staging Buffer space of an entry is free again. -/
def freeJob (k : Fin 4) (e : Nat) (s : State) : State :=
  modPle (fun p => { p with pages := p.pages.filter (fun x => decide (x.1 ≠ k.val * 64 + e)) }) s

/-- Arm the chosen candidate's Track Job. Where no Staging Buffer space is free, the entry is in use, the start wedge
is less than two wedges after the predicted arrival (R225), or the ARM is rejected, the candidate stays ready. -/
def armCand (k : Fin 4) (i : SchedIn) (c : Cand) (s : State) : State :=
  let ask : Option Nat := match c.kind with
    | .remote tag => if c.claim ≠ 0 ∧ ¬ s.tdl.won.contains tag then some tag else none
    | _ => none
  let early := decide ((i.start + 640 - arrivalWedge s k c) % 640 < 2)
  if ask.isSome then
    -- the serving device's arbiter decides the claim first
    sendCtrl (.claim (ask.getD 0) c.claim) (modTdl (fun t => { t with asked := t.asked ++ [ask.getD 0] }) s)
  else if decide (jtState (mcOf s k) i.entry ≠ 0 ∨ 64 ≤ i.entry) || early then s
  else match freePages s (jobPages s c) with
    | none => s
    | some page =>
      let t := jtArm k i.entry (buildJob k i c page s)
      if jtState (mcOf t k) i.entry = 1 then
        let t : State := if c.claim ≠ 0 then
            withdraw (fun x => decide (x.claim = c.claim ∧ x.id ≠ c.id))
              (modPle (fun p => { p with claims := c.claim :: p.claims }) t) else t
        pinEcho c true (modSched k (fun q => { q with
          ready := q.ready.filter (fun x => decide (x.id ≠ c.id))
          armed := q.armed ++ [(i.entry, c)] }) t)
      else freeJob k i.entry t

end Sys2Proof.Machine
end

