-- ==== Sys2Proof/Machine/Destage.lean ====
section
/-! DEFINITION. What is written to bands: whole Stripes of zones, pools and rebuilds, Stripes of dirty data in staging bands and stream
bands, and what the end of such a write does (R33 to R35, R53, R56, R193 to R198, R202, R212). -/

namespace Sys2Proof.Machine

/-! ### Parity of P1 rows (R193, R194) -/

/-- Whether a zone has left the open states. -/
def zoneShut (z : Zone) : Bool := decide (3 < z.st)

/-- Whether a row's parity unit can be written: it takes no more data, or its zone has left the open states (R194). -/
def rowReady (z : Zone) (row : Nat) : Bool := rowWhole z row || zoneShut z

/-! ### What a Stripe of a band holds (R56, R194) -/

/-- What stands at a data offset of a band's next Stripe: a sector with its key, fill, or data that has not come yet. -/
inductive Source where
  | data (key v : Nat)
  | fill
  | wait
  deriving DecidableEq, Repr

/-- The source of an offset by the zone that a member band belongs to: data that DRAM holds, a parity unit that can be written, or
fill where the data lies elsewhere or the zone takes no more. -/
def zoneSource (s : State) (b off : Nat) : Source :=
  match zoneOf s b with
  | none => .fill
  | some (n, zn, z) =>
    let past := if zoneShut z then .fill else .wait
    match unitOf n z b off with
    | .data o =>
      let key := lkey n.nsx (zn * zsze s n + o)
      if z.wp ≤ o then past else match heldVal s key with
        | some v => .data key v
        | none => .fill
    | .parity row =>
      if z.wp ≤ row * 768 then past
      else if rowReady z row then .data (parityKey n.nsx zn off) (tget 0 s.ple.map.parity (parityKey n.nsx zn off))
      else .wait

/-- The source of an offset of a band: of one that a rebuild or a move fills, what was rebuilt or read for it, and
beside that what the zone gives the band that it replaces (R197, R202). -/
def sourceAt (s : State) (band off : Nat) : Source :=
  match s.ple.remakes.find? (fun r => decide (r.new = band)) with
  | some r =>
    if r.need.contains off then match r.got.find? (fun e => decide (e.1 = off)) with
      | some e => .data (unitKey band off) e.2
      | none => .wait
    else zoneSource s r.old off
  | none => zoneSource s band off

/-- The band that a band stands for: the one that it replaces under a rebuild or a move, or itself. -/
def standsFor (s : State) (band : Nat) : Nat := ((s.ple.remakes.find? (fun r => decide (r.new = band))).map (fun r => r.old)).getD band

/-- Whether a parity offset is written before its row is whole; such a unit is never read, and the row's sum stays in DRAM. -/
def parityEarly (s : State) (band off : Nat) : Bool :=
  match zoneOf s (standsFor s band) with
  | none => false
  | some (n, _, z) => match unitOf n z (standsFor s band) off with
    | .parity row => !rowWhole z row
    | .data _ => false

/-- Whether a Stripe is retired (R68). -/
def stripeRetired (s : State) (mc head track slot : Nat) : Bool := s.ple.map.gdl.any (defectHits 2 mc head track slot)

/-- How many data offsets of a member band what its zone holds takes (R193, R195): up to the zone's pointer, and in a
group up to the end of the member's unit of the last row. -/
def memberTop (s : State) (band : Nat) : Nat :=
  let b := standsFor s band
  match zoneOf s b with
  | none => 0
  | some (n, _, z) =>
    let rows := (z.wp + 767) / 768
    if n.cls ≠ 1 then z.wp
    else if rows = 0 then 0
    else match unitOf n z b ((rows - 1) * 256) with
      | .parity _ => rows * 256
      | .data o => (rows - 1) * 256 + min 256 (z.wp - o)

/-- The class of the write of a band's next Stripe (R202, R213, R221): urgent for a rebuild, background for a move,
the most urgent rank of the triggers that copied its sectors for a pool, and that of a destage for a zone. -/
def stripeClass (s : State) (band : Nat) (keys : List Nat) : Nat :=
  match s.ple.remakes.find? (fun r => decide (r.new = band)) with
  | some r => if r.zone.isSome then 2 else 0
  | none => match zoneOf s band with
    | some (n, _, _) =>
      if 1024 ≤ n.nsx then (s.ple.ghosts.filter (fun g => keys.contains g.pk)).foldl (fun m g => min m g.cls) 2 else destageClass s
    | none => destageClass s

/-- Enter the write of a Stripe of a band at the offset `next`: its sectors by key, the offsets that hold no data. -/
def putStripe (band : Nat) (kind : CandKind) (cls est : Nat) (track : Nat) (slots : List Nat) (es : List (Nat × Nat))
    (holes : List Nat) (s : State) : State :=
  match bandAt s band with
  | none => s
  | some b =>
    let c := newCand s cls true kind (packAddr b.mc b.head track (slots.headD 0)) (es.map Prod.fst) (es.map Prod.snd)
    -- the age of a command's write runs from its fetch
    let born := match kind with
      | .destage _ (some slot) => ((slotAt s slot).map (fun x => x.born)).getD c.born
      | _ => c.born
    enterCand { c with est := est, born := born } (modBand band (fun x => { x with
      next := x.next + slots.length
      holes := x.holes ++ holes
      lastw := nowSec s }) s)

/-- Enter the next whole Stripe of a band (R194), where every sector of it is at hand and the zone's data reaches it;
one whose sectors all lie elsewhere is fill, so that what follows it can be written (R33, R56). A retired Stripe is
written as fill alone: it receives no new data (R68). -/
def enterStripe (band est : Nat) (s : State) : State :=
  match bandAt s band with
  | none => s
  | some b =>
    if b.st ≠ 1 ∨ convBand s b ∨ headOut s b.mc b.head then s
    else match stripeFrom (bandStripes s b) b.next with
      | none => s
      | some (track, data, _) =>
        let dead := stripeRetired s b.mc b.head track (data.headD 0)
        let src := (List.range data.length).map (fun i => if dead then .fill else sourceAt s band (b.next + i))
        let es := src.map (fun x => match x with
          | .data k v => (k, v)
          | _ => (fillKey, 0))
        let holes := ((List.range data.length).zip src).filterMap (fun e =>
          if e.2 = .fill ∨ parityEarly s band (b.next + e.1) then some (b.next + e.1) else none)
        if src.contains .wait || (src.all (fun x => decide (x = .fill)) && !dead && decide (memberTop s band ≤ b.next)) then s
        else putStripe band (.destage band none) (stripeClass s band (es.map Prod.fst)) est track data es holes s

/-! ### Staging and streams (R53, R198) -/

/-- The stream, plus 1, whose run a key's write continued for SEQMIN sectors; 0 for none. -/
def keyRun (s : State) (key : Nat) : Nat := tget 0 s.ple.seqs key

/-- The stream that a key's write named, if any. -/
def keyStream (s : State) (key : Nat) : Option Nat := match tget 0 s.ple.streamKeys key with
  | 0 => none
  | id + 1 => some id

/-- Write sectors of a namespace as a Stripe with a written plan in the staging bands of its class, one copy in each; how many
candidates were entered. `none` where no staging band has room. -/
def stageStripe (n : Ns) (kind : Nat → CandKind) (cls est : Nat) (es : List (Nat × Nat)) (s : State) : Option (State × Nat) :=
  match stagingHome n (keyStream s (es.headD (0, 0)).1) ((es.headD (0, 0)).1 % 2 ^ 36) es.length s with
  | none => none
  | some (ms, s) =>
    let put := fun (s : State) (q : Nat) => match bandAt s q with
      | none => s
      | some b => match stripeRoom s b es.length (parityFor s b 1 n.cls) with
        | none => s
        | some (track, data, par) =>
          let s := putStripe q (kind q) cls est track data es [] (recordPlan b.mc b.head track data par s)
          -- a band that no Stripe fits any more takes no further writes
          if (stripeRoom s b 1 (parityFor s b 1 n.cls)).isSome then s else setBand q (fun x => { x with st := 2 }) s
    some (ms.foldl put s, ms.length)

/-- Whether a key's data cannot be written at its place of the computed mapping any more. -/
def keySpilled (s : State) (n : Ns) (key : Nat) : Bool :=
  let lba := key % 2 ^ 36
  let z := placedZone s (zoneAt s n.nsx (lba / zsze s n))
  ([0, 1] : List Nat).any (fun m => (decide (m = 0) || decide (n.cls = 2)) && (match computedHome n z (lba % zsze s n) m with
    | some h => !offsetOpen s h.1 h.2
    | none => false))

/-- Whether a write that has not ended holds a key. -/
def keyInFlight (s : State) (key : Nat) : Bool := (outstanding s).any (fun c => c.write && c.keys.contains key)

/-- Enter dirty data as a Stripe of its own (R198): of a run of at least SEQMIN of one stream on the stream's shingled
band, with fill behind it where it does not fill the Stripe; other conventional data, data of P1 and P2, and zoned
data whose place is lost, in staging bands. -/
def enterLoose (keys : List Nat) (est : Nat) (s : State) : State :=
  let vals := keys.filterMap (fun k => tget none s.ple.dirty k)
  let k0 := keys.headD 0
  match nsByX s (k0 / 2 ^ 36) with
  | none => s
  | some n =>
    let tag := keyRun s k0
    if keys = [] ∨ 64 < keys.length ∨ vals.length ≠ keys.length ∨ keys.any (fun k => decide (k / 2 ^ 36 ≠ n.nsx) || keyInFlight s k ||
        decide (keyRun s k ≠ tag)) then s
    else
      let es := keys.zip vals
      let staged := ((stageStripe n (fun q => .destage q none) (destageClass s) est es s).map Prod.fst).getD s
      if n.zoned then (if keys.all (keySpilled s n) then staged else s)
      else if tag = 0 ∨ n.cls ≠ 0 then staged
      else match streamHome n (tag - 1) (k0 % 2 ^ 36) (keyStream s k0) s with
        | none => s
        | some (b, s') => match (bandAt s' b).bind (fun x => (stripeFrom (bandStripes s' x) x.next).map (fun p => (x, p))) with
          | none => s
          | some (x, track, data, _) =>
            if data.length < keys.length then s
            else
              let pad := List.replicate (data.length - keys.length) (fillKey, 0)
              putStripe b (.destage b none) (destageClass s') est track data (es ++ pad)
                ((List.range pad.length).map (fun i => x.next + keys.length + i)) s'

/-- Enter a destage. -/
def enterDestage (r : DestageReq) (s : State) : State :=
  match r with
  | .stripe band est => enterStripe band est s
  | .loose keys est => enterLoose keys est s

/-! ### Write-through (R288) -/

/-- The media class of a slot's writes (R221). -/
def wtClass (s : State) (slot : Nat) : Nat := ((slotAt s slot).map (slotClass s)).getD 1

/-- Stage a command's sectors, in Stripes of at most 64; the count of candidates. `none` where no band has room. -/
def stageOut (slot : Nat) (n : Ns) (es : List (Nat × Nat)) (s : State) : Option (State × Nat) :=
  (chunksOf 64 es).foldl (fun (r : Option (State × Nat)) l => match r with
    | none => none
    | some (s, k) => (stageStripe n (fun q => .destage q (some slot)) (wtClass s slot) 0 l s).map (fun x => (x.1, k + x.2))) (some (s, 0))

/-- A band's Stripes that a command's sectors cover, entered one after another from the write pointer on: a Stripe
that lies wholly in them with their data, one before it as fill, whose sectors lie elsewhere (R33, R288). `at_` gives
the key and data of an offset. -/
def coverStripes (slot band : Nat) (at_ : Nat → Option (Nat × Nat)) (top : Nat) : Nat → State → State × Nat
  | 0, s => (s, 0)
  | fuel + 1, s => match (bandAt s band).bind (fun x => (stripeFrom (bandStripes s x) x.next).map (fun p => (x, p))) with
    | none => (s, 0)
    | some (x, track, data, _) =>
      if x.st ≠ 1 ∨ top < x.next + data.length then (s, 0)
      else
        let es := (List.range data.length).filterMap (fun i => at_ (x.next + i))
        let whole := decide (es.length = data.length) && !stripeRetired s x.mc x.head track (data.headD 0)
        let s := putStripe band (.destage band (some slot)) (wtClass s slot) 0 track data
          (if whole then es else List.replicate data.length (fillKey, 0))
          (if whole then [] else (List.range data.length).map (fun i => x.next + i)) s
        let r := coverStripes slot band at_ top fuel s
        (r.1, r.2 + 1)

/-! ### The end of a Stripe's write (R33, R35, R56) -/

/-- The first slot of a candidate's Stripe, and its data offset in the band. -/
def stripeOfCand (s : State) (c : Cand) : Option (List Nat × Nat) :=
  match stripeAt s (addrMc c.addr) (addrHead c.addr) (addrTrack c.addr) (addrSlot c.addr) with
  | none => none
  | some st => (bandOf s (packAddr (addrMc c.addr) (addrHead c.addr) (addrTrack c.addr) (st.1.headD 0))).map (fun h => (st.1, h.2))

/-- How many leading data sectors of a candidate's Stripe are on media as it gave them, under their own tag seeds. -/
def writtenPrefix (s : State) (c : Cand) : Nat :=
  match stripeOfCand s c with
  | none => 0
  | some (slots, _) =>
    (((slots.zip c.data).map (fun e =>
      let a := packAddr (addrMc c.addr) (addrHead c.addr) (addrTrack c.addr) e.1
      let m := tget MediaSector.blank s.media a
      decide (m.seed = tagSeed (genAt s a) (fmtId s) a ∧ m.data = e.2))).takeWhile id).length

/-- The write pointer passes a Stripe; behind the last one the band is FULL. -/
def passStripe (band d : Nat) (s : State) : State :=
  modBand band (fun x => { x with
    wp := x.wp + d
    st := if x.st = 1 ∧ x.dcap ≤ x.wp + d then 2 else x.st
    lastw := nowSec s }) s

/-- A Stripe that a band keeps nothing of: the pointer passes it, and its offsets hold no data. -/
def passEmpty (band d : Nat) (s : State) : State :=
  passStripe band d (modBand band (fun x => { x with holes := x.holes ++ (List.range d).map (x.wp + ·) }) s)

/-- A destaged key is clean if no later write changed it; in pair mode once an ACK covers the journal record (R403). -/
def cleanKey (key v : Nat) (s : State) : State :=
  if tget none s.ple.dirty key = some v then dropDirty key 1 s else s
def markClean (es : List (Nat × Nat)) (s : State) : State :=
  if mirroring s then modTdl (fun t => { t with releases := t.releases ++ [(t.mseqTx, es)] }) s
  else es.foldl (fun s e => cleanKey e.1 e.2 s) s

/-- The place in the first copy of a pair that an offset of a staging band stands for. -/
def firstCopy (s : State) (h : Nat × Nat) : Nat × Nat :=
  match bandAt s h.1 with
  | some b => if b.role = 1 then match peerBand s h.1 with
      | some q => (q, h.2)
      | none => h
    else h
  | none => h

/-- Data of a namespace is on media at a place of its own: its record replaces what mapped it, as an override in a
zone (R193, R199). -/
def mapSector (n : Ns) (lba a : Nat) (s : State) : State :=
  let s := trimExtents n.nsx lba 1 s
  let s := if n.zoned then
      let zn := lba / zsze s n
      putZone n.nsx zn { zoneAt s n.nsx zn with ovr := true } s else s
  let stg : Bool := match (bandOf s a).bind (fun h => bandAt s h.1) with
    | some b => convBand s b
    | none => false
  putExtent ⟨n.nsx, lba, 1, a, n.cls, 0, 0, stg, n.zoned, false⟩ s
def sectorOp (s : State) (n : Ns) (lba : Nat) : List MapOp := ((extentOf s n.nsx lba).map (fun e => MapOp.extent e)).toList

/-- Whether every place of a zoned key's computed mapping is written. -/
def homesWritten (s : State) (n : Ns) (key : Nat) : Bool :=
  let lba := key % 2 ^ 36
  let z := placedZone s (zoneAt s n.nsx (lba / zsze s n))
  ([0, 1] : List Nat).all (fun m => (decide (m = 1) && decide (n.cls ≠ 2)) || (match computedHome n z (lba % zsze s n) m with
    | some h => offsetWritten s h.1 h.2
    | none => false))

/-- Whether nothing of a parity sum's row at its offset waits to be written in a pool (R212): a sector that compaction
gives up is taken out of the sum again. -/
def rowSettled (s : State) (key : Nat) : Bool :=
  let x := (key - 2 ^ 60) / 2 ^ 48
  let zn := (key - 2 ^ 60) / 2 ^ 28 % 2 ^ 20
  let off := key % 2 ^ 28
  decide (x < 1024) || ([0, 1, 2] : List Nat).all (fun i =>
    (heldVal s (lkey x (zn * 2 ^ 26 + off / 256 * 768 + i * 256 + off % 256))).isNone)

/-- A row's sum is dropped once its parity unit is on media and nothing can change it. -/
def settleSum (key : Nat) (s : State) : State :=
  if sumWritten s key && rowSettled s key then modMap (fun m => { m with parity := tput 0 m.parity key 0 }) s else s

/-- A parity sector is on media: a sum that has changed since then makes it fill. -/
def settleParity (key v : Nat) (h : Nat × Nat) (s : State) : State :=
  if tget 0 s.ple.map.parity key = v then settleSum key s
  else modBand h.1 (fun x => { x with holes := x.holes ++ [h.2] }) s

/-- A pool's sector is on media at each of its places: its map change waits to be committed. -/
def settlePool (n : Ns) (key v : Nat) (h : Nat × Nat) (s : State) : State :=
  if tget none s.ple.pool key = some v ∧ homesWritten s n key then
    let a := (bandAddr s h.1 h.2).getD 0
    let o := key % 2 ^ 26
    let s := modPle (fun p => { p with
      pool := tput none p.pool key none
      ghosts := p.ghosts.filter (fun g => decide (g.pk ≠ key))
      copies := p.copies ++ [(p.ghosts.filter (fun g => decide (g.pk = key))).map (fun g => (g.key, g.src, a))] }) s
    if n.cls = 1 then settleSum (parityKey n.nsx (key % 2 ^ 36 / 2 ^ 26) (o / 768 * 256 + o % 256)) s else s
  else s

/-- One written sector of a Stripe is settled at its place (band, offset): the sum of a whole row is not needed any
more, a rebuilt sector has its place, a pool's sector waits to be committed, and data of a namespace gets its record,
or needs none at its computed place, and is clean once each of its copies is on media and no other is under way. -/
def settleSector (wt : Option Nat) (key v : Nat) (h : Nat × Nat) (s : State) : State :=
  if key = fillKey then s
  else if 2 ^ 62 ≤ key then modPle (fun p => { p with remakes := p.remakes.map (fun r =>
    if r.new = h.1 then { r with got := r.got.filter (fun e => decide (e.1 ≠ h.2)) } else r) }) s
  else if 2 ^ 60 ≤ key then settleParity key v h s
  else match nsByX s (key / 2 ^ 36) with
    | none => s
    | some n =>
      if poolKey key then settlePool n key v h s
      else
        let computed : Bool := n.zoned && decide ((zoneOf s h.1).isSome ∨ s.ple.remakes.any (fun r => r.new = h.1))
        let g := firstCopy s h
        match wt with
        | some slot => if computed then s else
          modSlot slot (fun x => { x with parts := x.parts.filter (fun p => decide (p.1 ≠ key)) ++
            [(key, .media ((bandAddr s g.1 g.2).getD 0))] }) s
        | none =>
          if tget none s.ple.dirty key ≠ some v ∨ keyInFlight s key then s
          else if computed then (if homesWritten s n key then markClean [(key, v)] s else s)
          else if !(copiesAt s h).all (fun q => offsetWritten s q.1 q.2) then s
          else
            let s := mapSector n (key % 2 ^ 36) ((bandAddr s g.1 g.2).getD 0) s
            markClean [(key, v)] (journal (sectorOp s n (key % 2 ^ 36)) s)

/-- The map change of a command that was written through (R199, R217): what its range held is gone, its sectors in
bands of their own have records, and a zone's pointer passes it. -/
def wtOps (s : State) (x : Slot) : List MapOp :=
  match nsById s (x.cdw 1).toNat with
  | none => []
  | some n =>
    let lba := firstLba x
    let exts := x.parts.filterMap (fun p => match p.2 with
      | .media a => some (MapOp.extent ⟨n.nsx, p.1 % 2 ^ 36, 1, a, n.cls, 0, 0,
          (((bandOf s a).bind (fun h => bandAt s h.1)).map (convBand s)).getD false, n.zoned, false⟩)
      | _ => none)
    let zn := lba / zsze s n
    [.trim n.nsx lba (nlb x)] ++ exts ++
      (if n.zoned then [.zoneWp (zkey n.nsx zn) ((zoneAt s n.nsx zn).wp + nlb x)] else [])

/-- A write-through candidate of a slot is on media; with the last of them the command's map change is journaled (R277, R288). -/
def wtDone (slot : Nat) (s : State) : State :=
  match slotAt s slot with
  | none => s
  | some x =>
    if x.waits = 1 then
      let s := journalFor slot (wtOps s x) (if x.opc = 0x7D then some x.assigned else none) s
      modSlot slot (fun x => { x with
        waits := 0
        pnr := true
        onMedia := true
        journaled := true
        jseq := s.ple.jseq
        mseq := s.tdl.mseqTx }) s
    else modSlot slot (fun x => { x with waits := x.waits - 1, pnr := true }) s

/-- A Stripe was written: the pointer passes it, its first `upto` sectors are settled, and the band and the keys that
are clean now are journaled. -/
def stripeDone (c : Cand) (band : Nat) (wt : Option Nat) (upto : Nat) (s : State) : State :=
  match stripeOfCand s c with
  | none => s
  | some (slots, off) =>
    let was := c.keys.filter (fun k => (tget none s.ple.dirty k).isSome)
    let s := passStripe band slots.length s
    let es := ((List.range slots.length).zip (c.keys.zip c.data)).take upto
    let s := es.foldl (fun s e => settleSector wt e.2.1 e.2.2 (band, off + e.1) s) s
    let clean := was.filter (fun k => (tget none s.ple.dirty k).isNone)
    updateMapState (journal (.band band (bandAt s band) :: (if clean = [] then [] else [.clean clean])) s)

/-- Sectors of a command that a failed write did not place are written through again, in staging bands; the candidate
counts for those that take its place. -/
def restage (slot : Nat) (es : List (Nat × Nat)) (s : State) : Option State :=
  let es := es.filter (fun e => decide (e.1 ≠ fillKey))
  if es = [] then some (wtDone slot s)
  else match nsByX s ((es.headD (0, 0)).1 / 2 ^ 36) with
    | none => none
    | some n => (stageOut slot n es s).map (fun r => modSlot slot (fun x => { x with waits := x.waits + r.2 - 1 }) r.1)

/-- Sectors that no staging band has room for wait. -/
def restageLater (slot : Nat) (es : List (Nat × Nat)) (s : State) : State :=
  (restage slot es s).getD (modPle (fun p => { p with restages := p.restages ++ [(slot, es)] }) s)

/-- Sectors that waited for room in a staging band are tried again; those of a command that has gone are not needed. -/
def restagePump (s : State) : State :=
  s.ple.restages.foldl (fun s e => match slotAt s e.1 with
    | some x => if x.waits = 0 then s else restageLater e.1 e.2 s
    | none => s) (modPle (fun p => { p with restages := [] }) s)

/-- A rebuild or move whose new band lost a Stripe is given up, to start anew on another band (R202). -/
def dropRemake (band : Nat) (s : State) : State :=
  if s.ple.remakes.any (fun r => decide (r.new = band)) then
    setBand band (fun x => { x with st := if x.st = 1 then 2 else x.st }) (modPle (fun p => { p with
      remakes := p.remakes.filter (fun r => decide (r.new ≠ band)) }) s)
  else s

/-- A copied sector of a pool is given up: its source keeps the data, the sum of its row loses it, and a parity unit
that is on media already is fill from now on. -/
def dropCopied (key : Nat) (s : State) : State :=
  match tget none s.ple.pool key, nsByX s (key / 2 ^ 36) with
  | some v, some n =>
    let zn := key % 2 ^ 36 / 2 ^ 26
    let o := key % 2 ^ 26
    let z := zoneAt s n.nsx zn
    let par := (o / 768 + z.bands.getD 0 0 % 4) % 4
    let s := if n.cls = 1 then match z.bands[par]? with
        | some b => modBand b (fun x => { x with holes := if x.holes.contains (o / 768 * 256 + o % 256) then x.holes
            else x.holes ++ [o / 768 * 256 + o % 256] }) s
        | none => s
      else s
    addParity n zn o v (modPle (fun p => { p with
      pool := tput none p.pool key none
      ghosts := p.ghosts.filter (fun g => decide (g.pk ≠ key)) }) s)
  | _, _ => s

/-- Copies of compaction that did not reach media are given up. -/
def dropPool (keys : List Nat) (s : State) : State := keys.foldl (fun s k => dropCopied k s) s

/-- What a write that never ends well leaves to do: a command's sectors are staged anew, relocated sectors wait to be
read again, an echo copy is given up, and other data stays where DRAM or its source holds it. -/
def loseWrite (c : Cand) (s : State) : State :=
  match c.kind with
  | .destage _ (some slot) => restageLater slot (c.keys.zip c.data) s
  | .close _ n (some slot) => restageLater slot ((c.keys.zip c.data).drop n) s
  | .copyWrite _ srcs => modPle (fun p => { p with relocWait := p.relocWait ++ srcs }) s
  | .echoWrite idx copy _ _ => echoAbandon idx copy s
  | _ => dropPool (c.keys.filter poolKey) s

/-- A pool with a band that takes no more is closed; copied sectors that have their place there are given up. -/
def shutPool (band : Nat) (s : State) : State :=
  match zoneOf s band with
  | some (n, zn, z) =>
    if 1024 ≤ n.nsx then
      let top := ((bandAt s band).map (fun x => x.next)).getD 0
      let gone := (s.ple.pool.map Prod.fst).filter (fun k => decide (k / 2 ^ 26 = n.nsx * 1024 + zn) &&
        ([0, 1] : List Nat).any (fun m => match computedHome n z (k % 2 ^ 26) m with
          | some h => decide (h.1 = band ∧ top ≤ h.2)
          | none => false))
      dropPool gone (putZone n.nsx zn { z with st := 14 } s)
    else s
  | none => s

/-- A band that cannot be written any more is FULL at its pointer; the writes that wait for it are given up. -/
def failBand (band : Nat) (c : Cand) (s : State) : State :=
  let k := mcIx (addrMc c.addr)
  let mine := fun (x : Cand) => decide (x.kind.band = some band)
  let lost := ((schedOf s k).waiting ++ (schedOf s k).ready).filter mine
  let s := modSched k (fun q => { q with
    waiting := q.waiting.filter (fun x => !mine x)
    ready := q.ready.filter (fun x => !mine x) }) s
  let s := setBand band (fun x => { x with
    st := 2
    next := x.wp
    holes := x.holes.filter (fun o => decide (o < x.wp)) }) s
  shutPool band (dropRemake band ((c :: lost).foldl (fun s x => loseWrite x s) s))

/-- Whether a written plan holds slots that are defects now. -/
def planBad (s : State) (r : StripeRec) : Bool :=
  (r.data ++ r.par).any (fun x => s.ple.map.gdl.any (fun d =>
    defectHits 1 r.mc r.head r.track x d || defectHits 2 r.mc r.head r.track x d))

/-- A Stripe's write did not end well. Where the failure is retryable or the job was cancelled, a Stripe that has
sectors on media is closed from its first unwritten one on (R56), and one without any is written again, in the
conventional region with its generation advanced. A Stripe of the conventional region that fails for good, or that
holds defects now, leaves its data to a Stripe of its own elsewhere (R35); a shingled band whose job fails for good is
FULL. -/
def stripeFailed (c : Cand) (band cls : Nat) (s : State) : State :=
  match bandAt s band with
  | none => s
  | some b =>
    let conv := convBand s b
    let n := writtenPrefix s c
    let bad := conv && ((planOf s c.addr).map (planBad s)).getD false
    let elsewhere := fun (s : State) => updateMapState (journal (bandOps s [band]) (loseWrite c (passEmpty band c.keys.length s)))
    if cls ≠ 1 ∧ cls ≠ 3 then (if conv then elsewhere s else failBand band c s)
    else if n = 0 then (if bad then elsewhere s else reenter c (if conv then replan c.addr s else s))
    else match stripeOfCand s c with
      | none => s
      | some (slots, _) =>
        let m := min n (slots.length - 1)
        let wt : Option Nat := match c.kind with
          | .destage _ wt => wt
          | _ => none
        -- relocated sectors and an echo copy are given up with their Stripe
        let other : Bool := match c.kind with
          | .destage _ _ => false
          | _ => true
        reenter { c with
          kind := .close band m wt
          keys := if other then c.keys.map (fun _ => fillKey) else c.keys
          addr := packAddr b.mc b.head (addrTrack c.addr) (slots.getD m 0) } (if other then loseWrite c s else s)

/-- CLOSE_STRIPE has ended: what the Stripe holds is settled, its other sectors are fill and their data goes
elsewhere; a close that fails for good makes a shingled band FULL, and leaves a Stripe of the conventional region
behind. -/
def closeDone (c : Cand) (band n : Nat) (wt : Option Nat) (good : Bool) (cls : Nat) (s : State) : State :=
  if good then
    match stripeOfCand s c with
    | none => s
    | some (slots, off) =>
      let s := modBand band (fun x => { x with holes := x.holes ++ (List.range (slots.length - n)).map (fun i => off + n + i) })
        s
      let s := stripeDone c band wt n s
      let rest := (c.keys.zip c.data).drop n
      let s := dropPool ((rest.map Prod.fst).filter poolKey) s
      let s := if (rest.map Prod.fst).any (fun k => decide (2 ^ 62 ≤ k)) then dropRemake band s else s
      match wt with
      | some slot => restageLater slot rest s
      | none => s
  else if cls = 1 ∨ cls = 3 then reenter c s
  else if ((bandAt s band).map (convBand s)).getD false then
    journal (bandOps s [band]) (loseWrite { c with kind := .destage band wt } (passEmpty band c.keys.length s))
  else failBand band c s

/-- Bands of zones that take no more data are FULL behind their last Stripe; what remains of each is its tail (R195). -/
def sealBands (s : State) : State :=
  let done := fun (b : Nat) (x : Band) => decide (x.st = 1 ∧ x.next = x.wp) && decide (memberTop s b ≤ x.next) &&
    s.ple.map.zones.any (fun e => match e.2 with
      | some z => decide (z.st = 14) && z.bands.contains b
      | none => false)
  putBands (fun b x => if done b x then { x with st := 2 } else x) s

end Sys2Proof.Machine
end

