-- ==== Sys2Proof/Machine/Jobs.lean ====
section
/-! DEFINITION. The ends of media jobs, rebuilds, relocation, defects, zone moves, compaction, echo copies, the journal and snapshots
(R65 to R70, R197, R201, R202, R207 to R219). -/

namespace Sys2Proof.Machine

/-! ### Slots that wait for media -/

/-- A command's completion is ready: its status and dwords, and its place in the order of completions (R248). -/
def finish (n status : Nat) (dw0 dw1 : Word) (s : State) : State :=
  let c := s.hqe.commits + 1
  modSlot n (fun x => { x with
    st := .done
    status := status
    dw0 := dw0
    dw1 := dw1
    cnum := c }) { s with hqe := { s.hqe with commits := c } }

/-- A read's part for a key is settled. -/
def setPart (n key : Nat) (v : ReadPart) (s : State) : State :=
  modSlot n (fun x => { x with parts := x.parts.map (fun p => if p.1 = key then (key, v) else p) }) s

/-- The sectors a job committed to the Staging Buffer, in BP order. -/
def stagedSectors (s : State) (k : Fin 4) (e n : Nat) : List Nat :=
  (List.range n).map (fun i => match jobPage s k e i with
    | some page => tget 0 s.staging page
    | none => 0)

/-- Take a sector that was read for a slot: its own data, or one unit of a P1 row. A sector that is lost stays lost. -/
def takeRead (n : Nat) (key v : Nat) (s : State) : State :=
  match slotAt s n with
  | none => s
  | some x => match (x.parts.find? (fun p => decide (p.1 = key))).map Prod.snd with
    | some (.xored acc left src) =>
      setPart n key (if left ≤ 1 then .data (acc ^^^ v) else .xored (acc ^^^ v) (left - 1) src) s
    | some .fails => s
    | _ => setPart n key (.data v) s

/-- The other units of a P1 row at one offset: the addresses to read, and the XOR of what is not on media, a parity
sum in DRAM and dirty data; units that nothing was written to count as zeros (R193, R201). `none` where another unit
is lost. -/
def rowSources (s : State) (n : Ns) (zn : Nat) (z : Zone) (b off : Nat) : Option (List Nat × Nat) :=
  let row := off / 256
  let par := (row + z.bands.getD 0 0 % 4) % 4
  let acts := ([0, 1, 2, 3] : List Nat).filter (fun m => decide (m ≠ par))
  let onMedia := fun (r : List Nat × Nat) (q : Nat × Nat) =>
    if bandDegraded s q.1 then none else (bandAddr s q.1 q.2).map (fun a => (r.1 ++ [a], r.2))
  ([0, 1, 2, 3] : List Nat).foldl (fun (r : Option (List Nat × Nat)) m => match r, z.bands[m]? with
    | some r, some q =>
      if q = b then some r
      else if m = par then
        let h := readHome s (q, off)
        if offsetWritten s h.1 h.2 then onMedia r h
        else some (r.1, r.2 ^^^ tget 0 s.ple.map.parity (parityKey n.nsx zn off))
      else
        let o := row * 768 + (acts.idxOf m) * 256 + off % 256
        if z.wp ≤ o then some r
        else match lookup s n (zn * zsze s n + o) 0 with
          | .data v => some (r.1, r.2 ^^^ v)
          | .zeros => some r
          | .media a => if addrDegraded s a then none else some (r.1 ++ [a], r.2)
          | _ => none
    | _, _ => none) (some ([], 0))

/-- What a data offset of a band can be rebuilt from: the other units of its row, or the copy in its pair (R201, R202). -/
def unitSources (s : State) (b off : Nat) : Option (List Nat × Nat) :=
  match zoneOf s b with
  | some (n, zn, z) =>
    if n.cls = 1 then rowSources s n zn z b off else copy
  | none => copy
where
  copy : Option (List Nat × Nat) :=
    ((copiesAt s (b, off)).filter (fun q => decide (q.1 ≠ b) && offsetWritten s q.1 q.2 && !bandDegraded s q.1)).head?.bind
      (fun q => (bandAddr s q.1 q.2).map (fun a => ([a], 0)))

/-- A read's part is already being summed from a row's units. -/
def partXored (s : State) (slot key : Nat) : Bool :=
  match slotAt s slot with
  | none => false
  | some x => match (x.parts.find? (fun p => decide (p.1 = key))).map Prod.snd with
    | some (.xored _ _ _) => true
    | _ => false

/-- A stored sector as the host sees it: an encrypted namespace's data is deciphered with its LBA as the tweak (R264). -/
def plainSector (s : State) (key v : Nat) : Nat :=
  match nsByX s (key / 2 ^ 36) with
  | some n => if n.key = 0 then v else Xts.sector true n.key (key % 2 ^ 36) v
  | none => v

/-- A read or Verify has all its sectors: its status follows from them. A Read now waits for its ordering read (R22). -/
def readSettled (n : Nat) (s : State) : State :=
  match slotAt s n with
  | none => s
  | some x =>
    if x.waits = 0 && decide (x.st = .active) && !x.onMedia then
      let s := modSlot n (fun x => { x with
        data := x.parts.map (fun p => match p.2 with
          | .data v => plainSector s p.1 v
          | _ => 0)
        onMedia := true }) s
      if x.parts.any (fun p => decide (p.2 = .fails)) then finish n 0x281 0 0 s
      else if wordField (x.dw.getD 0 0) 7 0 = 0x0C then finish n 0 0 0 s
      else s
    else s

/-- One candidate of a slot has ended. -/
def slotWaited (n : Nat) (s : State) : State := readSettled n (modSlot n (fun x => { x with waits := x.waits - 1 }) s)

/-! ### Rebuilds (R201, R202) -/

/-- The data of addresses could not be put anywhere yet: its relocation is tried again later (R67). -/
def relocLater (srcs : List Nat) (s : State) : State := modPle (fun p => { p with relocWait := (p.relocWait ++ srcs).eraseDups }) s

/-- A rebuilt sector is at hand: for a band that is being rebuilt, as a parity sum that DRAM keeps, or to be written
to a new home in staging bands (R67), once one has room. -/
def rebuiltOut (key src : Nat) (dst : Option (Nat × Nat)) (v : Nat) (s : State) : State :=
  match dst with
  | some (b, off) => modPle (fun p => { p with remakes := p.remakes.map (fun r =>
      if r.new = b then { r with got := r.got ++ [(off, v)] } else r) }) s
  | none =>
    if 2 ^ 60 ≤ key then
      match bandOf s src with
      | some (b, off) => setBand b (fun x => { x with holes := x.holes ++ [off] })
          (modMap (fun m => { m with parity := tput 0 m.parity key v }) s)
      | none => s
    else match nsByX s (key / 2 ^ 36) with
      | none => s
      | some n => ((stageStripe n (fun q => .copyWrite q [src]) 0 0 [(key, v)] s).map Prod.fst).getD (relocLater [src] s)

/-- A sector that a host read rebuilt from its other copies is rewritten: its slot becomes a grown defect, and what
was rebuilt goes to a new home, if the map still names the slot then (R67, R201, R212). Data of a DEGRADED band has
its own rebuild. -/
def rewriteSector (key src v : Nat) (s : State) : State :=
  if addrDegraded s src then s else rebuiltOut key src none v (noteDefect src 1 s)

/-- A host sector was not recovered at its home: it is read from the partner, rebuilt from its row, or lost to this
read (R201). -/
def sectorLost (slot key addr cls : Nat) (kind : CandKind) (s : State) : State :=
  if partXored s slot key then setPart slot key .fails s
  else match (bandOf s addr).bind (fun e => unitSources s e.1 e.2) with
    | none => setPart slot key .fails s
    | some (l, x) =>
      if l = [] then rewriteSector key addr x (setPart slot key (.data x) s)
      else
        let s := setPart slot key (.xored x l.length addr) s
        let s := modSlot slot (fun y => { y with waits := y.waits + l.length }) s
        l.foldl (fun s a => enterCand (newCand s cls false kind a [key] []) s) s

/-- Start to rebuild a sector from the other copies of its data, as urgent reads (R201, R202, R213). A unit that
nothing can rebuild is not needed any more: its place becomes fill. -/
def startRebuild (key src : Nat) (dst : Option (Nat × Nat)) (s : State) : State :=
  if s.ple.rebuilds.any (fun r => decide (r.src = src)) then s
  else match (bandOf s src).bind (fun e => unitSources s e.1 e.2) with
    | none => match dst with
      | some (b, off) => modPle (fun p => { p with remakes := p.remakes.map (fun r =>
          if r.new = b then { r with need := r.need.filter (· ≠ off) } else r) }) s
      | none => s
    | some (l, x) =>
      if l = [] then rebuiltOut key src dst x s
      else
        let s := modPle (fun p => { p with rebuilds := p.rebuilds ++ [⟨src, key, x, l.length, dst⟩] }) s
        l.foldl (fun s a => enterCand (newCand s 0 false (.rebuildRead src) a [key] []) s) s

/-- One unit has been read for a rebuild; a unit that is lost too ends it. -/
def rebuildTake (src : Nat) (good : Bool) (v : Nat) (s : State) : State :=
  match s.ple.rebuilds.find? (fun r => decide (r.src = src)) with
  | none => s
  | some r =>
    let others := s.ple.rebuilds.filter (fun x => decide (x.src ≠ src))
    let s := modPle (fun p => { p with rebuilds := others }) s
    if !good then match r.dst with
      | some (b, off) => modPle (fun p => { p with remakes := p.remakes.map (fun y =>
          if y.new = b then { y with need := y.need.filter (· ≠ off) } else y) }) s
      | none => s
    else if r.left ≤ 1 then rebuiltOut r.key src r.dst (r.acc ^^^ v) s
    else modPle (fun p => { p with rebuilds := others ++ [{ r with acc := r.acc ^^^ v, left := r.left - 1 }] }) s

/-- With the last unit of a lost sector, what is rebuilt from them is rewritten too (R201). -/
def rewriteRebuilt (slot key v : Nat) (s : State) : State :=
  match (slotAt s slot).bind (fun x => x.parts.find? (fun p => decide (p.1 = key))) with
  | some (_, .xored acc 1 src) => rewriteSector key src (acc ^^^ v) s
  | _ => s

/-! ### Copies (R67, R212, R213) -/

/-- A relocated sector's read ended well: it is written to staging bands of its class; where none has room the read is
entered again. -/
def relocOut (vals : List Nat) (c : Cand) (s : State) : State :=
  let srcs := (List.range c.keys.length).map (fun i => (addrPlus s c.addr i).getD c.addr)
  match (nsByX s (c.keys.headD 0 / 2 ^ 36)).bind (fun n => stageStripe n (fun q => .copyWrite q srcs) 0 0 (c.keys.zip vals) s) with
  | some r => r.1
  | none => reenter c s

/-- The open zone of a pool, and how many sectors a group of bands holds. -/
def poolOpen (s : State) (x : Nat) : Option Nat :=
  s.ple.map.zones.findSome? (fun e => match e.2 with
    | some z => if e.1 / 2 ^ 20 = x ∧ z.st = 2 then some (e.1 % 2 ^ 20) else none
    | none => none)
def poolCap (s : State) (z : Zone) (cls : Nat) : Nat :=
  let least := (z.bands.filterMap (bandAt s)).foldl (fun n b => min n b.dcap) (2 ^ 24)
  if cls = 1 then least / 256 * 768 else least

/-- A copied sector joins the pool of its class and temperature, whose bands are chosen as for any binding (R213), and
the sum of its row there (R193); `none` where no home has room. -/
def poolAdd (key src v cls : Nat) (s : State) : Option State :=
  match nsByX s (key / 2 ^ 36) with
  | none => some s
  | some n =>
    let lba := key % 2 ^ 36
    let temp := temperature s n.nsx lba
    let x := poolNsx n.cls temp
    let w : Want := ⟨1, n.cls, tierPlaces s temp, if n.cls = 1 then 256 else 1⟩
    let home : Option (Nat × State) := match poolOpen s x with
      | some zn => some (zn, s)
      | none => (takeHome w n lba temp 3 none s).map (fun r =>
          let zn := r.2.ple.map.zones.foldl (fun m e => if e.1 / 2 ^ 20 = x then max m (e.1 % 2 ^ 20 + 1) else m) 0
          let gens := r.1.map (fun b => ((bandAt r.2 b).map (fun y => y.gen)).getD 0)
          let s := putZone x zn ⟨2, 0, r.1, gens, false⟩ r.2
          (zn, journal [zoneOp s x zn] s))
    home.map (fun h =>
      let z := zoneAt h.2 x h.1
      let pk := lkey x (h.1 * 2 ^ 26 + z.wp)
      addParity (poolNs x) h.1 z.wp v
        (putZone x h.1 { z with wp := z.wp + 1, st := if z.wp + 1 = poolCap h.2 z n.cls then 14 else 2 }
          (modPle (fun p => { p with
            pool := tput none p.pool pk (some v)
            ghosts := p.ghosts ++ [⟨pk, key, src, cls⟩] }) h.2)))

/-- Sectors read for compaction join their pools; where none has room the read is entered again. -/
def poolOut (vals : List Nat) (c : Cand) (s : State) : State :=
  let es := (List.range c.keys.length).zip (c.keys.zip vals)
  let go := fun (r : Option State) (e : Nat × Nat × Nat) => r.bind (fun s => poolAdd e.2.1 ((addrPlus s c.addr e.1).getD c.addr) e.2.2 c.cls s)
  (es.foldl go (some s)).getD (reenter c s)

/-- A Stripe of relocated sectors was written: once no other copy of them is under way, their map changes wait to be
committed, or the relocation is tried again where a copy was lost. -/
def copyDone (c : Cand) (band : Nat) (srcs : List Nat) (s : State) : State :=
  match stripeOfCand s c with
  | none => s
  | some (slots, off) =>
    let s := passStripe band slots.length s
    let s := journal (bandOps s [band]) s
    if c.keys.any (keyInFlight s) then s
    else if !(List.range c.keys.length).all (fun i => (copiesAt s (band, off + i)).all (fun q => offsetWritten s q.1 q.2)) then
      relocLater srcs s
    else
      let at_ := fun (i : Nat) => let g := firstCopy s (band, off + i); (bandAddr s g.1 g.2).getD 0
      let l := ((List.range c.keys.length).zip (c.keys.zip srcs)).map (fun e => (e.2.1, e.2.2, at_ e.1))
      modPle (fun p => { p with copies := p.copies ++ [l] }) s

/-- The pool zones that a commit's new places lie in, as they stand, for the journal. -/
def poolOps (s : State) (l : List (Nat × Nat × Nat)) : List MapOp :=
  (l.filterMap (fun e => match (bandOf s e.2.2).bind (fun h => zoneOf s h.1) with
    | some (n, zn, _) => if 1024 ≤ n.nsx then some (zoneOp s n.nsx zn) else none
    | none => none)).eraseDups

/-- COMPACTION_COMMIT (R212): sector by sector, the map change is made only if the map still names the source. A move
of a zone that a sector is relocated in is abandoned (R197), and an echo copy of the record that is split drops.
Nothing is committed while the PLE does not serve map changes (R229). -/
def compactionCommit (s : State) : State :=
  match s.ple.copies with
  | [] => s
  | l :: rest =>
    if !pleServes s then s
    else
      let go := fun (s : State) (e : Nat × Nat × Nat) => match nsByX s (e.1 / 2 ^ 36) with
        | none => s
        | some n =>
          if !(placesOf s e.1).contains e.2.1 then s
          else
            let lba := e.1 % 2 ^ 36
            let gone := (s.ple.map.extents.filter (fun x => x.covers n.nsx lba && decide (x.echo ≠ 0))).map (fun x => x.echo)
            let s := mapSector n lba e.2.2 (dropCopies (fun i => gone.contains i) s)
            let s := if n.zoned then modPle (fun p => { p with remakes := p.remakes.filter (fun r =>
              decide (r.zone ≠ some (zkey n.nsx (lba / zsze s n)))) }) s else s
            let k := mcIx (addrMc e.2.2)
            journal (sectorOp s n lba) (modSched k (fun q => { q with moved := q.moved + 1 }) s)
      let s := l.foldl go (modPle (fun p => { p with copies := rest }) s)
      let ops := poolOps s l
      updateMapState (freeBands (if ops = [] then s else journal ops s))

/-! ### Echo copies (R207 to R210) -/

/-- The status of a Run Sequence by its job's class (R140). -/
def runSeqStatus (cls : Nat) : Nat := match cls with
  | 0 => 0
  | 1 => 0x1C8
  | 2 => 0x1C9
  | _ => 0x1CA

/-- RUN_SEQUENCE_COMPLETE (R140): dwords 10 and 12 of the entry and the status by CLASS; a 92h returns its sectors. -/
def runSequenceComplete (k : Fin 4) (e slot cls n : Nat) (s : State) : State :=
  let m := mcOf s k
  match slotAt s slot with
  | none => s
  | some x =>
    if x.st = .active then
      let s := modSlot slot (fun x => { x with
        data := if wordField (x.dw.getD 0 0) 7 0 = 0x92 ∧ ¬ wordBit (x.dw.getD 14 0) 16 then stagedSectors s k e n else x.data }) s
      finish slot (runSeqStatus cls) (jtW m e 10) (jtW m e 12) s
    else s

/-- The Echo Policy in force: EN, MAXC, SPACE, ECHO1, HALF. -/
def echoCdw (s : State) : Word := featGet 0xC0320100 s.hqe.feats 0xC1
def echoEn (s : State) : Bool := wordBit (echoCdw s) 31
def echoMax (s : State) : Nat := min 2 (wordField (echoCdw s) 30 29)
def echoOne (s : State) : Nat := max 1 (wordField (echoCdw s) 15 0)
def echoSpace (s : State) : Nat := min 100 (wordField (echoCdw s) 23 16)

/-- The copies of an entry, live or being made. -/
def echoCount (x : EchoEnt) : Nat := b2n (decide (x.st0 ≠ 0)) + b2n (decide (x.st1 ≠ 0))

/-- Sectors in echo copies, live or being made. -/
def echoSectors (s : State) : Nat :=
  s.ple.map.extents.foldl (fun n e => match tget none s.ple.map.echoes e.echo with
    | some x => if e.echo ≠ 0 then n + echoCount x * e.len else n
    | none => n) 0

/-- The over-provisioned capacity (R208). -/
def overProvision (s : State) : Nat :=
  let all := s.ple.map.bands.foldl (fun n e => match e.2 with
    | some b => if cmrZones s ≤ b.zone then n + b.dcap else n
    | none => n) 0
  let used := s.ple.map.nss.foldl (fun n x =>
    let u := if x.zoned then (x.nsze / max 1 (zsze s x)) * zcap s x else x.nsze
    n + (if x.cls = 1 then u * 4 / 3 else if x.cls = 2 then 2 * u else u)) 0
  all - used

/-- Whether the Stripes that n data offsets of a band from `next` on lie in take data: none is retired (R68). -/
def echoFits (s : State) (b : Band) : Nat → Nat → Nat → Bool
  | 0, _, _ => false
  | fuel + 1, off, n => match stripeFrom (bandStripes s b) off with
    | none => false
    | some (track, data, _) => !stripeRetired s b.mc b.head track (data.headD 0) &&
        (decide (n ≤ data.length) || echoFits s b fuel (off + data.length) (n - data.length))

/-- Echo space for n sectors away from some actuators (R208): a tail of a zone's FULL band first, then an open echo
band, then a free band taken as one while its actuator keeps more than RESV. A band that another copy is being written
to is passed over. Among several tails, or several echo bands, the first of the Band Table is taken: R208 is silent
(DESIGN CHOICE, log 193). -/
def echoHome (n : Nat) (away : List Nat) (s : State) : Option (Nat × State) :=
  let room := fun (k : Nat) (b : Band) => !away.contains b.mc && !headOut s b.mc b.head && !actDown s (mcIx b.mc) &&
    decide (b.next + n ≤ b.dcap ∧ b.next = b.wp) && !s.ple.echoJobs.any (fun j => decide (j.band = k)) && echoFits s b 512 b.next n
  match (bandsWhere s (fun k b => decide (b.st = 2 ∧ b.use = 0) && room k b)).head? with
  | some e => some (e.1, s)
  | none => match (bandsWhere s (fun k b => decide (b.st = 1 ∧ b.use = 2) && room k b)).head? with
    | some e => some (e.1, s)
    | none =>
      let w : Want := ⟨2, 0, [⟨true, tierHolds s 1⟩], n⟩
      let ok := (actuators s w).filter (fun m => !away.contains m)
      match (leastBy (queuedTime s) ok).bind (pickBand s w) with
      | none => none
      | some b =>
        let s := takeMembers 2 0 [b] s
        some (b, noteBinding ⟨b, 0, 0, 1, 6, actBits s [b], 0, nowSec s⟩ s)

/-- The copies that heat asks for (R207): one from ECHO1, two from four times ECHO1. -/
def echoWanted (s : State) (heat : Nat) : Nat :=
  min (echoMax s) (if 4 * echoOne s ≤ heat then 2 else if echoOne s ≤ heat then 1 else 0)

/-- The Echo Table index of a new entry: the lowest that no entry, record or copy in progress names, as R188 does not say
which (DESIGN CHOICE, log 193); 0 where the 20 bits of a record's ECHO have none left (R186). -/
def freshEcho (s : State) : Nat :=
  let used := s.ple.map.echoes.map Prod.fst ++ s.ple.map.extents.map (fun e => e.echo) ++ s.ple.echoJobs.map (fun j => j.idx)
  let i := ((List.range (used.length + 1)).find? (fun i => !used.contains (i + 1))).getD 0 + 1
  if i < 2 ^ 20 then i else 0

/-- Where a sector of home lies, if its data is on media there and nowhere in DRAM. -/
def homeAddr (s : State) (n : Ns) (lba : Nat) : Option Nat := match lookup s n lba 0 with
  | .media a => some a
  | _ => none

/-- A candidate for an echo copy: the sectors as (key, home address), their record if they have one of their own, and the heat. -/
structure EchoCand where
  es : List (Nat × Nat)
  own : Option Extent
  heat : Nat

/-- What a read makes candidates of in one chunk (R207): the records that the chunk and the read meet, each whole, and
of a zone's computed mapping the parts of the chunk that lie after each other on one band. R207 names the computed
mapping of a zone, and heat is counted by chunk: a copy takes the chunk's part (DESIGN CHOICE, log 257). Sectors that
DRAM holds are left to destage first. -/
def echoCands (s : State) (n : Ns) (lba len chunk : Nat) : List EchoCand :=
  let lo := max lba (chunk * 16384 % 2 ^ 36)
  let hi := min (lba + len) (chunk * 16384 % 2 ^ 36 + 16384)
  let keyed := fun (lba : Nat) => (homeAddr s n lba).map (fun a => (lkey n.nsx lba, a))
  let recs := (s.ple.map.extents.filter (fun e => !e.anchor && e.meets n.nsx lo (hi - lo))).map (fun e =>
    (⟨(List.range e.len).filterMap (fun i => keyed (e.slba + i)), some e, extentHeat s e⟩ : EchoCand))
  let part := if n.zoned then
      let zn := lba / zsze s n
      (List.range 16384).filterMap (fun i =>
        let k := chunk * 16384 % 2 ^ 36 + i
        if k / zsze s n = zn ∧ (extentOf s n.nsx k).isNone then keyed k else none)
    else []
  let runs := (cutRuns s part).foldr (fun r acc => match acc with
    | q :: l => match r.getLast?, q.head? with
      | some a, some b => if a.1 + 1 = b.1 ∧ addrPlus s a.2 1 = some b.2 then (r ++ q) :: l else r :: q :: l
      | _, _ => r :: q :: l
    | [] => [r]) []
  recs.filter (fun c => (c.own.map (fun e => e.len)) = some c.es.length) ++
    runs.map (fun r => ⟨r, none, tget 0 s.ple.heat chunk⟩)

/-- The Echo Table index of a candidate's sectors: its record's, or that of the ANCHOR record of just these sectors. -/
def echoOf (s : State) (c : EchoCand) : Nat := match c.own with
  | some e => e.echo
  | none =>
    let key := (c.es.headD (0, 0)).1
    ((s.ple.map.extents.find? (fun e => e.anchor && decide (lkey e.nsx e.slba = key ∧ e.len = c.es.length))).map (fun e => e.echo)).getD 0

/-- A record carries the Echo Table index of its copies (R186): a record of its own in place, and for a computed
mapping an ANCHOR record. -/
def echoRecord (c : EchoCand) (idx : Nat) (s : State) : State :=
  let key := (c.es.headD (0, 0)).1
  match c.own with
  | some e => modMap (fun m => { m with extents := m.extents.map (fun x => if x = e then { x with echo := idx } else x) }) s
  | none => putExtent ⟨key / 2 ^ 36, key % 2 ^ 36, c.es.length, (c.es.headD (0, 0)).2,
      ((nsByX s (key / 2 ^ 36)).map (fun n => n.cls)).getD 0, 0, idx, false, false, true⟩ s

/-- Whether another ANCHOR record holds some of a candidate's sectors, which then get no copy of their own. -/
def anchorMeets (s : State) (c : EchoCand) : Bool :=
  let key := (c.es.headD (0, 0)).1
  c.own.isNone && s.ple.map.extents.any (fun e => e.anchor && e.meets (key / 2 ^ 36) (key % 2 ^ 36) c.es.length &&
    !decide (lkey e.nsx e.slba = key ∧ e.len = c.es.length))

/-- ECHO_COPY_START (R209): a hot candidate gets its next copy, where R208 has room: Copying, and a read of home and
the writes to echo space enter the background rank. -/
def echoStart (c : EchoCand) (s : State) : State :=
  let idx0 := echoOf s c
  let old := if idx0 = 0 then none else tget none s.ple.map.echoes idx0
  let have_ := (old.map echoCount).getD 0
  let n := c.es.length
  if n = 0 ∨ 65535 < n ∨ ¬ echoEn s ∨ s.ple.echoSusp ∨ anchorMeets s c ∨ echoWanted s c.heat ≤ have_ ∨
      echoSpace s * overProvision s < 100 * (echoSectors s + n) then s
  else
    let homes := (placesOf s (c.es.headD (0, 0)).1).map addrMc
    let away := homes ++ ((old.map (fun x => (if x.st0 ≠ 0 then [addrMc x.addr0] else []) ++
      (if x.st1 ≠ 0 then [addrMc x.addr1] else []))).getD [])
    match echoHome n away s with
    | none => s
    | some (b, s') => match bandAt s' b, (bandAt s' b).bind (fun x => bandAddr s' b x.next) with
      | some x, some a =>
        let idx := if idx0 = 0 then freshEcho s' else idx0
        if idx = 0 then s else
        let ent := old.getD ⟨0, 0, 0, 0, 0, false, false⟩
        let copy := if ent.st0 = 0 then 0 else 1
        let ent := if copy = 0 then { ent with addr0 := a, st0 := 1 } else { ent with addr1 := a, st1 := 1 }
        let s := modMap (fun m => { m with echoes := tput none m.echoes idx (some ent) }) s'
        let s := if idx0 = 0 then echoRecord c idx s else s
        let s := modPle (fun p => { p with echoJobs := p.echoJobs ++ [⟨idx, copy, b, x.next, c.es.map Prod.fst, [], 0⟩] }) s
        enterReads 2 (.echoRead idx copy) 0 0 c.es s
      | _, _ => s

/-- The chunks of a read have become hotter: what they make candidates of is looked at (R207). -/
def echoLook (n : Ns) (lba len : Nat) (s : State) : State :=
  let lo := lkey n.nsx lba / 16384
  (List.range (lkey n.nsx (lba + len - 1) / 16384 + 1 - lo)).foldl (fun s i =>
    if echoEn s && decide (echoOne s ≤ tget 0 s.ple.heat (lo + i)) then
      (echoCands s n lba len (lo + i)).foldl (fun s c => echoStart c s) s
    else s) s

/-- The next Stripe of an echo copy is entered once its sectors are at hand, with fill behind the last ones; the copy
goes live with its last Stripe (R34, R209). -/
def echoFeed (j : EchoJob) (s : State) : State :=
  match (bandAt s j.band).bind (fun x => (stripeFrom (bandStripes s x) x.next).map (fun p => (x, p))) with
  | none => echoAbandon j.idx j.copy s
  | some (x, track, data, _) =>
    let left := j.keys.length - j.sent
    let n := min left data.length
    let vals := (List.range n).filterMap (fun i => (j.got.find? (fun e => decide (e.1 = j.sent + i))).map Prod.snd)
    if n = 0 ∨ vals.length < n then s
    else
      let pad := data.length - n
      let s := modPle (fun p => { p with echoJobs := p.echoJobs.map (fun y => if y = j then { y with
        sent := y.sent + n
        got := y.got.filter (fun e => decide (y.sent + n ≤ e.1)) } else y) }) s
      putStripe j.band (.echoWrite j.idx j.copy j.band (decide (left ≤ data.length))) 2 0 track data
        ((vals ++ List.replicate pad 0).map (fun v => (fillKey, v))) ((List.range pad).map (fun i => x.next + n + i)) s

/-- Echo copies go on: each whose next Stripe is at hand is fed. -/
def echoPump (s : State) : State :=
  (List.range (s.ple.echoJobs.foldl (fun n j => n + j.keys.length) 0)).foldl (fun s _ =>
    s.ple.echoJobs.foldl (fun s j => echoFeed j s) s) s

/-- Sectors of home were read for an echo copy. -/
def echoTake (idx copy : Nat) (es : List (Nat × Nat)) (s : State) : State :=
  modPle (fun p => { p with echoJobs := p.echoJobs.map (fun j => if j.idx = idx ∧ j.copy = copy then { j with
    got := j.got ++ es.map (fun e => (j.keys.idxOf e.1, e.2)) } else j) }) s

/-- An echo copy's last write ended without failure: ECHO_SET, and the record's ECNT counts it (R209). The record goes
before it in the same range. -/
def echoSet (idx copy : Nat) (s : State) : State :=
  match tget none s.ple.map.echoes idx with
  | none => s
  | some x =>
    if (if copy = 0 then x.st0 else x.st1) ≠ 1 then s
    else
      let y := if copy = 0 then { x with st0 := 2 } else { x with st1 := 2 }
      let s := modPle (fun p => { p with echoJobs := p.echoJobs.filter (fun j => !decide (j.idx = idx ∧ j.copy = copy)) }) s
      let s := modMap (fun m => { m with
        echoes := tput none m.echoes idx (some y)
        extents := m.extents.map (fun e => if e.echo = idx ∧ e.ecnt < 2 then { e with ecnt := e.ecnt + 1 } else e) }) s
      let recs := s.ple.map.extents.filter (fun e => decide (e.echo = idx))
      journal (recs.map (fun e => MapOp.extent e) ++ [.echoSet idx copy (if copy = 0 then x.addr0 else x.addr1)]) s

/-- HEAT_DECAY (R207, R209): every entry is halved; live copies of chunks below a quarter of ECHO1 drop, and while the
limits of R208 are exceeded the coldest. -/
def heatDecay (s : State) : State :=
  let s := modPle (fun p => { p with heat := (p.heat.map (fun e => (e.1, e.2 / 2))).filter (fun e => decide (e.2 ≠ 0)) }) s
  let cold := (s.ple.map.extents.filter (fun e => decide (e.echo ≠ 0) &&
    decide (4 * extentHeat s e < echoOne s))).map (fun e => e.echo)
  let s := dropCopies (fun i => cold.contains i) s
  let tight := ([0, 1, 2, 3] : List Nat).any (fun m => actExists s (mcIx m) && decide (freeCount s m < resvBands s m))
  if tight ∨ 100 * echoSectors s > echoSpace s * overProvision s then dropColdest s else s

/-- ECHO_DROP (R209): a dropping copy that nothing pins is journaled dropped. -/
def echoDrop (idx copy : Nat) (s : State) : State :=
  match tget none s.ple.map.echoes idx with
  | none => s
  | some x =>
    if x.pins ≠ 0 ∨ ¬ (if copy = 0 then x.drop0 else x.drop1) then s
    else if !pleServes s then s
    else freeBands (journal [.echoDrop idx copy] (modMap (dropCopy idx copy) s))

/-! ### The system area (R36, R217, R218, R405) -/

/-- The Stripes of system-area tracks `lo` to lo + n − 1. The rules give the area no further division: its tracks 0 to
7 hold the snapshot directory, the others the journal ring (DESIGN CHOICE, log 254). -/
def sysSlots (s : State) (mc lo n : Nat) : List StripeRec :=
  let first := entF (zoneEntry s (mcIx mc) false 0 0) 0 20 0
  (List.range n).flatMap (fun i => sysPlans s mc (first + lo + i))
def ringPlaces (s : State) (mc : Nat) : List StripeRec := sysSlots s mc 8 56
def dirPlaces (s : State) (mc : Nat) : List StripeRec := sysSlots s mc 0 8

/-- The Media Channels whose head 0 takes system-area writes: MC0 and MC1, unless a self-test took one out of service. -/
def sysMcs (s : State) : List Nat := ([0, 1] : List Nat).filter (fun m => actExists s (mcIx m) && !mcOutOfService s (mcIx m))

/-- How many units the journal ring holds. -/
def ringSize (s : State) : Nat := (sysMcs s).foldl (fun n m => min n (ringPlaces s m).length) (2 ^ 20)

/-- Bytes as sixteen sectors of 4,096 bytes, padded with zeros. -/
def unitSectors (bs : List Nat) : List Nat := (List.range 16).map (fun i => Xts.ofBytes ((bs.drop (4096 * i)).take 4096))

/-- The sectors of the journal unit of n records from a SEQ on, out of the journal buffer. -/
def unitData (s : State) (first n : Nat) : List Nat :=
  let recs := s.ple.jbuf.flatMap (fun r => ((List.range r.recs.length).map (r.first + ·)).zip r.recs)
  unitSectors ((recs.filter (fun e => decide (first ≤ e.1 ∧ e.1 < first + n))).flatMap Prod.snd)

/-- Write sixteen sectors to the `at_`-th of some places of each system-area head; the count of writes (R405: urgent). -/
def sysOut (kind : CandKind) (places : Nat → List StripeRec) (at_ : Nat) (es : List (Nat × Nat)) (s : State) : State × Nat :=
  let l := (sysMcs s).filterMap (fun m => ((places m)[at_ % max 1 (places m).length]?).map (fun r => (m, r)))
  (l.foldl (fun s e => enterCand (newCand s 0 true kind (packAddr e.1 0 e.2.track (e.2.data.headD 0)) (es.map Prod.fst) (es.map Prod.snd)) s) s,
    l.length)

/-- JOURNAL_UNIT_FLUSH (R217): the records that are not yet written, as far as a unit of 64 KiB holds them, are written to both
system-area heads. One unit is written at a time, none where the ring is full, and only by the serving device of a pair (R405). -/
def journalFlush (s : State) : State :=
  let first := s.ple.jflushed + 1
  let n := min 1024 (s.ple.jseq - s.ple.jflushed)
  if !servesSystem s || s.ple.jout.isSome || decide (n = 0 ∨ ringSize s ≤ s.ple.jring.length) then s
  else
    let es := ((List.range 16).map (unitSector first n)).zip (unitData s first n)
    let r := sysOut (.sysWrite (first + n - 1)) (ringPlaces s) s.ple.jpos es s
    if r.2 = 0 then s
    else modPle (fun p => { p with jout := some (first + n - 1, r.2), jpos := p.jpos + 1 }) r.1

/-- The journal is on both system-area heads up to a SEQ: changes that lie wholly below it leave the buffer. -/
def journalReach (last : Nat) (s : State) : State :=
  let done := fun (r : JRange) => decide (r.first + r.recs.length ≤ last + 1)
  let l := s.ple.jbuf.filter done
  { modPle (fun p => { p with jflushed := last, jbuf := p.jbuf.filter (fun r => !done r) }) s with
    nv := { s.nv with ring := s.nv.ring ++ l } }

/-- A unit is on one more system-area head; with the last of them it counts as written. -/
def unitDone (last : Nat) (s : State) : State :=
  match s.ple.jout with
  | none => s
  | some (l, n) =>
    if l ≠ last then s
    else if n ≤ 1 then journalReach last (modPle (fun p => { p with jout := none, jring := p.jring ++ [last] }) s)
    else modPle (fun p => { p with jout := some (l, n - 1) }) s

/-- The bytes of the wear table that are not zero (R352); the table is saved with each snapshot. -/
def wearTable (s : State) : List (Nat × Byte) :=
  let a := wearAddr s 0
  (s.mem.filter (fun e => decide (a ≤ e.1 ∧ e.1 < a + 262144))).map (fun e => (e.1 - a, e.2))

/-- A map as bytes, for a snapshot's media copy: its tables' entries one after another. The rules give the entries and
not how a snapshot arranges them (DESIGN CHOICE, log 255). -/
def mapBytes (s : State) : List Nat :=
  let m := s.ple.map
  m.bands.flatMap (fun e => leBytes 4 e.1 ++ bandEntry s e.1) ++
  m.zones.flatMap (fun e => leBytes 8 e.1 ++ (match e.2 with
    | some z => zoneBytes z
    | none => List.replicate 16 0)) ++
  m.extents.flatMap (fun e => leBytes 16 (extentBits e)) ++
  m.echoes.flatMap (fun e => leBytes 4 e.1 ++ (match e.2 with
    | some x => leBytes 16 (echoBits x)
    | none => List.replicate 16 0)) ++
  m.plans.flatMap (fun r => leBytes 4 (planWord r) ++ leBytes 8 (packAddr r.mc r.head r.track (r.data.headD 0))) ++
  (m.pdl ++ m.gdl).flatMap (fun d => leBytes 8 (defectBits d))

/-- The sectors of a snapshot's media copy, sixteen to a Stripe. -/
def snapStripes (s : State) : List (List Nat) := (chunksOf 65536 (mapBytes s)).map unitSectors

/-- A MAP band of the snapshot under way with room for a Stripe, taken from FREE where none has (R218). -/
def mapRoom (mc : Nat) (s : State) : Option (Nat × State) :=
  match (bandsWhere s (fun _ b => decide (b.mc = mc ∧ b.st = 5) && b.snap && (stripeRoom s b 16 8).isSome)).head? with
  | some (b, _) => some (b, s)
  | none => (bandsWhere s (fun _ b => decide (b.mc = mc ∧ b.st = 0) && convBand s b && !headOut s b.mc b.head &&
      (stripeRoom s b 16 8).isSome)).head?.map (fun e => (e.1, takeBand 3 0 0 0x1FFFFF e.1 s))

/-- Enter the i-th Stripe of a snapshot's media copy on an actuator. -/
def snapOut (mc i : Nat) (vals : List Nat) (s : State) : Option State :=
  (mapRoom mc s).bind (fun r => (bandAt r.2 r.1).bind (fun b => (stripeRoom r.2 b 16 8).map (fun p =>
    let es := ((List.range 16).map (fun j => snapSector (16 * i + j))).zip vals
    putStripe r.1 (.snapWrite r.1) 0 0 p.1 p.2.1 es [] (recordPlan b.mc b.head p.1 p.2.1 p.2.2 r.2))))

/-- The map as the journal has it: with the changes of the commands that are journaled and not yet accepted, which the
map itself takes in at their acceptance (R279). -/
def journaledMap (s : State) : MapImage :=
  let open_ := (s.nv.ring ++ s.ple.jbuf).filter (fun r => match slotAt s r.slot with
    | some x => x.journaled && decide (x.st = .active ∧ r.first + r.recs.length = x.jseq + 1)
    | none => false)
  ((open_.flatMap (fun r => r.ops)).foldl applyOp s).ple.map

/-- Whether a snapshot is due (R218): 15 minutes of operating time after the last one, or with the journal ring half full. -/
def snapshotDue (s : State) : Bool := decide (s.ple.snapAt + 900 ≤ nowSec s ∨ ringSize s ≤ 2 * s.ple.jring.length)

/-- SNAPSHOT_START (R218): where one is due and none is under way, the mark is journaled, and the media copy's Stripes
are entered on MC0 and MC1; where the MAP bands do not have room, nothing starts. In pair mode the serving device
starts it; the partner takes its own Persistence Array copy with the mark. -/
def snapshotStart (s : State) : State :=
  if s.ple.snapping.isSome || !snapshotDue s || !servesSystem s || !pleServes s then s
  else
    let snap : Snap := ⟨s.ple.snapNum + 1, s.ple.jseq, bareMap (journaledMap s)⟩
    let l := (sysMcs s).flatMap (fun m => ((List.range (snapStripes s).length).zip (snapStripes s)).map (fun e => (m, e)))
    let t := journal [.snap snap.num snap.seq] (modPle (fun p => { p with snapSeq := snap.seq, snapAt := nowSec s }) s)
    match l.foldl (fun (r : Option State) e => r.bind (snapOut e.1 e.2.1 e.2.2)) (some t) with
    | none => s
    | some u => if l = [] then s else modPle (fun p => { p with snapping := some ⟨snap, l.length, 0⟩ }) u

/-- A snapshot is complete: its directory names both copies, the Persistence Array copy stands beside it, the wear
table is saved, the journal up to its SEQ is reclaimed, and the MAP bands of the snapshot before it are FREE. -/
def snapKeep (snap : Snap) (s : State) : State :=
  let s := putBands (fun _ b => if b.st ≠ 5 then b else if b.snap then { b with snap := false } else { b with st := 0 }) s
  let old := fun (r : JRange) => decide (r.first + r.recs.length ≤ snap.seq + 1)
  { modPle (fun p => { p with
      snapNum := snap.num
      snapping := none
      jring := p.jring.filter (fun l => decide (snap.seq < l)) }) s with
    nv := { s.nv with
      snaps := [snap]
      ring := s.nv.ring.filter (fun r => !old r)
      wear := wearTable s } }

/-- A snapshot that cannot be written is given up; the one before it stays. -/
def snapFail (s : State) : State :=
  let s := withdraw (fun c => match c.kind with
    | .snapWrite _ => true
    | _ => false) (modPle (fun p => { p with snapping := none }) s)
  putBands (fun _ b => if b.st = 5 ∧ b.snap then { b with st := 2, snap := false } else b) s

/-- The snapshot directory: the number and SEQ of the snapshot, and each segment's plan and address. -/
def dirBytes (s : State) (snap : Snap) : List Nat :=
  let maps := (bandsWhere s (fun _ b => decide (b.st = 5) && b.snap)).map Prod.snd
  let segs := s.ple.map.plans.filter (fun r => r.live &&
    maps.any (fun b => decide (b.mc = r.mc ∧ b.head = r.head) && (bandTracks s b).contains r.track))
  leBytes 8 snap.num ++ leBytes 8 snap.seq ++
    segs.flatMap (fun r => leBytes 4 (planWord r) ++ leBytes 8 (packAddr r.mc r.head r.track (r.data.headD 0)))

/-- A Stripe of a snapshot's media copy is written; behind the last one the directory follows. -/
def snapDone (band n : Nat) (s : State) : State :=
  let s := passStripe band n s
  match s.ple.snapping with
  | none => s
  | some j =>
    if 1 < j.left then modPle (fun p => { p with snapping := some { j with left := j.left - 1 } }) s
    else
      let es := ((List.range 16).map (fun i => snapSector (2 ^ 40 + i))).zip (unitSectors (dirBytes s j.snap))
      let r := sysOut (.dirWrite j.snap.num) (dirPlaces s) j.snap.num es s
      modPle (fun p => { p with snapping := some { j with left := 0, dir := r.2 } }) r.1

/-- The directory is on one more system-area head. -/
def dirDone (num : Nat) (s : State) : State :=
  match s.ple.snapping with
  | none => s
  | some j =>
    if j.snap.num ≠ num then s
    else if 1 < j.dir then modPle (fun p => { p with snapping := some { j with dir := j.dir - 1 } }) s
    else snapKeep j.snap s

/-! ### Ends of jobs (R19, R201, R209, R212) -/

/-- A read of an echo copy failed: its sectors are read at home instead (R209, R211), as the read's map lookup found
them (R282). -/
def readHomeAgain (c : Cand) (slot : Nat) (s : State) : State :=
  let es := c.keys.filterMap (fun k => match ((slotAt s slot).bind (fun x => x.parts.find? (fun p => decide (p.1 = k)))).map Prod.snd with
    | some (.media a) => some (k, a)
    | _ => none)
  let runs := cutRuns s es
  let s := modSlot slot (fun x => { x with waits := x.waits + runs.length }) s
  slotWaited slot (runs.foldl (fun s r => match r with
    | [] => s
    | f :: _ => enterCand { newCand s c.cls false c.kind f.2 (r.map Prod.fst) [] with born := c.born } s) s)

/-- A host read or Verify candidate has ended. -/
def hostReadDone (c : Cand) (slot : Nat) (good : Bool) (cls : Nat) (vals : List Nat) (s : State) : State :=
  if good then slotWaited slot ((c.keys.zip vals).foldl (fun s p => takeRead slot p.1 p.2 (rewriteRebuilt slot p.1 p.2 s)) s)
  else if cls = 3 then slotWaited slot s
  else if cls = 1 then reenter c s
  else if c.echo ≠ 0 then readHomeAgain c slot s
  else if 1 < c.keys.length then
    -- each sector gets a verdict of its own
    let each := (List.range c.keys.length).zip c.keys
    let s := modSlot slot (fun x => { x with waits := x.waits + c.keys.length - 1 }) s
    each.foldl (fun s p => match addrPlus s c.addr p.1 with
      | some a => enterCand { newCand s c.cls false c.kind a [p.2] [] with born := c.born } s
      | none => slotWaited slot (setPart slot p.2 .fails s)) s
  else slotWaited slot (sectorLost slot (c.keys.headD 0) c.addr c.cls c.kind s)

/-- The sectors of a read for a band's move are at hand (R197). -/
def moveTake (old : Nat) (es : List (Nat × Nat)) (s : State) : State :=
  modPle (fun p => { p with remakes := p.remakes.map (fun r => if r.old = old then { r with
    got := r.got ++ es.map (fun e => (e.1 % 2 ^ 32, e.2)) } else r) }) s

/-- Resolve a candidate by how its job ended and by what it read; a Run Sequence's own end is apart. -/
def resolveCand (c : Cand) (good : Bool) (cls : Nat) (vals : List Nat) (s : State) : State :=
  match c.kind with
  | .hostRead slot => hostReadDone c slot good cls vals s
  | .verify slot => hostReadDone c slot good cls vals s
  | .destage band wt =>
    if good then
      let s := stripeDone c band wt c.keys.length s
      match wt with
      | some slot => wtDone slot s
      | none => s
    else stripeFailed c band cls s
  | .close band n wt => closeDone c band n wt good cls s
  | .copyRead pool =>
    if good then (if pool then poolOut vals c s else relocOut vals c s)
    else if cls = 1 ∨ cls = 3 then reenter c s
    else ((List.range c.keys.length).zip c.keys).foldl (fun s p => match addrPlus s c.addr p.1 with
      | some a => startRebuild p.2 a none s
      | none => s) s
  | .rebuildRead src => if cls = 1 ∨ cls = 3 then reenter c s else rebuildTake src good (vals.headD 0) s
  | .moveRead old =>
    if good then moveTake old (c.keys.zip vals) s
    else if cls = 1 ∨ cls = 3 then reenter c s
    else match s.ple.remakes.find? (fun r => decide (r.old = old)) with
      | some r => c.keys.foldl (fun s key => match bandAddr s old (key % 2 ^ 32) with
          | some a => startRebuild key a (some (r.new, key % 2 ^ 32)) s
          | none => s) s
      | none => s
  | .copyWrite band srcs => if good then copyDone c band srcs s else stripeFailed c band cls s
  | .echoWrite idx copy band last =>
    if good then
      let s := passStripe band c.keys.length s
      let s := journal (bandOps s [band]) s
      if last then echoSet idx copy s else s
    else stripeFailed c band cls s
  | .echoRead idx copy =>
    if good then echoTake idx copy (c.keys.zip vals) s
    else if cls = 1 ∨ cls = 3 then reenter c s
    else echoAbandon idx copy s
  -- a journal unit and a directory have to reach their heads: the write is entered again (R217)
  | .sysWrite last => if good then unitDone last s else reenter c s
  | .dirWrite num => if good then dirDone num s else reenter c s
  | .snapWrite band =>
    if good then snapDone band c.keys.length s
    else if cls = 1 ∨ cls = 3 then reenter c (replan c.addr s)
    else snapFail s
  | .runSeq _ => s
  | .dropped => s
  | .remote tag =>
    let s := if good && !c.write then sendRead tag vals s else s
    sendCtrl (.mediaEnd tag (if good then 0 else max 1 cls)) (modTdl (fun t => { t with
      asked := t.asked.filter (· ≠ tag)
      won := t.won.filter (· ≠ tag) }) s)

/-- Resolve the end of an armed candidate's job by its class: a read is good with every needed sector committed, a write with STATUS
0. -/
def resolveEnd (k : Fin 4) (e cls : Nat) (s : State) : State :=
  match (schedOf s k).armed.find? (fun p => decide (p.1 = e)) with
  | none => s
  | some (_, c) =>
    let s := noteHost k c.cls (modSched k (fun q => { q with armed := q.armed.filter (fun p => decide (p.1 ≠ e)), inLong := false }) s)
    let s := pinEcho c false (modPle (fun p => { p with claims := p.claims.filter (· ≠ c.claim) }) s)
    let m := mcOf s k
    let good := decide (cls = 0) && (if c.write then decide (jtF m e 10 23 16 = 0) else decide (jtF m e 12 26 16 = 0))
    let cls := if cls = 0 ∧ !good then 2 else cls
    let vals := stagedSectors s k e c.keys.length
    match c.kind with
    | .runSeq slot => freeJob k e (runSequenceComplete k e slot (if jtF m e 10 27 24 = 0 then 0 else cls) c.keys.length s)
    | _ => resolveCand c good cls vals (freeJob k e s)

/-! ### Relocation (R67 to R70, R212) -/

/-- The LBA key that the map places at a band's offset, if any: by a record, its second copy among them, or by a
zone's mapping. -/
def keyAt (s : State) (h : Nat × Nat) : Option Nat :=
  let byExt := s.ple.map.extents.findSome? (fun e =>
    if e.anchor then none else match bandOf s e.paddr with
      | some g => if g.2 ≤ h.2 ∧ h.2 < g.2 + e.len ∧ (copiesAt s (g.1, h.2)).contains h then some (lkey e.nsx (e.slba + (h.2 - g.2))) else none
      | none => none)
  match byExt with
  | some k => some k
  | none => match zoneOf s h.1 with
    | none => none
    | some (n, zn, z) => match unitOf n z h.1 h.2 with
      | .data o =>
        let lba := zn * zsze s n + o
        if o < z.wp ∧ n.nsx < 1024 ∧ (extentOf s n.nsx lba).isNone then some (lkey n.nsx lba) else none
      | .parity _ => none

/-- The parity sum's key of a band's offset, if a parity unit stands there. -/
def parityAt (s : State) (h : Nat × Nat) : Option Nat :=
  match zoneOf s h.1 with
  | none => none
  | some (n, zn, z) => match unitOf n z h.1 h.2 with
    | .data _ => none
    | .parity _ => if offsetWritten s h.1 h.2 then some (parityKey n.nsx zn h.2) else none

/-- Enter the relocation of a slot's live data at urgent class; a parity unit's sum is rebuilt, and DRAM keeps it. A
slot whose key is dirty waits until it is clean (R67). -/
def relocateSlot (addr : Nat) (s : State) : State :=
  match bandOf s addr with
  | none => s
  | some h => match parityAt s h with
    | some key => startRebuild key addr none s
    | none => match keyAt s h with
      | none => s
      | some key =>
        if (tget none s.ple.dirty key).isSome then relocLater [addr] s
        else if bandDegraded s h.1 || (outstanding s).any (fun c => match c.kind with
            | .copyRead _ => c.keys.contains key
            | .copyWrite _ srcs => srcs.contains addr
            | _ => false) then s
        else enterCand (newCand s 0 false (.copyRead false) addr [key] []) s

/-- Relocations that had to wait are tried again. -/
def relocPump (s : State) : State :=
  s.ple.relocWait.foldl (fun s a => relocateSlot a s) (modPle (fun p => { p with relocWait := [] }) s)

/-- Whether the GDL holds a slot. -/
def gdlHas (s : State) (mc head track slot : Nat) : Bool := s.ple.map.gdl.any (defectHits 1 mc head track slot)

/-- Members of P1 groups and P2 pairs that lose their head or their actuator become DEGRADED (R202). -/
def degradeBands (p : Band → Bool) (s : State) : State :=
  let hit := fun (b : Band) => p b && decide ((b.st = 1 ∨ b.st = 2 ∨ b.st = 3) ∧ (b.cls = 1 ∨ b.cls = 2) ∧ b.use ≤ 1)
  putBands (fun _ b => if hit b then { b with st := 7 } else b) s

/-- Enter a defect: journaled (GDL_ADD) and recorded; at 90 % of the capacity the reliability warning is set. A full
list takes the head out of new placement: its FREE bands retire, those of single copies take nothing more, its members
of groups and pairs are rebuilt elsewhere, and what lies on it stays readable (R65, R202). -/
def putDefect (d : Defect) (s : State) : State :=
  let s := mediaEvent s
  if 1048576 ≤ s.ple.map.gdl.length then
    let mine := fun (b : Band) => decide (b.mc = d.mc ∧ b.head = d.head)
    let s := degradeBands mine s
    let h := d.mc * 16 + d.head
    let s := if s.ple.map.outHeads.contains h then s
      else journal [.headOut h] (modMap (fun m => { m with outHeads := m.outHeads ++ [h] }) s)
    putBands (fun _ b => if mine b && decide (b.st = 0) then { b with st := 6 }
      else if mine b && decide (b.st = 1 ∨ b.st = 3) then { b with st := 2 } else b) s
  else
    let s := journal [.defect d] (modMap (fun m => { m with gdl := insertDefect d m.gdl }) s)
    if 10 * s.ple.map.gdl.length ≥ 9 * 1048576 then setReliability s else s

/-- SLOTS of a track that a band covers; 0 for any other. -/
def slotsOfTrack (s : State) (mc head track : Nat) : Nat :=
  match bandOfTrack s mc head track with
  | some (_, b) => entF (bandZfd s b) 3 26 16
  | none => 0

/-- Retire a Stripe whose GDL slots reach max(1, p − 2), and a track past one eighth of its slots (R68, R69). -/
def retireAfter (mc head track slot : Nat) (s : State) : State :=
  let relocAll := fun (slots : List Nat) (s : State) =>
    slots.foldl (fun s x => relocateSlot (packAddr mc head track x) s) s
  let s := match stripeAt s mc head track slot with
    | none => s
    | some p =>
      let all := p.1 ++ p.2
      let bad := (all.filter (fun x => gdlHas s mc head track x)).length
      if max 1 (p.2.length - 2) ≤ bad ∧ ¬ stripeRetired s mc head track (all.headD 0) then
        relocAll p.1 (putDefect ⟨2, mc, head, track, all.headD 0, all.length, 5⟩ s)
      else s
  let slots := slotsOfTrack s mc head track
  if slots ≠ 0 ∧ slots < 8 * badSlots s mc head track ∧ ¬ trackRetired s mc head track then
    relocAll (List.range slots) (putDefect ⟨3, mc, head, track, 0, 0, 6⟩ s)
  else s

/-- Whether a band that a defect lies in is still being written, so that its handling waits (R70). -/
def defectWaits (s : State) (addr : Nat) : Bool :=
  match bandOfTrack s (addrMc addr) (addrHead addr) (addrTrack addr) with
  | some (n, b) => decide (b.st = 1) || (outstanding s).any (fun c => decide (c.kind.band = some n))
  | none => false

/-- Relocate a grown defect's data, and retire what it makes to be retired. -/
def handleDefect (addr : Nat) (s : State) : State :=
  retireAfter (addrMc addr) (addrHead addr) (addrTrack addr) (addrSlot addr) (relocateSlot addr s)

/-- GDL_ADD (R67, R229): the slot enters the list once; its data is relocated, and its Stripe or track may retire, at
once or when the band that is being written has been (R70). While the PLE serves no map changes it waits. -/
def gdlAdd (addr reason : Nat) (s : State) : State :=
  let mc := addrMc addr
  let head := addrHead addr
  let track := addrTrack addr
  let slot := addrSlot addr
  if gdlHas s mc head track slot then s
  else if !pleServes s then noteDefect addr reason s
  else
    let s := putDefect ⟨1, mc, head, track, slot, 1, reason⟩ s
    if defectWaits s addr then modPle (fun p => { p with lateDefects := p.lateDefects ++ [addr] }) s else handleDefect addr s

/-- Defects whose bands have been written are handled. -/
def lateDefects (s : State) : State :=
  let l := s.ple.lateDefects.filter (fun a => !defectWaits s a)
  l.foldl (fun s a => handleDefect a s) (modPle (fun p => { p with lateDefects := p.lateDefects.filter (fun a => !l.contains a) }) s)

/-- Count the sectors that a read job read and rebuilt, by zone, for log C4h (R273). -/
def noteReads (k : Fin 4) (e : Nat) (s : State) : State :=
  let m := mcOf s k
  if jobWrites m e then s
  else
    let z := (k.val * 16 + jobHead m e) * 32 + jobZone m e
    let done := jtF m e 12 10 0
    let fix := jtF m e 13 26 16
    let total := tget 0 s.nv.zoneReads z + done
    let old := s.nv.zoneFix.filter (fun r => !decide (r.1 = z ∧ r.2 + 100000000 < total))
    { s with nv := { s.nv with
      zoneReads := tput 0 s.nv.zoneReads z total
      zoneFix := old ++ List.replicate fix (z, total)
      sectors := (s.nv.sectors.1 + done, s.nv.sectors.2 + fix) } }

/-! ### Rebuilding DEGRADED bands, moving zones (R197, R202) -/

/-- The band that a DEGRADED one is rebuilt onto: on another head of its actuator; where the whole actuator has failed, of
another actuator for a pair, and a head of another actuator that the group does not use yet for a group. The new member 0 of a
group keeps the group's number, so that its mapping stays. -/
def remakeTarget (s : State) (old : Nat) (b : Band) : Option Nat :=
  let zo := zoneOf s old
  let mates : List Band := match zo with
    | some (_, _, z) => (z.bands.filter (fun q => decide (q ≠ old))).filterMap (bandAt s)
    | none => []
  let temp := match zo with
    | some (n, zn, _) => temperature s n.nsx (zn * zsze s n)
    | none => 1
  let w : Want := ⟨b.use, b.cls, tierPlaces s temp, if b.use = 0 then bandQuantum s else b.next⟩
  let lost := mcOutOfService s (mcIx b.mc)
  let first : Bool := match zo with
    | some (n, _, z) => decide (n.cls = 1 ∧ z.bands.head? = some old)
    | none => false
  let fits := fun (e : Nat × Band) =>
    !mcOutOfService s (mcIx e.2.mc) && actExists s (mcIx e.2.mc) &&
    (if lost then !mates.any (fun m => decide (m.mc = e.2.mc ∧ (b.cls = 2 ∨ m.head = e.2.head))) && decide (e.2.mc ≠ b.mc)
     else decide (e.2.mc = b.mc ∧ e.2.head ≠ b.head)) && (!first || decide (e.1 % 4 = old % 4))
  let pool := w.places.flatMap (fun t => ([0, 1, 2, 3] : List Nat).flatMap (fun m => freeOn s w m t))
  (pool.find? fits).map Prod.fst

/-- The data offsets of a band that hold data of their own on media: not fill, and not data that DRAM or a record holds now. -/
def remakeList (s : State) (old : Nat) (b : Band) : List Nat :=
  (List.range b.wp).filter (fun off => offsetWritten s old off && (match zoneOf s old with
    | some (n, zn, z) => match unitOf n z old off with
      | .data o => decide (o < z.wp) && (heldVal s (lkey n.nsx (zn * zsze s n + o))).isNone && (extentOf s n.nsx (zn * zsze s n + o)).isNone
      | .parity row => decide (row * 768 < z.wp)
    | none => false))

/-- Start to rebuild a DEGRADED band, where a band is free for it. A staging band's data is relocated from its second copy. -/
def remakeStart (old : Nat) (s : State) : State :=
  match bandAt s old with
  | none => s
  | some b =>
    if b.st ≠ 7 ∨ s.ple.remakes.any (fun r => decide (r.old = old)) then s
    else if convBand s b then
      (List.range b.wp).foldl (fun s off => match keyAt s (old, off), unitSources s old off with
        | some key, some (a :: _, _) =>
          if (tget none s.ple.dirty key).isSome || (outstanding s).any (fun c => c.keys.contains key) then s
          else enterCand (newCand s 0 false (.copyRead false) a [key] []) s
        | _, _ => s) s
    else match remakeTarget s old b with
      | none => s
      | some new =>
        let l := remakeList s old b
        let s := takeBand b.use b.cls b.role b.peer new s
        let home := match zoneOf s old with
          | some (n, zn, _) => (n.nsid, zn * zsze s n, temperature s n.nsx (zn * zsze s n))
          | none => (0, 0, 1)
        let s := noteBinding ⟨new, home.1, home.2.1, home.2.2, 4, actBits s [new], b.cls, nowSec s⟩ s
        let s := modPle (fun p => { p with remakes := p.remakes ++ [⟨old, new, none, l, []⟩] }) s
        l.foldl (fun s off => match bandAddr s old off with
          | some a => startRebuild (unitKey old off) a (some (new, off)) s
          | none => s) s

/-- Whether everything that a rebuild or a move copies is on media at its new place. -/
def remakeWhole (s : State) (r : Remake) : Bool := r.need.all (fun off => offsetWritten s r.new off)

/-- Put new bands in the old ones' places: in the zone's binding, in the records that name them, and as the PEER of
their mates; tail copies on an old band drop. -/
def remakeSwitch (l : List Remake) (s : State) : State :=
  let old := s
  let s := l.foldl (fun s r => match bandAt s r.new with
    | none => s
    | some x =>
      let moved := s.ple.map.extents.map (fun e => match bandOf s e.paddr with
        | some (q, o) => if q = r.old then { e with paddr := (bandAddr s r.new o).getD e.paddr } else e
        | none => e)
      let s := dropCopiesIn (fun a => addrIn s r.old a) s
      modMap (fun m => { m with
        zones := m.zones.map (fun e => (e.1, e.2.map (fun z => if z.bands.contains r.old then { z with
          bands := z.bands.map (fun q => if q = r.old then r.new else q)
          gens := ((List.range z.bands.length).zip z.gens).map (fun g =>
            if z.bands[g.1]? = some r.old then x.gen else g.2) } else z)))
        extents := moved
        bands := m.bands.map (fun e => (e.1, e.2.map (fun y =>
          if e.1 = r.old then { y with st := 2, peer := 0x1FFFFF }
          else if y.peer = r.old then { y with peer := r.new } else y))) }) s) s
  let zs := l.filterMap (fun r => (zoneOf s r.new).map (fun e => zoneOp s e.1.nsx e.2.1))
  let exts := (s.ple.map.extents.filter (fun e => !old.ple.map.extents.contains e)).map (fun e => MapOp.extent e)
  let bands := (bandsWhere s (fun n b => decide (bandAt old n ≠ some b))).map Prod.fst
  journal (zs.eraseDups ++ exts ++ bandOps s bands)
    (modPle (fun p => { p with remakes := p.remakes.filter (fun y => !l.contains y) }) s)

/-- Rebuilds and moves go on: a rebuild whose band is not DEGRADED any more, and a move whose zone was reset or is not
FULL any more, is given up; a rebuild that has written everything switches; a DEGRADED band without one starts where
it can, and a staging one that nothing references is FULL. Only the serving device of a pair places data. -/
def remakePump (s : State) : State :=
  if !servesSystem s || !pleServes s then s
  else
    let s := s.ple.remakes.foldl (fun s r =>
      let alive : Bool := match r.zone with
        | none => bandDegraded s r.old
        | some key => match tget none s.ple.map.zones key with
          | some z => decide (z.st = 14) && z.bands.contains r.old
          | none => false
      if !alive then
        setBand r.new (fun y => { y with st := 2 }) (modPle (fun p => { p with
          remakes := p.remakes.filter (fun y => decide (y ≠ r)) }) s)
      else if r.zone.isNone && remakeWhole s r then remakeSwitch [r] s else s) s
    (bandsWhere s (fun _ b => decide (b.st = 7))).foldl (fun s e =>
      if convBand s e.2 && decide (bandValid s e.1 = 0) then setBand e.1 (fun y => { y with st := 2 }) s
      else remakeStart e.1 s) s

/-- A zone's move begins (R197): the zone is FULL with nothing of it in DRAM, the new bands are FREE, hold the band
quantum, and stand as the class asks; a group's member 0 keeps the group's number. The bands are taken, and every
sector's copy is entered. -/
def enterMove (q : MoveReq) (s : State) : State :=
  match nsByX s q.nsx with
  | none => s
  | some n =>
    let z := zoneAt s q.nsx q.zone
    let temp := temperature s q.nsx (q.zone * zsze s n)
    let new := q.bands.filterMap (bandAt s)
    let fits := decide (new.length = z.bands.length ∧ q.bands.length = z.bands.length ∧ q.bands.eraseDups = q.bands) &&
      q.bands.all (fun b => match bandAt s b with
        | some x => decide (x.st = 0) && !convBand s x && !headOut s x.mc x.head &&
            decide (bandQuantum s ≤ planCapacity s (freshBand s 0 n.cls x) true)
        | none => false) &&
      (match n.cls with
       | 1 => decide (new.map (fun x => x.mc) = [0, 1, 2, 3] ∧ q.bands.headD 0 % 4 = z.bands.headD 0 % 4)
       | _ => decide ((new.map (fun x => x.mc)).eraseDups.length = new.length))
    let busy := s.ple.remakes.any (fun r => z.bands.contains r.old) || z.bands.any (bandDegraded s) ||
      s.ple.dirty.any (fun e => decide (e.1 / 2 ^ 36 = q.nsx ∧ e.1 % 2 ^ 36 / zsze s n = q.zone))
    if n.nsx ≥ 1024 ∨ z.st ≠ 14 ∨ z.bands = [] ∨ !fits ∨ busy = true ∨ !servesSystem s then s
    else
      let old := z.bands.map (fun b => (b, ((bandAt s b).map (remakeList s b)).getD []))
      let s := takeMembers 0 n.cls q.bands s
      let s := noteBinding ⟨q.bands.headD 0, n.nsid, q.zone * zsze s n, temp, 5, actBits s q.bands, n.cls, nowSec s⟩ s
      let rs : List Remake := (old.zip q.bands).map (fun e => ⟨e.1.1, e.2, some (zkey q.nsx q.zone), e.1.2, []⟩)
      let s := modPle (fun p => { p with remakes := p.remakes ++ rs }) s
      old.foldl (fun s e => enterReads 2 (.moveRead e.1) 0 0 (e.2.filterMap (fun off =>
        (bandAddr s e.1 off).map (fun a => (unitKey e.1 off, a)))) s) s

/-- ZONE_MOVE_SWITCH (R197): the copies of every member are complete; the binding switches in one record. -/
def zoneMoveSwitch (nsx zone : Nat) (bands : List Nat) (s : State) : State :=
  let l := s.ple.remakes.filter (fun r => decide (r.zone = some (zkey nsx zone)))
  let z := zoneAt s nsx zone
  if pleServes s = true ∧ l ≠ [] ∧ l.map (fun r => r.old) = z.bands ∧ l.map (fun r => r.new) = bands ∧ z.st = 14 ∧
      l.all (remakeWhole s) then
    freeBands (remakeSwitch l s)
  else s

/-- A self-test that takes a Media Channel out of service fails its actuator (R459, R202). A band that a rebuild had taken when
the device was reset belongs to nothing and is FULL, to go FREE. -/
def failActuators (s : State) : State :=
  let s := degradeBands (fun b => mcOutOfService s (mcIx b.mc)) s
  remakePump (freeBands (putBands (fun n b => if b.st = 1 ∧ b.use ≤ 1 ∧ ¬ bandNamed s n then { b with st := 2 } else b) s))

/-- What follows the jobs that have ended since: their candidates are resolved, slots to relocate are entered, and
what waits for them goes on. While the PLE serves no map changes, all of it waits (R229). -/
def afterJobs (s : State) : State :=
  if !pleServes s then s
  else
    let s := forMcs (fun k s =>
      let l := (schedOf s k).ended
      l.foldl (fun s e => resolveEnd k e.1 e.2 (noteReads k e.1 s)) (modSched k (fun q => { q with ended := [] }) s)) s
    let l := s.ple.relocs
    let s := l.foldl (fun s e => gdlAdd e.1 e.2 s) (modPle (fun p => { p with relocs := [] }) s)
    freeBands (echoPump (remakePump (restagePump (relocPump (lateDefects (sealBands s))))))

/-- SCHEDULER_DECISION (R225): with the schedulers enabled and no job of the MC outstanding, the ready set is filled, the
first non-empty rank gives the choice, and its job is armed. -/
def schedulerDecision (k : Fin 4) (i : SchedIn) (s : State) : State :=
  let s := if pleServes s then i.moves.foldl (fun s r => enterMove r s) (i.destages.foldl (fun s r => enterDestage r s) s) else s
  let s := fillReady k (reclass k s)
  if !rdB s.ple.csr PLE_CTL.SCH_EN || !(schedOf s k).armed.isEmpty then s
  else
    let r := decide_ k (schedOf s k).ready.length s
    match r.1 with
    | none => r.2
    | some (rank, c) => armCand k i c (countDecision k rank c r.2)

/-! ### Compaction (R212, R213, R215) -/

/-- The score of a source band, scaled (R213). -/
def bandScore (s : State) (n : Nat) (b : Band) : Nat :=
  let v := bandValid s n
  (b.dcap - v) * (nowSec s - b.lastw) * 1000 / max 1 (b.dcap + v)

/-- The bands that may be a compaction's source: FULL or STAGING, of conventional data, not mostly valid unless they
are staging bands. -/
def sourceBands (s : State) : List (Nat × Band) :=
  bandsWhere s (fun n b => decide (b.use = 1) && (decide (b.st = 3) ||
    (decide (b.st = 2) && (convBand s b || decide (10 * bandValid s n ≤ 8 * b.dcap)))))

/-- Whether no host candidate has stood at an actuator's scheduler for 500 ms (R213). -/
def idleMc (s : State) (mc : Nat) : Bool :=
  let q := schedOf s (mcIx mc)
  actExists s (mcIx mc) && !(q.waiting ++ q.ready ++ q.armed.map Prod.snd).any (fun c => decide (c.cls = 1)) &&
    decide (q.hostAt + 500 ≤ nowMs s)

/-- How full the staging bands are, in percent of what all of them can hold. -/
def stagingPct (s : State) : Nat :=
  let l := bandsWhere s (fun _ b => convBand s b && decide (b.st = 0 ∨ b.st = 2 ∨ b.st = 3))
  (l.foldl (fun n e => if e.2.st = 0 then n else n + e.2.next) 0) * 100 / max 1 (l.foldl (fun n e => n + planCapacity s e.2 true) 0)

/-- The triggers of R213, by the order of its table, and the class of their candidates; `none` where the condition does not
hold. -/
def compactionClass (s : State) (trigger : Nat) : Option Nat :=
  match trigger with
  | 0 => if 70 ≤ stagingPct s then some 2 else none
  | 1 => if 90 ≤ stagingPct s then some 0 else none
  | 2 => if ([0, 1, 2, 3] : List Nat).any (fun m => actExists s (mcIx m) && decide (freeCount s m < 2 * resvBands s m))
      then some 1 else none
  | 3 => if ([0, 1, 2, 3] : List Nat).any (idleMc s) then some 2 else none
  | 4 => if 2 ≤ s.ple.mapst then some 0 else none
  | 5 => some 0
  | _ => none

/-- Every mapped sector of a band as (key, address). -/
def bandKeys (s : State) (b : Nat) : List (Nat × Nat) :=
  s.ple.map.extents.flatMap (fun e => match bandOf s e.paddr with
    | some (b', _) => if b' = b ∧ ¬ e.anchor then (List.range e.len).filterMap (fun i =>
        (addrPlus s e.paddr i).map (fun a => (lkey e.nsx (e.slba + i), a))) else []
    | none => [])

/-- The records of a namespace that continue a neighbour's LBAs and lie elsewhere: its fragmented runs. -/
def fragments (s : State) (n : Ns) : List Extent :=
  let l := s.ple.map.extents.filter (fun e => decide (e.nsx = n.nsx) && !e.anchor)
  l.filter (fun e => l.any (fun x => decide (x.slba + x.len = e.slba ∨ e.slba + e.len = x.slba)))

/-- Map pressure merges the conventional namespace with the shortest mean extent length (R215): the sectors of its
fragmented runs in LBA order from where the last merging ended, as far as the 512 sectors of one copy go. -/
def mergeKeys (s : State) : List (Nat × Nat) :=
  let of_ := fun (n : Ns) => s.ple.map.extents.filter (fun e => decide (e.nsx = n.nsx) && !e.anchor)
  let mean := fun (n : Ns) => (of_ n).foldl (fun t e => t + e.len) 0 * 65536 / max 1 (of_ n).length
  match leastBy mean (s.ple.map.nss.filter (fun n => !n.zoned && decide (1 < (of_ n).length))) with
  | none => []
  | some n =>
    let all := (fragments s n).flatMap (fun e => (List.range e.len).filterMap (fun i =>
      (addrPlus s e.paddr i).map (fun a => (lkey e.nsx (e.slba + i), a))))
    let rest := all.filter (fun p => decide (s.ple.mergeAt ≤ p.1))
    (if rest = [] then all else rest).take 512

/-- COMPACTION_START (R213): copies of the live data of the source band with the highest score, at the trigger's rank,
of a band on an idle actuator under the idle trigger, or of fragmented records under map pressure; relocations that
had to wait are entered under theirs. -/
def compactionStart (trigger : Nat) (s : State) : State :=
  match compactionClass s trigger, pleServes s with
  | some cls, true =>
    if trigger = 5 then remakePump (relocPump s)
    else
      let from_ := (sourceBands s).filter (fun e => decide (trigger ≠ 3) || idleMc s e.2.mc)
      let worst := from_.foldl (fun (m : Option (Nat × Band)) e => match m with
        | none => some e
        | some x => if bandScore s x.1 x.2 < bandScore s e.1 e.2 then some e else some x) none
      let keys := if trigger = 4 then mergeKeys s else (worst.map (fun e => bandKeys s e.1)).getD []
      let s := if trigger = 4 then modPle (fun p => { p with mergeAt := ((keys.getLast?.map Prod.fst).getD 0) + 1 }) s else s
      enterReads cls (.copyRead true) 0 0 (keys.filter (fun p => (tget none s.ple.dirty p.1).isNone &&
        !s.ple.ghosts.any (fun g => decide (g.key = p.1)))) s
  | _, _ => s

/-! ### Clears (R230) -/

/-- The MC that PLE_SCH_IDX selects, if it exists. -/
def schSelected (s : State) : Option (Fin 4) :=
  let k := mcIx (rdF s.ple.csr PLE_SCH_IDX.MC)
  if actExists s k then some k else none

/-- PLE_CLR.CLAIM. -/
def pleClrClaim (s : State) : State := match schSelected s with
  | some k => modSched k (fun q => { q with claimLost := 0 }) s
  | none => s

/-- PLE_CLR.DUE. -/
def pleClrDue (s : State) : State := match schSelected s with
  | some k => modSched k (fun q => { q with duepk := 0 }) s
  | none => s

/-- PLE_CLR.MAXW. -/
def pleClrMaxw (s : State) : State := match schSelected s with
  | some k => modSched k (fun q => { q with maxw := 0 }) s
  | none => s

end Sys2Proof.Machine
end

