-- ==== Sys2Proof/Machine/Host.lean ====
section
/-! DEFINITION. The HQE's queues: functions, doorbells, the fetch arbiter, completions, events and log C1h (R231 to R250,
R300). -/

namespace Sys2Proof.Machine

/-! ### Access -/

/-- Update the HQE and its registers. -/
def modHqe (f : Hqe → Hqe) (s : State) : State := { s with hqe := f s.hqe }
def hqeReg (f : List (Nat × Word) → List (Nat × Word)) (s : State) : State := modHqe (fun h => { h with csr := f h.csr }) s

/-- Replace and update a function. -/
def putFn (f : Nat) (x : Fn) (s : State) : State :=
  modHqe (fun h => { h with fns := tput none h.fns f (if x = Fn.init then none else some x) }) s
def modFn (f : Nat) (g : Fn → Fn) (s : State) : State := putFn f (g (fnOf s f)) s

/-- Which functions are physical, and the PF of a function (R231). -/
def portMode2 (s : State) : Bool := rdB s.hqe.csr HQE_PORT.MODE
def isPf (s : State) (f : Nat) : Bool := decide (f = 0) || (portMode2 s && decide (f = 128))
def pfOf (s : State) (f : Nat) : Nat := if portMode2 s ∧ 128 ≤ f then 128 else 0

/-- Whether the device has a function: a PF, or a VF while its PF's VF Enable is set (R231, R291). -/
def fnExists (s : State) (f : Nat) : Bool := isPf s f || (decide (f < 256) && (fnOf s (pfOf s f)).vfEnable)

/-- The functions of a port. -/
def portFns (s : State) (p : Nat) : List Nat :=
  if portMode2 s then (List.range 128).map (fun i => 128 * p + i) else if p = 0 then List.range 256 else []

/-- This device's pair position, from the option area, and a function's CNTLID (R235). -/
def pairPos (s : State) : Nat := if inPair s then (tget 0 s.nv.opt 6).toNat % 2 else 0
def cntlid (s : State) (f : Nat) : Nat := 256 * pairPos s + f + 1

/-- CAP, which every controller reports (R235): MQES, CQR, AMS, TO, the two bits of CSS and MPSMAX, each at the place
the NVM Express specifications give it (PRESUMED, log 64); its other fields are 0. -/
def capReg : Nat := 0xFFFF + 2 ^ 16 + 2 ^ 17 + 4 * 2 ^ 24 + (2 ^ 0 + 2 ^ 6) * 2 ^ 37 + 4 * 2 ^ 52

/-- What a dword of a function's BAR0 shows (R234, R235, R236): CAP, VS, CC, CSTS and AQA at the offsets of the NVM Express
specifications (PRESUMED, log 64), and reserved space as zero. It is a view: the table has no row for a host's read. `none`: the
admin queues' addresses, the MSI-X table, its pending bits and the doorbells, which State does not hold as registers. -/
def bar0View (s : State) (f off : Nat) : Option Word :=
  let x := fnOf s f
  let sizes := (match sqOf s f 0, cqOf s f 0 with
    | some q, some c => q.size - 1 + (c.size - 1) * 2 ^ 16
    | _, _ => 0)
  if off = 0 then some (BitVec.ofNat 32 capReg)
  else if off = 4 then some (BitVec.ofNat 32 (capReg / 2 ^ 32))
  else if off = 8 then some 0x00020000
  else if off = 0x14 then some x.cc
  else if off = 0x1C then some (BitVec.ofNat 32 (b2n x.rdy + 2 * b2n x.cfs))
  else if off = 0x24 then some (BitVec.ofNat 32 sizes)
  else if 0x3008 ≤ off ∧ off < 0x8000 ∨ 0xC080 ≤ off ∧ off < 0x10000 then some 0
  else none

/-- Replace a queue of a function. -/
def putSq (f q : Nat) (x : Option Sq) (s : State) : State := modFn f (fun y => { y with sqs := tput none y.sqs q x }) s
def putCq (f q : Nat) (x : Option Cq) (s : State) : State := modFn f (fun y => { y with cqs := tput none y.cqs q x }) s

/-- Whether a slot is an admin slot (R243). -/
def adminSlot (n : Nat) : Bool := decide (64512 ≤ n)

/-- Slots in use: of a function, and of all, I/O. -/
def slotsOf (s : State) (f : Nat) : List (Nat × Slot) :=
  s.hqe.slots.filterMap (fun e => match e.2 with
    | some x => if x.fn = f then some (e.1, x) else none
    | none => none)
def ioSlots (s : State) : Nat := (s.hqe.slots.filter (fun e => !adminSlot e.1)).length
def fnIoSlots (s : State) (f : Nat) : Nat := ((slotsOf s f).filter (fun e => !adminSlot e.1)).length

/-- The lowest number of a list that is free, from one on. -/
def firstFree (used : List Nat) : Nat → Nat → Option Nat
  | 0, _ => none
  | n + 1, i => if used.contains i then firstFree used n (i + 1) else some i

/-- Entries of a queue not yet fetched. -/
def sqWaiting (s : State) (f q : Nat) : Nat := match sqOf s f q with
  | none => 0
  | some x => if x.deleting.isSome then 0 else
    (x.tail + x.size - x.head) % max 1 x.size - (s.hqe.fetching.filter (fun e => decide (e.1 = f ∧ e.2.1 = q))).length

/-! ### Interrupts (R249) -/

/-- The coalescing threshold of a function, 0 where it does not coalesce a vector. Vector 0, the admin completion
queue's, is never coalesced: the choice of log 200. -/
def coalesceThr (x : Fn) (v : Nat) : Nat :=
  let c := featGet 0 x.feats 8
  if v = 0 ∨ wordBit (featGet 0 x.feats (0x090000 + v)) 16 ∨ wordField c 15 8 = 0 then 0 else wordField c 7 0

/-- Send a vector's MSI-X message. -/
def sendInt (f v : Nat) (s : State) : State :=
  modFn f (fun x => { x with
    ints := tput 0 x.ints v (tget 0 x.ints v + 1)
    coal := tput 0 x.coal v 0 }) s

/-- MSI_X_SIGNAL: an entry of a completion queue was posted. -/
def signalCq (f : Nat) (c : Cq) (s : State) : State :=
  if !c.ien then s
  else
    let n := tget 0 (fnOf s f).coal c.iv + 1
    if coalesceThr (fnOf s f) c.iv < n then sendInt f c.iv s
    else modFn f (fun x => { x with coal := tput 0 x.coal c.iv n }) s

/-- COALESCE_TIMER_EXPIRY: what has been posted for the vector gets its interrupt; a posting ordered after the expiry waits
for the next one. -/
def coalesceExpiry (f v : Nat) (s : State) : State :=
  if tget 0 (fnOf s f).coal v = 0 then s else sendInt f v s

/-! ### Completion queues (R248, R276) -/

/-- Whether a completion queue has an empty slot. -/
def cqRoom (c : Cq) : Bool := decide ((c.tail + 1) % c.size ≠ c.head)

/-- Commit a position: the tail passes it, and the phase turns with the wrap. -/
def cqAdvance (c : Cq) : Cq :=
  { c with tail := (c.tail + 1) % c.size, phase := if c.tail + 1 = c.size then !c.phase else c.phase }

/-- The completion queue of a submission queue. -/
def cqidOf (s : State) (f q : Nat) : Nat := ((sqOf s f q).map (fun x => x.cqid)).getD 0

/-- The entry as it is written. -/
def cqEntry (s : State) (f q cid status : Nat) (dw0 dw1 : Word) (phase : Bool) : List Word :=
  [dw0, dw1, BitVec.ofNat 32 ((((sqOf s f q).map (fun x => x.head)).getD 0) + q * 65536),
   BitVec.ofNat 32 (cid + b2n phase * 65536 + status * 131072)]

/-- Commit and write an entry at once where its queue has room; `none` where it has none. -/
def cqPut (f q cid status : Nat) (dw0 dw1 : Word) (s : State) : Option State :=
  let n := cqidOf s f q
  match cqOf s f n with
  | none => none
  | some c =>
    if cqRoom c then
      let s := modHqe (fun h => { h with lastCqe := cqEntry s f q cid status dw0 dw1 c.phase }) s
      some (signalCq f c (putCq f n (some (cqAdvance c)) s))
    else none

/-! ### Queue contexts (R238) -/

/-- The context of an I/O queue by the number the cache holds it under. -/
def ctxKey (f q : Nat) (isCq : Bool) : Nat := (f * 2048 + q) * 2 + b2n isCq

/-- Use the context of an I/O queue: one that is not among the 4,096 of the cache is a miss, which is counted, and
enters; which one leaves for it is left open (log 203). The contexts of the admin queues are held on chip. -/
def useCtx (f q : Nat) (isCq : Bool) (s : State) : State :=
  if q = 0 ∨ s.hqe.qctx.contains (ctxKey f q isCq) then s
  else
    let s := hqeReg (fun c => incR c HQE_CTXC 1) s
    let out := takeFree s
    let t := if s.hqe.qctx.length < 4096 then s else modHqe (fun h => { h with qctx := h.qctx.eraseIdx (out.1 % 4096) }) out.2
    modHqe (fun h => { h with qctx := ctxKey f q isCq :: h.qctx }) t

/-- A queue that is deleted has no context. -/
def dropCtx (f q : Nat) (isCq : Bool) (s : State) : State := modHqe (fun h => { h with qctx := h.qctx.erase (ctxKey f q isCq) }) s

/-! ### Asynchronous events (R239, R243, R300) -/

/-- An event's completion dword: its type, information and log page. -/
def aerWord (type info lid : Nat) : Word := BitVec.ofNat 32 (type + info * 256 + lid * 65536)

/-- Slots of a completion queue whose completions became ready before a number. -/
def waitsAhead (s : State) (f q cnum : Nat) : Bool :=
  (slotsOf s f).any (fun e => decide (e.2.st = .done ∨ e.2.st = .committed) && decide (e.2.cnum < cnum) &&
    decide (cqidOf s f e.2.sqid = q))

/-- Every queued event that finds a held request ends it: its completion is due, in the order of completions (R248). -/
def pairEvents (f : Nat) (s : State) : State :=
  let x := fnOf s f
  let l := x.events.zip x.aers
  let ends := ((List.range l.length).zip l).map (fun e => (⟨e.2.2, 0, e.2.1, 65536, s.hqe.commits + 1 + e.1⟩ : AerEnd))
  modFn f (fun y => { y with
    events := y.events.drop l.length
    aers := y.aers.drop l.length
    ends := y.ends ++ ends }) (modHqe (fun h => { h with commits := h.commits + l.length }) s)

/-- Post the completions of requests that are due, while the queue has room and no earlier completion waits for it;
the Abort of an aborted request completes behind it (R253). -/
def postEnds (f : Nat) : Nat → State → State
  | 0, s => s
  | n + 1, s => match (fnOf s f).ends with
    | [] => s
    | e :: r =>
      if waitsAhead s f 0 e.cnum then s
      else match cqPut f 0 e.cid e.status e.dw0 0 s with
        | none => s
        | some t =>
          let t := modFn f (fun y => { y with ends := r }) t
          postEnds f n (if (slotAt t e.slot).isSome then finish e.slot 0 0 0 t else t)

/-- Deliver events to held requests. None is completed for a controller in reset, or once a dump has begun (R292, R297). -/
def deliver (f : Nat) (s : State) : State :=
  if s.sys.dump ≠ .none ∨ (fnOf s f).resetting then s else postEnds f 16 (pairEvents f s)

/-- Queue an event for a controller. -/
def queueEvent (f : Nat) (w : Word) (s : State) : State :=
  deliver f (modFn f (fun x => { x with events := x.events ++ [w] }) s)

/-- The controllers that are enabled. -/
def enabledFns (s : State) : List Nat := (s.hqe.fns.filter (fun e => ((e.2.map (fun x => x.rdy)).getD false))).map Prod.fst

/-- Queue an event for every enabled controller. -/
def queueAll (w : Word) (s : State) : State := (enabledFns s).foldl (fun s f => queueEvent f w s) s

/-- A change of the ANA state (R394): counted, and reported to every controller. -/
def anaChange (s : State) : State :=
  queueAll (aerWord 2 3 0x0C) { s with tdl := { s.tdl with anaChanges := s.tdl.anaChanges + 1 } }

/-! ### Doorbells (R239) -/

/-- A rejected doorbell write. -/
def doorbellError (f info : Nat) (s : State) : State :=
  queueEvent f (aerWord 0 info 1) (hqeReg (fun c => incR c HQE_DBERR 1) s)

/-- Positions of a completion queue that are committed and not yet written. -/
def unposted (s : State) (f q : Nat) : Nat :=
  ((slotsOf s f).filter (fun e => decide (e.2.st = .committed) && decide (cqidOf s f e.2.sqid = q))).length

/-! ### The fetch arbiter (R240 to R244) -/

/-- Whether a function may fetch. -/
def fnFetches (s : State) (f : Nat) : Bool :=
  let x := fnOf s f
  x.rdy && !x.cfs && !x.resetting && fnExists s f

/-- Admin and I/O fetches of a function that are out. -/
def outAdmin (s : State) (f : Nat) : Nat := (s.hqe.fetching.filter (fun e => decide (e.1 = f ∧ e.2.1 = 0))).length
def outIo (s : State) (f : Nat) : Nat := (s.hqe.fetching.filter (fun e => decide (e.1 = f ∧ e.2.1 ≠ 0))).length

/-- Free admin slots of a function. -/
def adminFree (s : State) (f : Nat) : Nat := 4 - (((slotsOf s f).filter (fun e => adminSlot e.1)).length + outAdmin s f)

/-- I/O slots that a function may still take: the pool's, and its cap's. -/
def ioFree (s : State) (f : Nat) : Nat :=
  let pool := 64512 - (ioSlots s + (s.hqe.fetching.filter (fun e => decide (e.2.1 ≠ 0))).length)
  let cap := (fnOf s f).cap
  if cap = 0 ∨ 64512 < cap then pool else min pool (cap - (fnIoSlots s f + outIo s f))

/-- The queues of a function in a class that have entries to fetch. -/
def readyQueues (s : State) (f cls : Nat) : List Nat :=
  let x := fnOf s f
  x.sqs.filterMap (fun e => match e.2 with
    | some q => if e.1 ≠ 0 ∧ sqClass x q = cls ∧ 0 < sqWaiting s f e.1 then some e.1 else none
    | none => none)

/-- The next of a list in round robin after the one last served; `last` is that one plus 1, or 0. -/
def nextAfter (last : Nat) (l : List Nat) : Option Nat :=
  match l.find? (fun x => decide (last ≤ x)) with
  | some x => some x
  | none => l.head?

/-- The burst of a function (R240), and its credits as loaded (R241). -/
def burstOf (x : Fn) : Nat := 2 ^ (min 6 (wordField (featGet 0 x.feats 1) 2 0))
def loadCredits (x : Fn) : Fn :=
  let w := featGet 0 x.feats 1
  { x with credH := wordField w 31 24 + 1, credM := wordField w 23 16 + 1, credL := wordField w 15 8 + 1 }

/-- The credit of a regular class. -/
def creditOf (x : Fn) (cls : Nat) : Nat := match cls with
  | 1 => x.credH
  | 2 => x.credM
  | _ => x.credL
def spend (cls : Nat) (x : Fn) : Fn := match cls with
  | 1 => { x with credH := x.credH - 1 }
  | 2 => { x with credM := x.credM - 1 }
  | _ => { x with credL := x.credL - 1 }

/-- The regular classes of a function with entries. -/
def regularReady (s : State) (f : Nat) : List Nat := ([1, 2, 3] : List Nat).filter (fun c => !(readyQueues s f c).isEmpty)

/-- All three credits are reloaded when every class with entries has none left (R241). -/
def reloadCredits (f : Nat) (s : State) : State :=
  let l := regularReady s f
  if !l.isEmpty && l.all (fun c => decide (creditOf (fnOf s f) c = 0)) then modFn f loadCredits s else s

/-- DOORBELL_WRITE: the value is checked and replaces the SQ tail or the CQ head. Entries that arrive may
leave no class with a credit. -/
def doorbellWrite (f : Nat) (isCq : Bool) (q v : Nat) (s : State) : State :=
  if !fnExists s f then s
  else if isCq then match cqOf s f q with
    | none => doorbellError f 0 s
    | some c =>
      let posted := (c.tail + c.size - c.head) % c.size - unposted s f q
      if c.size ≤ v ∨ posted < (v + c.size - c.head) % c.size then doorbellError f 1 s
      else deliver f (putCq f q (some { c with head := v }) s)
  else match sqOf s f q with
    | none => doorbellError f 0 s
    | some x =>
      if x.deleting.isSome then doorbellError f 0 s
      else if x.size ≤ v then doorbellError f 1 s
      else reloadCredits f (putSq f q (some { x with tail := v }) s)

/-- Issue the entry reads of a turn. -/
def issueFetch (f q n : Nat) (s : State) : State :=
  modHqe (fun h => { h with fetching := h.fetching ++ List.replicate n (f, q, false) }) s

/-- Serve a queue of a class in round robin. -/
def serveClass (f cls : Nat) (s : State) : State :=
  let x := fnOf s f
  match nextAfter (tget 0 x.rr cls) (readyQueues s f cls) with
  | none => s
  | some q =>
    let n := min (burstOf x) (min (sqWaiting s f q) (ioFree s f))
    issueFetch f q n (useCtx f q false (modFn f (fun y => { y with rr := tput 0 y.rr cls (q + 1) }) s))

/-- Whether the arbiter runs. -/
def arbiterRuns (s : State) : Bool :=
  rdB s.hqe.csr HQE_CTL.EN && decide (s.sys.dump = .none) && decide (s.sys.phase = .running) && s.hqe.activating.isNone

/-- FETCH_TURN: the first class with an entry to fetch, its next function and queue, and the entries of the turn. -/
def fetchTurn (s : State) : State :=
  let fns := (s.hqe.fns.map Prod.fst).filter (fnFetches s)
  let admin := fns.filter (fun f => decide (0 < sqWaiting s f 0 ∧ 0 < adminFree s f))
  let io := if s.hqe.san.st = 2 then [] else fns.filter (fun f => decide (0 < ioFree s f))
  let urgent := io.filter (fun f => !(readyQueues s f 0).isEmpty)
  let regular := io.filter (fun f => !(regularReady s f).isEmpty)
  if !arbiterRuns s then s
  else match nextAfter s.hqe.rrAdmin admin with
    | some f => issueFetch f 0 1 (modHqe (fun h => { h with rrAdmin := f + 1 }) s)
    | none => match nextAfter s.hqe.rrUrgent urgent with
      | some f => serveClass f 0 (modHqe (fun h => { h with rrUrgent := f + 1 }) s)
      | none => match nextAfter s.hqe.rrReg regular with
        | none => s
        | some f =>
          let s := reloadCredits f (modHqe (fun h => { h with rrReg := f + 1 }) s)
          match (regularReady s f).find? (fun c => decide (0 < creditOf (fnOf s f) c)) with
          | none => s
          | some c => reloadCredits f (serveClass f c (modFn f (spend c) s))

/-! ### Write-class commands and what they cover (R277, R280) -/

/-- Whether a command is write-class. Dataset Management counts with its AD attribute alone. -/
def writeClass (x : Slot) : Bool :=
  let o := x.opc
  decide (o = 0x01 ∨ o = 0x08 ∨ o = 0x7D ∨ o = 0x79 ∨ o = 0x91) || (decide (o = 0x09) && wordBit (x.cdw 11) 2)

/-- The ranges of LBA keys that a command covers, as (first key, length); a zone named as a whole is all of its LBAs, and
Dataset Management whose ranges have not arrived covers its namespace. -/
def covers (s : State) (x : Slot) : List (Nat × Nat) :=
  match nsById s (x.cdw 1).toNat with
  | none => []
  | some n =>
    let o := x.opc
    let whole := (lkey n.nsx 0, 2 ^ 36)
    if o = 0x79 then
      (if wordBit (x.cdw 13) 8 then [whole] else [(lkey n.nsx (slba x / zsze s n * zsze s n), zsze s n)])
    else if o = 0x7D then [(lkey n.nsx (slba x / zsze s n * zsze s n), zsze s n)]
    else if o = 0x09 then
      (if x.st = .fetched then [whole] else x.ranges.map (fun r => (lkey n.nsx r.slba, r.len)))
    else if o = 0x01 ∨ o = 0x02 ∨ o = 0x08 ∨ o = 0x0C then [(lkey n.nsx (slba x), nlb x)]
    else []

/-- Whether two ranges, and whether two commands, share an LBA. -/
def rangesMeet (a b : Nat × Nat) : Bool := decide (a.1 < b.1 + b.2 ∧ b.1 < a.1 + a.2)
def commandsMeet (s : State) (x y : Slot) : Bool := (covers s x).any (fun a => (covers s y).any (fun b => rangesMeet a b))

/-- Whether a command still waits for its fate: it has neither been committed nor failed. -/
def outstandingCmd (x : Slot) : Bool := decide (x.st = .fetched ∨ x.st = .active)

/-- Whether a Write, Write Zeroes or Zone Append writes a zone, and which. -/
def zoneWritten (s : State) (x : Slot) : Option (Nat × Nat) :=
  match nsById s (x.cdw 1).toNat with
  | none => none
  | some n => if n.zoned && decide (x.opc = 0x01 ∨ x.opc = 0x08 ∨ x.opc = 0x7D) then some (n.nsx, slba x / zsze s n) else none

/-- The fetch pointer of a zone (R281): the write pointer and the sectors of every Write and Zone Append of it that is
outstanding; an outstanding Write Zeroes does not count. -/
def fetchPointer (s : State) (nsx z : Nat) : Nat :=
  s.hqe.slots.foldl (fun n e => match e.2 with
    | some x => if outstandingCmd x && decide (x.opc ≠ 0x08 ∧ zoneWritten s x = some (nsx, z)) then n + nlb x else n
    | none => n) (zoneAt s nsx z).wp

/-- The commands fetched before one that still wait. -/
def earlier (s : State) (x : Slot) : List Slot :=
  s.hqe.slots.filterMap (fun e => match e.2 with
    | some y => if y.order < x.order ∧ outstandingCmd y then some y else none
    | none => none)

/-- Whether an earlier write-class command still stands before one (R280, R282), or an earlier write of its zone (R281). -/
def blocked (s : State) (x : Slot) : Bool :=
  (earlier s x).any (fun y => writeClass y && (commandsMeet s x y ||
    ((zoneWritten s x).isSome && decide (zoneWritten s x = zoneWritten s y))))

/-! ### Completions (R248) -/

/-- What a posted completion releases: Aborts that wait for it, and in pair mode the mirror's record of the command. -/
def afterPost (n : Nat) (s : State) : State :=
  s.hqe.slots.foldl (fun s e => match e.2 with
    | some y => if y.opc = 0x08 ∧ adminSlot e.1 ∧ y.st = .active ∧ y.target = n + 1 then finish e.1 0 y.dw0 0 s else s
    | none => s) s

/-- Free a slot. -/
def freeSlot (n : Nat) (s : State) : State := modHqe (fun h => { h with slots := tput none h.slots n none }) s

/-- An entry that a command's completion leaves: an error, in the controller's Error Information log, and in SMART
what the host read and wrote. R262 names the logs; what is counted is the NVM Express one (PRESUMED, log 247). -/
def noteUsage (n : Nat) (x : Slot) (s : State) : State :=
  let modUse := fun (g : Usage → Usage) (s : State) => { s with nv := { s.nv with use := g s.nv.use } }
  let s := if x.status = 0 then s
    else
      let s := modUse (fun u => { u with errs := u.errs + 1, media := u.media + b2n (decide (x.status = 0x281)) }) s
      let e : ErrEntry := ⟨s.nv.use.errs, x.sqid, x.cid, x.status, (x.cdw 10).toNat + (x.cdw 11).toNat * 2 ^ 32, (x.cdw 1).toNat⟩
      modFn x.fn (fun y => { y with errs := (e :: y.errs).take 64 }) s
  if adminSlot n ∨ x.status ≠ 0 then s
  else if x.opc = 0x02 then modUse (fun u => { u with unitsR := u.unitsR + 8 * nlb x, cmdsR := u.cmdsR + 1 }) s
  else if x.opc = 0x01 ∨ x.opc = 0x7D then modUse (fun u => { u with unitsW := u.unitsW + 8 * nlb x, cmdsW := u.cmdsW + 1 }) s
  else s

/-- COMPLETION_POST: the command's completion is next on its queue; an uncommitted one needs an empty slot there. -/
def completionPost (n : Nat) (s : State) : State :=
  match slotAt s n with
  | none => s
  | some x =>
    let q := cqidOf s x.fn x.sqid
    let after := fun (s : State) => deliver x.fn (afterPost n (freeSlot n (noteUsage n x s)))
    if s.sys.dump ≠ .none ∨ (s.bmc.down ∧ x.sqid ≠ 0) ∨ (fnOf s x.fn).resetting ∨ waitsAhead s x.fn q x.cnum ∨
        (q = 0 ∧ (fnOf s x.fn).ends.any (fun e => decide (e.cnum < x.cnum))) then s
    else match x.st with
      | .done => match cqPut x.fn x.sqid x.cid x.status x.dw0 x.dw1 s with
        | none => s
        | some t => after (useCtx x.fn q true t)
      | .committed => match cqOf s x.fn q with
        | none => freeSlot n s
        | some c =>
          let s := modHqe (fun h => { h with
            lastCqe := cqEntry s x.fn x.sqid x.cid x.status x.dw0 x.dw1 x.phase }) s
          after (useCtx x.fn q true (signalCq x.fn c s))
      | _ => s

/-! ### Log C1h (R300) -/

/-- An event enters log C1h with the next number, with write-through, the power-cycle count and the operating time of
the event. -/
def noteC1At (wt : Bool) (pwrcyc time kind flags cntl info : Nat) (es : List C1Entry) (s : State) : State :=
  let num := ((s.nv.logC1.head?.map (fun e => e.num)).getD 0) + 1
  let lost := if es.any (fun e => decide (e.disp = 3)) then 4 else 0
  let e : C1Event := ⟨num, kind, flags ||| lost ||| (if wt then 2 else 0), cntl, time, pwrcyc, info, es⟩
  { s with nv := { s.nv with logC1 := (e :: s.nv.logC1).take 9 } }
def noteC1 (kind flags cntl info : Nat) (es : List C1Entry) (s : State) : State :=
  noteC1At (writeThrough s) s.nv.pwrcyc (nowSec s) kind flags cntl info es s

/-- An event of log C1h of the whole device: its Asynchronous Event is queued for every enabled controller. -/
def reportC1 (kind flags cntl info : Nat) (es : List C1Entry) (s : State) : State :=
  queueAll (aerWord 7 0 0xC1) (noteC1 kind flags cntl info es s)

/-- A command as log C1h lists it. -/
def c1Entry (s : State) (x : Slot) (disp : Nat) : C1Entry :=
  let assigned := if x.opc = 0x7D ∧ (disp = 1 ∨ disp = 2) then some x.assigned else none
  ⟨cntlid s x.fn, x.sqid, x.cid, x.opc, disp, (x.cdw 1).toNat, slba x, wordField (x.cdw 12) 15 0, assigned⟩

/-- The little-endian bytes of a number. -/
def bytesLE (n v : Nat) : List Nat := (List.range n).map (fun i => (v / 2 ^ (8 * i)) % 256)

/-- Log C1h's bytes; a VF sees its own entries alone. -/
def logC1Bytes (s : State) (f : Nat) : List Nat :=
  let l := s.nv.logC1
  let mine := fun (e : C1Event) => if isPf s f then e.entries else e.entries.filter (fun x => decide (x.cntlid = cntlid s f))
  let count := fun (es : List C1Entry) (p : Nat → Bool) => (es.filter (fun x => p x.disp)).length
  let head := fun (e : C1Event) => bytesLE 8 e.num ++ [e.kind, e.flags] ++ bytesLE 2 e.cntlid ++ bytesLE 4 (mine e).length
  let entry := fun (x : C1Entry) => bytesLE 2 x.cntlid ++ bytesLE 2 x.sqid ++ bytesLE 2 x.cid ++ [x.opc, x.disp] ++
    bytesLE 4 x.nsid ++ bytesLE 8 x.slba ++ bytesLE 4 x.nlb ++ bytesLE 8 (x.assigned.getD (2 ^ 64 - 1))
  match l with
  | [] => List.replicate 192 0
  | e :: older =>
    let es := mine e
    head e ++ bytesLE 8 e.time ++ bytesLE 4 e.pwrcyc ++ bytesLE 4 (count es (fun d => decide (d = 1 ∨ d = 2))) ++
      bytesLE 4 (count es (fun d => decide (d = 0))) ++ bytesLE 4 (count es (fun d => decide (d = 3))) ++
      bytesLE 8 e.info ++ List.replicate 16 0 ++
      ((List.range 8).flatMap (fun i => match older[i]? with
        | some o => head o
        | none => List.replicate 16 0)) ++ es.flatMap entry

end Sys2Proof.Machine
end

