-- ==== Sys2Proof/Machine/Arrive.lean ====
section
/-! DEFINITION. What a fetched entry is checked for, its arrival, aborts, and host memory errors (R244, R250 to R261). Status
codes are type × 256 + code; those that R251 gives no number for are the NVM Express ones (PRESUMED). -/

namespace Sys2Proof.Machine

/-! ### Supported commands (R259, R260, R461) -/

/-- Admin opcodes of every function, and of physical functions only. -/
def adminOps : List Nat := [0x00, 0x01, 0x02, 0x04, 0x05, 0x06, 0x08, 0x09, 0x0A, 0x0C, 0x19, 0x1A]
def pfOps : List Nat := [0x0D, 0x10, 0x11, 0x15, 0x80, 0x84, 0xC1, 0xC2, 0xC5, 0xC6]

/-- What runs under the recovery image. -/
def recoveryOps : List Nat := [0x00, 0x01, 0x02, 0x04, 0x05, 0x06, 0x0A, 0x10, 0x11, 0xC2]

/-- I/O opcodes of every namespace, of zoned namespaces, and Run Sequence. -/
def ioOps : List Nat := [0x00, 0x01, 0x02, 0x08, 0x09, 0x0C]
def zonedOps : List Nat := [0x79, 0x7A, 0x7D]

/-- Whether the recovery image runs. -/
def recovery (s : State) : Bool := rdB s.sys.csr SYS_BOOT_STAT.RCV

/-- Check 2: the opcode is supported on this function and this type of queue. -/
def opcodeOk (s : State) (f : Nat) (admin : Bool) (opc nsid cdw10 : Nat) : Bool :=
  if admin then
    (adminOps.contains opc || (pfOps.contains opc && isPf s f)) &&
      (!recovery s || (recoveryOps.contains opc && !(decide (opc = 0x10) && decide (2 < (cdw10 / 8) % 8))))
  else if recovery s then false
  else if opc = 0x91 ∨ opc = 0x92 then isPf s f && rdB s.hqe.csr HQE_CTL.RSQ_EN
  else if zonedOps.contains opc then (match nsById s nsid with
    | some n => n.zoned
    | none => true)
  else ioOps.contains opc

/-- Check 6: whether a command runs while a sanitize is in progress, or has failed, when only a Sanitize does (R268). -/
def sanitizeAllows (s : State) (admin : Bool) (opc : Nat) : Bool :=
  let free := admin && ([0x00, 0x01, 0x02, 0x04, 0x05, 0x06, 0x08, 0x0A, 0x0C, 0xC2, 0xC6] : List Nat).contains opc
  match s.hqe.san.st with
  | 2 => free
  | 3 => admin && decide (opc = 0x84)
  | _ => true

/-- Whether a namespace is active on a controller (R236). -/
def nsActive (s : State) (f nsid : Nat) : Bool :=
  (fnOf s f).nss.contains nsid && (match nsById s nsid with
    | some n => !n.zoned || decide (wordField (fnOf s f).cc 6 4 = 6)
    | none => false)

/-- Check 7. -/
def nsidOk (s : State) (f : Nat) (admin : Bool) (opc nsid cdw10 : Nat) : Bool :=
  let all := decide (nsid = 0xFFFFFFFF)
  let listed := (nsById s nsid).isSome
  if admin then match opc with
    | 0x80 => all || nsActive s f nsid
    | 0x0D => if cdw10 % 16 = 1 then all || listed else true
    | 0x15 => listed
    | 0x06 => if cdw10 % 256 = 0 then all || nsActive s f nsid
        else if ([0x03, 0x05, 0x08] : List Nat).contains (cdw10 % 256) then nsActive s f nsid
        else if cdw10 % 256 = 0x11 then listed
        else true
    | 0x19 => all || nsActive s f nsid
    | 0x1A => all || nsActive s f nsid
    | 0xC1 => decide (nsid = 0)
    | 0xC2 => decide (nsid = 0)
    | 0xC5 => decide (nsid = 0)
    | 0xC6 => decide (nsid = 0)
    | _ => true
  else match opc with
    | 0x00 => all || nsActive s f nsid
    | 0x91 => all
    | 0x92 => all
    | _ => nsActive s f nsid

/-! ### Field values (R261 to R267, R138) -/

/-- A Set Features command: the feature is supported, saveable where SV is set, and its values are in range. -/
def featureStatus (cdw10 cdw11 cdw12 : Word) : Nat :=
  let fid := wordField cdw10 7 0
  if !(([0x01, 0x02, 0x04, 0x05, 0x07, 0x08, 0x09, 0x0B, 0xC0, 0xC1, 0xC2] : List Nat).contains fid) then 0x02
  else if wordBit cdw10 31 && !(([0x05, 0xC0, 0xC1, 0xC2] : List Nat).contains fid) then 0x10D
  else
    let bad : Bool := match fid with
      | 0x02 => decide (4 < wordField cdw11 4 0)
      | 0x04 => decide (2 < wordField cdw11 19 16 ∧ wordField cdw11 19 16 ≠ 15) || decide (1 < wordField cdw11 21 20)
      | 0x07 => decide (wordField cdw11 15 0 = 65535 ∨ wordField cdw11 31 16 = 65535)
      | 0x09 => decide (1023 < wordField cdw11 15 0)
      | 0xC0 => wordBit cdw11 31 && decide (wordField cdw11 15 0 < 3000)
      | 0xC1 => decide (100 < wordField cdw11 23 16 ∨ wordField cdw12 15 0 < 10)
      | 0xC2 => decide (720 < wordField cdw11 31 16 ∨ 100 < wordField cdw11 7 0)
      | _ => false
    if bad then 0x02 else 0

/-- Check 9 for an admin command. -/
def adminFields (s : State) (opc : Nat) (dw : List Word) : Nat :=
  let w10 := dw.getD 10 0
  let w11 := dw.getD 11 0
  let ok := fun (b : Bool) => if b then 0 else 0x02
  match opc with
  | 0x02 => ok (decide (wordField (dw.getD 12 0) 1 0 = 0))
  | 0x06 => ok (([0x00, 0x01, 0x02, 0x03, 0x05, 0x06, 0x07, 0x08, 0x10, 0x11, 0x12, 0x13, 0x15, 0x1C] : List Nat).contains
      (wordField w10 7 0))
  | 0x09 => featureStatus w10 w11 (dw.getD 12 0)
  | 0x0A => ok (([0x01, 0x02, 0x04, 0x05, 0x07, 0x08, 0x09, 0x0B, 0xC0, 0xC1, 0xC2] : List Nat).contains (wordField w10 7 0) &&
      decide (wordField w10 10 8 ≤ 3))
  | 0x0D => ok (decide (wordField w10 3 0 ≤ 1))
  | 0x10 => if 3 < wordField w10 5 3 then 0x02 else if 2 < wordField w10 2 0 then 0x106 else 0
  | 0x15 => ok (decide (wordField w10 3 0 ≤ 1))
  | 0x19 => ok ((decide (wordField w11 15 8 = 0) && decide (wordField w11 7 0 = 1)) ||
      (decide (wordField w11 15 8 = 1) && decide (1 ≤ wordField w11 7 0 ∧ wordField w11 7 0 ≤ 2)))
  | 0x1A => ok ((decide (wordField w11 15 8 = 0) && decide (wordField w11 7 0 = 1)) ||
      (decide (wordField w11 15 8 = 1) && decide (1 ≤ wordField w11 7 0 ∧ wordField w11 7 0 ≤ 3)))
  | 0x80 =>
    let ses := wordField w10 11 9
    let plain := if (dw.getD 1 0).toNat = 0xFFFFFFFF then s.ple.map.nss.any (fun n => decide (n.key = 0))
      else match nsById s (dw.getD 1 0).toNat with
        | some n => decide (n.key = 0)
        | none => false
    if 1 < wordField w10 3 0 ∨ wordField w10 7 5 ≠ 0 ∨ 2 < ses ∨ (ses = 2 ∧ plain) then 0x10A else 0
  | 0x84 =>
    let act := wordField w10 2 0
    if !(decide (act = 1 ∨ act = 3 ∨ act = 4)) then 0x02
    else if wordBit w10 9 then 0x02
    else if act = 4 ∧ s.ple.map.nss.any (fun n => decide (n.key = 0)) then 0x02 else 0
  | 0xC5 => ok (wordBit (dw.getD 13 0) 31 || wordBit (dw.getD 13 0) 30 || decide (wordField w10 1 0 = 0))
  | 0xC6 => ok (wordBit (dw.getD 13 0) 31 || decide (wordField w10 1 0 = 0))
  | _ => 0

/-- The physical address that a Run Sequence begins at. -/
def runSeqAddr (dw : List Word) : Nat :=
  let w := dw.getD 11 0
  packAddr (wordField w 29 28) (wordField w 27 24) (wordField w 20 0) (wordField (dw.getD 12 0) 10 0)

/-- The field rules of R138. -/
def runSeqFields (s : State) (dw : List Word) : Bool :=
  let e := wordField (dw.getD 10 0) 13 0
  let n := wordField (dw.getD 12 0) 26 16
  let mc := mcIx (wordField (dw.getD 11 0) 29 28)
  decide (e ≤ 1 ∨ 0x3800 ≤ e) && decide (1 ≤ n) && !addrReserved s.part (runSeqAddr dw) && actExists s mc &&
    (!inPair s || actOwned s mc)

/-- Check 9 for an I/O command. -/
def ioFields (s : State) (opc : Nat) (dw : List Word) : Bool :=
  match opc with
  | 0x79 => decide (1 ≤ wordField (dw.getD 13 0) 7 0 ∧ wordField (dw.getD 13 0) 7 0 ≤ 5)
  | 0x7A => decide (wordField (dw.getD 13 0) 7 0 = 0)
  | 0x91 => runSeqFields s dw
  | 0x92 => runSeqFields s dw
  | _ => true

/-- Check 10: a transfer of at most 2 MiB, which the metadata is not counted in (R247); ZASL is the same. -/
def lengthOk (admin : Bool) (opc : Nat) (dw : List Word) : Bool :=
  let n := wordField (dw.getD 12 0) 15 0 + 1
  let dwords := fun (d : Nat) => decide (4 * ((dw.getD d 0).toNat + 1) ≤ 2 ^ 21)
  if admin then
    (if opc = 0x11 ∨ opc = 0x1A then dwords 10
    else if opc = 0x02 then decide (4 * (wordField (dw.getD 10 0) 31 16 + 65536 * wordField (dw.getD 11 0) 15 0 + 1) ≤ 2 ^ 21)
    else true)
  else if opc = 0x7A then dwords 12
  else if opc = 0x01 ∨ opc = 0x02 ∨ opc = 0x0C ∨ opc = 0x7D then decide (n ≤ 512)
  else true

/-- Check 11. -/
def rangeOk (s : State) (opc nsid : Nat) (dw : List Word) : Bool :=
  let lba := (dw.getD 10 0).toNat + (dw.getD 11 0).toNat * 2 ^ 32
  let n := wordField (dw.getD 12 0) 15 0 + 1
  match nsById s nsid with
  | none => true
  | some x =>
    if opc = 0x01 ∨ opc = 0x02 ∨ opc = 0x08 ∨ opc = 0x0C then decide (lba + n ≤ x.nsze)
    else if opc = 0x7D ∨ opc = 0x7A ∨ (opc = 0x79 ∧ ¬ wordBit (dw.getD 13 0) 8) then decide (lba < x.nsze)
    else true

/-! ### Zone rules (R191, R281) -/

/-- Zones of a namespace that hold an active resource: those in the open or closed states, and an empty one that the
binding of a write not yet accepted holds (R192). -/
def activeZones (s : State) (nsx : Nat) : Nat :=
  (s.ple.map.zones.filter (fun e => match e.2 with
    | some z => decide (e.1 / 2 ^ 20 = nsx ∧ (z.st = 2 ∨ z.st = 3 ∨ z.st = 4 ∨ (z.st = 1 ∧ z.bands ≠ [])))
    | none => false)).length

/-- The status of a write of n sectors at offset o of a zone whose pointer stands at p. -/
def zoneWriteStatus (s : State) (n : Ns) (z : Zone) (o p len : Nat) : Nat :=
  if z.st = 13 then 0x1BA else if z.st = 15 then 0x1BB else if z.st = 14 then 0x1B9
  else if o ≠ p then 0x1BC
  else if zcap s n < o + len then 0x1B8
  else if z.st = 1 ∧ z.bands = [] ∧ n.active ≤ activeZones s n.nsx then 0x1BD else 0

/-- Check 12. -/
def zoneStatus (s : State) (opc nsid : Nat) (dw : List Word) : Nat :=
  let lba := (dw.getD 10 0).toNat + (dw.getD 11 0).toNat * 2 ^ 32
  let len := wordField (dw.getD 12 0) 15 0 + 1
  match nsById s nsid with
  | none => 0
  | some n =>
    if !n.zoned then 0
    else
      let size := zsze s n
      let zn := lba / size
      let z := zoneAt s n.nsx zn
      let p := fetchPointer s n.nsx zn
      match opc with
      | 0x01 => zoneWriteStatus s n z (lba % size) p len
      | 0x08 => zoneWriteStatus s n z (lba % size) p len
      | 0x7D => if lba % size ≠ 0 then 0x02 else zoneWriteStatus s n z p p len
      | 0x79 => if wordBit (dw.getD 13 0) 8 ∨ lba % size = 0 then 0 else 0x02
      | 0x02 => if z.st = 15 ∨ (zoneAt s n.nsx ((lba + len - 1) / size)).st = 15 then 0x1BB else 0
      | 0x0C => if z.st = 15 ∨ (zoneAt s n.nsx ((lba + len - 1) / size)).st = 15 then 0x1BB else 0
      | _ => 0

/-! ### Data pointers and ANA (R245, R283, R415) -/

/-- Whether a command moves data between host and device. -/
def movesData (admin : Bool) (opc : Nat) (dw : List Word) : Bool :=
  if admin then ([0x02, 0x06, 0x0D, 0x11, 0x15, 0x1A, 0xC1, 0xC2] : List Nat).contains opc ||
      (decide (opc = 0xC5) && wordBit (dw.getD 13 0) 31)
  else ([0x01, 0x02, 0x09, 0x7A, 0x7D] : List Nat).contains opc ||
    (decide (opc = 0x91 ∨ opc = 0x92) && !wordBit (dw.getD 14 0) 16)

/-- The metadata bytes that go through MPTR: of a format with metadata that is not interleaved (R246). -/
def metaLen (s : State) (opc : Nat) (dw : List Word) : Nat :=
  match nsById s (dw.getD 1 0).toNat with
  | some x => if x.lbaf = 1 ∧ x.mset = 0 ∧ (opc = 0x01 ∨ opc = 0x02 ∨ opc = 0x7D) then 8 * (wordField (dw.getD 12 0) 15 0 + 1) else 0
  | none => 0

/-- The bytes of a command's transfer, which its data descriptors name (R245, R247); 0 for a Run Sequence, whose data
slots only its plan counts (R138). -/
def transferLen (s : State) (admin : Bool) (opc : Nat) (dw : List Word) : Nat :=
  let per := match nsById s (dw.getD 1 0).toNat with
    | some x => if x.lbaf = 1 ∧ x.mset = 1 then 4104 else 4096
    | none => 4096
  if admin then match opc with
    | 0x02 => 4 * (wordField (dw.getD 10 0) 31 16 + 65536 * wordField (dw.getD 11 0) 15 0 + 1)
    | 0x11 => 4 * ((dw.getD 10 0).toNat + 1)
    | 0x1A => 4 * ((dw.getD 10 0).toNat + 1)
    | 0xC2 => 128 * (wordField (dw.getD 10 0) 13 0 + 1)
    | 0xC5 => 160
    | _ => 4096
  else if opc = 0x91 ∨ opc = 0x92 then 0
  else if opc = 0x09 then 16 * (wordField (dw.getD 10 0) 7 0 + 1)
  else if opc = 0x7A then 4 * ((dw.getD 12 0).toNat + 1)
  else (wordField (dw.getD 12 0) 15 0 + 1) * per

/-- The entries of PRP list pages that are used for some further pages, and whether each starts a memory page: the
last entry of a full page names the next list page (R245). What no page is given for is not looked at. -/
def prpsOk (page : Nat) : Nat → List (List Nat) → Bool
  | _, [] => true
  | need, l :: rest =>
    (l.take (min need (page / 8))).all (fun a => decide (a % page = 0)) &&
      (decide (need ≤ page / 8) || prpsOk page (need - (page / 8 - 1)) rest)

/-- PRP1 may be at any dword; every other entry that a transfer needs starts a memory page (R245). -/
def prpStatus (page len prp1 prp2 : Nat) (l : List (List Nat)) : Nat :=
  let n := (prp1 % page + len + page - 1) / page
  if prp1 % 4 ≠ 0 ∨ (2 ≤ n ∧ prp2 % page ≠ 0) ∨ (3 ≤ n ∧ ¬ prpsOk page (n - 1) l) then 0x13 else 0

/-- What an SGL descriptor is: data of the host's, or in a read a bit bucket; or the way to a further segment, the
last one of them with type 3. -/
def sglData (rd : Bool) (d : Nat × Nat) : Bool := decide (d.2 / 2 ^ 56 = 0) || (rd && decide (d.2 / 2 ^ 56 = 16))
def sglLink (d : Nat × Nat) : Bool := decide (d.2 / 2 ^ 56 = 32 ∨ d.2 / 2 ^ 56 = 48)

/-- Walk SGL segments from the descriptor that names the first of them, with what was counted so far: each is as long
as its descriptor says, all but the last end in the next one's descriptor, and there are at most 256 descriptors,
every one of them counted: R245 does not say whether a segment's own counts (DESIGN CHOICE, log 248). `short` is the
status of a wrong total. -/
def sglWalk (rd : Bool) (len short : Nat) : Nat → Nat → Nat × Nat → List (List (Nat × Nat)) → Nat
  | _, _, _, [] => 0x0D
  | count, total, link, seg :: rest =>
    let final := decide (link.2 / 2 ^ 56 = 48)
    let body := if final then seg else seg.dropLast
    let sum := total + (body.map (fun d => d.2 % 2 ^ 32)).sum
    if link.2 % 2 ^ 32 ≠ 16 * seg.length ∨ seg = [] then 0x0D
    else if 256 < count + seg.length then 0x0E
    else match body.find? (fun d => !sglData rd d) with
      | some d => if sglLink d then 0x0D else 0x11
      | none => match final, seg.getLast? with
        | false, some d => if sglLink d then sglWalk rd len short (count + seg.length) sum d rest else if sglData rd d then 0x0D else 0x11
        | _, _ => if sum = len then 0 else short

/-- An SGL from its first descriptor on; a data descriptor that stands alone names the whole transfer. A length of 0
is not checked. -/
def sglStatus (rd : Bool) (len short : Nat) (d : Nat × Nat) (segs : List (List (Nat × Nat))) : Nat :=
  if sglLink d then sglWalk rd len short 1 0 d segs
  else if !sglData rd d then 0x11
  else if len = 0 ∨ d.2 % 2 ^ 32 = len then 0 else short

/-- Two dwords as a number. -/
def quad (dw : List Word) (i : Nat) : Nat := (dw.getD i 0).toNat + (dw.getD (i + 1) 0).toNat * 2 ^ 32

/-- Check 13 (R245, R246): the data pointer by PSDT, and MPTR where metadata goes through it: a dword-aligned buffer,
or an SGL whose first descriptor stands at MPTR. A misaligned buffer has no status of its own: Invalid Field. -/
def pointerStatus (s : State) (f : Nat) (admin : Bool) (e : Sqe) : Nat :=
  let opc := wordField (e.dw.getD 0 0) 7 0
  let psdt := wordField (e.dw.getD 0 0) 15 14
  let rd := decide (opc = 0x02)
  let len := transferLen s admin opc e.dw
  let mlen := metaLen s opc e.dw
  let data := if psdt = 0 then prpStatus (2 ^ (12 + wordField (fnOf s f).cc 10 7)) len (quad e.dw 6) (quad e.dw 8) e.prps
    else sglStatus rd len 0x0F (quad e.dw 6, quad e.dw 8) e.sgls
  let mptr := if mlen = 0 then 0
    else if psdt = 2 then match e.mptr with
      | (d :: _) :: rest => sglStatus rd mlen 0x10 d rest
      | _ => 0x0D
    else if quad e.dw 4 % 4 = 0 then 0 else 0x02
  if !movesData admin opc e.dw then 0 else if data ≠ 0 then data else mptr

/-- Check 14: the namespaces' state on this device: 1 Optimized, 3 Inaccessible, 15 Change. -/
def anaState (s : State) : Nat :=
  if !inPair s then 1
  else match s.tdl.serving with
    | .leaving => 15
    | .left => 15
    | .arriving _ => 3
    | .none => if serving s then 1 else 3
def anaStatus (s : State) (admin : Bool) : Nat :=
  if admin then 0 else match anaState s with
    | 1 => 0
    | 15 => 0x303
    | _ => 0x302

/-- The admin commands that act on the namespace they name. Identify is none: it tells of a format that runs (R266). -/
def namesNs (opc : Nat) : Bool := ([0x0D, 0x15, 0x19, 0x1A, 0x80] : List Nat).contains opc

/-- ENTRY_CHECK (R251): the status of the first check that fails, in order, or 0. `filtered` says that an Abort filter entry
names the entry, `twin` that an outstanding command of its queue has its identifier. -/
def entryStatus (s : State) (f q : Nat) (e : Sqe) (twin filtered : Bool) : Nat :=
  let w0 := e.dw.getD 0 0
  let opc := wordField w0 7 0
  let admin := decide (q = 0)
  let nsid := (e.dw.getD 1 0).toNat
  let w10 := (e.dw.getD 10 0).toNat
  let checks : List Nat := [
    if wordField w0 9 8 ≠ 0 then 0x02 else 0,
    if opcodeOk s f admin opc nsid w10 then 0 else 0x01,
    if twin then 0x03 else 0,
    if wordField w0 15 14 = 3 ∨ (admin ∧ wordField w0 15 14 ≠ 0) then 0x02 else 0,
    if filtered then 0x07 else 0,
    if sanitizeAllows s admin opc then 0 else if s.hqe.san.st = 3 then 0x1C else 0x1D,
    if nsidOk s f admin opc nsid w10 then 0 else 0x0B,
    if ((nsById s nsid).map (fun n => n.formatting)).getD false && (!admin || namesNs opc) then 0x84 else 0,
    if admin then adminFields s opc e.dw else if ioFields s opc e.dw then 0 else 0x02,
    if lengthOk admin opc e.dw then 0 else 0x02,
    if admin || rangeOk s opc nsid e.dw then 0 else 0x80,
    if admin then 0 else zoneStatus s opc nsid e.dw,
    pointerStatus s f admin e,
    anaStatus s admin,
    -- until I/O ready, commands that access a namespace find it not ready (R456); R251 does not order this check: it comes last
    if admin || s.hqe.ioReady || decide (opc = 0x91 ∨ opc = 0x92) then 0 else 0x82]
  (checks.find? (fun x => decide (x ≠ 0))).getD 0

/-! ### Arrival (R251, R258) -/

/-- A fresh slot of a fetched entry. -/
def newSlot (s : State) (f q : Nat) (e : Sqe) : Slot where
  fn := f
  sqid := q
  cid := wordField (e.dw.getD 0 0) 31 16
  dw := e.dw
  order := s.hqe.order + 1
  born := nowMs s
  st := .fetched
  status := 0
  dw0 := 0
  dw1 := 0
  data := []
  parts := []
  waits := 0
  inDram := false
  journaled := false
  reserved := false
  onMedia := false
  held := 0
  pnr := false
  jseq := 0
  mseq := 0
  assigned := 0
  target := 0
  cnum := 0
  phase := false
  ranges := []
  retried := false

/-- The slot that an entry takes. -/
def slotFor (s : State) (f q : Nat) : Option Nat :=
  let used := s.hqe.slots.map Prod.fst
  if q = 0 then firstFree used 4 (64512 + 4 * f) else firstFree used (min 64512 (used.length + 1)) 0

/-- Make an Abort wait for the command it names, whose completion is posted before its own (R253). -/
def abortWaits (n target : Nat) (dw0 : Word) (s : State) : State :=
  modSlot n (fun x => { x with st := .active, target := target + 1, dw0 := dw0 }) s

/-- The filter entries of a queue that a fetched entry ends (R258): those that name it, whose Aborts wait for it, and those
whose recorded tail the head has reached. -/
def endFilters (f q cid target : Nat) (s : State) : State :=
  let head := ((sqOf s f q).map (fun x => x.head)).getD 0
  let mine := (fnOf s f).filters.filter (fun a => decide (a.sqid = q))
  let hit := mine.filter (fun a => decide (a.cid = cid))
  let past := mine.filter (fun a => decide (a.cid ≠ cid ∧ a.tail = head))
  let s := modFn f (fun x => { x with filters := x.filters.filter (fun a => !(hit.contains a || past.contains a)) }) s
  let s := hit.foldl (fun s a => abortWaits a.slot target 0 s) s
  past.foldl (fun s a => finish a.slot 0 1 0 s) s

/-- The mirror's identity of a command (R400). -/
def slotRec (s : State) (n : Nat) (x : Slot) : SlotRec :=
  ⟨n, cntlid s x.fn, x.sqid, x.cid, x.opc, (x.cdw 1).toNat, slba x, wordField (x.cdw 12) 15 0⟩

/-- Remove the first fetch of a queue. -/
def dropFetch (f q : Nat) : List (Nat × Nat × Bool) → List (Nat × Nat × Bool)
  | [] => []
  | e :: r => if e.1 = f ∧ e.2.1 = q then r else e :: dropFetch f q r

/-- SQ_ENTRY_ARRIVE: the entry takes a slot and is checked. A command that fails keeps its slot until its completion is
posted. An I/O command in PS3 or PS4 returns the device to its last operational state (R379). In pair mode a write-class
command's SLOT record is sent (R401). -/
def sqEntryArrive (f q : Nat) (e : Sqe) (s : State) : State :=
  if !(s.hqe.fetching.any (fun x => decide (x.1 = f ∧ x.2.1 = q))) then s
  else match sqOf s f q, slotFor s f q with
    | some sq, some n =>
      let s := modHqe (fun h => { h with fetching := dropFetch f q h.fetching }) s
      let s := putSq f q (some { sq with head := (sq.head + 1) % max 1 sq.size }) s
      let x := newSlot s f q e
      let twin := (slotsOf s f).any (fun y => decide (y.2.sqid = q ∧ y.2.cid = x.cid)) ||
        (decide (q = 0) && (fnOf s f).aers.contains x.cid)
      let filtered := (fnOf s f).filters.any (fun a => decide (a.sqid = q ∧ a.cid = x.cid))
      let status := entryStatus s f q e twin filtered
      let s := modHqe (fun h => { h with
        order := h.order + 1
        slots := tput none h.slots n (some x) }) s
      let s := if q ≠ 0 ∧ 3 ≤ powerState s then
          capSettle (modHqe (fun h => { h with feats := featPut 2 (BitVec.ofNat 32 s.elg.lastOp) h.feats }) s) else s
      let s := endFilters f q x.cid n s
      if status ≠ 0 then finish n status 0 0 (hqeReg (fun c => incR c HQE_MALF 1) s)
      else if mirroring s && writeClass x && decide (q ≠ 0) then sendMirror (.slot (slotRec s n x)) s
      else s
    | _, _ => s

/-! ### Failing a command -/

/-- Whether a candidate is a slot's. -/
def candOf (n : Nat) (c : Cand) : Bool := match c.kind with
  | .hostRead m => decide (m = n)
  | .verify m => decide (m = n)
  | .runSeq m => decide (m = n)
  | _ => false

/-- The Stripes that write a command through go on without it: their bands are written in order, and nothing maps
their sectors. -/
def CandKind.detach (n : Nat) : CandKind → CandKind
  | .destage b (some m) => if m = n then .destage b none else .destage b (some m)
  | .close b i (some m) => if m = n then .close b i none else .close b i (some m)
  | k => k
def detachWrites (n : Nat) (s : State) : State :=
  let f := fun (c : Cand) => { c with kind := c.kind.detach n }
  let s := modTdl (fun t => { t with sent := t.sent.map (fun e => (e.1, f e.2)) }) s
  forMcs (fun k s => modSched k (fun q => { q with
    waiting := q.waiting.map f
    ready := q.ready.map f
    armed := q.armed.map (fun e => (e.1, f e.2)) }) s) s

/-- A range of LBAs as the map has it now, as changes that restore it. -/
def regionOps (s : State) (nsx lo n : Nat) : List MapOp :=
  let exts := s.ple.map.extents.filter (fun e => e.meets nsx lo n)
  .trim nsx lo n :: exts.map (fun e => MapOp.extent e) ++
    (exts.filter (fun e => decide (e.echo ≠ 0))).map (fun e => .echo e.echo (tget none s.ple.map.echoes e.echo)) ++
    (s.ple.map.dram.filter (fun k => decide (lkey nsx lo ≤ k ∧ k < lkey nsx lo + n))).map (fun k => .dram k 1)

/-- What a journaled change must be followed by where its command is given up before it was accepted, so that a replay
finds nothing of it applied (R254, R293, R298): the map as it stands, since it takes a command's change in at its
acceptance alone. -/
def undoOps (s : State) (ops : List MapOp) : List MapOp :=
  (ops.flatMap (fun o => match o with
    | .trim nsx lo n => regionOps s nsx lo n
    | .dram lo n => regionOps s (lo / 2 ^ 36) (lo % 2 ^ 36) n
    | .extent e => regionOps s e.nsx e.slba e.len
    | .zone key _ => [.zone key (tget none s.ple.map.zones key)]
    | .zoneWp key _ => [.zone key (tget none s.ple.map.zones key)]
    | _ => [])).eraseDups

/-- The changes that a slot's command has journaled and that have not been applied. -/
def openOps (s : State) (n : Nat) (x : Slot) : List MapOp :=
  if x.journaled ∧ x.st = .active then
    ((s.nv.ring ++ s.ple.jbuf).filter (fun r => decide (r.slot = n ∧ r.first + r.recs.length = x.jseq + 1))).flatMap (fun r => r.ops)
  else []

/-- The journal of a command that is given up is taken back. -/
def unjournal (n : Nat) (s : State) : State :=
  match slotAt s n with
  | none => s
  | some x =>
    let undo := undoOps s (openOps s n x)
    if undo = [] then s else modSlot n (fun y => { y with journaled := false }) (journal undo s)

/-- Take a command's media candidates and DMA back: withdrawn at once, and stopped at the next descriptor boundary; what it
journaled is taken back. -/
def takeBack (n : Nat) (s : State) : State :=
  (slotChans s n).foldl (fun s c => stopChan c s) (detachWrites n (withdraw (candOf n) (unjournal n s)))

/-- End a command that has not been committed, with nothing of it applied. -/
def failCmd (n status : Nat) (s : State) : State :=
  finish n status 0 0 (modSlot n (fun x => { x with held := 0, reserved := false }) (takeBack n s))

/-- A check that needs what follows the entry, a track's plan or a list of ranges, fails like the others of R251. -/
def malformed (n status : Nat) (s : State) : State := failCmd n status (hqeReg (fun c => incR c HQE_MALF 1) s)

/-- What follows the begin of a job: with the write job of a write-through command a media write of its data has begun (R255). -/
def jobBegun (k : Fin 4) (s : State) : State := match (mcOf s k).job with
  | none => s
  | some j => match (schedOf s k).armed.find? (fun e => decide (e.1 = j.entry)) with
    | some e => writeBegun e.2 s
    | none => s

/-- JOB_BEGIN, with what follows it at the PLE. -/
def beginJob (k : Fin 4) (e : Nat) (lateArm : Bool) (s : State) : State := jobBegun k (jobBegin k e lateArm s)

/-- Whether a command has passed its point of no return (R255, R140). -/
def pastReturn (s : State) (n : Nat) (x : Slot) : Bool :=
  x.pnr || (decide (x.opc = 0x91 ∨ x.opc = 0x92) && !adminSlot n &&
    ([0, 1, 2, 3] : List (Fin 4)).any (fun k => match (mcOf s k).job with
      | some j => (schedOf s k).armed.any (fun e => decide (e.1 = j.entry) && candOf n e.2)
      | none => false))

/-- ABORT (R252 to R258). -/
def abort (n : Nat) (s : State) : State :=
  match slotAt s n with
  | none => s
  | some x =>
    if x.opc ≠ 0x08 ∨ ¬ adminSlot n ∨ x.st ≠ .fetched then s
    else
      let f := x.fn
      let q := wordField (x.cdw 10) 15 0
      let cid := wordField (x.cdw 10) 31 16
      let others := ((slotsOf s f).filter (fun e => decide (e.1 ≠ n ∧ e.2.opc = 0x08 ∧ e.2.st = .active) && adminSlot e.1)).length
      if 8 ≤ others then finish n 0x103 0 0 s
      else match sqOf s f q with
        | none => finish n 0 1 0 s
        | some sq =>
          if q = 0 ∧ (fnOf s f).aers.contains cid then
            let k := s.hqe.commits + 1
            deliver f (modFn f (fun y => { y with
              aers := y.aers.erase cid
              ends := y.ends ++ [⟨cid, 7, 0, n, k⟩] }) 
                (modSlot n (fun x => { x with st := .active }) (modHqe (fun h => { h with commits := k }) s)))
          else match (slotsOf s f).find? (fun e => decide (e.2.sqid = q ∧ e.2.cid = cid ∧ e.1 ≠ n)) with
            | some (m, y) =>
              if adminSlot m then finish n 0 1 0 s
              else if y.st = .committed ∨ pastReturn s m y then abortWaits n m 1 s
              else abortWaits n m 0 (failCmd m 0x07 s)
            | none =>
              -- an admin command that is not fetched yet is reported not aborted (R256)
              if q = 0 ∨ sq.head = sq.tail ∨ 8 ≤ (fnOf s f).filters.length then finish n 0 1 0 s
              else modFn f (fun y => { y with filters := y.filters ++ [⟨q, cid, sq.tail, n⟩] })
                (modSlot n (fun x => { x with st := .active }) s)

/-! ### Host memory errors (R250, R328) -/

/-- Whether a command can still end for want of its data: data that has arrived has no timer any more (R12). -/
def awaitsData (x : Slot) : Bool := outstandingCmd x && !x.pnr && !x.inDram

/-- A command whose channel has ended in error, and whose other requests are collected, completes with Data Transfer
Error (R328). -/
def channelEnded (c : Nat) (before s : State) : State :=
  match (chanAt before c).active with
  | none => s
  | some d =>
    if (chanAt before c).err && (chanAt s c).stopped && (slotAt s d.slot).any awaitsData && (slotChans s d.slot).isEmpty then
      failCmd d.slot 0x04 s
    else s

/-- DMA_READ_COMPLETION: the data is placed; the last completion of a failed channel ends its command. -/
def readCompletion (c at0 : Nat) (bytes : List Byte) (s : State) : State :=
  channelEnded c s (dmaReadCompletion c at0 bytes s)

/-- Data for a command did not come, or its data could not be placed: its channels fail, and it completes with Data
Transfer Error once they have collected what is out (R250, R328). -/
def dataError (n code : Nat) (s : State) : State :=
  match slotAt s n with
  | none => s
  | some x =>
    if awaitsData x then
      let s := (slotChans s n).foldl (fun s c => dmaFail c code s) s
      if (slotChans s n).isEmpty then failCmd n 0x04 s else s
    else s

/-- The handling of a failed host access; a structure read is repeated once. -/
def accessFailed (a : HostAccess) (code : Nat) (s : State) : State :=
  match a with
  | .writeData n => dataError n code s
  | .readData n => dataError n code s
  | .pointer n => match slotAt s n with
    | none => s
    | some x =>
      if !outstandingCmd x || x.pnr then s
      else if x.retried then failCmd n 0x04 s
      else modSlot n (fun x => { x with retried := true }) s
  | .entry f q =>
    match s.hqe.fetching.find? (fun e => decide (e.1 = f ∧ e.2.1 = q)) with
    | none => s
    | some (_, _, again) =>
      if again then
        modFn f (fun x => { x with cfs := true })
          (modHqe (fun h => { h with fetching := h.fetching.filter (fun e => decide (e.1 ≠ f)) }) s)
      else modHqe (fun h => { h with fetching := (f, q, true) :: dropFetch f q h.fetching }) s

/-- HOST_MEMORY_ERROR: Unsupported Request (1), Completer Abort (2) or a poisoned completion (3). -/
def hostMemoryError (a : HostAccess) (code : Nat) (s : State) : State := accessFailed a (1 + (code + 2) % 3) s

/-- COMPLETION_TIMEOUT. -/
def completionTimeout (a : HostAccess) (s : State) : State := accessFailed a 4 s

/-- LATE_COMPLETION (R12): discarded and counted. -/
def lateCompletion (s : State) : State := hqeReg (fun c => incR c HQE_LATE 1) s

/-- HQE_CLR_CNT (R275). -/
def hqeClrCnt (s : State) : State :=
  hqeReg (fun c => wr (wr (wr (wr c HQE_CTXC 0) HQE_MALF 0) HQE_DBERR 0) HQE_LATE 0) s

end Sys2Proof.Machine
end

