-- ==== Sys2Proof/Machine/Writes.lean ====
section
/-! DEFINITION. Write-class commands: admission, map changes, acceptance, and what an accepted command changes (R190 to R199,
R216, R276 to R290, R370). -/

namespace Sys2Proof.Machine

/-! ### What a command writes -/

/-- Whether a command transfers or makes sectors: Write, Zone Append, and Write Zeroes of a zone. -/
def hasSectors (s : State) (x : Slot) : Bool :=
  decide (x.opc = 0x01 ∨ x.opc = 0x7D) || (decide (x.opc = 0x08) && ((nsById s (x.cdw 1).toNat).map (fun n => n.zoned)).getD false)

/-- What a host's sector is: its 4,096 bytes, and 8 bytes of metadata above them where the format has them (R44, R246). -/
def hostSector (n : Ns) (v : Nat) : Nat := v % 2 ^ (if n.lbaf = 1 then 32832 else 32768)

/-- The sectors as they are stored: an encrypted namespace's are enciphered with their LBA as the tweak (R264). -/
def storedSectors (n : Ns) : Nat → List Nat → List Nat
  | _, [] => []
  | lba, v :: vs =>
    (if n.key = 0 then hostSector n v else Xts.sector false n.key lba (hostSector n v)) :: storedSectors n (lba + 1) vs

/-! ### Zones -/

/-- The write pointer passes sectors: an empty or closed zone opens implicitly, and at ZCAP the zone is full (R195). -/
def zoneAdvance (n : Ns) (zn len : Nat) (s : State) : State :=
  let z := zoneAt s n.nsx zn
  let p := z.wp + len
  putZone n.nsx zn { z with wp := p, st := if p = zcap s n then 14 else if z.st = 3 then 3 else 2 } s

/-- The writes that wait for bands are gone; those whose jobs are armed end as they do. -/
def dropWrites (bands : List Nat) (s : State) : State :=
  let mine := fun (c : Cand) => match c.kind.band with
    | some b => bands.contains b
    | none => false
  forMcs (fun k s => modSched k (fun q => { q with
    waiting := q.waiting.filter (fun c => !mine c)
    ready := q.ready.filter (fun c => !mine c) }) s) s

/-- Zone Reset (R196): tail echoes, those still being copied too, and overrides go, dirty data of the zone is dropped,
and the binding is released. -/
def zoneClear (n : Ns) (zn : Nat) (s : State) : State :=
  let size := zsze s n
  let z := zoneAt s n.nsx zn
  let s := dropCopiesIn (fun a => z.bands.any (fun b => addrIn s b a)) (dropWrites z.bands s)
  let s := dropEchoes n.nsx (zn * size) size s
  let s := trimExtents n.nsx (zn * size) size s
  let s := dropDirty (lkey n.nsx (zn * size)) size s
  let s := modMap (fun m => { m with
    parity := tdrop m.parity (parityKey n.nsx zn 0) (parityKey n.nsx (zn + 1) 0) }) s
  let s := z.bands.foldl (fun s b => setBand b (fun x => { x with st := 2, next := x.wp }) s) s
  freeBands (putZone n.nsx zn ⟨1, 0, [], [], false⟩ s)

/-- What a Zone Send Action asks of a zone's state: the next state, or the status of a transition that is not allowed. ZSA 1
Close, 2 Finish, 3 Open, 4 Reset, 5 Offline. -/
def zoneMove (zsa st : Nat) : Option Nat :=
  match zsa with
  | 1 => if st = 2 ∨ st = 3 ∨ st = 4 then some 4 else none
  | 2 => if st ≤ 4 ∨ st = 14 then some 14 else none
  | 3 => if st ≤ 4 then some 3 else none
  | 4 => if st ≤ 4 ∨ st = 14 then some 1 else none
  | 5 => if st = 13 ∨ st = 15 then some 15 else none
  | _ => none

/-- The zones that Select All takes. -/
def zoneSelects (zsa st : Nat) : Bool :=
  match zsa with
  | 1 => decide (st = 2 ∨ st = 3)
  | 2 => decide (st = 2 ∨ st = 3 ∨ st = 4)
  | 3 => decide (st = 4)
  | 4 => decide (st = 2 ∨ st = 3 ∨ st = 4 ∨ st = 14)
  | 5 => decide (st = 13)
  | _ => false

/-- The zones of a Zone Management Send. -/
def zonesNamed (s : State) (n : Ns) (x : Slot) : List Nat :=
  let zsa := wordField (x.cdw 13) 7 0
  if wordBit (x.cdw 13) 8 then
    s.ple.map.zones.filterMap (fun e => match e.2 with
      | some z => if e.1 / 2 ^ 20 = n.nsx ∧ zoneSelects zsa z.st then some (e.1 % 2 ^ 20) else none
      | none => none)
  else [slba x / zsze s n]

/-- The status of a Zone Management Send at its turn. -/
def zoneSendStatus (s : State) (n : Ns) (x : Slot) : Nat :=
  if wordBit (x.cdw 13) 8 then 0
  else
    let z := zoneAt s n.nsx (slba x / zsze s n)
    let zsa := wordField (x.cdw 13) 7 0
    if (zoneMove zsa z.st).isNone then 0x1BF
    else if zsa = 3 ∧ z.st = 1 ∧ z.bands = [] ∧ n.active ≤ activeZones s n.nsx then 0x1BD else 0

/-- Apply a Zone Send Action to one zone. -/
def zoneSend (n : Ns) (zsa zn : Nat) (s : State) : State :=
  let z := zoneAt s n.nsx zn
  match zoneMove zsa z.st with
  | none => s
  | some st => match zsa with
    | 4 => zoneClear n zn s
    | 2 => sealBands (putZone n.nsx zn { z with st := st } s)
    | _ => putZone n.nsx zn { z with st := st } s

/-! ### Applying an accepted command -/

/-- Deallocate a range of a conventional namespace (R199). -/
def deallocate (n : Ns) (lba len : Nat) (s : State) : State :=
  freeBands (dropDirty (lkey n.nsx lba) len (trimExtents n.nsx lba len (dropEchoes n.nsx lba len s)))

/-- The stream identifier of a write, where its function has Streams enabled for the namespace. -/
def streamOf (s : State) (x : Slot) : Option Nat :=
  if wordField (x.cdw 12) 23 20 = 1 ∧ (fnOf s x.fn).streams.contains (x.cdw 1).toNat then some (wordField (x.cdw 13) 31 16)
  else none

/-- Note the stream that a write's sectors named (R205). -/
def noteStreamKeys (n : Ns) (stream : Option Nat) (lba len : Nat) (s : State) : State :=
  modPle (fun p => { p with streamKeys := (List.range len).foldl (fun q i =>
    tput 0 q (lkey n.nsx (lba + i)) ((stream.map (· + 1)).getD 0)) p.streamKeys }) s

/-- Note a conventional write's run (R198): whether it continues one of at least SEQMIN sectors in LBA order of the
same stream, which its keys then carry. Writes without a stream identifier are one stream, numbered 0. -/
def noteRun (n : Ns) (stream lba len : Nat) (s : State) : State :=
  let key := n.nsx * 65536 + stream
  let old := (tget none s.ple.runs key).getD ⟨0, 0⟩
  let on := decide (old.ends = lba ∧ 0 < old.len)
  let tag := if on ∧ seqMin s ≤ old.len then stream + 1 else 0
  modPle (fun p => { p with
    runs := tput none p.runs key (some ⟨lba + len, if on then old.len + len else len⟩)
    seqs := (List.range len).foldl (fun q i => tput 0 q (lkey n.nsx (lba + i)) tag) p.seqs }) s

/-- A zoned write opens the stream that it names. -/
def openStream (n : Ns) (stream : Option Nat) (s : State) : State :=
  match stream with
  | none => s
  | some id => modPle (fun p => { p with
      runs := tput none p.runs (n.nsx * 65536 + id) (some ((tget none p.runs (n.nsx * 65536 + id)).getD ⟨0, 0⟩)) }) s

/-- Note the Access Frequency of a range (R203), journaled so that a replay finds it. -/
def noteTemp (n : Ns) (r : DsmRange) (s : State) : State :=
  journal [.temp (lkey n.nsx r.slba) r.len r.af] (modMap (fun m => { m with temps := (lkey n.nsx r.slba, r.len, r.af) :: m.temps }) s)

/-- Sectors enter the map: on media where they were written through, as dirty data otherwise. -/
def placeSectors (n : Ns) (lba : Nat) (x : Slot) (vals : List Nat) (s : State) : State :=
  let s := dropEchoes n.nsx lba vals.length s
  if x.onMedia then
    let s := dropDirty (lkey n.nsx lba) vals.length (trimExtents n.nsx lba vals.length s)
    x.parts.foldl (fun s p => match p.2 with
      | .media a => mapSector n (p.1 % 2 ^ 36) a s
      | _ => s) s
  else putDirty vals (lkey n.nsx lba) s

/-- Sectors of a zone: the zone is bound if it was not, and its pointer passes them (R192). -/
def applyZoned (n : Ns) (x : Slot) (s : State) : State :=
  let lba := firstLba x
  let zn := lba / zsze s n
  let vals := storedSectors n lba x.data
  let s := (bindZone n zn (streamOf s x) s).getD s
  let s := noteStreamKeys n (streamOf s x) lba vals.length (placeSectors n lba x vals (openStream n (streamOf s x) s))
  let s := ((List.range vals.length).zip vals).foldl (fun s p => addParity n zn (lba % zsze s n + p.1) p.2 s) s
  zoneAdvance n zn vals.length s

/-- What an accepted command changes (R279): all of it, at once. A Deallocate range of a zoned namespace changes no
record: R199 gives Deallocate its effect under conventional namespaces alone (DESIGN CHOICE, log 194). -/
def applyCmd (x : Slot) (s : State) : State :=
  match nsById s (x.cdw 1).toNat with
  | none => s
  | some n => match x.opc with
    | 0x01 => if n.zoned then applyZoned n x s
      else noteRun n ((streamOf s x).getD 0) (slba x) (nlb x) (noteStreamKeys n (streamOf s x) (slba x) (nlb x)
        (placeSectors n (slba x) x (storedSectors n (slba x) x.data) s))
    | 0x7D => applyZoned n x s
    | 0x08 => if n.zoned then applyZoned n x s else deallocate n (slba x) (nlb x) s
    | 0x09 =>
      let s := x.ranges.foldl (fun s r => noteTemp n r s) s
      if n.zoned then s else x.ranges.foldl (fun s r => deallocate n r.slba r.len s) s
    | 0x79 => (zonesNamed s n x).foldl (fun s z => zoneSend n (wordField (x.cdw 13) 7 0) z s) s
    | _ => s

/-! ### Admission (R23, R370) -/

/-- The 4 KiB pages that a command adds to the holdings. -/
def dataPages (s : State) (x : Slot) : Nat := if hasSectors s x then nlb x else 0

/-- Pages reserved for commands that are not accepted yet. -/
def reservedPages (s : State) : Nat :=
  s.hqe.slots.foldl (fun n e => match e.2 with
    | some x => if x.reserved ∧ outstandingCmd x then n + dataPages s x else n
    | none => n) 0

/-- ADMISSION: the holdings with the write's data stay within the ceiling, and its reservation is taken; or it is held. -/
def tryAdmit (n : Nat) (s : State) : State :=
  match slotAt s n with
  | none => s
  | some x =>
    if x.reserved ∨ writeThrough s then modSlot n (fun y => { y with held := if y.held = 1 then 0 else y.held }) s
    else if 4096 * (holdings s + reservedPages s + dataPages s x) ≤ admitCeil s then
      modSlot n (fun y => { y with reserved := true, held := if y.held = 1 then 0 else y.held }) s
    else modSlot n (fun y => { y with held := 1 }) s

/-! ### The map change (R216, R255, R281) -/

/-- Whether a command's map change needs more records than it frees, outside zoned data (R216). -/
def needsRecords (s : State) (n : Ns) (x : Slot) : Bool :=
  let grow := fun (l : List (Nat × Nat)) (add : Nat) =>
    decide (s.ple.map.extents.length < (l.foldl (fun q r => q.flatMap (trimOne s n.nsx r.1 r.2)) s.ple.map.extents).length + add)
  if n.zoned then false
  else match x.opc with
    | 0x01 => grow [(slba x, nlb x)] 1
    | 0x08 => grow [(slba x, nlb x)] 0
    | 0x09 => grow (x.ranges.map (fun r => (r.slba, r.len))) 0
    | _ => false

/-- Send a command's data to the partner: one DATA record for each page (R401). -/
def mirrorData (n : Nat) (x : Slot) (ns : Ns) (s : State) : State :=
  let vals := storedSectors ns (firstLba x) x.data
  if mirroring s then
    ((List.range vals.length).zip vals).foldl (fun s p =>
      sendMirror (.data n (lkey ns.nsx (firstLba x + p.1)) p.2 vals.length) s) s
  else s

/-- Begin writing a command's sectors through (R288): to staging bands, or for a zone whole Stripes to its bands and
the rest to staging bands as override extents. -/
def writeThroughOut (slot : Nat) (x : Slot) (ns : Ns) (s : State) : State :=
  let lba := firstLba x
  let vals := storedSectors ns lba x.data
  let keyed := ((List.range vals.length).zip vals).map (fun p => (lkey ns.nsx (lba + p.1), p.2))
  let done := fun (r : State × Nat) => modSlot slot (fun y => { y with waits := r.2, parts := [] }) r.1
  if !ns.zoned then ((stageOut slot ns keyed s).map done).getD s
  else
    let zn := lba / zsze s ns
    match bindZone ns zn (streamOf s x) s with
    | none => s
    | some s1 =>
      let z := placedZone s1 (zoneAt s1 ns.nsx zn)
      let o := lba % zsze s1 ns
      let members := if ns.cls = 2 then [0, 1] else [0]
      let places := (List.range vals.length).flatMap (fun i => members.filterMap (fun m =>
        (computedHome ns z (o + i) m).map (fun h => (h, (lkey ns.nsx (lba + i), vals.getD i 0)))))
      let at_ := fun (b off : Nat) => (places.find? (fun p => decide (p.1 = (b, off)))).map Prod.snd
      let top := fun (b : Nat) => (places.filter (fun p => decide (p.1.1 = b))).foldl (fun n p => max n (p.1.2 + 1)) 0
      let r := z.bands.foldl (fun (r : State × Nat) b =>
        let q := coverStripes slot b (at_ b) (top b) (top b + 1) r.1
        (q.1, r.2 + q.2)) (s1, 0)
      let direct := fun (key : Nat) => (places.filter (fun p => decide (p.2.1 = key))).all (fun p => match bandAt r.1 p.1.1 with
        | some y => decide (p.1.2 < y.next) && !y.holes.contains p.1.2
        | none => false)
      match stageOut slot ns (keyed.filter (fun e => !direct e.1)) r.1 with
      | none => s
      | some q => done (q.1, r.2 + q.2)

/-- The changes that a command's journal records carry (R199, R217): the records that a write or a Deallocate trims
and what it places in DRAM, a zone's binding and write pointer, the zones of a Zone Management Send, and what a reset
zone held. -/
def cmdOps (s : State) (ns : Ns) (x : Slot) (bound : Bool) : List MapOp :=
  let t := applyCmd x s
  let lba := firstLba x
  let zn := lba / zsze s ns
  match x.opc with
  | 0x79 =>
    let reset := decide (wordField (x.cdw 13) 7 0 = 4)
    (zonesNamed s ns x).flatMap (fun z => (if reset then [.trim ns.nsx (z * zsze s ns) (zsze s ns)] else []) ++ [zoneOp t ns.nsx z])
  | 0x09 => if ns.zoned then [] else x.ranges.map (fun r => .trim ns.nsx r.slba r.len)
  | _ =>
    if ns.zoned then (if bound then [zoneOp s ns.nsx zn] else []) ++ [.zoneWp (zkey ns.nsx zn) (zoneAt t ns.nsx zn).wp,
      .dram (lkey ns.nsx lba) (nlb x)]
    else if x.opc = 0x08 then [.trim ns.nsx lba (nlb x)]
    else [.trim ns.nsx lba (nlb x), .dram (lkey ns.nsx lba) (nlb x)]

/-- The page that holds the metadata of an LBA while its sector is in DRAM: 512 sectors to a page, each 8 bytes, in
the protected region (R306, R313). No rule places it there: the model takes a data page of the group that the range
falls on (DESIGN CHOICE, log 243). -/
def metaPage (s : State) (key : Nat) : Option Nat :=
  let w := max 1 (groupSize s)
  let groups := (rd s.bmc.csr BMC_PROT_SIZE).toNat / w
  if !rdB s.bmc.csr BMC_CTL.PROT_EN || decide (groups = 0) then none
  else
    let g := key / 512 % groups
    some ((rd s.bmc.csr BMC_PROT_BASE).toNat + w * g + (g + 1) % w)

/-- The keys of a command's sectors that have metadata. -/
def metaKeys (s : State) (x : Slot) : List Nat := match nsById s (x.cdw 1).toNat with
  | none => []
  | some n => if n.lbaf = 1 then (List.range x.data.length).map (fun i => lkey n.nsx (firstLba x + i)) else []

/-- The metadata of a command's sectors enters its pages, as partial writes, which leave the pages' checks to be
recomputed (R306). -/
def putMeta (n : Nat) (s : State) : State := match slotAt s n with
  | none => s
  | some x =>
    let l := ((metaKeys s x).zip x.data).flatMap (fun e => match metaPage s e.1 with
      | none => []
      | some p => (List.range 8).map (fun i => (4096 * p + 8 * (e.1 % 512) + i, BitVec.ofNat 8 (e.2 / 2 ^ (32768 + 8 * i)))))
    dramPut l s

/-- Whether the check of every metadata page that a command's data depends on is current (R277, R306). -/
def metaCurrent (s : State) (x : Slot) : Bool :=
  (metaKeys s x).all (fun k => ((metaPage s k).map (fun p => !s.bmc.stale.contains p)).getD true)

/-- Journal a command's map change. For a Write, Write Zeroes or Zone Append that is its point of no return; Dataset
Management and Zone Management have none (R255). -/
def journalCmd (n : Nat) (x : Slot) (ops : List MapOp) (s : State) : State :=
  let assigned := if x.opc = 0x7D then some x.assigned else none
  let s := journalFor n ops assigned s
  let s := if writeThrough s then s else putMeta n s
  modSlot n (fun y => { y with
    journaled := true
    pnr := decide (x.opc ≠ 0x09 ∧ x.opc ≠ 0x79)
    held := 0
    jseq := s.ple.jseq
    mseq := s.tdl.mseqTx }) s

/-- A command's turn: once nothing earlier stands before it and its data is here, the zone rules are applied again, a
Zone Append takes its LBA, and the map change is journaled, or written through, or held for map records. A command of
a function in reset has none any more: what is not past its point of no return is discarded (R293). -/
def advanceCmd (n : Nat) (s : State) : State :=
  match slotAt s n with
  | none => s
  | some x =>
    if x.st ≠ .active ∨ ¬ writeClass x ∨ x.opc = 0x91 ∨ adminSlot n ∨ x.held = 1 ∨ blocked s x ∨ ¬ pleServes s ∨
        (fnOf s x.fn).resetting ∨ x.onMedia ∧ x.journaled then s
    else match nsById s (x.cdw 1).toNat with
      | none => s
      | some ns =>
        let zn := slba x / zsze s ns
        let z := zoneAt s ns.nsx zn
        let status := if x.journaled ∨ x.pnr ∨ x.waits ≠ 0 then 0
          else if x.opc = 0x79 then zoneSendStatus s ns x
          else if ns.zoned ∧ hasSectors s x then
            zoneWriteStatus s ns z (if x.opc = 0x7D then z.wp else slba x % zsze s ns) z.wp (nlb x)
          else 0
        if status ≠ 0 then failCmd n status s
        else
          let x := if x.opc = 0x7D ∧ ¬ x.journaled then { x with assigned := zn * zsze s ns + z.wp } else x
          let s := modSlot n (fun y => { y with assigned := x.assigned }) s
          -- a write that write-through let past the admission ceiling meets it once write-through has ended (R23)
          let s := if hasSectors s x && !x.journaled && !x.reserved then tryAdmit n s else s
          if (slotAt s n).any (fun y => decide (y.held = 1)) then s
          else if x.waits ≠ 0 ∨ x.onMedia ∨ x.journaled then s
          else if s.ple.mapst = 3 ∧ needsRecords s ns x then
            modSlot n (fun y => { y with held := 2 }) s
          else if hasSectors s x && writeThrough s then writeThroughOut n x ns s
          else
            -- a zone is bound before its write's records are journaled (R192); the write waits while no home has room
            match (if ns.zoned && hasSectors s x then bindZone ns zn (streamOf s x) s else some s) with
            | none => s
            | some t =>
              let t := if x.opc = 0x7D then mirrorData n x ns t else t
              journalCmd n x (cmdOps t ns x (decide (z.bands = []))) t

/-- Advance every command that can advance, in fetch order. -/
def advanceAll (s : State) : State :=
  let order := s.hqe.slots.filterMap (fun e => match e.2 with
    | some x => if x.st = .active ∧ writeClass x then some (x.order, e.1) else none
    | none => none)
  let sorted := order.foldl (fun l e => l.takeWhile (fun y => decide (y.1 < e.1)) ++ e :: l.dropWhile (fun y => decide (y.1 < e.1))) []
  sorted.foldl (fun s e => advanceCmd e.2 s) s

/-! ### Acceptance (R276 to R280) -/

/-- Whether every acceptance condition of R277 holds. -/
def acceptable (s : State) (x : Slot) : Bool :=
  let flushed := decide (x.jseq ≤ s.ple.jflushed)
  let acked := !mirroring s || decide (x.mseq ≤ s.tdl.mseqAck)
  let reset := decide (x.opc = 0x79) && decide (wordField (x.cdw 13) 7 0 = 4)
  decide (x.st = .active) && !s.bmc.down && x.journaled && (!reset || x.onMedia) &&
    (if hasSectors s x then
      (if writeThrough s then x.onMedia && flushed else x.onMedia && flushed || x.inDram && x.reserved && acked && metaCurrent s x)
     else if writeThrough s then flushed else acked)

/-- Whether a command is one that WRITE_ACCEPT commits: write-class, but not a Run Sequence (R139). -/
def commits (n : Nat) (x : Slot) : Bool := writeClass x && decide (x.opc ≠ 0x91) && !adminSlot n

/-- A Zone Append's completion dwords. -/
def resultDws (x : Slot) : Word × Word :=
  if x.opc = 0x7D then (BitVec.ofNat 32 x.assigned, BitVec.ofNat 32 (x.assigned / 2 ^ 32)) else (0, 0)

/-- A completion that became ready earlier still waits for a position of the queue. -/
def doneAhead (s : State) (f q : Nat) : Bool :=
  (slotsOf s f).any (fun e => decide (e.2.st = .done) && decide (cqidOf s f e.2.sqid = q))

/-- The LBA keys that a command writes. -/
def slotKeys (s : State) (x : Slot) : List Nat := match nsById s (x.cdw 1).toNat with
  | some n => (List.range (nlb x)).map (fun i => lkey n.nsx (firstLba x + i))
  | none => []

/-- WRITE_ACCEPT: the completion is committed to a position, which is the instant of acceptance, and the command is applied. -/
def writeAccept (n : Nat) (s : State) : State :=
  match slotAt s n with
  | none => s
  | some x =>
    let q := cqidOf s x.fn x.sqid
    match cqOf s x.fn q with
    | none => s
    | some c =>
      if !commits n x || !pleServes s || !acceptable s x || blocked s x || !cqRoom c || doneAhead s x.fn q || (fnOf s x.fn).resetting ||
          decide (s.sys.dump ≠ .none) then s
      else
        let k := s.hqe.commits + 1
        let d := resultDws x
        let s := putCq x.fn q (some (cqAdvance c)) (modHqe (fun h => { h with
          commits := k
          lastCqe := cqEntry s x.fn x.sqid x.cid 0 d.1 d.2 c.phase }) s)
        let s := modSlot n (fun y => { y with
          st := .committed
          status := 0
          dw0 := d.1
          dw1 := d.2
          phase := c.phase
          cnum := k }) s
        let s := applyCmd x s
        -- what the partner was sent of a write that went through is not needed there (R403)
        let s := if mirroring s && x.onMedia && hasSectors s x then modTdl (fun t => { t with
            releases := t.releases ++ [(t.mseqTx, (slotKeys s x).map (fun k => (k, 0)))] }) s else s
        let s := if mirroring s then sendMirror (.commitDone n x.cid) s else s
        advanceAll (updateMapState (sealBands s))

/-! ### The rows of write commands -/

/-- Start a fetched I/O command of an opcode. -/
def onIo (opc n : Nat) (f : Slot → State → State) (s : State) : State :=
  match slotAt s n with
  | none => s
  | some x => if x.st = .fetched ∧ x.opc = opc ∧ ¬ adminSlot n then f x s else s

/-- A command with sectors: they land in DRAM once the write is admitted, and are mirrored. -/
def sectorsIn (n : Nat) (data : List Nat) (s : State) : State :=
  let s := tryAdmit n (modSlot n (fun y => { y with st := .active, data := data }) s)
  match slotAt s n with
  | none => s
  | some x =>
    if x.held = 1 then s
    else
      let s := modSlot n (fun y => { y with inDram := true }) s
      let s := match nsById s (x.cdw 1).toNat with
        | some ns => if x.opc = 0x7D ∨ x.inDram then s else mirrorData n x ns s
        | none => s
      advanceAll s

/-- WRITE: the data of every sector, as the host's buffer holds it. -/
def write (n : Nat) (data : List Nat) (s : State) : State :=
  onIo 0x01 n (fun x s => if data.length = nlb x then sectorsIn n data s else s) s

/-- ZONE_APPEND. -/
def zoneAppend (n : Nat) (data : List Nat) (s : State) : State :=
  onIo 0x7D n (fun x s => if data.length = nlb x then sectorsIn n data s else s) s

/-- WRITE_ZEROES: a deallocation, or zeroed sectors at a zone's write pointer. -/
def writeZeroes (n : Nat) (s : State) : State :=
  onIo 0x08 n (fun x s => if hasSectors s x then sectorsIn n (List.replicate (nlb x) 0) s
    else advanceAll (modSlot n (fun y => { y with st := .active }) s)) s

/-- HELD_WRITE_ADMIT (R23). -/
def heldWriteAdmit (n : Nat) (s : State) : State :=
  match slotAt s n with
  | none => s
  | some x => if x.st = .active ∧ x.held = 1 then sectorsIn n x.data s else s

/-- MAP_WAIT_RELEASE (R216). -/
def mapWaitRelease (n : Nat) (s : State) : State :=
  match slotAt s n with
  | none => s
  | some x => if x.st = .active ∧ x.held = 2 then advanceAll (modSlot n (fun y => { y with held := 0 }) s) else s

/-- MAP_WAIT_EXPIRY (R216): Namespace Not Ready, with nothing applied. -/
def mapWaitExpiry (n : Nat) (s : State) : State :=
  match slotAt s n with
  | none => s
  | some x => if x.st = .active ∧ x.held = 2 then advanceAll (failCmd n 0x82 s) else s

/-- DATASET_MANAGEMENT: its ranges, from the host's buffer. -/
def datasetManagement (n : Nat) (ranges : List DsmRange) (s : State) : State :=
  onIo 0x09 n (fun x s =>
    if ranges.length ≠ wordField (x.cdw 10) 7 0 + 1 then s
    else match nsById s (x.cdw 1).toNat with
      | none => s
      | some ns =>
        if ranges.any (fun r => decide (ns.nsze < r.slba + r.len)) then malformed n 0x80 s
        else
          let s := modSlot n (fun y => { y with st := .active, ranges := ranges }) s
          if writeClass x then advanceAll s
          else finish n 0 0 0 (ranges.foldl (fun s r => noteTemp ns r s) s)) s

/-- A Zone Management Send of one action. -/
def zoneSendStart (zsa n : Nat) (s : State) : State :=
  onIo 0x79 n (fun x s => if wordField (x.cdw 13) 7 0 = zsa then advanceAll (modSlot n (fun y => { y with st := .active }) s)
    else s) s

/-- ZONE_CLOSE, ZONE_FINISH, ZONE_OPEN, ZONE_RESET and ZONE_OFFLINE. -/
def zoneClose (n : Nat) (s : State) : State := zoneSendStart 1 n s
def zoneFinish (n : Nat) (s : State) : State := zoneSendStart 2 n s
def zoneOpen (n : Nat) (s : State) : State := zoneSendStart 3 n s
def zoneReset (n : Nat) (s : State) : State := zoneSendStart 4 n s
def zoneOffline (n : Nat) (s : State) : State := zoneSendStart 5 n s

/-- ZONE_RESET_COMPLETE (R196): every read of the zone fetched before the reset has completed. -/
def zoneResetComplete (n : Nat) (s : State) : State :=
  match slotAt s n with
  | none => s
  | some x =>
    let reads := s.hqe.slots.any (fun e => match e.2 with
      | some y => decide (y.order < x.order ∧ (y.opc = 0x02 ∨ y.opc = 0x0C)) && !adminSlot e.1 && commandsMeet s x y
      | none => false)
    if x.opc = 0x79 ∧ wordField (x.cdw 13) 7 0 = 4 ∧ x.st = .active ∧ x.journaled ∧ ¬ reads then
      modSlot n (fun y => { y with onMedia := true }) s
    else s

/-- FLUSH (R290). -/
def flush (n : Nat) (s : State) : State := onIo 0x00 n (fun _ s => finish n 0 0 0 s) s

end Sys2Proof.Machine
end

