-- ==== Sys2Proof/Machine/Reads.lean ====
section
/-! DEFINITION. Read, Verify, Report Zones and Run Sequence (R138 to R140, R207, R211, R260, R282). -/

namespace Sys2Proof.Machine

/-- HEAT_UPDATE (R207): one more for every chunk that a read touches. -/
def heatUpdate (nsx lba len : Nat) (s : State) : State :=
  let lo := lkey nsx lba / 16384
  let hi := lkey nsx (lba + len - 1) / 16384
  modPle (fun p => { p with heat := (List.range (hi + 1 - lo)).foldl (fun h i =>
    tput 0 h (lo + i) (tget 0 h (lo + i) + 1)) p.heat }) s

/-- The other places that hold a run of sectors: the partner of a P2 pair, and live echo copies, as (address, echo copy). -/
def altCopies (s : State) (ns : Ns) (run : List (Nat × Nat)) : List (Nat × Nat) :=
  match run with
  | [] => []
  | (key, addr) :: _ =>
    let lba := key % 2 ^ 36
    let partner := if ns.cls = 2 then ((((bandOf s addr).bind (fun e => unitSources s e.1 e.2)).map Prod.fst).getD []).map
      (fun a => (a, 0)) else []
    let rec0 := s.ple.map.extents.find? (fun e => decide (e.nsx = ns.nsx ∧ e.slba ≤ lba ∧ lba + run.length ≤ e.slba + e.len ∧
      e.echo ≠ 0))
    let echoes := match rec0 with
      | none => []
      | some e => match tget none s.ple.map.echoes e.echo with
        | none => []
        | some x =>
          let at_ := fun (live : Bool) (a copy : Nat) => if live then
            ((addrPlus s a (lba - e.slba)).map (fun b => (b, 2 * e.echo + copy + 1))).toList else []
          at_ (decide (x.st0 = 2) && !x.drop0) x.addr0 0 ++ at_ (decide (x.st1 = 2) && !x.drop1) x.addr1 1
    partner ++ echoes

/-- Enter the candidates of one run: its own place, and every other copy under a shared claim (R211); its age runs from the
command's fetch. -/
def enterRun (cls born : Nat) (kind : CandKind) (ns : Ns) (run : List (Nat × Nat)) (s : State) : State :=
  let alts := altCopies s ns run
  let claim := if alts.isEmpty then 0 else s.ple.nextId + 1
  match run with
  | [] => s
  | f :: _ =>
    let put := fun (a echo : Nat) (s : State) =>
      enterCand { newCand s cls false kind a (run.map Prod.fst) [] with born := born, claim := claim, echo := echo } s
    alts.foldl (fun s a => put a.1 a.2 s) (put f.2 0 s)

/-- Look a range up and read what lies on media. -/
def readStart (kind : CandKind) (n : Nat) (x : Slot) (ns : Ns) (s : State) : State :=
  let parts := (List.range (nlb x)).map (fun i => (lkey ns.nsx (slba x + i), lookup s ns (slba x + i) 0))
  let media := parts.filterMap (fun p => match p.2 with
    | .media a => some (p.1, a)
    | _ => none)
  -- data of a DEGRADED band is rebuilt from its other copies (R202)
  let bad := media.filter (fun e => addrDegraded s e.2)
  let runs := cutRuns s (media.filter (fun e => !addrDegraded s e.2))
  let cls := slotClass s x
  let s := modSlot n (fun y => { y with
    st := .active
    parts := parts
    waits := runs.length + bad.length }) s
  let s := runs.foldl (fun s r => enterRun cls x.born kind ns r s) s
  let s := bad.foldl (fun s e => slotWaited n (sectorLost n e.1 e.2 cls kind s)) s
  if media.isEmpty then readSettled n s else s

/-- READ (R282): it waits for earlier overlapping writes; then each sector comes from DRAM, from media, or as zeros. -/
def read (n : Nat) (s : State) : State :=
  onIo 0x02 n (fun x s => if blocked s x || !pleServes s then s else match nsById s (x.cdw 1).toNat with
    | none => s
    | some ns => echoLook ns (slba x) (nlb x) (readStart (.hostRead n) n x ns (heatUpdate ns.nsx (slba x) (nlb x) s))) s

/-- A read whose data turned out poisoned reads its sectors from media again, and does not fail for it (R308). -/
def rereadSlot (n : Nat) (s : State) : State := match slotAt s n with
  | none => s
  | some x => match nsById s (x.cdw 1).toNat with
    | none => s
    | some ns =>
      if x.opc = 0x02 ∧ ¬ adminSlot n ∧ x.st = .active ∧ x.waits = 0 then
        readStart (.hostRead n) n x ns (modSlot n (fun y => { y with onMedia := false }) s)
      else s

/-- BUFFER_READ, with what its requester does about a poisoned response for read data (R308). -/
def readBuffer (n off len : Nat) (use : PageUse) (requester : Nat) (e : PageErr) (s : State) : State :=
  let t := bufferRead n off len use requester e s
  match use with
  | .hostRead (some m) =>
    if bmcServes s ∧ n < bufferPages s ∧ off + len ≤ 4096 ∧ t.bmc.poison then rereadSlot m t else t
  | _ => t

/-- VERIFY. -/
def verify (n : Nat) (s : State) : State :=
  onIo 0x0C n (fun x s => if blocked s x || !pleServes s then s else match nsById s (x.cdw 1).toNat with
    | none => s
    | some ns => readStart (.verify n) n x ns s) s

/-- A free channel of the Upstream Engine. -/
def upstreamChan (s : State) : Option Nat :=
  (List.range 32).find? (fun c => (chanAt s c).active.isNone && !(chanAt s c).stopped && engineOn s c)

/-- Whether a channel holds a descriptor of a slot. -/
def slotHasDesc (s : State) (n : Nat) : Bool :=
  s.dma.chans.any (fun e => match e.2 with
    | some x => decide ((x.active.map (fun d => d.slot)) = some n ∨ (x.shadow.map (fun d => d.slot)) = some n)
    | none => false)

/-- Reads whose sectors are all here get their descriptors on a free upstream channel, the last one with LAST (R22,
R326): one for the data and, where metadata has a buffer of its own, one for that (R246). Where the bytes lie in the
Staging Buffer is not stated. -/
def pumpReads (s : State) : State :=
  s.hqe.slots.foldl (fun s e => match e.2 with
    | some x =>
      if x.opc = 0x02 ∧ ¬ adminSlot e.1 ∧ x.st = .active ∧ x.onMedia ∧ ¬ slotHasDesc s e.1 then
        match upstreamChan s with
        | none => s
        | some c =>
          let len := transferLen s false 0x02 x.dw
          let mlen := metaLen s 0x02 x.dw
          let f := takeFree s
          let g := takeFree f.2
          let s := loadDesc c ⟨quad x.dw 6, f.1 % (4 * 2 ^ 20 - len + 1), len, decide (mlen = 0), false, false, x.fn, e.1⟩ g.2
          if mlen = 0 then s
          else loadDesc c ⟨quad x.dw 4, g.1 % (4 * 2 ^ 20 - mlen + 1), mlen, true, false, false, x.fn, e.1⟩ s
      else s
    | none => s) s

/-- ORDERING_READ_COMPLETE (R326): the descriptor is done and the read's completion is ready; a failed ordering read ends
the channel with ECODE 5 and the command with Data Transfer Error. -/
def orderingReadComplete (c : Nat) (ok : Bool) (s : State) : State :=
  let x := chanAt s c
  match x.active with
  | none => s
  | some d =>
    if !x.ordering then s
    else
      let ready : Bool := match slotAt s d.slot with
        | some y => decide (y.opc = 0x02 ∧ y.st = .active ∧ y.fn = d.fn) && y.onMedia && !adminSlot d.slot
        | none => false
      if ok then
        let s := promote c (setDone c s)
        if ready then finish d.slot 0 0 0 s else s
      else
        let s := dmaFail c 5 s
        if ready then finish d.slot 0x04 0 0 s else s

/-! ### Report Zones (Zoned Namespace command set, PRESUMED layout) -/

/-- The Zone State field of a reporting option: 0 all, 1 to 7 one state each. -/
def reportKeeps (opt st : Nat) : Bool :=
  match opt with
  | 0 => true
  | 1 => decide (st = 1)
  | 2 => decide (st = 2)
  | 3 => decide (st = 3)
  | 4 => decide (st = 4)
  | 5 => decide (st = 14)
  | 6 => decide (st = 13)
  | 7 => decide (st = 15)
  | _ => false

/-- A zone descriptor; the write pointer of a full, read-only or offline zone is not valid. -/
def zoneDesc (s : State) (n : Ns) (zn free : Nat) : List Nat :=
  let z := zoneAt s n.nsx zn
  let wp := if z.st = 14 ∨ z.st = 13 ∨ z.st = 15 then free % 2 ^ 64 else zn * zsze s n + z.wp
  [2, z.st * 16, 0, 0, 0, 0, 0, 0] ++ bytesLE 8 (zcap s n) ++ bytesLE 8 (zn * zsze s n) ++ bytesLE 8 wp ++ List.replicate 32 0

/-- REPORT_ZONES. -/
def reportZones (n : Nat) (s : State) : State :=
  onIo 0x7A n (fun x s => match nsById s (x.cdw 1).toNat with
    | none => s
    | some ns =>
      let size := zsze s ns
      let first := slba x / size
      let opt := wordField (x.cdw 13) 15 8
      let all := ((List.range (ns.nsze / size - first)).map (fun i => first + i)).filter (fun z =>
        reportKeeps opt (zoneAt s ns.nsx z).st)
      let bytes := 4 * ((x.cdw 12).toNat + 1)
      let shown := all.take ((bytes - 64) / 64)
      let count := if wordBit (x.cdw 13) 16 then shown.length else all.length
      let f := takeFree s
      let body := bytesLE 8 count ++ List.replicate 56 0 ++ shown.flatMap (fun z => zoneDesc s ns z f.1)
      finish n 0 0 0 (modSlot n (fun y => { y with data := body.take bytes }) f.2)) s

/-! ### Run Sequence (R138 to R140) -/

/-- The slots of a Run Sequence that hold data: of its range under a plan of P (0: the zone's PARITY_BASE), parity left out unless
ALLSLOTS. -/
def seqSlots (s : State) (x : Slot) : List Nat :=
  let w := x.cdw 11
  let mc := wordField w 29 28
  let head := wordField w 27 24
  let track := wordField w 20 0
  let first := wordField (x.cdw 12) 10 0
  let range := (List.range (wordField (x.cdw 12) 26 16)).map (fun i => first + i)
  let z := zoneEntry s (mcIx mc) false head (zoneOfTrack s mc head track)
  if entF z 0 31 31 = 0 then range
  else
    let usable := usableAt s mc head (entF z 3 26 16) false track
    let p := wordField (x.cdw 14) 11 8
    let plan := fixedPlan (if p = 0 then entF z 5 3 0 else p) usable
    let par := plan.flatMap Prod.snd
    range.filter (fun k => usable.contains k && (wordBit (x.cdw 14) 17 || !par.contains k))

/-- Whether a track lies in the sequence reserve of its head (R139, band state 8). -/
def inReserve (s : State) (mc head track : Nat) : Bool :=
  s.ple.map.bands.any (fun e => match e.2 with
    | some b => decide (b.st = 8 ∧ b.mc = mc ∧ b.head = head) && (bandTracks s b).contains track
    | none => false)

/-- The candidate of a Run Sequence; its keys name slots of media, not LBAs. -/
def runSeqStart (n : Nat) (x : Slot) (data : List Nat) (s : State) : State :=
  let w := x.cdw 11
  let at_ := fun (k : Nat) => packAddr (wordField w 29 28) (wordField w 27 24) (wordField w 20 0) k
  let keys := (seqSlots s x).map (fun k => 2 ^ 59 + at_ k)
  enterCand { newCand s 1 (decide (x.opc = 0x91)) (.runSeq n) (runSeqAddr x.dw) keys data with born := x.born }
    (modSlot n (fun y => { y with st := .active, data := data }) s)

/-- RUN_SEQUENCE_WRITE (91h). -/
def runSequenceWrite (n : Nat) (data : List Nat) (s : State) : State :=
  onIo 0x91 n (fun x s =>
    let w := x.cdw 11
    if !inReserve s (wordField w 29 28) (wordField w 27 24) (wordField w 20 0) then malformed n 0x02 s
    else if !wordBit (x.cdw 14) 16 && decide (512 < (seqSlots s x).length) then malformed n 0x02 s
    else if !wordBit (x.cdw 14) 16 && decide (data.length ≠ (seqSlots s x).length) then s
    else runSeqStart n x data s) s

/-- RUN_SEQUENCE_READ (92h). -/
def runSequenceRead (n : Nat) (s : State) : State :=
  onIo 0x92 n (fun x s =>
    if !wordBit (x.cdw 14) 16 && decide (512 < (seqSlots s x).length) then malformed n 0x02 s
    else runSeqStart n x [] s) s

end Sys2Proof.Machine
end

