-- ==== Sys2Proof/Machine/Thermal.lean ====
section
/-! DEFINITION. The Thermal Monitor (R380, R381) and the Calibration Unit (R382 to R385). -/

namespace Sys2Proof.Machine

/-- Update the TMN and its registers. -/
def modTmn (f : Tmn → Tmn) (s : State) : State := { s with tmn := f s.tmn }
def tmnReg (f : List (Nat × Word) → List (Nat × Word)) (s : State) : State := modTmn (fun m => { m with csr := f m.csr }) s

/-- A sensor; one that no conversion has reached reads as never valid. -/
def sensorAt (s : State) (n : Nat) : Sensor := (tget none s.tmn.sensors n).getD ⟨false, false, 0, 0, [], 0⟩

/-- A sensor's enable. -/
def sensorOn (s : State) (n : Nat) : Bool := decide (n < 10) && (rdF s.tmn.csr TMN_CTL.SEN).testBit n

/-- Queue a request; one that meets a request for the same sensor is served with it (R380). -/
def requestSensor (n : Nat) (s : State) : State :=
  modTmn (fun m => { m with queue := if m.queue.contains n then m.queue else m.queue ++ [n] }) s

/-- Every enabled sensor is requested: the schedule, Get Features and SMART do so. -/
def requestAll (s : State) : State :=
  (List.range 10).foldl (fun s n => if sensorOn s n then requestSensor n s else s) s

/-- TMN_SCHEDULE. -/
def tmnSchedule (s : State) : State := if rdF s.tmn.csr TMN_CTL.SPER = 0 then s else requestAll s

/-- TMN_REQUEST: a GO for a sensor that exists. -/
def tmnRequest (n : Nat) (s : State) : State :=
  if n < 10 then requestSensor n (modTmn (fun m => { m with fwReq := some n }) s) else s

/-- Thresholds of a group: WARN and CRIT in 1/16 °C, ROR in 0.1 °C/s, WIN in seconds. -/
def thresholds (s : State) (base : Bool) : Int × Int × Nat × Nat :=
  let w := rd s.tmn.csr (if base then TMN_THR_BASE else TMN_THR_DIE)
  let warn := wordField w 31 24
  let crit := wordField w 23 16
  let wc : Nat × Nat := if crit ≤ warn then (if base then (0x3C, 0x46) else (0x64, 0x6E)) else (warn, crit)
  (16 * (wc.1 : Int), 16 * (wc.2 : Int), wordField w 15 8, max 1 (wordField w 7 0))

/-- The readings that a later check can need: those of the longest WIN, 255 s, and the first one before them. -/
def keepReadings (now : Nat) : List (Nat × Int) → List (Nat × Int)
  | [] => []
  | h :: r => if h.1 + 255000000 ≤ now then [h] else h :: keepReadings now r

/-- The reading that is at least WIN old, newest first. -/
def olderReading (now win : Nat) (hist : List (Nat × Int)) : Option (Nat × Int) :=
  hist.find? (fun h => decide (h.1 + win * 1000000 ≤ now))

/-- Whether the rate of rise is at least num ÷ den of ROR: differences are in 1/16 °C over µs, ROR in 0.1 °C/s. -/
def riseAtLeast (now : Nat) (t : Int) (old : Nat × Int) (ror den : Nat) : Bool :=
  let dt : Int := (now : Int) - old.1
  decide (0 < dt) && decide ((ror : Int) * 16 * dt ≤ (t - old.2) * 10 * 1000000 * den)

/-- The active thresholds of a sensor after a reading (R381). -/
def nextActive (s : State) (base : Bool) (now : Nat) (t : Int) (x : Sensor) : Nat :=
  let th := thresholds s base
  let old := olderReading now th.2.2.2 x.hist
  let ror := th.2.2.1
  let r : Bool := match old with
    | none => x.active.testBit 0
    | some h => if ror = 0 then false
        else if x.active.testBit 0 then riseAtLeast now t h ror 2 else riseAtLeast now t h ror 1
  let w : Bool := if x.active.testBit 1 then decide (th.1 - 48 ≤ t) else decide (th.1 ≤ t)
  let c : Bool := if x.active.testBit 2 then decide (th.1 - 48 ≤ t) else decide (th.2.1 ≤ t)
  b2n r + 2 * b2n w + 4 * b2n c

/-- TMN_CONVERSION_DONE (R380, R381): the oldest request's sensor has its reading; a thermistor at either end of its range is
absent. A new crossing marks the sticky bits and steps PLIM; CRIT sets PLIM to PMIN and the SMART warning. -/
def tmnConversionDone (t : Int) (atEnd : Bool) (s : State) : State :=
  match s.tmn.queue with
  | [] => s
  | n :: q =>
    let base := decide (8 ≤ n)
    let old := sensorAt s n
    let absent := base && atEnd
    let now := s.sys.us
    let act := if absent then 0 else nextActive s base now t old
    let new_ := act &&& (7 ^^^ old.active)
    let x : Sensor := ⟨true, absent, t, now, (now, t) :: keepReadings now old.hist, act⟩
    let g := b2n base
    let s := modTmn (fun m => { m with
      queue := q
      fwReq := if m.fwReq = some n then none else m.fwReq
      sensors := tput none m.sensors n (some x)
      csr := incR m.csr TMN_CONV 1 }) s
    let mark := fun (f : Fld) (b : Bool) (s : State) => if b then tmnReg (fun c => wrF c f (rdF c f ||| 2 ^ g)) s else s
    let s := mark TMN_STAT.ROR_S (new_.testBit 0) (mark TMN_STAT.WARN_S (new_.testBit 1) (mark TMN_STAT.CRIT_S (new_.testBit 2) s))
    let s := if new_ = 0 then s else modElg (fun e => { e with newCross := true }) s
    if new_.testBit 2 then energyEvent <|
      tocsin 4 { modElg (fun e => { e with plim := some (plimFloor s), quiet := 0 }) s with
        hqe := { s.hqe with smart := s.hqe.smart ||| 2 } }
    else s

/-- TMN_STAT.ACTIVE: bits 0 and 1 ROR, 2 and 3 WARN, 4 and 5 CRIT, die then base. -/
def tmnActive (s : State) : Nat :=
  (List.range 10).foldl (fun a n =>
    let x := sensorAt s n
    let g := if 8 ≤ n then 1 else 0
    if x.absent then a
    else a ||| ((x.active % 2) * 2 ^ g) ||| ((x.active / 2 % 2) * 2 ^ (2 + g)) ||| ((x.active / 4 % 2) * 2 ^ (4 + g))) 0

/-- TMN_TEMP of the selected sensor. -/
def tmnTemp (s : State) : Word :=
  let n := rdF s.tmn.csr TMN_IDX.SENSOR
  if 10 ≤ n then 0
  else
    let x := sensorAt s n
    if x.valid then
      BitVec.ofNat 32 (2 ^ 31 + b2n x.absent * 2 ^ 30 + min 0x3FFF ((s.sys.us - x.time) / 1000) * 2 ^ 16 + toBits 16 x.temp)
    else 0

/-- TMN_CLR.CNT (R390). -/
def tmnClrCnt (s : State) : State := tmnReg (fun c => wr c TMN_CONV 0) s

/-- Sensor 2 as NVMe reports it: the hotter thermistor present (R381). -/
def sensor2 (s : State) : Option Int :=
  let l := ([8, 9] : List Nat).filterMap (fun n => let x := sensorAt s n; if x.valid && !x.absent then some x.temp else none)
  l.foldl (fun m t => match m with
    | none => some t
    | some u => some (max u t)) none

/-- Sensor 1: the hottest die sensor. -/
def sensor1 (s : State) : Option Int :=
  let l := (List.range 8).filterMap (fun n => let x := sensorAt s n; if x.valid then some x.temp else none)
  l.foldl (fun m t => match m with
    | none => some t
    | some u => some (max u t)) none

/-- The Composite Temperature in 1/16 °C: sensor 2, or sensor 1 − 15 °C with both thermistors absent. -/
def composite (s : State) : Int := match sensor2 s with
  | some t => t
  | none => (sensor1 s).getD 0 - 240

/-! ### Calibration (R382 to R385, R391) -/

/-- Update the CAL. -/
def modCal (f : Cal → Cal) (s : State) : State := { s with cal := f s.cal }

/-- A calibration item. -/
def calItem (s : State) (n : Nat) : CalItem :=
  (tget none s.cal.items n).getD ⟨0, 0, false, [], 0, 0, 0, 0, 0, 0, 0⟩

/-- Update an item of the catalogue. -/
def modItem (n : Nat) (f : CalItem → CalItem) (s : State) : State :=
  if n < 14 then modCal (fun c => { c with items := tput none c.items n (some (f (calItem s n))) }) s else s

/-- Whether an item is enabled. -/
def calOn (s : State) (n : Nat) : Bool := (rdF s.cal.csr CAL_CTL.EN).testBit n && decide (n < 14)

/-- CAL_RUN: the selected item is overdue now. -/
def calRun (s : State) : State := modItem (rdF s.cal.csr CAL_IDX.ITEM) (fun x => { x with due := 2, forced := true }) s

/-- Whether an item's temperature trigger holds (R384). -/
def tempDue (s : State) (n : Nat) (x : CalItem) : Bool :=
  decide (n = 0 ∨ n = 2 ∨ n = 5 ∨ n = 6) && wordBit x.cfg 31 &&
  (match sensor2 s with
   | some t => decide (160 ≤ (t - x.tempRun).natAbs)
   | none => false)

/-- CAL_DUE (R384): the interval or the temperature makes an item due; four intervals without a run make it overdue. -/
def calDue (n : Nat) (s : State) : State :=
  let x := calItem s n
  let iv := wordField x.cfg 23 0
  let dt := nowSec s - x.lastRun
  if !calOn s n then s
  else if iv ≠ 0 ∧ 4 * iv ≤ dt then modItem n (fun x => { x with due := 2 }) s
  else if (iv ≠ 0 ∧ iv ≤ dt) ∨ tempDue s n x then modItem n (fun x => { x with due := max 1 x.due }) s
  else s

/-- An MC number as an index. -/
def calMc (n : Nat) : Fin 4 := ⟨n % 4, Nat.mod_lt _ (by decide)⟩

/-- The dword address of a zone's analog entry. -/
def zaeAddr (s : State) (mc head zone dword : Nat) : Nat :=
  (rd (mcOf s (calMc mc)).csr MC_ZAT_BASE).toNat * 4096 + 0x3000 + (head * 32 + zone) * 32 + 4 * dword

/-- The value at a place of the catalogue, as the item's unit counts it. -/
def calRead (s : State) : CalPlace → Int
  | .zae mc h z d hi lo => sext (hi + 1 - lo) (wordField (memWord s (zaeAddr s mc h z d)) hi lo)
  | .comparators mc => -(rdF (mcOf s (calMc mc)).csr MC_ADC_STAT.REMAIN : Int)
  | .threshold mc adc n => adcThreshold (calMc mc) (mcOf s (calMc mc)) adc n
  | .width mc h => (tget (0, 0) s.nv.widths (mc * 16 + h)).1
  | .level mc h l => ((tget 0 (mcOf s (calMc mc)).ascLevel (16 * h + l) : Nat) : Int)
  | .trim mc h => sext 10 (wordField (ascAgeOf (mcOf s (calMc mc)) h) 9 0)
  | .preload mc e => ((tget 0 (mcOf s (calMc mc)).preload e).toNat : Int)
  | .coef l a => coefInt (coefAt s.sce l 1 a)
  | .origin mc h => tget 0 s.cal.origins (mc * 16 + h)
  | .angle n => sext 16 (wordField (rd s.scu.csr (SCU_ANG_OFS0 + 4 * (n % 4))) 15 0)
  | .tap ch n => tget 0 s.cal.taps (ch * 256 + n)
  | .inertia => anchor s 0
  | .seekBin mc n => tget 0 s.cal.seeks (mc * 64 + n)

/-- Replace the value at a place. -/
def calWrite (p : CalPlace) (v : Int) (s : State) : State :=
  let modM := fun (mc : Nat) (f : Mc → Mc) => modMc (calMc mc) f s
  match p with
  | .zae mc h z d hi lo =>
    memPutWord (zaeAddr s mc h z d) (wordSetField (memWord s (zaeAddr s mc h z d)) hi lo (toBits (hi + 1 - lo) v)) s
  | .comparators _ => s
  | .threshold mc adc n => modM mc (fun m => { m with adcThr := tput none m.adcThr (adc % 2 * 256 + n % 135) (some v) })
  | .width mc h => { s with nv := { s.nv with widths := tput (0, 0) s.nv.widths (mc * 16 + h) (v.toNat % 65536, nowSec s / 3600) } }
  | .level mc h l => modM mc (fun m => { m with ascLevel := tput 0 m.ascLevel (16 * h + l) (toBits 12 v) })
  | .trim mc h => modM mc (fun m => putAscAge h (wordSetField (ascAgeOf m h) 9 0 (toBits 10 v)) m)
  | .preload mc e => modM mc (fun m => { m with preload := tput 0 m.preload e (BitVec.ofNat 32 v.toNat) })
  | .coef l a => modSce (coefPut l a (BitVec.ofNat 32 (toBits 32 v))) s
  | .origin mc h => modCal (fun c => { c with origins := tput 0 c.origins (mc * 16 + h) v }) s
  | .angle n =>
    let off := SCU_ANG_OFS0 + 4 * (n % 4)
    scuReg (fun c => wr c off (wordSetField (rd c off) 15 0 (toBits 16 v))) s
  | .tap ch n => modCal (fun c => { c with taps := tput 0 c.taps (ch * 256 + n) v }) s
  | .inertia => modElg (fun e => { e with anchors := tput 0 e.anchors 0 v.toNat }) s
  | .seekBin mc n => modCal (fun c => { c with seeks := tput 0 c.seeks (mc * 64 + n) v }) s

/-- The step of an item from a value, of which R383 gives heater power 2 % and the loop gains 4 %: the percentage is
of the value in force, and at least one unit (DESIGN CHOICE, log 205). -/
def calStepFrom (n : Nat) (now : Int) (step : Nat) : Nat := match n with
  | 5 => min step (max 1 (2 * now.natAbs / 100))
  | 7 => min step (max 1 (4 * now.natAbs / 100))
  | 8 => min step (max 1 (4 * now.natAbs / 100))
  | _ => step

/-- One bounded step from a value towards its target. Inertia falls at once and rises by a quarter of the difference, for
which R383 states no rounding. -/
def calNext (n : Nat) (p : CalPlace) (now target : Int) (step : Nat) : Int :=
  let step := calStepFrom n now step
  match p with
  | .inertia => if target ≤ now then target else max (now + 1) (now + roundDiv (target - now) 4)
  | _ => if target ≤ now then max target (now - step) else min target (now + step)

/-! ### The catalogue (R383) -/

/-- Whether an item corrects by a place. -/
def calOwns (n : Nat) : CalPlace → Bool
  | .zae _ _ _ d hi lo => match n with
    | 0 => decide (d = 2 ∧ (hi = 31 ∧ lo = 24 ∨ hi = 23 ∧ lo = 16))
    | 2 => decide (d = 1 ∧ hi = 29 ∧ lo = 24)
    | 3 => decide (d = 4 ∧ (hi = 29 ∧ lo = 24 ∨ hi = 21 ∧ lo = 16 ∨ hi = 13 ∧ lo = 8))
    | 6 => decide (d = 2 ∧ hi = 15 ∧ lo = 0)
    | _ => false
  | .comparators _ => decide (n = 1)
  | .threshold _ _ _ => false
  | .width _ _ => false
  | .level _ _ _ => decide (n = 4)
  | .trim _ _ => decide (n = 4)
  | .preload _ _ => decide (n = 5)
  | .coef l _ => decide ((n = 7 ∨ n = 8) ∧ l < 4)
  | .origin _ _ => decide (n = 9)
  | .angle _ => decide (n = 10)
  | .tap _ _ => decide (n = 11)
  | .inertia => decide (n = 12)
  | .seekBin _ _ => decide (n = 13)

/-- The largest step of an item at one application, in the units of its places; 1 LSB of offset is 4 codes (R76). -/
def calStepMax (n step : Nat) : Nat := match n with
  | 0 => min 4 step
  | 2 => min 1 step
  | 3 => min 2 step
  | 4 => min 4 step
  | 6 => min 8 step
  | 9 => min 16 step
  | 10 => min 256 step
  | 11 => min 1 step
  | 13 => min 1 step
  | _ => step

/-- The value that a place is to reach, or holds. -/
def calAfter (s : State) (targets : List CalTarget) (p : CalPlace) : Int :=
  ((targets.find? (fun t => decide (t.place = p))).map CalTarget.value).getD (calRead s p)

/-- Whether a measured value is plausible, as far as the part can tell by itself; the rest is in the run's result. -/
def calPlausible (n : Nat) (targets : List CalTarget) (s : State) : Bool :=
  targets.all (fun t =>
    let now := calRead s t.place
    let v := t.value
    match t.place with
    | .zae mc h z d _ _ => match n with
      | 0 => decide (v.natAbs ≤ 32)
      | 3 => decide (0 ≤ v ∧ v ≤ 40) &&
          decide (calAfter s targets (.zae mc h z d 21 16) ≤ calAfter s targets (.zae mc h z d 29 24))
      | _ => true
    | .trim mc h => decide (v < (wordField (ascAgeOf (mcOf s (calMc mc)) h) 25 16 : Int))
    | .origin _ _ => decide ((v - now).natAbs ≤ 1024)
    | .angle _ => decide ((v - now).natAbs ≤ 2048)
    | .inertia =>
      let a : Int := (tget 0 s.nv.opt 450).toNat
      decide (100 * (v - a).natAbs ≤ 15 * a.natAbs)
    | .seekBin mc b =>
      let next := calAfter s targets (.seekBin mc (b + 1))
      decide (now = 0 ∨ 100 * (v - now).natAbs ≤ 30 * now.natAbs) &&
        (decide (b = 0) || decide (calAfter s targets (.seekBin mc (b - 1)) ≤ v)) &&
        (decide (63 ≤ b) || decide (next = 0 ∨ v ≤ next))
    | _ => true)

/-- What a run of item 13 takes (R383): of each bin that seeks have fallen in, the mean SEEKT of the latest of them
plus 2 wedges. R383 states no rounding of the mean. -/
def profileTargets (s : State) : List CalTarget :=
  s.cal.seekLast.map (fun e => ⟨.seekBin (e.1 / 64) (e.1 % 64), roundDiv ((e.2.foldl (· + ·) 0 : Nat) : Int) e.2.length + 2, 1⟩)

/-- The targets of an accepted run: the item's own places, and a trim raised by at most 4 codes (R97). -/
def calTargets (n : Nat) (targets : List CalTarget) (s : State) : List CalTarget :=
  (targets.filter (fun t => calOwns n t.place)).map (fun t =>
    let now := calRead s t.place
    let v : Int := match t.place with
      | .trim _ _ => max now (min (now + 4) t.value)
      | _ => t.value
    ⟨t.place, v, max 1 (calStepMax n t.step)⟩)

/-- Firmware sets the detector mode in every analog entry of a head: 0 reader A alone, 1 reader B alone. -/
def headMode (mc head mode : Nat) (s : State) : State :=
  (List.range 32).foldl (fun s z =>
    if wordBit (memWord s (zaeAddr s mc head z 0)) 31 then
      memPutWord (zaeAddr s mc head z 3) (wordSetField (memWord s (zaeAddr s mc head z 3)) 1 0 mode) s
    else s) s

/-- A run of item 6 for a reader, named by (MC × 16 + head) × 2 + reader: the third failure in a row marks it failed, and the
head's entries keep to the reader that works. -/
def readerRun (r : Nat) (ok : Bool) (s : State) : State :=
  let n := if ok then 0 else tget 0 s.cal.readerFails r + 1
  let s := modCal (fun c => { c with readerFails := tput 0 c.readerFails r n }) s
  if n ≠ 3 ∨ s.cal.badReaders.contains (r / 2, r % 2) then s
  else headMode (r / 32) (r / 2 % 16) (1 - r % 2) (modCal (fun c => { c with badReaders := (r / 2, r % 2) :: c.badReaders }) s)

/-- CAL_STEP_APPLY (R382): at its application point the item takes one step for each target that remains. A comparator
exchange is done by the MC itself at its footprints (R80). Steps go on to the measured values after the item's EN is
cleared, and STATE reads idle when they are reached (R385; DEDUCED, log 206). -/
def calStepApply (n : Nat) (s : State) : State :=
  let x := calItem s n
  let s := x.targets.foldl (fun s t => calWrite t.place (calNext n t.place (calRead s t.place) t.value t.step) s) s
  let left := x.targets.filter (fun t => decide (calRead s t.place ≠ t.value) && (match t.place with
    | .comparators _ => false
    | _ => true))
  modItem n (fun y => { y with targets := left }) s

/-- Whether an item's runs use the media, of an MC (R383): those stop in PS3 and PS4 (R379; DEDUCED, log 206). -/
def calUsesMedia (n : Nat) : Bool := decide (n ≤ 9)

/-- What a run measures beside its targets: the comparators' thresholds (item 1, R79), and a head's written track
width with the hour of it (item 4, R273). They are no values in force, so they stand whatever the run's result is. -/
def calMeasured (n : Nat) (targets : List CalTarget) (s : State) : State :=
  targets.foldl (fun s t => match t.place with
    | .threshold _ _ _ => if n = 1 then calWrite t.place t.value s else s
    | .width _ _ => if n = 4 then calWrite t.place t.value s else s
    | _ => s) s

/-- CAL_RUN_END (R382): a run of an enabled item that was due ends; a run of item 6 is for the reader named. An
accepted one clears the failures, and its values replace the remaining target; a rejected one, or one whose values are
implausible, leaves every value in force. A lower inertia takes effect with its acceptance (R366). A run of item 13
takes the seeks that the part has timed itself. -/
def calRunEnd (n reader result : Nat) (targets : List CalTarget) (s : State) : State :=
  let x := calItem s n
  if !calOn s n || decide (x.due = 0) || (calUsesMedia n && decide (3 ≤ powerState s)) then s
  else
    let t2 := (sensor2 s).getD 0
    let targets := if n = 13 then profileTargets s else targets
    let result := if result = 0 ∧ !calPlausible n targets s then 1 else result
    let x := { x with
      due := 0
      forced := false
      result := result % 16
      lastRun := nowSec s
      tempRun := t2 }
    let s := if n = 6 then readerRun reader (decide (result = 0)) s else calMeasured n targets s
    if result = 0 then
      let goals := calTargets n targets s
      (if n = 12 ∧ goals.all (fun g => decide (g.value ≤ calRead s g.place)) then calStepApply 12 else id) <| modItem n (fun _ => { x with
        fails := 0
        accepts := BitVec.ofNat 32 (satAdd 0xFFFFFFFF x.accepts.toNat 1)
        lastGood := nowSec s
        targets := goals }) s
    else
      modItem n (fun _ => { x with
        fails := satAdd 0xFFFF x.fails 1
        rejects := BitVec.ofNat 32 (satAdd 0xFFFFFFFF x.rejects.toNat 1) }) s

/-- CAL_STAT of the selected item. A run's measuring phase has no step of its own, so STATE reads 0 or 2. -/
def calStat (s : State) : Word :=
  let n := rdF s.cal.csr CAL_IDX.ITEM
  let x := calItem s n
  if 14 ≤ n then 0
  else BitVec.ofNat 32 ((if x.targets.isEmpty then 0 else 2) * 2 ^ 30 + x.due % 4 * 2 ^ 28 + x.result % 16 * 2 ^ 24 + x.fails % 65536)

end Sys2Proof.Machine
end

