-- ==== Sys2Proof/Machine/Admin.lean ====
section
/-! DEFINITION. Admin commands: queues, features, events, namespaces, directives, firmware, format, sanitize and unlocks
(R135 to R137, R237, R238, R252 to R272, R294, R295, R311, R373, R417). -/

namespace Sys2Proof.Machine

/-- Start a fetched admin command of an opcode. -/
def onAdmin (opc n : Nat) (f : Slot → State → State) (s : State) : State :=
  match slotAt s n with
  | none => s
  | some x => if x.st = .fetched ∧ x.opc = opc ∧ adminSlot n then f x s else s

/-- Complete a command at once. -/
def reply (n status : Nat) (s : State) : State := finish n status 0 0 s

/-! ### Queues (R237, R238, R294) -/

/-- The granted number of submission or completion queues; all of them where Number of Queues was not set. -/
def grantedSq (x : Fn) : Nat := wordField (featGet 0x03FF03FF x.feats 7) 15 0 + 1
def grantedCq (x : Fn) : Nat := wordField (featGet 0x03FF03FF x.feats 7) 31 16 + 1

/-- Entry sizes that CC must hold (R236). -/
def entrySizesOk (x : Fn) : Bool := decide (wordField x.cc 19 16 = 6 ∧ wordField x.cc 23 20 = 4)

/-- CREATE_IO_CQ: the checks of R238 in order. -/
def createIoCq (n : Nat) (s : State) : State :=
  onAdmin 0x05 n (fun x s =>
    let f := fnOf s x.fn
    let q := wordField (x.cdw 10) 15 0
    let size := wordField (x.cdw 10) 31 16 + 1
    let w := x.cdw 11
    if q = 0 ∨ grantedCq f < q ∨ (cqOf s x.fn q).isSome then reply n 0x101 s
    else if size < 2 ∨ ¬ entrySizesOk f then reply n 0x102 s
    else if !wordBit w 0 then reply n 0x02 s
    else if wordBit w 1 && decide (1023 < wordField w 31 16) then reply n 0x108 s
    else reply n 0 (putCq x.fn q (some ⟨size, 0, 0, true, wordBit w 1, wordField w 31 16⟩) (modFn x.fn (fun y => { y with made := true }) s))) s

/-- CREATE_IO_SQ. -/
def createIoSq (n : Nat) (s : State) : State :=
  onAdmin 0x01 n (fun x s =>
    let f := fnOf s x.fn
    let q := wordField (x.cdw 10) 15 0
    let size := wordField (x.cdw 10) 31 16 + 1
    let w := x.cdw 11
    let cq := wordField w 31 16
    if q = 0 ∨ grantedSq f < q ∨ (sqOf s x.fn q).isSome then reply n 0x101 s
    else if size < 2 ∨ ¬ entrySizesOk f then reply n 0x102 s
    else if !wordBit w 0 then reply n 0x02 s
    else if cq = 0 ∨ (cqOf s x.fn cq).isNone then reply n 0x100 s
    else reply n 0 (putSq x.fn q (some ⟨size, 0, 0, cq, wordField w 2 1, none⟩) (modFn x.fn (fun y => { y with made := true }) s))) s

/-- DELETE_IO_CQ. -/
def deleteIoCq (n : Nat) (s : State) : State :=
  onAdmin 0x04 n (fun x s =>
    let q := wordField (x.cdw 10) 15 0
    if q = 0 ∨ (cqOf s x.fn q).isNone then reply n 0x101 s
    else if (fnOf s x.fn).sqs.any (fun e => match e.2 with
        | some y => decide (e.1 ≠ 0 ∧ y.cqid = q)
        | none => false) then reply n 0x10C s
    else reply n 0 (dropCtx x.fn q true (putCq x.fn q none s))) s

/-- DELETE_IO_SQ (R294): the queue leaves the arbiter; its filters end; its fetched commands complete, those that can still be
aborted with Command Aborted due to SQ Deletion. -/
def deleteIoSq (n : Nat) (s : State) : State :=
  onAdmin 0x00 n (fun x s =>
    let f := x.fn
    let q := wordField (x.cdw 10) 15 0
    match sqOf s f q with
    | none => reply n 0x101 s
    | some sq =>
      if q = 0 ∨ sq.deleting.isSome then reply n 0x101 s
      else
        let s := putSq f q (some { sq with deleting := some n }) (modSlot n (fun y => { y with st := .active }) s)
        let s := modHqe (fun h => { h with fetching := h.fetching.filter (fun e => !decide (e.1 = f ∧ e.2.1 = q)) }) s
        let ended := (fnOf s f).filters.filter (fun a => decide (a.sqid = q))
        let s := modFn f (fun y => { y with filters := y.filters.filter (fun a => decide (a.sqid ≠ q)) }) s
        let s := ended.foldl (fun s a => finish a.slot 0 1 0 s) s
        let mine := (slotsOf s f).filter (fun e => decide (e.2.sqid = q ∧ e.2.st ≠ .committed) && !pastReturn s e.1 e.2)
        advanceAll (mine.foldl (fun s e => failCmd e.1 0x08 s) s)) s

/-- DELETE_IO_SQ_COMPLETE: every completion of the queue's commands has been posted. -/
def deleteIoSqComplete (n : Nat) (s : State) : State :=
  match slotAt s n with
  | none => s
  | some x =>
    let q := wordField (x.cdw 10) 15 0
    if x.opc = 0x00 ∧ adminSlot n ∧ x.st = .active ∧ ((sqOf s x.fn q).bind (fun y => y.deleting)) = some n ∧
        ¬ (slotsOf s x.fn).any (fun e => decide (e.2.sqid = q ∧ e.1 ≠ n)) then
      reply n 0 (dropCtx x.fn q false (putSq x.fn q none s))
    else s

/-! ### Features (R210, R261, R311, R373) -/

/-- A feature's key among the values kept: Interrupt Vector Configuration by vector, Temperature Threshold by sensor and
kind. -/
def featKey (fid : Nat) (w : Word) : Nat :=
  match fid with
  | 0x09 => 0x090000 + wordField w 15 0
  | 0x04 => 0x040000 + wordField w 19 16 * 4 + wordField w 21 20
  | _ => fid

/-- Whether a feature is the function's own; the others are the device's. -/
def ownFeature (fid : Nat) : Bool := decide (fid = 0x01 ∨ fid = 0x07 ∨ fid = 0x08 ∨ fid = 0x09 ∨ fid = 0x0B)

/-- Surplus live echo copies move to Dropping when EN is 0 or MAXC is lowered (R210); copies that are being made beyond it are
abandoned. -/
def echoSurplus (s : State) : State :=
  let m := if echoEn s then echoMax s else 0
  s.ple.map.echoes.foldl (fun s e => match e.2 with
    | none => s
    | some y =>
      let s := if m < 1 ∨ (m < 2 ∧ y.st0 ≠ 0) then echoDropMark e.1 1 s else s
      if m < 1 then echoDropMark e.1 0 s else s) s

/-- What a feature's value sets in force. New Arbitration weights refill the function's credits at once: the choice of log 201. -/
def featureEffect (f fid : Nat) (w11 w12 : Word) (s : State) : State :=
  let dev := fun (k : Nat) (v : Word) (s : State) => modHqe (fun h => { h with feats := featPut k v h.feats }) s
  let own := fun (k : Nat) (v : Word) (s : State) => modFn f (fun x => { x with feats := featPut k v x.feats }) s
  match fid with
  | 0x01 => modFn f loadCredits (own 0x01 w11 s)
  | 0x02 =>
    let ps := wordField w11 4 0
    let s := dev 0x02 (BitVec.ofNat 32 ps) s
    let s := if ps = 4 then orderlyShutdown s else s
    capSettle (if ps ≤ 2 then modElg (fun e => { e with lastOp := ps }) s else s)
  | 0x07 => own 0x07 (BitVec.ofNat 32 (min 1023 (wordField w11 15 0) + min 1023 (wordField w11 31 16) * 65536)) s
  | 0xC0 =>
    let s := elgReg (fun c => wrF (wrB (wrB c ELG_CAP.EN (wordBit w11 31)) ELG_CAP.SRC (wordBit w11 30)) ELG_CAP.CAP
      (wordField w11 15 0)) s
    capSettle (dev 0xC0 w11 s)
  | 0xC1 => echoSurplus (dev 0xC10001 w12 (dev 0xC1 w11 s))
  | 0xC2 =>
    let pass := if wordField w11 31 16 = 0 then 24 else wordField w11 31 16
    let stale := max 1 (wordField w11 7 0)
    let s := bmcReg (fun c => wrF (wrF c BMC_DRZ_CTL.PASS pass) BMC_DRZ_CTL.STALE stale) s
    dev 0xC2 (BitVec.ofNat 32 (pass * 65536 + stale)) s
  | _ => if ownFeature fid then own (featKey fid w11) w11 s else dev (featKey fid w11) w11 s

/-- SET_FEATURES. Number of Queues is refused once the function has created an I/O queue (R237); SV stores the value
in a brown-out record. -/
def setFeatures (n : Nat) (s : State) : State :=
  onAdmin 0x09 n (fun x s =>
    let fid := wordField (x.cdw 10) 7 0
    let f := fnOf s x.fn
    if fid = 0x07 ∧ f.made then reply n 0x0C s
    else
      let s := featureEffect x.fn fid (x.cdw 11) (x.cdw 12) s
      let s := if wordBit (x.cdw 10) 31 then
          let l := tput none s.nv.feats fid (tget none s.hqe.feats fid)
          let l := tput none l (fid * 65536 + 1) (tget none s.hqe.feats (fid * 65536 + 1))
          { s with nv := { s.nv with feats := l } } else s
      let dw0 := if fid = 0x07 then featGet 0x03FF03FF (fnOf s x.fn).feats 7 else 0
      finish n 0 dw0 0 s) s

/-- The default of a feature. -/
def featureDefault (fid : Nat) : Word := match fid with
  | 0x07 => 0x03FF03FF
  | 0xC1 => 0xC0320100
  | 0xC2 => 0x0018000A
  | _ => 0

/-- The Drizzle values in force: hours per pass and the bound for a recompute in ms (R311). -/
def drizzlePass (s : State) : Nat := let v := rdF s.bmc.csr BMC_DRZ_CTL.PASS; if v = 0 then 24 else min 720 v
def drizzleStale (s : State) : Nat := max 1 (min 100 (rdF s.bmc.csr BMC_DRZ_CTL.STALE))

/-- The value of a feature by Select: 0 in force, 1 default, 2 saved, 3 what it supports. Interrupt Vector Configuration and
Temperature Threshold are looked up by CDW11. -/
def featureValue (s : State) (f fid sel : Nat) (w11 : Word) : Word × Word :=
  let half := fun (l : List (Nat × Option Word)) => if fid = 0xC1 then featGet 600 l 0xC10001 else 0
  let saves := decide (fid = 0x05 ∨ fid = 0xC0 ∨ fid = 0xC1 ∨ fid = 0xC2)
  match sel with
  | 0 => match fid with
    | 0xC0 => (rd s.elg.csr ELG_CAP &&& 0xC000FFFF, 0)
    | 0xC2 => (BitVec.ofNat 32 (drizzlePass s * 65536 + drizzleStale s), 0)
    | _ => (featGet (featureDefault fid) (if ownFeature fid then (fnOf s f).feats else s.hqe.feats) (featKey fid w11), half s.hqe.feats)
  | 1 => (featureDefault fid, half [])
  | 2 => if saves then (featGet (featureDefault fid) s.nv.feats fid, half s.nv.feats) else (featureDefault fid, 0)
  | _ => (BitVec.ofNat 32 (b2n saves + 4), 0)

/-- GET_FEATURES; Temperature Threshold requests a conversion of every enabled sensor (R380). -/
def getFeatures (n : Nat) (s : State) : State :=
  onAdmin 0x0A n (fun x s =>
    let s := if wordField (x.cdw 10) 7 0 = 0x04 then requestAll s else s
    let v := featureValue s x.fn (wordField (x.cdw 10) 7 0) (wordField (x.cdw 10) 10 8) (x.cdw 11)
    finish n 0 v.1 v.2 s) s

/-- ASYNC_EVENT_REQUEST: held in the function's list of four; its slot is free again. A fifth is refused (AERL 3). -/
def asyncEventRequest (n : Nat) (s : State) : State :=
  onAdmin 0x0C n (fun x s =>
    if 4 ≤ (fnOf s x.fn).aers.length then reply n 0x105 s
    else deliver x.fn (freeSlot n (modFn x.fn (fun y => { y with aers := y.aers ++ [x.cid] }) s))) s

/-! ### Namespaces (R189 to R191, R263) -/

/-- A change of the map that is complete and persistent when its command is (R278): it is journaled, under the
Ledger's reservation, and the key records follow it. -/
def persistMap (ops : List MapOp) (f : MapImage → MapImage) (s : State) : State :=
  keepKeys (journal ops (modMap f s))

/-- The sectors of the device that namespaces may take: the option area's capacity, or all shingled bands. -/
def totalCapacity (s : State) : Nat :=
  let v := (tget 0 s.nv.opt 7).toNat + (tget 0 s.nv.opt 8).toNat * 2 ^ 32
  if v ≠ 0 then v else s.ple.map.bands.foldl (fun n e => match e.2 with
    | some b => if cmrZones s ≤ b.zone then n + b.dcap else n
    | none => n) 0

/-- Three times the sectors that a namespace consumes. -/
def consumes3 (s : State) (n : Ns) : Nat :=
  let u := if n.zoned then n.nsze / max 1 (zsze s n) * zcap s n else n.nsze
  match n.cls with
  | 1 => 4 * u
  | 2 => 6 * u
  | _ => 3 * u

/-- Actuators that are present and not failed. -/
def goodActuators (s : State) : Nat :=
  (([0, 1, 2, 3] : List (Fin 4)).filter (fun k => actExists s k && !mcOutOfService s k)).length

/-- The namespace that a create asks for (R263): its kind by CSI, CDW11 [31:24] of the entry; its format by FLBAS,
whose bits [3:0] name it and bit 4 the place of the metadata, as the NVM Express specifications have both (PRESUMED,
log 260); its class and whether it is encrypted by byte 3,072. -/
def nsAsked (x : Slot) (r : NsReq) (nsid nsx key : Nat) : Ns :=
  let z := decide (wordField (x.cdw 11) 31 24 = 2)
  ⟨nsid, nsx, z, r.byte3072 % 4, if r.byte3072.testBit 7 then key else 0, r.flbas % 16, r.flbas / 16 % 2, r.nsze,
    if z then r.active else 0, false⟩

/-- The checks of a create (R189, R191, R263). -/
def createStatus (s : State) (csi : Nat) (r : NsReq) (n : Ns) : Nat :=
  if csi ≠ 0 ∧ csi ≠ 2 then 0x02
  else if 1 < n.lbaf then 0x10A
  else if n.cls = 3 ∨ (n.cls = 1 ∧ goodActuators s < 4) ∨ (n.cls = 2 ∧ goodActuators s < 2) then 0x02
  else if r.ncap ≠ r.nsze then 0x02
  else if n.zoned ∧ (r.nsze = 0 ∨ r.nsze % zsze s n ≠ 0) then 0x02
  else if 3 * totalCapacity s < s.ple.map.nss.foldl (fun t m => t + consumes3 s m) 0 + consumes3 s n then 0x115
  else if n.zoned ∧ 512 < s.ple.map.nss.foldl (fun t m => t + m.active) 0 + n.active then 0x115
  else if 1024 ≤ s.ple.map.nss.length then 0x116
  else 0

/-- A fresh 512-bit key from the random bit generator (R264); never 0, which marks a namespace without encryption. -/
def freshKey (s : State) : Nat × State := (2 ^ 512 + (takeFree s).1 % 2 ^ 512, (takeFree s).2)

/-- NAMESPACE_CREATE. -/
def namespaceCreate (n : Nat) (r : NsReq) (s : State) : State :=
  onAdmin 0x0D n (fun x s =>
    if wordField (x.cdw 10) 3 0 ≠ 0 then s
    else
      let nsid := (firstFree (s.ple.map.nss.map (fun m => m.nsid)) 1024 1).getD 0
      let nsx := (firstFree (s.ple.map.nss.map (fun m => m.nsx)) 1024 0).getD 0
      let k := freshKey s
      let m := nsAsked x r nsid nsx k.1
      let st := createStatus s (wordField (x.cdw 11) 31 24) r m
      if st ≠ 0 then reply n st s
      else finish n 0 (BitVec.ofNat 32 nsid) 0 (persistMap [.addNs m] (fun y => { y with nss := y.nss ++ [m] }) k.2)) s

/-- Take everything that a namespace index maps out of a map. -/
def unmapNs (nsx : Nat) (m : MapImage) : MapImage :=
  let mine := fun (k : Nat) => decide (k / 2 ^ 36 = nsx)
  let gone := (m.extents.filter (fun e => decide (e.nsx = nsx))).map (fun e => e.echo)
  { m with
    extents := m.extents.filter (fun e => decide (e.nsx ≠ nsx))
    zones := m.zones.filter (fun e => decide (e.1 / 2 ^ 20 ≠ nsx))
    echoes := m.echoes.filter (fun e => !gone.contains e.1)
    dram := m.dram.filter (fun k => !mine k)
    lost := m.lost.filter (fun k => !mine k)
    temps := m.temps.filter (fun r => !mine r.1)
    parity := tdrop m.parity (parityKey nsx 0 0) (parityKey (nsx + 1) 0 0)
    bands := m.bands.map (fun e => (e.1, e.2.map (fun b =>
      if m.zones.any (fun z => decide (z.1 / 2 ^ 20 = nsx) && (match z.2 with
        | some y => y.bands.contains e.1
        | none => false)) then { b with st := 2 } else b))) }

/-- Close streams: what they left open takes no more data. -/
def closeStreams (p : Nat → Bool) (s : State) : State :=
  let s := (s.ple.streamBand.filter (fun e => p e.1 && decide (e.2 ≠ 0))).foldl (fun s e =>
    setBand (e.2 - 1) (fun b => if b.st = 1 then { b with st := 2 } else b) s) s
  freeBands (modPle (fun y => { y with
    streams := y.streams.filter (fun e => !p e.1)
    streamBand := y.streamBand.filter (fun e => !p e.1)
    runs := y.runs.filter (fun e => !p e.1) }) s)

/-- Delete every mapping of a namespace, dirty data included. -/
def clearNs (nsx : Nat) (s : State) : State :=
  let zs := s.ple.map.zones.filter (fun e => decide (e.1 / 2 ^ 20 = nsx))
  let after := (unmapNs nsx s.ple.map).bands
  let bands := (zs.flatMap (fun e => ((e.2.map (fun z => z.bands)).getD []))).map (fun b => MapOp.band b (tget none after b))
  let s := persistMap ([.trim nsx 0 (2 ^ 36), .temp (lkey nsx 0) (2 ^ 36) 0] ++ zs.map (fun e => .zone e.1 none) ++ bands) (unmapNs nsx) s
  freeBands (modPle (fun p => { p with
    dirty := p.dirty.filter (fun e => decide (e.1 / 2 ^ 36 ≠ nsx))
    persisted := p.persisted.filter (fun k => decide (k / 2 ^ 36 ≠ nsx))
    heat := p.heat.filter (fun e => decide (e.1 / 2 ^ 22 ≠ nsx))
    seqs := p.seqs.filter (fun e => decide (e.1 / 2 ^ 36 ≠ nsx))
    streamKeys := p.streamKeys.filter (fun e => decide (e.1 / 2 ^ 36 ≠ nsx)) }) (closeStreams (fun k => decide (k / 65536 = nsx)) s))

/-- Note a namespace's change for log 04h of the functions that see it, with the notice where a function enables it. -/
def noteChanged (nsid : Nat) (s : State) : State :=
  (s.hqe.fns.map Prod.fst).foldl (fun s f =>
    let x := fnOf s f
    if x.nss.contains nsid ∧ ¬ x.changed.contains nsid then
      let s := modFn f (fun y => { y with changed := y.changed ++ [nsid] }) s
      if wordBit (featGet 0 x.feats 0x0B) 8 then queueEvent f (aerWord 2 0 4) s else s
    else s) s

/-- NAMESPACE_DELETE: one namespace, or all. -/
def namespaceDelete (n : Nat) (s : State) : State :=
  onAdmin 0x0D n (fun x s =>
    if wordField (x.cdw 10) 3 0 ≠ 1 then s
    else
      let nsid := (x.cdw 1).toNat
      let gone := s.ple.map.nss.filter (fun m => decide (nsid = 0xFFFFFFFF ∨ m.nsid = nsid))
      let s := gone.foldl (fun s m =>
        let s := noteChanged m.nsid (clearNs m.nsx s)
        let s := persistMap [.delNs m] (fun y => { y with nss := y.nss.filter (fun k => decide (k.nsid ≠ m.nsid)) }) s
        let s := modHqe (fun h => { h with peers := h.peers.filter (fun e => decide (e.2 ≠ m.nsid)) }) s
        (s.hqe.fns.map Prod.fst).foldl (fun s f => modFn f (fun y => { y with nss := y.nss.filter (· ≠ m.nsid) }) s) s) s
      reply n 0 s) s

/-- The controllers of the subsystem: this device's, and in pair mode the partner's too (R5, R234). -/
def controllers (s : State) : List Nat :=
  if inPair s then (List.range 512).map (· + 1) else (List.range 256).map (cntlid s)

/-- The function of this device behind a CNTLID. -/
def fnOfCntlid (s : State) (c : Nat) : Option Nat := (List.range 256).find? (fun f => decide (cntlid s f = c))

/-- Whether a namespace is attached to a controller of the subsystem. -/
def attachedTo (s : State) (nsid c : Nat) : Bool := match fnOfCntlid s c with
  | some f => (fnOf s f).nss.contains nsid
  | none => s.hqe.peers.contains (c, nsid)

/-- Attach a namespace to a controller, or detach it. How the partner learns of it is not stated: this device keeps
what it was told (DESIGN CHOICE, log 195). -/
def attach (on : Bool) (nsid c : Nat) (s : State) : State := match fnOfCntlid s c with
  | some f => modFn f (fun y => { y with nss := if on then y.nss ++ [nsid] else y.nss.filter (· ≠ nsid) }) s
  | none => modHqe (fun h => { h with
      peers := if on then h.peers ++ [(c, nsid)] else h.peers.filter (fun e => decide (e ≠ (c, nsid))) }) s

/-- NAMESPACE_ATTACHMENT: attach to or detach from the controllers of a list, by CNTLID, those of the partner among
them (R5, R259). -/
def namespaceAttachment (n : Nat) (ctrls : List Nat) (s : State) : State :=
  onAdmin 0x15 n (fun x s =>
    let nsid := (x.cdw 1).toNat
    let on := decide (wordField (x.cdw 10) 3 0 = 0)
    if ctrls.any (fun c => !(controllers s).contains c) then reply n 0x11C s
    else if on && ctrls.any (attachedTo s nsid) then reply n 0x118 s
    else if !on && ctrls.any (fun c => !attachedTo s nsid c) then reply n 0x11A s
    else if on then reply n 0 (noteChanged nsid (ctrls.foldl (fun s c => attach true nsid c s) s))
    else reply n 0 (ctrls.foldl (fun s c => attach false nsid c s) (noteChanged nsid s))) s

/-! ### Directives (R259, R262) -/

/-- DIRECTIVE_SEND: enable or disable Streams, release one stream identifier or all of a namespace's. -/
def directiveSend (n : Nat) (s : State) : State :=
  onAdmin 0x19 n (fun x s =>
    let nsid := (x.cdw 1).toNat
    let op := wordField (x.cdw 11) 7 0
    let nsx := ((nsById s nsid).map (fun m => m.nsx)).getD 1023
    if wordField (x.cdw 11) 15 8 = 0 then
      (if wordField (x.cdw 12) 15 8 ≠ 1 then reply n 0x02 s
       else
        let rest := (fnOf s x.fn).streams.filter (· ≠ nsid)
        let l := if wordBit (x.cdw 12) 0 then nsid :: rest else rest
        reply n 0 (modFn x.fn (fun y => { y with streams := l }) s))
    else if op = 1 then reply n 0 (closeStreams (fun k => decide (k = nsx * 65536 + wordField (x.cdw 11) 31 16)) s)
    else reply n 0 (closeStreams (fun k => decide (k / 65536 = nsx)) s)) s

/-- The open stream identifiers of a namespace: those that a write has named since it was last closed. -/
def openStreams (s : State) (nsid : Nat) : List Nat :=
  match nsById s nsid with
  | none => []
  | some m => (s.ple.runs.filter (fun e => decide (e.1 / 65536 = m.nsx ∧ e.1 % 65536 ≠ 0))).map (fun e => e.1 % 65536)

/-- DIRECTIVE_RECEIVE: the directives and those enabled; the Streams parameters of R262, status, or an allocation. -/
def directiveReceive (n : Nat) (s : State) : State :=
  onAdmin 0x1A n (fun x s =>
    let nsid := (x.cdw 1).toNat
    let op := wordField (x.cdw 11) 7 0
    let on := (fnOf s x.fn).streams.contains nsid
    let opens := openStreams s nsid
    let give := fun (l : List Nat) => reply n 0 (modSlot n (fun y => { y with data := l }) s)
    if wordField (x.cdw 11) 15 8 = 0 then
      give ([3] ++ List.replicate 31 0 ++ [1 + 2 * b2n on] ++ List.replicate 4063 0)
    else match op with
      | 1 => give (bytesLE 2 256 ++ bytesLE 2 256 ++ bytesLE 2 opens.length ++ List.replicate 10 0 ++ bytesLE 4 64 ++
          bytesLE 2 (bandQuantum s / 64) ++ bytesLE 2 0 ++ bytesLE 2 opens.length ++ List.replicate 6 0)
      | 2 => give (bytesLE 2 opens.length ++ opens.flatMap (bytesLE 2))
      | _ => finish n 0 (BitVec.ofNat 32 (min 256 (wordField (x.cdw 12) 15 0))) 0 s) s

/-! ### Firmware (R259, R295, R417) -/

/-- FIRMWARE_IMAGE_DOWNLOAD: part of an image, of which the whole is known by the number `image`. -/
def firmwareImageDownload (n image : Nat) (s : State) : State :=
  onAdmin 0x11 n (fun _ s => reply n 0 { s with nv := { s.nv with fwBuf := image } }) s

/-- The image that a firmware slot holds, 0 for none. -/
def fwSlot (s : State) (k : Nat) : Nat := if k = 2 then s.nv.fwSlots.2 else s.nv.fwSlots.1

/-- The slot that a commit names; 0 leaves the choice to the device: the slot not active. -/
def fwTarget (s : State) (fs : Nat) : Nat := if fs = 0 then (if s.nv.fwActive = 1 then 2 else 1) else fs

/-- Whether a firmware image supports a map format epoch (R417). -/
def supportsEpoch (image e : Nat) : Bool :=
  let r := Config.firmwareEpochs image
  decide (r.1 ≤ e ∧ e ≤ r.2)

/-- FIRMWARE_COMMIT with actions 0 to 2: the downloaded image goes to a slot, and actions 1 and 2 record the slot for the
next boot. Firmware without the format epoch in force is not activated (R417). -/
def firmwareCommit (n : Nat) (sigOk : Bool) (s : State) : State :=
  onAdmin 0x10 n (fun x s =>
    let act := wordField (x.cdw 10) 5 3
    let k := fwTarget s (wordField (x.cdw 10) 2 0)
    if act = 3 then s
    else if act ≤ 1 ∧ (s.nv.fwBuf = 0 ∨ ¬ sigOk) then reply n 0x107 s
    else if act = 2 ∧ (fwSlot s k = 0 ∨ ¬ sigOk) then reply n 0x107 s
    else if act ≠ 0 ∧ ¬ supportsEpoch (if act = 1 then s.nv.fwBuf else fwSlot s k) s.ple.map.epoch then reply n 0x113 s
    else
      let slots := if 1 < act then s.nv.fwSlots else if k = 2 then (s.nv.fwSlots.1, s.nv.fwBuf) else (s.nv.fwBuf, s.nv.fwSlots.2)
      reply n 0 { s with nv := { s.nv with
        fwSlots := slots
        fwNext := if act = 0 then s.nv.fwNext else k } }) s

/-- FIRMWARE_ACTIVATE (action 3): the slot is recorded, fetching stops, and in-flight commands drain. -/
def firmwareActivate (n : Nat) (sigOk : Bool) (s : State) : State :=
  onAdmin 0x10 n (fun x s =>
    let k := fwTarget s (wordField (x.cdw 10) 2 0)
    if wordField (x.cdw 10) 5 3 ≠ 3 ∨ s.hqe.activating.isSome then s
    else if fwSlot s k = 0 ∨ ¬ sigOk then reply n 0x107 s
    else if !supportsEpoch (fwSlot s k) s.ple.map.epoch then reply n 0x113 s
    else
      let s := modSlot n (fun y => { y with st := .active }) { s with nv := { s.nv with fwNext := k } }
      -- a device in pair service first hands over its roles (R418)
      if pairService s && (serving s || decide (ownedMask s ≠ 0)) then
        let s := modTdl (fun t => { t with prep := some n }) s
        if serving s then anaChange (modTdl (fun t => { t with serving := .leaving }) s) else s
      else modHqe (fun h => { h with activating := some (n, false) }) s) s

/-- Interrupt what can still be aborted (R295 step 3, R415 step 2). -/
def interruptAll (s : State) : State :=
  let l := s.hqe.slots.filterMap (fun e => match e.2 with
    | some x => if outstandingCmd x && !adminSlot e.1 && !pastReturn s e.1 x then some e.1 else none
    | none => none)
  advanceAll (l.foldl (fun s n => failCmd n 0x21 s) s)

/-- FIRMWARE_ACTIVATE_DRAIN_TIMEOUT. -/
def firmwareActivateDrainTimeout (s : State) : State :=
  match s.hqe.activating with
  | some (n, false) => interruptAll (modHqe (fun h => { h with activating := some (n, true) }) s)
  | _ => s

/-- FIRMWARE_ACTIVATE_DONE: every other command has its completion ready; the new firmware has taken over. -/
def firmwareActivateDone (s : State) : State :=
  match s.hqe.activating with
  | none => s
  | some (n, _) =>
    if s.hqe.slots.any (fun e => match e.2 with
        | some x => decide (e.1 ≠ n) && outstandingCmd x && (!adminSlot e.1 || decide (x.st = .fetched))
        | none => false) then s
    else
      let s := modHqe (fun h => { h with activating := none }) { s with nv := { s.nv with fwActive := s.nv.fwNext } }
      let f := ((slotAt s n).map (fun x => x.fn)).getD 0
      let s := match slotAt s n with
        | some x => if x.opc = 0x10 ∧ x.st = .active then reply n 0 s else s
        | none => s
      firmwareEvent (reportC1 6 0 (cntlid s f) 0 [] s)

/-! ### Format (R265, R266) -/

/-- Update one namespace, persistently. -/
def persistNs (nsid : Nat) (g : Ns → Ns) (s : State) : State :=
  persistMap ((s.ple.map.nss.filter (fun x => decide (x.nsid = nsid))).map (fun x => MapOp.addNs (g x)))
    (fun m => { m with nss := m.nss.map (fun x => if x.nsid = nsid then g x else x) }) s

/-- Begin a namespace's format: its start is recorded, its key replaced, its mapping deleted, and the format applied. -/
def formatOne (lbaf mset : Nat) (s : State) (x : Ns) : State :=
  let k := freshKey s
  let s := persistNs x.nsid (fun y => { y with
    formatting := true
    key := if y.key = 0 then 0 else k.1
    lbaf := lbaf
    mset := mset }) k.2
  noteChanged x.nsid (clearNs x.nsx s)

/-- FORMAT_NVM. -/
def formatNvm (n : Nat) (s : State) : State :=
  onAdmin 0x80 n (fun x s =>
    let nsid := (x.cdw 1).toNat
    let w := x.cdw 10
    let l := s.ple.map.nss.filter (fun m => decide (nsid = 0xFFFFFFFF ∨ m.nsid = nsid))
    if l = [] then reply n 0 s
    else l.foldl (formatOne (wordField w 3 0) (wordField w 4 4)) (modSlot n (fun y => { y with st := .active }) s)) s

/-- FORMAT_COMPLETE: a running format records its end; a Format NVM whose namespaces are all done completes. -/
def formatComplete (nsid : Nat) (s : State) : State :=
  if !(s.ple.map.nss.any (fun m => decide (m.nsid = nsid) && m.formatting)) then s
  else
    let s := persistNs nsid (fun y => { y with formatting := false }) s
    s.hqe.slots.foldl (fun s e => match e.2 with
      | some x =>
        let mine := fun (m : Ns) => decide ((x.cdw 1).toNat = 0xFFFFFFFF ∨ (x.cdw 1).toNat = m.nsid)
        if x.opc = 0x80 ∧ adminSlot e.1 ∧ x.st = .active ∧ ¬ s.ple.map.nss.any (fun m => mine m && m.formatting) then
          reply e.1 0 s else s
      | none => s) s

/-! ### Sanitize (R267, R268) -/

/-- The user data's end (R267): every key is replaced, the map cleared, the dumps, the journal and the snapshots are
erased, and DRAM is cleared but for the wear table, which is no user data. A snapshot of what is left, the namespaces
and the bands, takes the place of the erased ones: no rule says how they outlast the erasure (DESIGN CHOICE, log 258).
-/
def cryptoErase (s : State) : State :=
  let rekey := fun (s : State) (x : Ns) =>
    let k := freshKey s
    persistNs x.nsid (fun y => { y with key := if y.key = 0 then 0 else k.1 }) k.2
  let s := s.ple.map.nss.foldl rekey s
  let s := s.ple.map.nss.foldl (fun s x => clearNs x.nsx s) s
  let snap : Snap := ⟨s.ple.snapNum + 1, s.ple.jseq, bareMap s.ple.map⟩
  let wear := (wearTable s).map (fun e => (wearAddr s 0 + e.1, e.2))
  dramPut wear { modPle (fun p => { p with
      snapNum := snap.num
      snapSeq := snap.seq
      snapping := none
      jflushed := p.jseq
      jbuf := []
      jout := none
      jring := [] }) s with
    nv := { s.nv with dump := none, predump := [], pretail := [], snaps := [snap], ring := [] }
    bmc := { s.bmc with stale := [] }
    staging := []
    mem := [] }

/-- Keep the sanitize's record. -/
def putSan (z : Sanitize) (s : State) : State :=
  { modHqe (fun h => { h with san := z }) s with nv := { s.nv with san := z } }

/-- The bands that an overwrite writes, in order: every band of the heads of owned actuators. -/
def sanitizeBands (s : State) : List (Nat × Band) := bandsWhere s (fun _ b => actOwned s (mcIx b.mc))

/-- A data field filled with a 32-bit pattern. -/
def patternData (p : Nat) : Nat := (List.range 1024).foldl (fun x i => x + p * 2 ^ (32 * i)) 0

/-- Write the pattern to every slot of a band, retired tracks and slots out of use among them, with its tags. -/
def overwriteBand (b : Band) (p : Nat) (s : State) : State :=
  let pat := ((zoneEntry s (mcIx b.mc) false b.head b.zone).getD 4 0).toNat
  let slots := entF (bandZfd s b) 3 26 16
  (bandTracks s { b with skips := [] }).foldl (fun s t => (List.range slots).foldl (fun s k =>
    let a := packAddr b.mc b.head t k
    { s with media := tput MediaSector.blank s.media a ⟨patternData p, tagSeed b.gen (fmtId s) a, pat, true⟩ }) s) s

/-- The Sanitize command in a slot completes. -/
def sanitizeReply (status : Nat) (s : State) : State :=
  s.hqe.slots.foldl (fun s e => match e.2 with
    | some x => if x.opc = 0x84 ∧ adminSlot e.1 ∧ x.st = .active then reply e.1 status s else s
    | none => s) s

/-- SANITIZE_EXIT_FAILURE: allowed where the failed sanitize had AUSE. -/
def sanitizeExitFailure (n : Nat) (s : State) : State :=
  onAdmin 0x84 n (fun x s =>
    if wordField (x.cdw 10) 2 0 ≠ 1 then s
    else if s.hqe.san.st ≠ 3 then reply n 0 s
    else if s.hqe.san.ause then reply n 0 (putSan { s.hqe.san with st := 4 } s)
    else reply n 0x1C s) s

/-- SANITIZE_CRYPTO_ERASE. -/
def sanitizeCryptoErase (n : Nat) (s : State) : State :=
  onAdmin 0x84 n (fun x s =>
    if wordField (x.cdw 10) 2 0 ≠ 4 then s
    else reply n 0 (putSan ⟨1, 4, 0, 0, 0, 0, false, wordBit (x.cdw 10) 3⟩ (cryptoErase s))) s

/-- SANITIZE_OVERWRITE: the crypto-erase steps, then the bands. -/
def sanitizeOverwrite (n : Nat) (s : State) : State :=
  onAdmin 0x84 n (fun x s =>
    let w := x.cdw 10
    if wordField w 2 0 ≠ 3 then s
    else
      let passes := if wordField w 7 4 = 0 then 16 else wordField w 7 4
      let s := modSlot n (fun y => { y with st := .active }) (cryptoErase s)
      let z : Sanitize := ⟨2, 3, 0, passes, 0, x.cdw 11, wordBit w 8, wordBit w 3⟩
      if (sanitizeBands s).isEmpty then reply n 0 (putSan { z with st := 1 } s) else putSan z s) s

/-- SANITIZE_BAND_DONE: the next band is written and its progress recorded; a head or actuator fault fails the sanitize. -/
def sanitizeBandDone (fault : Bool) (s : State) : State :=
  let z := s.hqe.san
  if z.st ≠ 2 then s
  else if fault then sanitizeReply 0x1C (putSan { z with st := 3 } s)
  else match (sanitizeBands s)[z.band]? with
    | none => s
    | some (_, b) =>
      let p := if z.invert ∧ z.pass % 2 = 1 then 0xFFFFFFFF - z.pat.toNat else z.pat.toNat
      let s := overwriteBand b p s
      if z.band + 1 < (sanitizeBands s).length then putSan { z with band := z.band + 1 } s
      else if z.pass + 1 < z.passes then putSan { z with band := 0, pass := z.pass + 1 } s
      else sanitizeReply 0 (putSan { z with st := 1, band := z.band + 1, pass := z.passes } s)

/-! ### Unlocks (R271, R272) -/

/-- The device unique identifier of the option area. -/
def deviceUid (s : State) : Nat := (tget 0 s.nv.opt 9).toNat + (tget 0 s.nv.opt 10).toNat * 2 ^ 32

/-- NONCE_REQUEST: a fresh 64-bit nonce, valid for 10 min of operating time. -/
def nonceRequest (n : Nat) (s : State) : State :=
  onAdmin 0xC6 n (fun x s =>
    if !wordBit (x.cdw 13) 31 then s
    else
      let f := takeFree s
      let v := f.1 % 2 ^ 64
      finish n 0 (BitVec.ofNat 32 v) (BitVec.ofNat 32 (v / 2 ^ 32))
        (modHqe (fun h => { h with nonce := some (x.fn, v, nowSec s + 600) }) f.2)) s

/-- Whether an operating time in seconds has been reached. -/
def reached (s : State) (sec : Nat) : Bool := decide (sec ≤ nowSec s)

/-- NONCE_EXPIRY: a nonce whose 10 min are over is gone. -/
def nonceExpiry (s : State) : State :=
  if s.hqe.nonce.any (fun k => reached s k.2.2) then modHqe (fun h => { h with nonce := none }) s else s

/-- Bytes of an unlock token as a number, least significant first (R272). -/
def tokenLe (t : List Nat) (i n : Nat) : Nat := (List.range n).foldl (fun v j => v + t.getD (i + j) 0 % 256 * 256 ^ j) 0

/-- The unlock key of the option area; 0 where none is enrolled. -/
def unlockKey (s : State) : Nat := enrolledKey s 724

/-- Whether a token is valid in every field (R272). -/
def tokenOk (s : State) (t : List Nat) : Bool :=
  decide (t.length = 160 ∧ tokenLe t 0 4 = 0x544B4C55 ∧ tokenLe t 4 2 = 1 ∧ tokenLe t 6 2 < 4 ∧ tokenLe t 8 8 = deviceUid s) &&
  s.hqe.nonce.any (fun k => decide (k.2.1 = tokenLe t 16 8) && !reached s k.2.2) &&
  decide (1 ≤ tokenLe t 24 4 ∧ tokenLe t 24 4 ≤ 86400 ∧ tokenLe t 28 36 = 0) &&
  signedBy (unlockKey s) (t.take 64) (bytesBe ((t.drop 64).take 48)) (bytesBe ((t.drop 112).take 48))

/-- UNLOCK_TOKEN: the nonce is spent either way. -/
def unlockToken (n : Nat) (t : List Nat) (s : State) : State :=
  onAdmin 0xC5 n (fun x s =>
    if !wordBit (x.cdw 13) 31 then s
    else
      let ok := tokenOk s t
      let s := modHqe (fun h => { h with nonce := none }) s
      if ok then reply n 0 (modHqe (fun h => { h with unlock := some ⟨x.fn, tokenLe t 6 2, nowSec s + tokenLe t 24 4⟩ }) s)
      else reply n 0x1C0 s) s

/-- UNLOCK_END. -/
def unlockEnd (n : Nat) (s : State) : State :=
  onAdmin 0xC5 n (fun x s =>
    if wordBit (x.cdw 13) 31 ∨ ¬ wordBit (x.cdw 13) 30 then s
    else reply n 0 (if (s.hqe.unlock.map (fun u => u.fn)) = some x.fn then
      modHqe (fun h => { h with unlock := none }) s else s)) s

/-- UNLOCK_EXPIRY: an unlock whose DURATION is over is gone. -/
def unlockExpiry (s : State) : State :=
  if s.hqe.unlock.any (fun u => reached s u.ends) then modHqe (fun h => { h with unlock := none }) s else s

/-- Whether a function holds an unlock of a scope that has not run out: bit 0 CSR Read, bit 1 CSR Write. -/
def unlocked (s : State) (f bit : Nat) : Bool := match s.hqe.unlock with
  | some u => decide (u.fn = f) && u.scope.testBit bit && !reached s u.ends
  | none => false

/-! ### Microprogram Load (R135 to R137) -/

/-- The MCs of a load's mask. -/
def loadMask (x : Slot) : List (Fin 4) := ([0, 1, 2, 3] : List (Fin 4)).filter (fun k => wordBit (x.cdw 11) k.val)

/-- MICROPROGRAM_LOAD: the image is checked before anything changes; then customer-region jobs of the mask are held. -/
def microprogramLoad (n : Nat) (img : GrlnImage) (s : State) : State :=
  onAdmin 0xC1 n (fun x s =>
    match imageStatus s img ((loadMask x).any (fun k => !actExists s k)) with
    | some (st, i) => finish n (0x100 + st) (BitVec.ofNat 32 i) 0 s
    | none => (loadMask x).foldl (fun s k => modMc k (fun m => { m with loadHold := true }) s)
        (modSlot n (fun y => { y with st := .active })
          { s with hqe := { s.hqe with images := tput none s.hqe.images n (some img) } })) s

/-- The active load in a slot. -/
def onLoad (n : Nat) (f : Slot → State → State) (s : State) : State :=
  match slotAt s n with
  | none => s
  | some x => if x.opc = 0xC1 ∧ adminSlot n ∧ x.st = .active then f x s else s

/-- The image in DRAM: each word as 18 bytes at its place in the MC's copy (R132). -/
def imageToDram (k : Fin 4) (s : State) : State :=
  let m := mcOf s k
  let base := (rd m.csr MSQ_IMG_BASE).toNat * 4096 + 32 * 0x3800
  dramPut ((List.range 2048).flatMap (fun i => (List.range 18).map (fun j =>
    (base + 32 * i + j, BitVec.ofNat 8 (byteOf ((fetchWord m (0x3800 + i)).getD 0) j))))) s

/-- MICROPROGRAM_LOAD_QUIESCED: with the image that was checked, the region is replaced in the store and in the image,
and the held jobs are released. The Persistence Array keeps the image for the boot. -/
def microprogramLoadQuiesced (n : Nat) (s : State) : State :=
  onLoad n (fun x s =>
    let img := (tget none s.hqe.images n).getD ⟨[]⟩
    if (loadMask x).all (fun k => customerQuiet (mcOf s k)) then
      let s := (loadMask x).foldl (fun s k => imageToDram k (modMc k (loadRegion img) s)) s
      let keep := fun (l : List (Nat × Option GrlnImage)) (k : Fin 4) => tput none l k.val (some img)
      reply n 0 { s with
        nv := { s.nv with custImg := (loadMask x).foldl keep s.nv.custImg }
        hqe := { s.hqe with images := tput none s.hqe.images n none } }
    else s) s

/-- MICROPROGRAM_LOAD_TIMEOUT. -/
def microprogramLoadTimeout (n : Nat) (s : State) : State :=
  onLoad n (fun x s => reply n 0x1C6
    ((loadMask x).foldl (fun s k => modMc k (fun m => { m with loadHold := false }) s)
      { s with hqe := { s.hqe with images := tput none s.hqe.images n none } })) s

end Sys2Proof.Machine
end

