-- ==== Sys2Proof/Machine/Cache.lean ====
section
/-! DEFINITION. The Map Cache (R315 to R321). -/

namespace Sys2Proof.Machine

/-- Update the Map Cache and its registers. -/
def modMpc (f : Mpc → Mpc) (s : State) : State := { s with mpc := f s.mpc }
def mpcReg (f : List (Nat × Word) → List (Nat × Word)) (s : State) : State := modMpc (fun m => { m with csr := f m.csr }) s

/-- The set of a line (R315). -/
def mpcSet (line : Nat) : Nat := line % 8192

/-- A valid line. -/
def mpcFind (s : State) (line : Nat) : Option MpcLine := s.mpc.lines.find? (fun x => decide (x.line = line))

/-- An eviction buffer entry. -/
def ebFind (s : State) (line : Nat) : Option EbEntry := s.mpc.eb.find? (fun x => decide (x.line = line))

/-- The valid lines of a set. -/
def setLines (s : State) (line : Nat) : List MpcLine := s.mpc.lines.filter (fun x => decide (mpcSet x.line = mpcSet line))

/-- A page that delivers what was written to it. -/
def cleanPage : PageErr := ⟨[], [], []⟩

/-- Whether a page holds Band Map data: the region that PLE_MAP_BASE and PLE_MAP_SIZE give, at 16 bytes a record (R308). -/
def bandMapPage (s : State) (n : Nat) : Bool :=
  let base := (rd s.ple.csr PLE_MAP_BASE).toNat
  decide (base ≤ n ∧ n < base + 4 * (rd s.ple.csr PLE_MAP_SIZE).toNat)

/-- Read a line from DRAM through the BMC, which checks it, rebuilds it where it can, and poisons what it cannot give
(R307, R308, R313, R314). -/
def dramRead (line : Nat) (e : PageErr) (s : State) : State :=
  bufferRead (line / 64) (64 * (line % 64)) 64 (if bandMapPage s (line / 64) then .bandMap else .other) 11 e s

/-- Write a line's bytes to DRAM: whole bytes of a page, as a partial write of the BMC (R306). -/
def toDram (line : Nat) (bytes : List Byte) (s : State) : State :=
  bufferWrite (line / 64) ((List.range 64).map (fun i => (64 * (line % 64) + i, bytes.getD i 0))) 11 s

/-- Replace bytes of a line. -/
def mergeBytes (old : List Byte) (w : List (Nat × Byte)) : List Byte :=
  (List.range 64).map (fun i => match w.find? (fun e => decide (e.1 = i)) with
    | some e => e.2
    | none => old.getD i 0)

/-- Put a line into the array in place of any entry of the same line, as the one most recently used. -/
def putLine (x : MpcLine) (s : State) : State :=
  modMpc (fun m => { m with lines := x :: m.lines.filter (fun y => decide (y.line ≠ x.line)) }) s
def dropLine (line : Nat) (s : State) : State :=
  modMpc (fun m => { m with lines := m.lines.filter (fun y => decide (y.line ≠ line)) }) s

/-- Change a line where it stands. -/
def editLine (x : MpcLine) (s : State) : State :=
  modMpc (fun m => { m with lines := m.lines.map (fun y => if y.line = x.line then x else y) }) s

/-- Make room for a line in its set: a free way, or a victim among the unlocked ways. R315's pseudo-LRU leaves open which
of them, but never the one most recently used, where there is another (log 242). A dirty victim enters the eviction buffer,
and with the buffer full the allocation waits. -/
def makeRoom (line : Nat) (s : State) : Option State :=
  let ways := setLines s line
  if ways.length < 16 then some s
  else
    let all := ways.filter (fun x => !x.locked)
    let open_ := if 1 < all.length ∧ (ways.head?.map (fun x => x.locked)) = some false then all.drop 1 else all
    let f := takeFree s
    match open_[f.1 % max 1 open_.length]? with
    | none => none
    | some v =>
      let t := dropLine v.line f.2
      if v.dirty then
        (if 16 ≤ t.mpc.eb.length then none
         else some (modMpc (fun m => { m with eb := m.eb ++ [⟨v.line, false, v.bytes⟩] }) t))
      else some t

/-- The answer to a requester. -/
def mpcAnswer (out : List Byte) (poison : Bool) (s : State) : State := modMpc (fun m => { m with out := out, poison := poison }) s

/-- A read or a write of a line that the array holds. -/
def mpcHit (x : MpcLine) (w : List (Nat × Byte)) (s : State) : State :=
  if w.isEmpty then mpcAnswer x.bytes false (putLine x s)
  else mpcAnswer [] false (putLine { x with bytes := mergeBytes x.bytes w, dirty := true } s)

/-- Fill a line from DRAM and serve the request; `cnt` says that the request has missed the array. A request that
waits for room counts once it has it. A line that the BMC refuses or poisons is not filled, and the requester receives
the poison. -/
def mpcFill (cnt : Bool) (line : Nat) (w : List (Nat × Byte)) (e : PageErr) (s : State) : State :=
  match makeRoom line s with
  | none => s
  | some t =>
    let t := dramRead line e (if cnt then mpcReg (fun c => incR c MPC_MISS 1) t else t)
    if t.bmc.poison then mpcAnswer [] true t
    else mpcHit ⟨line, false, false, t.bmc.out⟩ w (putLine ⟨line, false, false, t.bmc.out⟩ t)

/-- An access that misses the array snoops the eviction buffer (R317). `issued` says that the writeback's issue won against
the snoop. A write that waits for the writeback counts its snoop hit, and its miss once it allocates. -/
def mpcSnoop (cnt : Bool) (line : Nat) (w : List (Nat × Byte)) (issued : Bool) (e : EbEntry) (s : State) : State :=
  let out := e.issued || issued
  let mark := fun (s : State) => modMpc (fun m => { m with eb := m.eb.map (fun x => if x.line = line then { x with issued := out } else x) }) s
  let hit := fun (s : State) => mpcReg (fun c => incR (if cnt then incR c MPC_MISS 1 else c) MPC_EBHIT 1) s
  if w.isEmpty then
    match makeRoom line s with
    | none => s
    | some t =>
      let t := putLine ⟨line, !out, false, e.bytes⟩ (hit t)
      let t := if out then mark t else modMpc (fun m => { m with eb := m.eb.filter (fun x => decide (x.line ≠ line)) }) t
      mpcAnswer e.bytes false t
  else if out then mark (mpcReg (fun c => incR c MPC_EBHIT 1) s)
  else mpcAnswer [] false (hit (modMpc (fun m => { m with
    eb := m.eb.map (fun x => if x.line = line then { x with bytes := mergeBytes x.bytes w } else x) }) s))

/-- MPC_REQUEST (R315, R317, R320, R321): with the cache off the request goes to the BMC; otherwise it hits, misses and
allocates, or is served from the eviction buffer. `w` holds the bytes of a write, or nothing for a read. -/
def mpcRequest (line : Nat) (w : List (Nat × Byte)) (issued : Bool) (i : MpcIn) (s : State) : State :=
  if !bmcServes s ∨ bufferPages s ≤ line / 64 then s
  else if !rdB s.mpc.csr MPC_CTL.EN then
    (if !w.isEmpty then
       let t := bufferWrite (line / 64) (w.map (fun e => (64 * (line % 64) + e.1 % 64, e.2))) 11 s
       mpcAnswer [] (parityPage s (line / 64)) t
     else
       let t := dramRead line i.page s
       mpcAnswer t.bmc.out t.bmc.poison t)
  else match mpcFind s line with
    | some x =>
      let unc := mpcReg (fun c => incR c MPC_UNCORR 1)
      (match i.way with
       | .none => mpcHit x w (mpcReg (fun c => incR c MPC_HIT 1) s)
       | .single => mpcHit x w (mpcReg (fun c => incR (incR c MPC_CORR 1) MPC_HIT 1) s)
       | .double =>
         let t := unc (dropLine line s)
         if x.dirty then mpcAnswer [] true (machineCheck 11 0x01 1 (BitVec.ofNat 32 line) 0 t) else mpcFill false line w i.page t
       | .tag maybe =>
         let t := unc (dropLine line s)
         if maybe then
           let f := takeFree t
           mpcFill true line w i.page (machineCheck 11 0x02 1 (BitVec.ofNat 32 (mpcSet line)) (BitVec.ofNat 32 (f.1 % 16)) f.2)
         else mpcFill true line w i.page t)
    | none => match ebFind s line with
      | some e => mpcSnoop true line w issued e s
      | none => mpcFill true line w i.page s

/-- Whether the BMC takes a line now; its refusal of a parity page ends the access too. -/
def dramTakes (s : State) (line : Nat) : Bool := bmcServes s && decide (line / 64 < bufferPages s)

/-! ### Locks (R316) -/

/-- Refuse a lock command. -/
def lockRefuse (code : Nat) (s : State) : State := mpcReg (fun c => wrF (wrB c MPC_LOCK_CMD.ERR true) MPC_LOCK_CMD.ECODE code) s
def lockDone (s : State) : State := mpcReg (fun c => wrF (wrB c MPC_LOCK_CMD.ERR false) MPC_LOCK_CMD.ECODE 0) s

/-- The line that MPC_LOCK_LINE names. -/
def lockLine (s : State) : Nat := (rd s.mpc.csr MPC_LOCK_LINE).toNat

/-- LOCK: the line is filled if it is absent, or reinstalled from the eviction buffer first, and marked; a fifth
locked way in a set is refused. A line that finds no room waits, with GO at 1, for an entry of the eviction buffer to
complete. A line that the BMC cannot give is not locked: the command ends with ERR and ECODE 0 (DESIGN CHOICE, log
249). -/
def lockFor (line : Nat) (s : State) : State :=
  let s := modMpc (fun m => { m with locking := none }) s
  let mark := fun (s : State) => match mpcFind s line with
    | none => lockRefuse 0 s
    | some x => lockDone (editLine { x with locked := true } s)
  match mpcFind s line with
  | some x => if x.locked then lockDone s
    else if 4 ≤ ((setLines s line).filter (fun y => y.locked)).length then lockRefuse 1 s else mark s
  | none =>
    if 4 ≤ ((setLines s line).filter (fun y => y.locked)).length then lockRefuse 1 s
    else if (makeRoom line s).isNone then modMpc (fun m => { m with locking := some line }) s
    else match ebFind s line with
      | some e => mark (mpcSnoop false line [] false e s)
      | none => mark (mpcFill false line [] cleanPage s)

/-- A GO with OP LOCK; one that comes while a LOCK waits is ignored (DESIGN CHOICE, log 249). -/
def mpcLock (s : State) : State := if s.mpc.locking.isSome then s else lockFor (lockLine s) s

/-- EVICTION_WRITEBACK_DONE (R317): the line is in DRAM, its entry is free, and a LOCK that waited for room goes on. -/
def evictionWritebackDone (line : Nat) (s : State) : State :=
  match ebFind s line with
  | none => s
  | some e =>
    if dramTakes s line then
      let t := modMpc (fun m => { m with eb := m.eb.filter (fun x => decide (x.line ≠ line)) }) (toDram line e.bytes s)
      match t.mpc.locking with
      | none => t
      | some l => lockFor l t
    else s

/-- UNLOCK: refused for a line that is not locked. -/
def mpcUnlock (s : State) : State :=
  if s.mpc.locking.isSome then s
  else match mpcFind s (lockLine s) with
  | some x => if x.locked then lockDone (editLine { x with locked := false } s) else lockRefuse 2 s
  | none => lockRefuse 2 s

/-- A GO of MPC_LOCK_CMD by OP; a reserved OP is refused with ECODE 0. -/
def lockGo (s : State) : State := match rdF s.mpc.csr MPC_LOCK_CMD.OP with
  | 1 => mpcLock s
  | 2 => mpcUnlock s
  | _ => if s.mpc.locking.isSome then s else lockRefuse 0 s

/-! ### Range operations (R318, R319) -/

/-- Whether a line is in a range. -/
def inRange (base len line : Nat) : Bool := decide (base ≤ line ∧ line < base + len)

/-- What the engine does with one line at its visit, and whether that counts as skipped. -/
def visitLine (op : Nat) (x : MpcLine) (s : State) : State :=
  let skip := fun (s : State) => mpcReg (fun c => wrB (wrF c MPC_RANGE_STAT.SKIPCNT (rdF c MPC_RANGE_STAT.SKIPCNT + 1))
    MPC_RANGE_STAT.LOCKED_SKIP true) s
  let clean := fun (s : State) => if x.dirty then editLine { x with dirty := false } (toDram x.line x.bytes s) else s
  match op with
  | 1 => clean s
  | 2 => if x.locked then skip s else dropLine x.line s
  | _ => if x.locked then skip (clean s) else dropLine x.line (clean s)

/-- Lines in the order of their sets, each set in turn. -/
def bySet (l : List Nat) : List Nat :=
  l.foldl (fun o x => o.takeWhile (fun y => decide (mpcSet y < mpcSet x)) ++ x :: o.dropWhile (fun y => decide (mpcSet y < mpcSet x))) []

/-- Visit lines in order. A write that the BMC cannot take yet holds the engine there; the lines left are visited later. -/
def visitAll (op : Nat) : List Nat → State → State
  | [], s => modMpc (fun m => { m with toVisit := [] }) s
  | l :: r, s => match mpcFind s l with
    | none => visitAll op r s
    | some x =>
      if x.dirty && decide (op ≠ 2) && !dramTakes s l then modMpc (fun m => { m with toVisit := l :: r }) s
      else visitAll op r (visitLine op x s)

/-- A GO: refused while BUSY or with OP 0; otherwise the sets are visited, and BUSY stays until the engine has ended. A
request between the GO and a visit has the effect that it would have had before the GO. -/
def rangeGo (op : Nat) (s : State) : State :=
  if s.mpc.range.isSome ∨ op = 0 then mpcReg (fun c => wrB c MPC_RANGE_STAT.ERR true) s
  else
    let base := (rd s.mpc.csr MPC_RANGE_BASE).toNat
    let len := (rd s.mpc.csr MPC_RANGE_LEN).toNat
    let s := modMpc (fun m => { m with
      csr := wrF m.csr MPC_RANGE_STAT.SKIPCNT 0
      range := some (op, base, len) }) s
    visitAll op (bySet ((s.mpc.lines.filter (fun x => inRange base len x.line)).map (fun x => x.line))) s

/-- MPC_CLEAN, MPC_INVALIDATE and MPC_CLEAN_INVALIDATE. -/
def mpcClean (s : State) : State := rangeGo 1 s
def mpcInvalidate (s : State) : State := rangeGo 2 s
def mpcCleanInvalidate (s : State) : State := rangeGo 3 s

/-- MPC_RANGE_END: the engine ends once every line is visited and the eviction buffer entries that it waits for have completed. -/
def mpcRangeEnd (s : State) : State :=
  match s.mpc.range with
  | none => s
  | some (op, base, len) =>
    let s := visitAll op s.mpc.toVisit s
    if !s.mpc.toVisit.isEmpty || decide (op ≠ 2) && s.mpc.eb.any (fun x => inRange base len x.line) then s
    else modMpc (fun m => { m with range := none }) s

/-- MPC_CLR.CNT (R332). -/
def mpcClrCnt (s : State) : State :=
  mpcReg (fun c => wr (wr (wr (wr (wr c MPC_HIT 0) MPC_MISS 0) MPC_EBHIT 0) MPC_CORR 0) MPC_UNCORR 0) s

/-- MPC_LOCKED.COUNT. -/
def mpcLockedCount (s : State) : Nat := (s.mpc.lines.filter (fun x => x.locked)).length

end Sys2Proof.Machine
end

