-- ==== Sys2Proof/Machine/Cmac.lean ====
section
/-! DEFINITION. AES-128 CMAC over a message of whole bytes (R428, RFC 4493). The cipher itself is that of FIPS 197 (PRESUMED). Keys, blocks
and tags are lists of 16 bytes, in the order of the wire. -/

namespace Sys2Proof.Machine.Cmac

/-- The eleven round keys of a 128-bit key; `ws` holds the words so far, newest first. -/
def expandGo : Nat → Nat → Nat → List (List Nat) → List (List Nat)
  | 0, _, _, ws => ws
  | n + 1, i, rcon, ws =>
    let last := ws.getD 0 []
    let t := if i % 4 = 0 then Xts.xorL ((last.drop 1 ++ last.take 1).map Xts.sbox) [rcon, 0, 0, 0] else last
    expandGo n (i + 1) (if i % 4 = 0 then Xts.xtime rcon else rcon) (Xts.xorL (ws.getD 3 []) t :: ws)
def roundKeys (key : List Nat) : List (List Nat) :=
  let ws := (expandGo 40 4 1 ((List.range 4).map (fun i => (key.drop (4 * i)).take 4)).reverse).reverse
  (List.range 11).map (fun r => ((ws.drop (4 * r)).take 4).flatten)

/-- AES-128 of one block, by its round keys. -/
def encBlock (ks : List (List Nat)) (b : List Nat) : List Nat :=
  let s := (List.range 9).foldl (fun s r =>
    Xts.xorL (Xts.mixCols [2, 3, 1, 1] (Xts.shiftRows 1 (s.map Xts.sbox))) (ks.getD (r + 1) [])) (Xts.xorL b (ks.getD 0 []))
  Xts.xorL (Xts.shiftRows 1 (s.map Xts.sbox)) (ks.getD 10 [])

/-- A subkey from the block before it: doubled in the field of 2^128 elements. -/
def double (b : List Nat) : List Nat := (Xts.bytesOf 16 (Xts.tweakNext (Xts.ofBytes b.reverse))).reverse

/-- The chain over the blocks of a message, the last under its subkey. -/
def chain (ks : List (List Nat)) (k1 k2 : List Nat) : Nat → List Nat → List Nat → List Nat
  | 0, _, x => x
  | n + 1, m, x =>
    if 16 < m.length then chain ks k1 k2 n (m.drop 16) (encBlock ks (Xts.xorL x (m.take 16)))
    else encBlock ks (Xts.xorL x (if m.length = 16 then Xts.xorL m k1
      else Xts.xorL ((m ++ 0x80 :: List.replicate 15 0).take 16) k2))

/-- The tag of a message. -/
def tag (key m : List Nat) : List Nat :=
  let ks := roundKeys key
  let zero := List.replicate 16 0
  let k1 := double (encBlock ks zero)
  chain ks k1 (double k1) (m.length / 16 + 1) m zero

end Sys2Proof.Machine.Cmac
end

