-- ==== Sys2Proof/Machine/Logs.lean ====
section
/-! DEFINITION. Log pages and Identify data (R228, R235, R259, R262, R273, R300, R386, R387). Fields that only the NVM Express
specifications place stand at the offsets of those (PRESUMED); bytes of theirs that no rule gives a value are left open. -/

namespace Sys2Proof.Machine

/-- Bytes [lo, lo + n) of a page. -/
def pageBytes (lo n : Nat) (l : List Nat) : List Nat := (l ++ List.replicate (lo + n - l.length) 0).drop lo |>.take n

/-- A page of n bytes that no rule fills, taken from the free values from number f on. -/
def openBytes (f n : Nat) : List Nat := (List.range n).map (fun i => Config.freeNat (f + i) % 256)

/-- Put fields, each as (offset, length, value), over a page. -/
def putFields (l : List Nat) (fs : List (Nat × Nat × Nat)) : List Nat :=
  fs.foldl (fun l f => l.take f.1 ++ bytesLE f.2.1 f.2.2 ++ l.drop (f.1 + f.2.1)) l

/-! ### Vendor logs -/

/-- Saturate to n bytes. -/
def sat (n v : Nat) : Nat := min (2 ^ (8 * n) - 1) v

/-- A meter as log C0h shows it. -/
def meterLog (s : State) (n : Nat) : Nat := if n = 13 ∨ n = 14 ∨ n = 15 then 0 else meter s n

/-- C0h, Energy (R386). -/
def logC0 (s : State) : List Nat :=
  let sp := speedInUse s
  putFields (List.replicate 640 0) ([(0, 8, nowSec s)] ++
    (List.range 16).map (fun i => (8 + 8 * i, 8, meterLog s i)) ++
    [(136, 4, devicePower s), (140, 4, drivePower s), (144, 4, (rd s.elg.csr ELG_RESERVE).toNat),
     (148, 4, (rd s.elg.csr ELG_DCOST).toNat), (152, 4, admitCeil s / 4096), (156, 4, (rd s.elg.csr ELG_CEIL_SOLO).toNat),
     (160, 4, holdings s), (164, 1, b2n s.elg.wt + 2 * b2n s.elg.predumping), (165, 1, s.elg.reason),
     (168, 4, rdF s.elg.csr ELG_WT.ENTRIES), (172, 8, s.elg.wtTotal + (if s.elg.wt then nowSec s - s.elg.wtSince else 0)),
     (180, 4, (capInForce s).getD 0), (184, 4, s.elg.plim.getD 0), (188, 1, permitCount s), (189, 1, govSteps s),
     (190, 2, rdF s.elg.csr ELG_VCORE.NOW), (192, 4, s.elg.predumped), (196, 4, sp.1 + (if sp.2 = 2 then 2 ^ 31 else 0))] ++
    (List.range 48).map (fun i => (256 + 8 * i, 8, meterLog s (16 + i))))

/-- C2h, Calibration (R387). -/
def logC2 (s : State) : List Nat :=
  let entry := fun (i : Nat) =>
    let x := calItem s i
    putFields (List.replicate 32 0) [(0, 1, i),
      (1, 1, b2n (calOn s i) + 2 * b2n (decide (1 ≤ x.due)) + 4 * b2n (decide (x.due = 2)) + 8 * b2n (decide (x.targets ≠ []))),
      (2, 2, sat 2 x.fails), (4, 4, x.accepts.toNat), (8, 4, x.rejects.toNat), (12, 4, x.lastRun), (16, 4, x.lastGood),
      (20, 4, wordField x.cfg 23 0), (24, 4, x.result)]
  bytesLE 8 (nowSec s) ++ List.replicate 56 0 ++ (List.range 16).flatMap entry

/-- One MC's section of C3h. -/
def logC3Mc (s : State) (k : Fin 4) : List Nat :=
  let q := schedOf s k
  let bands := fun (p : Band → Bool) => (s.ple.map.bands.filter (fun e => match e.2 with
    | some b => decide (b.mc = k.val) && p b
    | none => false)).length
  putFields (List.replicate 64 0) [(0, 4, sat 4 q.decisions), (4, 4, sat 4 q.rank2), (8, 4, sat 4 q.rank1),
    (12, 4, sat 4 q.claimTot), (16, 4, sat 4 q.longSeeks), (20, 4, sat 4 q.longPen), (24, 4, sat 4 q.maxwTot),
    (28, 2, sat 2 q.ready.length), (30, 2, sat 2 (q.ready.filter (fun c => decide (c.cls = 2))).length),
    (32, 4, bands (fun b => decide (b.st = 0))), (36, 4, bands (fun b => decide (b.st = 1))),
    (40, 4, bands (fun b => decide (b.st = 7))), (44, 4, sat 4 q.echoReads), (48, 8, sat 8 q.moved)]

/-- C3h, Placement (R228). -/
def logC3 (s : State) : List Nat :=
  let m := s.ple.map
  let live := m.echoes.foldl (fun n e => match e.2 with
    | some x => n + b2n (decide (x.st0 = 2) && !x.drop0) + b2n (decide (x.st1 = 2) && !x.drop1)
    | none => n) 0
  let head := putFields (List.replicate 64 0) [(0, 8, s.ple.snapNum), (8, 8, mapUsed s), (16, 8, mapCapacity s),
    (24, 1, s.ple.mapst), (25, 1, b2n (echoEn s) + 2 * b2n s.ple.echoSusp), (26, 2, m.nss.length), (28, 4, live)]
  let bind := fun (i : Nat) => match s.ple.binds[i]? with
    | none => List.replicate 24 0
    | some b => bytesLE 4 b.band ++ bytesLE 4 b.nsid ++ bytesLE 8 b.slba ++ [b.tier, b.reason, b.acts, b.cls] ++ bytesLE 4 b.time
  let ns := fun (x : Ns) =>
    let mine := m.extents.filter (fun e => decide (e.nsx = x.nsx))
    let len := mine.foldl (fun n e => n + e.len) 0
    let bad := m.zones.any (fun z => decide (z.1 / 2 ^ 20 = x.nsx) && (match z.2 with
      | some y => y.bands.any (bandDegraded s) ||
          (decide (x.cls = 1) && !decide ((y.bands.filterMap (fun b => (bandAt s b).map (fun t => t.mc))).Nodup))
      | none => false)) || mine.any (fun e => !e.anchor && addrDegraded s e.paddr)
    putFields (List.replicate 16 0) [(0, 4, x.nsid), (4, 1, x.cls + 4 * b2n x.zoned + 8 * b2n bad), (8, 4, mine.length),
      (12, 4, if x.zoned ∨ mine.length = 0 then 0 else (roundDiv len mine.length).toNat)]
  let order := m.nss.foldl (fun (l : List Ns) x => l.takeWhile (fun y => decide (y.nsx < x.nsx)) ++ x ::
    l.dropWhile (fun y => decide (y.nsx < x.nsx))) []
  head ++ ([0, 1, 2, 3] : List (Fin 4)).flatMap (logC3Mc s) ++ (List.range 8).flatMap bind ++ order.flatMap ns

/-- Whether the band table shows a head. -/
def headPresent (s : State) (mc head : Nat) : Bool := s.ple.map.bands.any (fun e => match e.2 with
  | some b => decide (b.mc = mc ∧ b.head = head)
  | none => false)

/-- The mean level code in force over a head's zones, trim included; R273 states no rounding. -/
def meanLevel (s : State) (k : Fin 4) (head : Nat) : Nat :=
  let zs := (List.range 32).filter (fun z => decide (entF (zoneEntry s k false head z) 0 31 31 = 1))
  let sum := zs.foldl (fun n z => n + levelCode (mcOf s k) head (entF (zoneEntry s k true head z) 5 3 0)) 0
  if zs.isEmpty then 0 else (roundDiv sum zs.length).toNat

/-- One head's section of C4h. The level codes of certification come from the option area. -/
def logC4Head (s : State) (k : Fin 4) (h : Nat) : List Nat :=
  let m := mcOf s k
  let i := k.val * 16 + h
  let gdl := s.ple.map.gdl.filter (fun d => decide (d.mc = k.val ∧ d.head = h))
  let pdl := s.ple.map.pdl.filter (fun d => decide (d.mc = k.val ∧ d.head = h ∧ d.kind = 0))
  let o := fun (f : Nat) => (tget 0 s.nv.opt (f + i)).toNat
  let bad := fun (r : Nat) => s.cal.badReaders.contains (i, r)
  let trim := sext 10 (wordField (ascAgeOf m h) 9 0)
  let warn := decide ((wordField (ascAgeOf m h) 25 16 : Int) ≤ trim)
  let zone := fun (z : Nat) => sat 2 (s.nv.zoneFix.filter (fun r => decide (r.1 = i * 32 + z))).length
  if !headPresent s k.val h then List.replicate 128 0
  else
    putFields (List.replicate 128 0) ([(0, 1, k.val), (1, 1, h),
      (2, 1, 1 + 2 * b2n (rdF m.csr MC_ASC_CTL.TYPE = 0) + 4 * b2n (headOut s k.val h) + 8 * b2n warn + 16 * b2n (bad 0) +
        32 * b2n (bad 1)),
      (4, 2, toBits 16 trim), (6, 2, meanLevel s k h), (8, 2, o 256), (10, 2, (tget (0, 0) s.nv.widths i).1), (12, 4, (tget (0, 0) s.nv.widths i).2),
      (16, 8, sat 8 ((tget 0 s.nv.life (2 * i) + tget 0 m.onTimeUs h) / 1000)),
      (24, 8, sat 8 (tget 0 s.nv.life (2 * i + 1) + tget 0 m.rises h)),
      (32, 4, gdl.length),
      (36, 4, (pdl ++ gdl.filter (fun d => decide (d.kind = 0))).foldl (fun n d => n + d.run) 0),
      (40, 4, (gdl.filter (fun d => decide (d.kind = 3))).length)] ++ (List.range 32).map (fun z => (64 + 2 * z, 2, zone z)))

/-- C4h, Media Health (R273). -/
def logC4 (s : State) : List Nat :=
  let g := s.ple.map.gdl
  putFields (List.replicate 64 0) [(0, 4, g.length), (4, 4, 1048576), (8, 4, s.ple.map.pdl.length),
    (12, 4, (g.filter (fun d => decide (d.kind = 2))).length), (16, 4, (g.filter (fun d => decide (d.kind = 3))).length),
    (20, 8, sat 8 s.nv.sectors.1), (28, 8, sat 8 s.nv.sectors.2)] ++
  ([0, 1, 2, 3] : List (Fin 4)).flatMap (fun k => (List.range 12).flatMap (fun h =>
    if actExists s k then logC4Head s k h else List.replicate 128 0))

/-! ### Logs of the NVM Express specifications -/

/-- A temperature in whole kelvins; the conversion's rounding is not stated. -/
def kelvin (t : Int) : Nat := (roundDiv (t + 16 * 273) 16).toNat

/-- Error Information (01h): 64 entries of 64 bytes, newest first, with the error's number, queue, command, status,
LBA and namespace; an entry that no error fills is zeros. -/
def logErrors (s : State) (fn f : Nat) : List Nat :=
  let l := (fnOf s fn).errs
  (List.range 64).flatMap (fun i => match l[i]? with
    | none => List.replicate 64 0
    | some e => putFields (openBytes (f + 64 * i) 64) [(0, 8, e.num), (8, 2, e.sqid), (10, 2, e.cid), (12, 2, 2 * e.status), (16, 8, e.lba),
        (24, 4, e.nsid)])

/-- SMART / Health (02h): its critical warning, temperatures, what the host read and wrote in units of 1,000 × 512
bytes, power cycles and hours, power losses, and errors. -/
def logSmart (s : State) (f : Nat) : List Nat :=
  let warn := s.hqe.smart ||| (if critActive s then 2 else 0)
  let t := fun (x : Option Int) => (x.map kelvin).getD 0
  putFields (openBytes f 512) [(0, 1, warn), (1, 2, kelvin (composite s)), (32, 16, (s.nv.use.unitsR + 999) / 1000),
     (48, 16, (s.nv.use.unitsW + 999) / 1000), (64, 16, s.nv.use.cmdsR), (80, 16, s.nv.use.cmdsW), (112, 16, s.nv.pwrcyc),
     (128, 16, nowSec s / 3600), (144, 16, s.nv.use.cuts), (160, 16, s.nv.use.media), (176, 16, s.nv.use.errs),
    (200, 2, t (sensor1 s)), (202, 2, t (sensor2 s))]

/-- Firmware Slot (03h): two slots. -/
def logFirmware (s : State) (f : Nat) : List Nat :=
  let next := if s.nv.fwNext = s.nv.fwActive then 0 else s.nv.fwNext
  putFields (openBytes f 512) [(0, 1, s.nv.fwActive + 16 * next), (8, 8, s.nv.fwSlots.1), (16, 8, s.nv.fwSlots.2)]

/-- Commands Supported and Effects (05h): CSUPP of the commands that this function supports. -/
def logEffects (s : State) (fn f : Nat) : List Nat :=
  let sup := fun (admin : Bool) (o : Nat) => opcodeOk s fn admin o 0 0
  let base := openBytes f 4096
  (List.range 4096).map (fun i =>
    if i % 4 = 0 ∧ i < 2048 then
      let b := base.getD i 0
      b - b % 2 + b2n (sup (decide (i < 1024)) (i % 1024 / 4))
    else base.getD i 0)

/-- Asymmetric Namespace Access (0Ch): one descriptor, for ANA group 1, with every attached namespace. -/
def logAna (s : State) (fn : Nat) : List Nat :=
  let l := (fnOf s fn).nss
  bytesLE 8 s.tdl.anaChanges ++ bytesLE 2 1 ++ List.replicate 6 0 ++ bytesLE 4 1 ++ bytesLE 4 l.length ++
    bytesLE 8 s.tdl.anaChanges ++ [anaState s] ++ List.replicate 15 0 ++ l.flatMap (bytesLE 4)

/-- Sanitize Status (81h). The fraction done counts bands over all passes. -/
def logSanitize (s : State) (f : Nat) : List Nat :=
  let z := s.hqe.san
  let n := (sanitizeBands s).length
  let prog := if z.st = 2 then (z.pass * n + z.band) * 65536 / max 1 (z.passes * n) else 65535
  let st := if z.st = 4 then 3 else z.st
  putFields (openBytes f 512) [(0, 2, prog), (2, 2, st + 8 * z.pass)]

/-- The bytes of a log page; `none` where it is not supported. SMART is controller-wide only. -/
def logPage (s : State) (fn lid f : Nat) : Option (List Nat) :=
  match lid with
  | 0x01 => some (logErrors s fn f)
  | 0x02 => some (logSmart s f)
  | 0x03 => some (logFirmware s f)
  | 0x04 => some (pageBytes 0 4096 ((fnOf s fn).changed.flatMap (bytesLE 4)))
  | 0x05 => some (logEffects s fn f)
  | 0x0C => some (logAna s fn)
  | 0x81 => some (logSanitize s f)
  | 0xBF => some (List.replicate 4096 0)
  | 0xC0 => some (logC0 s)
  | 0xC1 => some (logC1Bytes s fn)
  | 0xC2 => some (logC2 s)
  | 0xC3 => some (logC3 s)
  | 0xC4 => some (logC4 s)
  | _ => none

/-- GET_LOG_PAGE: the bytes from the Log Page Offset on. Reading SMART requests a conversion of every enabled sensor (R380);
reading the Changed Namespace List empties it, unless RAE is set. -/
def getLogPage (n : Nat) (s : State) : State :=
  onAdmin 0x02 n (fun x s =>
    let lid := wordField (x.cdw 10) 7 0
    let nsid := (x.cdw 1).toNat
    let dwords := wordField (x.cdw 10) 31 16 + wordField (x.cdw 11) 15 0 * 65536 + 1
    let ofs := (x.cdw 12).toNat + (x.cdw 13).toNat * 2 ^ 32
    match logPage s x.fn lid s.free with
    | none => reply n 0x109 s
    | some l =>
      if (lid = 0x02 ∧ nsid ≠ 0 ∧ nsid ≠ 0xFFFFFFFF) ∨ l.length < ofs then reply n 0x02 s
      else
        let s := { s with free := s.free + 4096 }
        let s := if lid = 0x02 then requestAll s else s
        let s := if lid = 0x04 ∧ ¬ wordBit (x.cdw 10) 15 then modFn x.fn (fun y => { y with changed := [] }) s else s
        reply n 0 (modSlot n (fun y => { y with data := pageBytes ofs (4 * dwords) l }) s)) s

/-! ### Identify (R235, R259, R263) -/

/-- ENLAT (field 45 on) or EXLAT (field 50 on) of a power state in µs, from the option area, or the value R261 shows. -/
def stateLatency (s : State) (field ps : Nat) : Nat :=
  let shown := if ps = 3 then 1000 else if ps = 4 then (if field = 45 then 15000000 else 25000000) else 0
  let v := (tget 0 s.nv.opt (field + ps)).toNat
  if v = 0 then shown else v

/-- Identify Controller. ANACAP names the states of R394: Optimized, Inaccessible and Change. -/
def idController (s : State) (fn f : Nat) : List Nat :=
  let opt := fun (k n : Nat) => (List.range n).foldl (fun v i => v + (tget 0 s.nv.opt (k + i)).toNat * 2 ^ (32 * i)) 0
  let multi := inPair s || portMode2 s
  let ps := (List.range 5).map (fun i => (2048 + 32 * i, 32,
    statePower s i / 10 + (if 3 ≤ i then 2 ^ 25 else 0) +
      stateLatency s 45 i * 2 ^ 32 + stateLatency s 50 i * 2 ^ 64))
  putFields (openBytes f 4096) ([(0, 2, opt 64 1), (2, 2, opt 65 1), (4, 20, opt 66 5), (24, 40, opt 71 10),
    (76, 1, if multi then 3 + 8 * b2n (inPair s) else 0), (77, 1, 9), (78, 2, cntlid s fn), (80, 4, 0x00020000),
    (256, 2, 0x2E), (258, 1, 7), (259, 1, 3), (260, 1, 0x14), (261, 1, 0x06), (262, 1, 63),
    (263, 1, 4), (320, 2, 0), (328, 4, 0x20000005), (342, 1, 10), (343, 1, 21), (344, 4, 1), (348, 4, 1),
    (512, 1, 0x66), (513, 1, 0x44), (516, 4, 1024), (520, 2, 0x009C), (525, 1, 0), (536, 4, 0x00010001), (540, 4, 1024),
    (768, 256, opt 81 64)] ++ ps)

/-- Identify Namespace. -/
def idNamespace (x : Ns) (f : Nat) : List Nat :=
  putFields (openBytes f 4096) [(0, 8, x.nsze), (8, 8, x.nsze), (25, 1, 1), (26, 1, x.lbaf + 16 * x.mset), (27, 1, 3),
    (32, 1, if x.formatting then 128 + Config.freeNat (f + 4096) % 101 else 128), (92, 4, 1), (128, 4, 12 * 65536),
    (132, 4, 12 * 65536 + 8)]

/-- Identify Namespace of the Zoned command set: Maximum Active and Open Resources less one, and each format's zone size. -/
def idZoned (s : State) (x : Ns) (f : Nat) : List Nat :=
  putFields (openBytes f 4096) [(4, 4, x.active + 2 ^ 32 - 1), (8, 4, x.active + 2 ^ 32 - 1), (2816, 8, zsze s x), (2832, 8, zsze s x)]

/-- A list of identifiers above a number, padded to 4 KiB. -/
def idList (l : List Nat) (above : Nat) : List Nat :=
  let sorted := l.foldl (fun acc x => acc.takeWhile (fun y => decide (y < x)) ++ x :: acc.dropWhile (fun y => decide (y < x))) []
  pageBytes 0 4096 ((sorted.filter (fun k => decide (above < k))).flatMap (bytesLE 4))

/-- The controllers of the subsystem, those that hold a namespace where one is asked for, as a controller list. -/
def idControllers (s : State) (nsid : Option Nat) (from_ : Nat) : List Nat :=
  let l := (controllers s).filter (fun c => match nsid with
    | some k => attachedTo s k c
    | none => true)
  let l := l.filter (fun c => decide (from_ ≤ c))
  pageBytes 0 4096 (bytesLE 2 l.length ++ l.flatMap (bytesLE 2))

/-- The data of an Identify by CNS. -/
def idData (s : State) (x : Slot) (f : Nat) : List Nat :=
  let cns := wordField (x.cdw 10) 7 0
  let from_ := wordField (x.cdw 10) 31 16
  let csi := wordField (x.cdw 11) 31 24
  let nsid := (x.cdw 1).toNat
  let fn := fnOf s x.fn
  let of := fun (zoned : Bool) => (s.ple.map.nss.filter (fun m => decide (m.zoned = zoned))).map (fun m => m.nsid)
  let zeros := List.replicate 4096 0
  let ns := fun (g : Ns → List Nat) => match nsById s nsid with
    | some m => g m
    | none => zeros
  match cns with
  | 0x00 => if nsid = 0xFFFFFFFF then putFields (openBytes f 4096) [(25, 1, 1), (27, 1, 3), (128, 4, 12 * 65536), (132, 4, 12 * 65536 + 8)]
      else ns (fun m => idNamespace m f)
  | 0x01 => idController s x.fn f
  | 0x02 => idList (fn.nss.filter (fun k => nsActive s x.fn k)) nsid
  | 0x03 => openBytes f 4096
  | 0x05 => if csi = 2 then ns (fun m => if m.zoned then idZoned s m f else zeros) else openBytes f 4096
  | 0x06 => if csi = 2 then putFields zeros [(0, 1, 9)] else openBytes f 4096
  | 0x07 => idList ((of (decide (csi = 2))).filter (fun k => nsActive s x.fn k)) nsid
  | 0x08 => openBytes f 4096
  | 0x10 => idList (s.ple.map.nss.map (fun m => m.nsid)) nsid
  | 0x11 => ns (fun m => idNamespace m f)
  | 0x12 => idControllers s (some nsid) from_
  | 0x13 => idControllers s none from_
  | 0x15 => zeros
  | _ => putFields zeros [(0, 8, 1), (8, 8, 5)]

/-- IDENTIFY. -/
def identify (n : Nat) (s : State) : State :=
  onAdmin 0x06 n (fun x s =>
    reply n 0 (modSlot n (fun y => { y with data := idData s x s.free }) { s with free := s.free + 4097 })) s

end Sys2Proof.Machine
end

