-- ==== Sys2Proof/Machine/HostReset.lean ====
section
/-! DEFINITION. Controller resets and enables (R233, R236, R291 to R293), and what follows every change of the host's
commands. -/

namespace Sys2Proof.Machine

/-- Whether a command past its point of no return has nothing left to wait for but its application. -/
def performable (s : State) (x : Slot) : Bool :=
  x.journaled && (!hasSectors s x || x.onMedia || (x.inDram && x.reserved))

/-- Give a command of a function in reset its place in log C1h, where it is write-class, and free its slot. -/
def dispose (n disp : Nat) (x : Slot) (s : State) : State :=
  let e := c1Entry s x disp
  let put := fun (l : List (Nat × C1Entry)) =>
    l.takeWhile (fun d => decide (d.1 < x.order)) ++ (x.order, e) :: l.dropWhile (fun d => decide (d.1 < x.order))
  let s := if writeClass x ∧ ¬ adminSlot n then modFn x.fn (fun y => { y with disp := put y.disp }) s else s
  freeSlot n s

/-- The disposition of one command of a function in reset (R276, R293). -/
def disposeCmd (n : Nat) (s : State) : State :=
  match slotAt s n with
  | none => s
  | some x =>
    if !(fnOf s x.fn).resetting then s
    else match x.st with
      | .committed => dispose n 2 x s
      | .done => dispose n (if x.status = 0 then 1 else 0) x s
      | _ =>
        if !adminSlot n && (x.pnr || pastReturn s n x) then
          (if performable s x then advanceAll (updateMapState (dispose n 1 x (applyCmd x s))) else s)
        else advanceAll (dispose n 0 x (takeBack n s))

/-- Dispose of what can be disposed of. -/
def resetPump (s : State) : State := (s.hqe.slots.map Prod.fst).foldl (fun s n => disposeCmd n s) s

/-- What follows a change: ended jobs are resolved, commands of functions in reset are disposed of, reads get their
descriptors, writes that can take their turn do, and what firmware has changed of the brown-out items is saved (R345). -/
def settleHost (s : State) : State := saveRecords (pumpReads (advanceAll (resetPump (afterJobs s))))

/-- The start of a controller reset (R292, steps 1 to 3); `kind` is log C1h's. -/
def ctrlReset (f kind : Nat) (s : State) : State :=
  let x := fnOf s f
  if !(x.rdy || x.cfs) || x.resetting then s
  else
    let s := modFn f (fun y => { y with
      resetting := true
      resetKind := kind
      filters := []
      disp := [] }) s
    resetPump (modHqe (fun h => { h with fetching := h.fetching.filter (fun e => decide (e.1 ≠ f)) }) s)

/-- CONTROLLER_RESET: CC.EN written to 0, or, with `shn`, CC.SHN written, which is an orderly shutdown (R343). -/
def controllerReset (f : Nat) (shn : Bool) (s : State) : State :=
  let s := ctrlReset f 1 s
  if shn then orderlyShutdown s else s

/-- FUNCTION_LEVEL_RESET. -/
def functionLevelReset (f : Nat) (s : State) : State := ctrlReset f 2 s

/-- VF_ENABLE_CLEAR: every VF of the PF, none of which exists any more. -/
def vfEnableClear (pf : Nat) (s : State) : State :=
  if !isPf s pf then s
  else
    let vfs := (List.range (if portMode2 s then 127 else 255)).map (fun i => pf + 1 + i)
    modFn pf (fun y => { y with vfEnable := false }) (vfs.foldl (fun s f => ctrlReset f 1 s) s)

/-- ISLAND_RESET (R16, R233): the reset of a port's PCIe island cuts every transfer of the port, those of channels
that firmware loaded too, and resets its functions, which dispose of their commands. A conventional reset clears VF
Enable, as PCI Express has it (PRESUMED, log 102). -/
def resetPort (p : Nat) (s : State) : State :=
  let fs := portFns s p
  modFn (fs.headD 0) (fun y => { y with vfEnable := false })
    (cutTransfers (fun f => fs.contains f) (fs.foldl (fun s f => ctrlReset f 3 s) s))

/-- PORT_RESET. -/
def portReset (p : Nat) (s : State) : State := resetPort p s

/-- LINK_DOWN: the port's link state reads down until it trains again. -/
def linkDownPort (p : Nat) (s : State) : State :=
  let s := resetPort p s
  if p = 1 then hqeReg (fun c => wrF (wrF c HQE_PORT.P1_WIDTH 0) HQE_PORT.P1_SPEED 0) s
  else if p = 0 then hqeReg (fun c => wrF (wrF c HQE_PORT.P0_WIDTH 0) HQE_PORT.P0_SPEED 0) s
  else s

/-- CONTROLLER_RESET_SLOTS_FREE (R292, steps 4 and 5): log C1h is written; queues, requests and an unlock are discarded; the
vendor event waits for the next enable. -/
def controllerResetSlotsFree (f : Nat) (s : State) : State :=
  let x := fnOf s f
  if !x.resetting || !(slotsOf s f).isEmpty then s
  else
    let s := noteC1 x.resetKind 0 (cntlid s f) 0 (x.disp.map Prod.snd) s
    let s := putFn f { Fn.init with cap := x.cap, nss := x.nss, vfEnable := x.vfEnable, errs := x.errs, events := [aerWord 7 0 0xC1] } s
    let s := modHqe (fun h => { h with qctx := h.qctx.filter (fun k => decide (k / 4096 ≠ f)) }) s
    saveFrontier (if (s.hqe.unlock.map (fun u => u.fn)) = some f then modHqe (fun h => { h with unlock := none }) s else s)

/-- CONTROLLER_ENABLE (R236): CC with EN set, the admin queues' sizes, and the width and speed at which the function's port
has trained. No row sets VF Enable: a VF that is enabled shows that its PF's is set (DESIGN CHOICE, log 102). -/
def controllerEnable (f : Nat) (cc : Word) (asqs acqs width speed : Nat) (s : State) : State :=
  let x := fnOf s f
  let css := wordField cc 6 4
  if x.rdy || x.cfs || x.resetting || decide (256 ≤ f) || !wordBit cc 0 || !decide (css = 0 ∨ css = 6) ||
      decide (asqs = 0 ∨ 4095 < asqs ∨ acqs = 0 ∨ 4095 < acqs) || !adminReady s then s
  else
    let s := if fnPort s f = 1 then hqeReg (fun c => wrF (wrF c HQE_PORT.P1_WIDTH width) HQE_PORT.P1_SPEED speed) s
      else hqeReg (fun c => wrF (wrF c HQE_PORT.P0_WIDTH width) HQE_PORT.P0_SPEED speed) s
    let s := if isPf s f then s else modFn (pfOf s f) (fun y => { y with vfEnable := true }) s
    modFn f (fun y => loadCredits { y with
      cc := cc
      rdy := true
      sqs := [(0, some ⟨asqs + 1, 0, 0, 0, 0, none⟩)]
      cqs := [(0, some ⟨acqs + 1, 0, 0, true, true, 0⟩)] }) s

end Sys2Proof.Machine
end

