-- ==== Sys2Proof/Machine/Tandem.lean ====
section
/-! DEFINITION. Pair mode: what received Tandem Link messages do, the link's timers, fault classes, failover, handoff and the
serving transfer (R392 to R422). The steps of R412 that are register writes of the firmware (OWN, ACT, ACT_EN, DRIVE) have rows
of their own; the messages go out with the writes of ARM and DISARM. -/

namespace Sys2Proof.Machine

/-! ### Arrival -/

/-- Take a message's flits, if the link is up. -/
def onLink (h : FlitHdr) (f : State → State) (s : State) : State :=
  if linkUp s && rdB s.tdl.csr TDL_CTL.EN then f (takeHeader h s) else s

/-- Send ACK for everything applied. -/
def ackNow (s : State) : State := sendCtrl (.ack s.tdl.mseqRx) s

/-- Take a mirror record (R402, R403): a repeated one is discarded, counted and acknowledged again; one beyond the next MSEQ
waits for the resend. -/
def onMirror (h : FlitHdr) (mseq : Nat) (f : State → State) (s : State) : State :=
  onLink h (fun s =>
    if mseq ≤ s.tdl.mseqRx then ackNow (tdlReg (fun c => incR c TDL_DUP 1) s)
    else if mseq = s.tdl.mseqRx + 1 then ackNow (f (modTdl (fun t => { t with mseqRx := mseq }) s))
    else s) s

/-! ### Mirror records (R400 to R403) -/

/-- Update the partner's command of a slot. -/
def modCmd (slot : Nat) (f : PartnerCmd → PartnerCmd) (s : State) : State :=
  modTdl (fun t => { t with cmds := t.cmds.map (fun c => if c.rec_.slot = slot then f c else c) }) s

/-- The data of a command, now covered by its journal record, is held under its keys. -/
def holdData (slot : Nat) (s : State) : State :=
  let data := (s.tdl.cmds.filter (fun c => decide (c.rec_.slot = slot ∧ c.dataNeed ≤ c.dataSeen))).flatMap (fun c => c.data)
  modCmd slot (fun c => { c with data := [] })
    (modTdl (fun t => { t with held := data.foldl (fun h e => tput none h e.1 (some e.2)) t.held }) s)

/-- A snapshot's mark at the partner: it takes its own Persistence Array copy of its own map (R218, R405). -/
def snapMark (num seq : Nat) (s : State) : State :=
  let old := fun (r : JRange) => decide (r.first + r.recs.length ≤ seq + 1)
  { modPle (fun p => { p with snapNum := num, snapSeq := seq, snapAt := nowSec s, jring := p.jring.filter (fun l => decide (seq < l)) }) s with
    nv := { s.nv with
      snaps := [⟨num, seq, bareMap s.ple.map⟩]
      ring := s.nv.ring.filter (fun r => !old r)
      wear := wearTable s } }

/-- One change that the partner journaled: a snapshot's mark, or a change of the map. -/
def mirrorOp (s : State) (op : MapOp) : State := match op with
  | .snap num seq => snapMark num seq s
  | o => applyOp s o

/-- What a mirror record does at the partner. Its journal record joins the journal buffer here, under the same SEQ,
and changes the map (R402). -/
def applyMirror (r : MirrorRec) (s : State) : State :=
  match r with
  | .slot x => modTdl (fun t => { t with
      cmds := t.cmds.filter (fun c => decide (c.rec_.slot ≠ x.slot)) ++ [⟨x, [], 0, 0, false, false, none⟩]
      ranges := t.ranges.filter (fun e => decide (e.1 ≠ x.slot)) }) s
  | .data slot key v need =>
    -- without a SLOT record it is of a lost range, from the partner's dump (R419)
    if s.tdl.cmds.all (fun c => decide (c.rec_.slot ≠ slot)) ∧ s.ple.map.lost.contains key then
      let s := modMap (fun m => { m with
        lost := m.lost.filter (· ≠ key)
        dram := key :: m.dram.filter (· ≠ key) }) s
      if rdB s.tdl.csr TDL_CTL.SERVE then modPle (fun p => { p with dirty := tput none p.dirty key (some v) }) s
      else modTdl (fun t => { t with held := tput none t.held key (some v) }) s
    else modCmd slot (fun c => { c with
      data := c.data.filter (fun e => decide (e.1 ≠ key)) ++ [(key, v)]
      dataSeen := c.dataSeen + 1
      dataNeed := need }) s
  | .journal seq slot final ops assigned =>
    let all := tget [] s.tdl.ranges slot ++ ops
    let s := modPle (fun p => { p with jseq := max p.jseq seq }) s
    if final then
      let s := holdData slot (modTdl (fun t => { t with ranges := tput [] t.ranges slot [] }) s)
      let l := opRecords (fun b => (bandValid s b, openRefs s b)) s.ple.map.epoch (seq + 1) all
      let l := (opRecords (fun b => (bandValid s b, openRefs s b)) s.ple.map.epoch (seq + 1 - l.length) all)
      let s := modPle (fun p => { p with jbuf := p.jbuf ++ [⟨seq + 1 - l.length, slot, all.map bareOp, l⟩] }) s
      let s := keepKeys (all.foldl mirrorOp s)
      updateMapState (modCmd slot (fun c => { c with journaled := true, assigned := assigned }) s)
    else modTdl (fun t => { t with ranges := tput [] t.ranges slot all }) s
  | .commitDone slot cid => modCmd slot (fun c => if c.rec_.cid = cid then { c with committed := true } else c) s
  | .release keys => modTdl (fun t => { t with held := t.held.filter (fun e => !keys.contains e.1) }) s

/-- TDL_SLOT. -/
def tdlSlot (h : FlitHdr) (mseq : Nat) (r : SlotRec) (s : State) : State := onMirror h mseq (applyMirror (.slot r)) s

/-- TDL_DATA: one sector of a command, of which `need` come. -/
def tdlData (h : FlitHdr) (mseq slot key v need : Nat) (s : State) : State := onMirror h mseq (applyMirror (.data slot key v need)) s

/-- TDL_JOURNAL. -/
def tdlJournal (h : FlitHdr) (mseq seq slot : Nat) (final : Bool) (ops : List MapOp) (assigned : Option Nat) (s : State) : State :=
  onMirror h mseq (applyMirror (.journal seq slot final ops assigned)) s

/-- COMMIT_DONE. -/
def commitDone (h : FlitHdr) (mseq slot cid : Nat) (s : State) : State := onMirror h mseq (applyMirror (.commitDone slot cid)) s

/-- TDL_RELEASE. -/
def tdlRelease (h : FlitHdr) (mseq : Nat) (keys : List Nat) (s : State) : State := onMirror h mseq (applyMirror (.release keys)) s

/-- Destaged data whose journal record the partner has acknowledged is clean at both devices (R403); with the pair out
of service, no acknowledgement is waited for (R407). -/
def releaseAcked (s : State) : State :=
  let due := fun (e : Nat × List (Nat × Nat)) => decide (e.1 ≤ s.tdl.mseqAck) || !mirroring s
  let l := (s.tdl.releases.filter due).flatMap Prod.snd
  if l = [] then s
  else
    let s := modTdl (fun t => { t with releases := t.releases.filter (fun e => !due e) }) s
    let was := (l.map Prod.fst).filter (fun k => (tget none s.ple.dirty k).isSome)
    let s := l.foldl (fun s e => cleanKey e.1 e.2 s) s
    let clean := was.filter (fun k => (tget none s.ple.dirty k).isNone)
    let s := if clean = [] then s else journal [.clean clean] s
    let gone := (l.map Prod.fst).filter (fun k => (tget none s.ple.dirty k).isNone)
    if gone = [] || !mirroring s then s else sendMirror (.release gone) s

/-- TDL_ACK (R403): `late` says that the 50 µs timer had won. -/
def tdlAck (h : FlitHdr) (mseq : Nat) (late : Bool) (s : State) : State :=
  onLink h (fun s =>
    if late then tdlReg (fun c => incR c TDL_LATE 1) s
    else if s.tdl.mseqAck < mseq ∧ mseq ≤ s.tdl.mseqTx then
      releaseAcked (modTdl (fun t => { t with
        mseqAck := mseq
        unacked := t.unacked.filter (fun e => decide (mseq < e.1)) }) s)
    else s) s

/-- MIRROR_RESEND_TIMEOUT. -/
def mirrorResendTimeout (s : State) : State := match s.tdl.unacked with
  | [] => s
  | e :: _ => resendFrom e.1 s

/-! ### Remote media work (R404) -/

/-- What a remote write puts down for a key (R404, R405): fill, a row's sum, a sector of a journal unit out of this
device's own buffer or of a snapshot out of its own map, the mirrored copy of a command's data; a copy of data that is
on media already, or of a rebuilt sector, crosses the link in no message, so its value here is free (the i-th free
value from now). `none` where the mirrored copy is gone. -/
def remoteData (s : State) (i key : Nat) : Option Nat :=
  if key = fillKey then some 0
  else if 2 ^ 60 ≤ key ∧ key < 2 ^ 61 then some (tget 0 s.ple.map.parity key)
  else if 2 ^ 61 ≤ key ∧ key < 2 ^ 61 + 2 ^ 60 then
    let u := (key - 2 ^ 61) / 16
    (unitData s (u / 2048) (u % 2048))[key % 16]?
  else if 2 ^ 61 + 2 ^ 60 ≤ key ∧ key < 2 ^ 62 then
    let i := key - (2 ^ 61 + 2 ^ 60)
    match s.nv.snaps.head? with
    | none => none
    | some q => if 2 ^ 40 ≤ i then (unitSectors (dirBytes s q))[i - 2 ^ 40]?
        else ((snapStripes (modMap (fun _ => q.map) s))[i / 16]?).bind (fun l => l[i % 16]?)
  else if poolKey key ∨ 2 ^ 62 ≤ key then some (Config.freeNat (s.free + i))
  else tget none s.tdl.held key

/-- MEDIA_REQ: the operation becomes a candidate of its MC's scheduler; a write takes its sectors from the mirrored copy. What
this device cannot take goes back as retryable. -/
def mediaReq (h : FlitHdr) (r : MediaReq) (s : State) : State :=
  onLink h (fun s =>
    let k := mcIx (addrMc r.addr)
    let data := ((List.range r.keys.length).zip r.keys).filterMap (fun e => remoteData s e.1 e.2)
    if !actOwned s k || pairHolds s k || (r.write && decide (data.length ≠ r.keys.length)) then sendCtrl (.mediaEnd r.tag 1) s
    else
      let s := { s with free := s.free + r.keys.length }
      let c : Cand := { newCand s (min 2 r.cls) r.write (.remote r.tag) r.addr r.keys (if r.write then data else []) with
        id := s.ple.nextId
        born := nowMs s - r.age
        claim := r.claim }
      let c := { c with deps := dependsOn s c }
      modSched k (fun q => { q with waiting := insertCand c q.waiting })
        (modPle (fun p => { p with nextId := p.nextId + 1 }) s)) s

/-- Whether a candidate is the partner's operation of a tag. -/
def ofTag (tag : Nat) (c : Cand) : Bool := match c.kind with
  | .remote t => decide (t = tag)
  | _ => false

/-- Whether a candidate is one of the partner's. -/
def isRemote (c : Cand) : Bool := match c.kind with
  | .remote _ => true
  | _ => false

/-- Take candidates that have not been armed off an MC. -/
def unqueue (k : Fin 4) (p : Cand → Bool) (s : State) : State :=
  modSched k (fun q => { q with
    waiting := q.waiting.filter (fun c => !p c)
    ready := q.ready.filter (fun c => !p c) }) s

/-- MEDIA_CANCEL (R227): at once where the operation is not armed; an armed job is cancelled and reports its end. -/
def mediaCancel (h : FlitHdr) (tag : Nat) (s : State) : State :=
  onLink h (fun s => forMcs (fun k s =>
    let q := schedOf s k
    let armed := (q.armed.filter (fun e => ofTag tag e.2)).map Prod.fst
    let hit := (q.waiting ++ q.ready).any (ofTag tag)
    let s := unqueue k (ofTag tag) s
    let s := armed.foldl (fun s e => jtCancel k e s) s
    if hit then sendCtrl (.mediaEnd tag 1) s else s) s) s

/-- A remote operation has ended at its sender. -/
def remoteEnded (c : Cand) (cls : Nat) (vals : List Nat) (s : State) : State :=
  let s := modTdl (fun t => { t with
    sent := t.sent.filter (fun e => decide (e.1 ≠ c.id))
    got := t.got.filter (fun e => decide (e.1 ≠ c.id))
    endedFirst := t.endedFirst.filter (· ≠ c.id) }) s
  let s := modPle (fun p => { p with claims := p.claims.filter (fun x => decide (x ≠ c.claim)) }) s
  match c.kind with
  | .runSeq slot =>
    -- the link carries no dwords 10 and 12 of the entry
    let f := takeFree s
    finish slot (runSeqStatus cls) (Config.freeWord f.1) (Config.freeWord (f.1 + 1)) f.2
  | _ => resolveCand c (decide (cls = 0)) cls vals s

/-- Whether a handoff is moving the actuator of a candidate. -/
def moving (s : State) (c : Cand) : Bool := match s.tdl.handoff with
  | .none => false
  | .waiting _ _ => false
  | .draining acts _ => acts.testBit (addrMc c.addr)
  | .released acts _ => acts.testBit (addrMc c.addr)
  | .taking acts _ => acts.testBit (addrMc c.addr)

/-- MEDIA_END: the class with which the job ended, 0 for none. A read's end waits for its data; a candidate returned in a
handoff waits for the new owner (R412). -/
def mediaEnd (h : FlitHdr) (tag cls : Nat) (s : State) : State :=
  onLink h (fun s => match (s.tdl.sent.find? (fun e => decide (e.1 = tag))).map Prod.snd with
    | none => s
    | some c =>
      if cls = 1 && moving s c then
        modTdl (fun t => { t with
          sent := t.sent.filter (fun e => decide (e.1 ≠ tag))
          returned := t.returned ++ [c] }) s
      else if cls = 0 && !c.write then
        match s.tdl.got.find? (fun e => decide (e.1 = tag)) with
        | some (_, vals) => remoteEnded c 0 vals s
        | none => modTdl (fun t => { t with endedFirst := tag :: t.endedFirst }) s
      else remoteEnded c cls [] s) s

/-- READ_DATA: decoded sectors of a remote read. -/
def readData (h : FlitHdr) (tag : Nat) (vals : List Nat) (s : State) : State :=
  onLink h (fun s => match (s.tdl.sent.find? (fun e => decide (e.1 = tag))).map Prod.snd with
    | none => s
    | some c =>
      if s.tdl.endedFirst.contains tag then remoteEnded c 0 vals s
      else modTdl (fun t => { t with got := t.got.filter (fun e => decide (e.1 ≠ tag)) ++ [(tag, vals)] }) s) s

/-- TDL_CLAIM: the serving device's arbiter decides (R211). A losing candidate is discarded. -/
def tdlClaim (h : FlitHdr) (tag claim : Nat) (s : State) : State :=
  onLink h (fun s =>
    if !s.ple.claims.contains claim && s.tdl.sent.any (fun e => decide (e.1 = tag ∧ e.2.claim = claim)) then
      sendCtrl (.claimReply tag true) (withdraw (fun x => decide (x.claim = claim ∧ x.id ≠ tag))
        (modPle (fun p => { p with claims := claim :: p.claims }) s))
    else
      sendCtrl (.claimReply tag false) (modTdl (fun t => { t with sent := t.sent.filter (fun e => decide (e.1 ≠ tag)) }) s)) s

/-- CLAIM_REPLY: a candidate that lost is dropped and counted, as a local one is. -/
def claimReply (h : FlitHdr) (tag : Nat) (won : Bool) (s : State) : State :=
  onLink h (fun s =>
    if !s.tdl.asked.contains tag then s
    else if won then modTdl (fun t => { t with won := tag :: t.won }) s
    else
      let s := modTdl (fun t => { t with asked := t.asked.filter (· ≠ tag) }) s
      forMcs (fun k s =>
        if ((schedOf s k).waiting ++ (schedOf s k).ready).any (ofTag tag) then
          modSched k (fun q => { q with
            claimLost := BitVec.ofNat 32 (satAdd 0xFFFFFFFF q.claimLost.toNat 1)
            claimTot := satAdd 0xFFFFFFFF q.claimTot 1 })
            (unqueue k (ofTag tag) s)
        else s) s) s

/-! ### Taking actuators, yielding and failover (R407 to R411) -/

/-- Take every actuator that is not owned (R409 step 5), and the spindle if it is not held; what waits for them is entered
here. -/
def takeAll (s : State) : State :=
  let s := forMcs (fun k s => if actExists s k && !actOwned s k then actEnWrite k true (takeOwn k s) else s) s
  let s := if rdB s.scu.csr SCU_CTL.DRIVE then s else scuDriveWrite true s
  let l := s.tdl.sent.map Prod.snd ++ s.tdl.returned
  let s := modTdl (fun t => { t with sent := [], returned := [], got := [], endedFirst := [], asked := [], won := [] }) s
  l.foldl (fun s c => reenter c s) s

/-- Mirrored data becomes this device's own dirty data when it takes the serving role. -/
def adoptHeld (s : State) : State :=
  let l := s.tdl.held.filterMap (fun e => e.2.map (fun v => (e.1, v)))
  let s := modPle (fun p => { p with
    dirty := l.foldl (fun d e => tput none d e.1 (some e.2)) p.dirty
    persisted := p.persisted.filter (fun k => !(l.map Prod.fst).contains k) }) s
  modTdl (fun t => { t with held := [] }) s

/-- Its own dirty data becomes mirrored data when it leaves the serving role. -/
def yieldDirty (s : State) : State :=
  let l := s.ple.dirty.filterMap (fun e => e.2.map (fun v => (e.1, v)))
  let s := modTdl (fun t => { t with held := l.foldl (fun d e => tput none d e.1 (some e.2)) t.held }) s
  modPle (fun p => { p with dirty := [], persisted := [] }) s

/-- A classification of the partner (R407): 0 none, 1 link fault, 2 partner fault, 3 refused. -/
def classify (n : Nat) (s : State) : State :=
  if rdF s.tdl.csr TDL_STAT.CLASS = n then s else pairEvent (tdlReg (fun c => wrF c TDL_STAT.CLASS n) s)

/-- Serve (R393). -/
def startServing (s : State) : State :=
  if rdB s.tdl.csr TDL_CTL.SERVE then s
  else pairEvent <| anaChange (adoptHeld (modTdl (fun t => { t with serving := .none }) (tdlReg (fun c => wrB c TDL_CTL.SERVE true) s)))

/-- The disposition of a partner's command (R411). -/
def performedAtPartner (c : PartnerCmd) : Bool := c.journaled && decide (c.dataNeed ≤ c.dataSeen)
def partnerEntry (c : PartnerCmd) : C1Entry :=
  let ok := performedAtPartner c
  ⟨c.rec_.cntlid, c.rec_.sqid, c.rec_.cid, c.rec_.opc, if ok then (if c.committed then 2 else 1) else 0, c.rec_.nsid, c.rec_.slba,
    c.rec_.nlb, if ok then c.assigned else none⟩

/-- Failover (R409): the partner is faulted. Its commands are disposed of and listed, its actuators and its role taken. -/
def failover (s : State) : State :=
  if rdF s.tdl.csr TDL_STAT.CLASS = 2 then s
  else
    let served := rdB s.tdl.csr TDL_STAT.PSERVE
    let s := tocsin 1 (pairLost (pairEvent (classify 2 s)))
    let s := withdraw isRemote s
    let s := modTdl (fun t => { t with handoff := .none, serving := .none, yielding := false }) s
    let s := takeAll s
    let es := s.tdl.cmds.map partnerEntry
    let s := modTdl (fun t => { t with cmds := [], ranges := [], unacked := [] }) s
    let s := reportC1 5 0 (256 * (1 - rdF s.tdl.csr TDL_CTL.POS) + 1) 0 es s
    if served then startServing s else s

/-- A link fault (R408): a device that does not serve begins to yield; the serving one waits for YIELD. -/
def linkFault (s : State) : State :=
  let s := classify 1 s
  if rdB s.tdl.csr TDL_CTL.SERVE then s
  else withdraw isRemote (modTdl (fun t => { t with yielding := true, handoff := .none }) s)

/-- The end of yielding (R408 steps 2 and 3), once no job runs: every actuator unloads and is given up, and so is the
spindle; YIELD is set. -/
def finishYield (s : State) : State :=
  if !s.tdl.yielding || ([0, 1, 2, 3] : List (Fin 4)).any (fun k => running s k) then s
  else
    let s := forMcs (fun k s => actEnWrite k false (if actOwned s k then hifOwnWrite k false s else s)) s
    let s := if rdB s.scu.csr SCU_CTL.DRIVE then scuDriveWrite false s else s
    modClp (fun c => { c with yield_ := true }) (modTdl (fun t => { t with yielding := false }) s)

/-- TDL_SILENCE (R407): PAIR_OK clears; without Carillon here the class is a link fault at once. -/
def tdlSilence (s : State) : State :=
  let s := tdlReg (fun c => wrB c TDL_STAT.HEARD false) s
  if !inPair s then s
  else
    let s := settleWt (pairLost s)
    if rdB s.clp.csr CLP_CTL.EN then s else linkFault s

/-- CARILLON_ABSENCE (R407): with the Tandem Link silent, a partner fault. -/
def carillonAbsence (s : State) : State :=
  if inPair s && !rdB s.tdl.csr TDL_STAT.HEARD && !rdB s.elg.csr ELG_CTL.PAIR_OK && rdB s.clp.csr CLP_CTL.EN &&
    s.tdl.roles && decide (rdF s.tdl.csr TDL_STAT.CLASS = 0) then failover s else s

/-- TDL_FAULT. -/
def tdlFault (h : FlitHdr) (s : State) : State := onLink h (fun s => if inPair s then failover s else s) s

/-- The serving device sees YIELD (R408 step 4). -/
def seeYield (s : State) : State :=
  if rdB s.tdl.csr TDL_CTL.SERVE && decide (rdF s.tdl.csr TDL_STAT.CLASS = 1) && !s.clp.solo then
    modClp (fun c => { c with solo := true }) (takeAll s)
  else s

/-- The yielded device sees SOLO (R408 step 5). -/
def seeSolo (s : State) : State :=
  if s.clp.yield_ then modTdl (fun t => { t with held := [], cmds := [], ranges := [] }) s else s

/-! ### Link events (R397 to R399, R406) -/

/-- FLIT_REPLAY_TIMEOUT. -/
def flitReplayTimeout (s : State) : State := if s.tdl.replay.isEmpty then s else resendFlits s

/-- TDL_NAK. -/
def tdlNak (h : FlitHdr) (s : State) : State := onLink h resendFlits s

/-- Why a received flit of 272 bytes is dropped (R397, R398): its CRC-32C over bytes 0 to 267 differs, or its FSEQ is
one already taken, or is not the next. `none`: the flit is good. -/
def flitFault (s : State) (b : List Nat) : Option FlitFault :=
  let le := fun (l : List Nat) => l.foldr (fun x v => x % 256 + 256 * v) 0
  let fseq := le ((b.drop 1).take 2)
  if b.length ≠ 272 ∨ le (b.drop 268) ≠ crc32c (b.take 268) then some .crc
  else if fseq = s.tdl.rxSeq then none
  else if (s.tdl.rxSeq + 65536 - fseq) % 65536 ≤ 32768 then some .duplicate
  else some .sequence

/-- FLIT_DROPPED: a duplicate is counted and acknowledged again; anything else is answered with NAK. -/
def flitDropped (bytes : List Nat) (s : State) : State :=
  if !linkUp s then s
  else match flitFault s bytes with
    | none => s
    | some .duplicate => tdlReg (fun c => incR c TDL_DUP 1) s
    | some .crc => modTdl (fun t => { t with nak := true }) s
    | some .sequence => modTdl (fun t => { t with nak := true }) s

/-- LOSS_OF_LANE_LOCK. -/
def lossOfLaneLock (s : State) : State := linkDown s

/-- TDL_RETRAIN_DONE: the link is up, with the credits of the receive buffers (R399); HELLO goes out (R416), and mirror records
are resent from the MSEQ that the next HEARTBEAT tells (R403). -/
def tdlRetrainDone (s : State) : State :=
  if !rdB s.tdl.csr TDL_CTL.EN || linkUp s then s
  else
    let s := tdlReg (fun c => wrF (wrF (wrB c TDL_STAT.LINK true) TDL_CREDIT.CTRL 16) TDL_CREDIT.MIRROR 128) s
    sendCtrl .hello (modTdl (fun t => { t with
      resendAtBeat := true
      helloSeen := false
      replay := t.replay.map (fun e => { e with resends := 0 }) }) s)

/-- HEARTBEAT_SEND_TICK. -/
def heartbeatSendTick (s : State) : State :=
  if linkUp s && !s.tdl.beatStopped then sendCtrl .heartbeat (modTdl (fun t => { t with beats := t.beats + 1 }) s) else s

/-- TDL_CLR_CNT. -/
def tdlClrCnt (s : State) : State := tdlReg (fun c => wr (wr (wr (wr c TDL_REPLAY 0) TDL_LATE 0) TDL_DUP 0) TDL_DOWN 0) s

/-! ### HELLO, HEARTBEAT and roles (R392, R393, R416, R420) -/

/-- Bytes 40 to 47 of log C1h for the kinds 7 and 8 (R300). -/
def helloInfo (s : State) (x : HelloIn) : Nat :=
  let v := s.tdl.csr
  x.product % 65536 + (x.pos % 256) * 2 ^ 16 + rdF v TDL_CTL.POS * 2 ^ 24 + (x.minv % 256) * 2 ^ 32 + (x.maxv % 256) * 2 ^ 40 +
    rdF v TDL_VER.MINV * 2 ^ 48 + rdF v TDL_VER.MAXV * 2 ^ 56

/-- HELLO (R416): the pair is refused, the link runs at the highest common version, or there is none. -/
def hello (h : FlitHdr) (x : HelloIn) (s : State) : State :=
  onLink h (fun s =>
    let s := tdlReg (fun c => wrF (wrF c TDL_VER.PMINV x.minv) TDL_VER.PMAXV x.maxv)
      (modTdl (fun t => { t with peer := some x, helloSeen := true }) s)
    let v := min (rdF s.tdl.csr TDL_VER.MAXV) (x.maxv % 256)
    if x.product ≠ 0x7440 ∨ s.part ≠ .dhk7440 ∨ x.pos = rdF s.tdl.csr TDL_CTL.POS then
      reportC1 7 0 0xFFFF (helloInfo s x) [] (classify 3 (tdlReg (fun c => wrF c TDL_STAT.VER 0) s))
    else if max (rdF s.tdl.csr TDL_VER.MINV) (x.minv % 256) ≤ v then
      modClp (fun c => { c with yield_ := false, solo := false })
        (classify 0 (tdlReg (fun c => wrF c TDL_STAT.VER v) s))
    else linkFault (reportC1 8 0 0xFFFF (helloInfo s x) [] (tdlReg (fun c => wrF c TDL_STAT.VER 0) s))) s

/-- Take actuators of a mask that nothing owns. -/
def takeActs (acts : Nat) (s : State) : State :=
  forMcs (fun k s => if acts.testBit k.val && actExists s k && !actOwned s k then actEnWrite k true (takeOwn k s) else s) s

/-- What this device's dump brought back goes to the partner once after a boot, as DATA of no slot (number 65,535), so
that a range the partner has lost is taken from it (R299, R419). DESIGN CHOICE (log 235): the device offers all of it,
and the partner takes what it lacks. -/
def offerDumped (s : State) : State :=
  let l := (s.ple.dirty ++ s.tdl.held).filterMap (fun (e : Nat × Option Nat) => e.2.map (fun v => (e.1, v)))
  l.foldl (fun s e => sendMirror (.data 65535 e.1 e.2 0) s) s

/-- The roles of a boot with both devices present: position 0 serves and drives the spindle unless its partner is in service
already; home actuators that the partner does not own are taken. -/
def takeRoles (b : BeatIn) (s : State) : State :=
  if s.tdl.roles || !inPair s || !adminReady s then s
  else
    let s := offerDumped (modTdl (fun t => { t with roles := true }) s)
    let first := !rdB s.tdl.csr TDL_CTL.POS
    let s := if first && !b.serving then startServing s else s
    let s := if first && !b.drive && !rdB s.scu.csr SCU_CTL.DRIVE then scuDriveWrite true s else s
    takeActs (homeMask s &&& (15 ^^^ (b.owned % 16))) s

/-- A received HEARTBEAT's flags in TDL_STAT. A change of the partner's role is an ANA change on this device's
controllers too (R394). -/
def noteBeat (b : BeatIn) (s : State) : State :=
  let s := if s.tdl.partner.any (fun p => p.serving != b.serving) then anaChange s else s
  tdlReg (fun c => wrF (wrB c TDL_STAT.PSERVE b.serving) TDL_STAT.POWNED b.owned)
    (modTdl (fun t => { t with partner := some b }) s)

/-- Ask for the home actuators that the partner owns, by planned handoff: after a boot beside a partner in service
(R416) and after a link fault (R408). -/
def askHome (b : BeatIn) (s : State) : State :=
  let lack := homeMask s &&& (15 ^^^ ownedMask s) &&& (b.owned % 16)
  if lack ≠ 0 ∧ s.tdl.roles ∧ s.tdl.handoff = .none ∧ s.tdl.prep = none ∧ s.hqe.activating = none ∧ s.tdl.serving = .none then
    sendCtrl (.handoffReq lack false) (modTdl (fun t => { t with handoff := .taking lack false }) s)
  else s

/-- The serving device journals EPOCH_ADVANCE once both devices run firmware that supports the next format epoch (R417). -/
def advanceEpoch (s : State) : State :=
  let e := s.ple.map.epoch + 1
  let image := fwSlot s s.nv.fwActive
  if mirroring s && supportsEpoch image e && s.tdl.peer.any (fun x => decide (x.epochs.1 ≤ e ∧ e ≤ x.epochs.2)) then
    journal [.epoch e] (modMap (fun m => { m with epoch := e }) s)
  else s

/-- TDL_HEARTBEAT: what the partner tells; a resend that waits for it begins; the journal is reclaimed (R405); and with a version
agreed the pair is in service. -/
def tdlHeartbeat (h : FlitHdr) (b : BeatIn) (s : State) : State :=
  onLink h (fun s =>
    let s := noteBeat b s
    let s := if s.tdl.resendAtBeat then resendFrom (b.mseq + 1) (modTdl (fun t => { t with resendAtBeat := false }) s) else s
    let upTo := min s.ple.jseq b.jseq
    let s := if b.serving ∧ s.ple.jflushed < upTo then
        journalReach upTo (modPle (fun p => { p with jring := p.jring ++ [upTo], jpos := p.jpos + 1 }) s)
      else s
    let s := if s.tdl.helloSeen && rdB s.tdl.csr TDL_STAT.VER && inPair s then
        advanceEpoch (askHome b (takeRoles b (elgReg (fun c => wrB c ELG_CTL.PAIR_OK true) s)))
      else s
    if s.tdl.serving = .left ∧ b.serving then anaChange (modTdl (fun t => { t with serving := .none }) s) else s) s

/-- HELLO_WAIT_TIMEOUT (R420): nothing was heard of a partner. Carillon tells which fault it is. -/
def helloWaitTimeout (s : State) : State :=
  if !inPair s || s.tdl.helloSeen || s.tdl.roles || !adminReady s then s
  else
    let s := modTdl (fun t => { t with roles := true }) s
    let ctmo := max 200 (rdF s.tdl.csr TDL_HB.CTMO)
    let heard := match s.clp.pairBeat with
      | some us => decide (s.sys.us < us + 1000 * ctmo)
      | none => false
    if rdB s.clp.csr CLP_CTL.EN && !heard then
      startServing (takeAll (classify 2 s))
    else if rdB s.tdl.csr TDL_CTL.POS then linkFault s
    else
      let s := startServing (linkFault (tdlReg (fun c => wrB c TDL_CTL.SERVE false) s))
      takeActs (homeMask s) (modTdl (fun t => { t with yielding := false }) s)

/-! ### Handoff (R412 to R414) -/

/-- Cancel what is armed on an MC and hand its queued work back: the partner's to the partner, this device's own to wait for
the new owner. -/
def returnWork (k : Fin 4) (s : State) : State :=
  let q := schedOf s k
  let theirs := (q.waiting ++ q.ready).filter isRemote
  let mine := (q.waiting ++ q.ready).filter (fun c => !isRemote c)
  let s := unqueue k (fun _ => true) s
  let s := modTdl (fun t => { t with returned := t.returned ++ mine }) s
  let s := theirs.foldl (fun s c => match c.kind with
    | .remote tag => sendCtrl (.mediaEnd tag 1) s
    | _ => s) s
  ((schedOf s k).armed.map Prod.fst).foldl (fun s e => if jtState (mcOf s k) e = 1 then jtCancel k e s else s) s

/-- Start releasing actuators of a mask. -/
def startRelease (acts : Nat) (spindle : Bool) (s : State) : State :=
  let s := modTdl (fun t => { t with handoff := .draining acts spindle }) s
  forMcs (fun k s => if acts.testBit k.val then returnWork k s else s) s

/-- HANDOFF_REQ: the owner of the named actuators releases them; otherwise this device is to take them. -/
def handoffReq (h : FlitHdr) (acts : Nat) (spindle : Bool) (s : State) : State :=
  onLink h (fun s =>
    let mine := acts &&& ownedMask s
    if s.tdl.handoff ≠ .none then s
    else if mine ≠ 0 ∨ (spindle && rdB s.scu.csr SCU_CTL.DRIVE) then startRelease mine spindle s
    else modTdl (fun t => { t with handoff := .taking (acts % 16) spindle }) s) s

/-- HANDOFF_STATE (R412 step 4, R413): each target is written, its channel claimed, and for the spindle DRIVE is set. Targets are
(actuator, head, zone, track). -/
def handoffState (h : FlitHdr) (targets : List (Fin 4 × Nat × Nat × Nat)) (spindle : Bool) (s : State) : State :=
  onLink h (fun s =>
    let acts := targets.foldl (fun n t => n ||| 2 ^ t.1.val) 0
    let s := modTdl (fun t => { t with
      handoff := .taking acts spindle
      accepted := if acts = 0 then t.accepted else some 0 }) s
    let s := if acts = 0 then s else tdlReg (fun c => wrB (wrF c TDL_HANDOFF.ACT acts) TDL_HANDOFF.ARM true) s
    let s := targets.foldl (fun s t =>
      let s := modAct t.1 (fun a => { a with
        trk := BitVec.ofNat 32 (t.2.2.2 % 2 ^ 21)
        cmd := wordSetField (wordSetField a.cmd 23 20 t.2.1) 12 8 t.2.2.1 }) (takeOwn t.1 s)
      actEnWrite t.1 true s) s
    if spindle then scuDriveWrite true s else s) s

/-- Enter the returned candidates on the new owner. -/
def reenterReturned (s : State) : State :=
  if !serving s then s
  else s.tdl.returned.foldl (fun s c => reenter c s) (modTdl (fun t => { t with returned := [] }) s)

/-- HANDOFF_DONE: what was released has gone over; a spindle released with actuators is taken after them (R413). -/
def handoffDone (h : FlitHdr) (s : State) : State :=
  onLink h (fun s => match s.tdl.handoff with
    | .released acts true =>
      let next : Handoff := if acts = 0 then .none else .released 0 true
      pairEvent (reenterReturned (modTdl (fun t => { t with handoff := next }) s))
    | _ => pairEvent (reenterReturned (modTdl (fun t => { t with handoff := .none }) s))) s

/-- HANDOFF_ARM: ARM is set; a releasing device whose lines are released sends HANDOFF_STATE. -/
def handoffArm (s : State) : State :=
  let s := modTdl (fun t => { t with accepted := some 0 }) (tdlReg (fun c => wrB c TDL_HANDOFF.ARM true) s)
  match s.tdl.handoff with
  | .draining acts spindle =>
    if acts &&& ownedMask s ≠ 0 ∨ rdF s.tdl.csr TDL_HANDOFF.ACT ≠ acts then s
    else
      let t := ([0, 1, 2, 3] : List (Fin 4)).filterMap (fun k => if acts.testBit k.val then
        some (k.val, wordField (actOf s k).cmd 23 20, wordField (actOf s k).cmd 12 8, (actOf s k).trk.toNat) else none)
      let s := modTdl (fun t => { t with handoff := .released acts spindle }) (forMcs (fun k s =>
        if acts.testBit k.val then returnWork k s else s) s)
      sendCtrl (.handoffState acts t false) s
  | _ => s

/-- TDL_HANDOFF.DONE: every channel in ACT has had a command accepted since ARM. -/
def handoffAccepted (s : State) : Bool := match s.tdl.accepted with
  | none => false
  | some m => decide (rdF s.tdl.csr TDL_HANDOFF.ACT &&& (15 ^^^ (m % 16)) = 0)

/-- HANDOFF_DISARM: ARM clears; a taking device whose channels are all accepted sends HANDOFF_DONE, and a releasing device is
done. -/
def handoffDisarm (s : State) : State :=
  let s := tdlReg (fun c => wrB c TDL_HANDOFF.ARM false) s
  match s.tdl.handoff with
  | .taking acts spindle =>
    if acts ≠ 0 ∧ handoffAccepted s then
      let next : Handoff := if spindle then .taking 0 true else .none
      pairEvent (reenterReturned (sendCtrl (.handoffDone acts) (modTdl (fun t => { t with handoff := next }) s)))
    else s
  | _ => s

/-- A spindle handoff is done at the taking device when its SCU reports WEDGE_RUN (R413). -/
def spindleProgress (s : State) : State :=
  if s.tdl.handoff = .taking 0 true ∧ rdB s.scu.csr SCU_CTL.DRIVE ∧ scuState s = 4 then
    pairEvent (reenterReturned (sendCtrl (.handoffDone 0) (modTdl (fun t => { t with handoff := .none }) s)))
  else s

/-- HANDOFF_JOB_TIMEOUT: the releasing device keeps the actuators, and the handoff is retried once the jobs have ended. -/
def handoffJobTimeout (s : State) : State := match s.tdl.handoff with
  | .draining acts spindle =>
    if ([0, 1, 2, 3] : List (Fin 4)).any (fun k => acts.testBit k.val && running s k) then
      reenterReturned (modTdl (fun t => { t with handoff := .waiting acts spindle }) s)
    else s
  | _ => s

/-- Whether a write job is armed or running here. -/
def writesArmed (s : State) : Bool :=
  ([0, 1, 2, 3] : List (Fin 4)).any (fun k => (schedOf s k).armed.any (fun e => e.2.write))

/-- SCU_DRIVE_WRITE: the releasing device of a spindle handoff clears DRIVE while no write job is armed or running,
and sends HANDOFF_STATE (R413). A write of DRIVE acts in any case (R178); with a write job out, it is no step of the
handoff. -/
def driveWrite (b : Bool) (s : State) : State :=
  let was := rdB s.scu.csr SCU_CTL.DRIVE
  let s := scuDriveWrite b s
  if !was || b || writesArmed s then s
  else match s.tdl.handoff with
    | .draining acts true =>
      sendCtrl (.handoffState 0 [] true) (if acts = 0 then modTdl (fun t => { t with handoff := .released 0 true }) s else s)
    | .released _ true => sendCtrl (.handoffState 0 [] true) s
    | _ => s

/-! ### Serving transfer (R415, R418) -/

/-- SERVE_XFER. -/
def serveXfer (h : FlitHdr) (mseq : Nat) (s : State) : State :=
  onLink h (fun s => if rdB s.tdl.csr TDL_CTL.SERVE then s else modTdl (fun t => { t with serving := .arriving mseq }) s) s

/-- SERVE_XFER_DRAIN_TIMEOUT. -/
def serveXferDrainTimeout (s : State) : State := if s.tdl.serving = .leaving then interruptAll s else s

/-- The transfer's own progress: the leaving device sends SERVE_XFER after its last commit; the arriving one serves once the
MSEQ is applied. -/
def serveProgress (s : State) : State := match s.tdl.serving with
  | .leaving =>
    if s.hqe.slots.any (fun e => !adminSlot e.1) then s
    else
      let s := tdlReg (fun c => wrB c TDL_CTL.SERVE false) (modTdl (fun t => { t with serving := .left }) s)
      pairEvent (yieldDirty (sendCtrl (.serveXfer s.tdl.mseqTx) s))
  | .arriving m => if m ≤ s.tdl.mseqRx then startServing s else s
  | _ => s

/-- A firmware activation in pair mode (R418): once the role has moved, the actuators are released, and once they are gone
the activation begins. -/
def prepProgress (s : State) : State := match s.tdl.prep with
  | none => s
  | some n =>
    if s.tdl.serving = .leaving then s
    else if pairService s && decide (ownedMask s ≠ 0) then
      (if s.tdl.handoff = .none then
        startRelease (ownedMask s) false (sendCtrl (.handoffReq (ownedMask s) false) s)
       else s)
    else if s.tdl.handoff = .none ∨ ¬ pairService s then
      modHqe (fun q => { q with activating := some (n, false) }) (modTdl (fun t => { t with prep := none }) s)
    else s

/-- Remote reads that have ended give their Staging Buffer space back, and operations that waited for space or for the
link are sent (R404). -/
def remoteProgress (s : State) : State :=
  let s := modPle (fun p => { p with pages := p.pages.filter (fun e => decide (e.1 < 256) || s.tdl.sent.any (fun x => decide (256 + x.1 = e.1))) }) s
  forMcs (fun k s =>
    if !remoteWork s k.val then s
    else
      let q := schedOf s k
      let l := (q.waiting ++ q.ready).filter (fun c => !isRemote c)
      l.foldl (fun s c => queueCand c s) (unqueue k (fun c => !isRemote c) s)) s

/-- A handoff that was given up begins again once its actuators' jobs have ended. A releasing device's is done when
every named ACT_EN bit is clear and ARM is written away (R412 steps 2 and 5). -/
def releaseProgress (s : State) : State := match s.tdl.handoff with
  | .waiting acts spindle =>
    if ([0, 1, 2, 3] : List (Fin 4)).any (fun k => acts.testBit k.val && running s k) then s else startRelease acts spindle s
  | .released acts spindle =>
    let gone := ([0, 1, 2, 3] : List (Fin 4)).all (fun k => !(acts.testBit k.val && actEnabled s k))
    if gone && !rdB s.tdl.csr TDL_HANDOFF.ARM && !serving s && !spindle then
      modTdl (fun t => { t with handoff := .none }) s
    else s
  | _ => s

/-- FIRMWARE_ACTIVATE_DONE: the device then takes its home actuators back (R418). -/
def activateDone (s : State) : State :=
  let was := s.hqe.activating
  let s := firmwareActivateDone s
  if was.isSome && s.hqe.activating.isNone && pairService s && decide (homeMask s &&& ownedMask s ≠ homeMask s) &&
      decide (s.tdl.handoff = .none) then
    sendCtrl (.handoffReq (homeMask s) false) (modTdl (fun t => { t with handoff := .taking (homeMask s) false }) s)
  else s

/-- What follows every row that moves commands, candidates or data on. -/
def settleSlots (s : State) : State := prepProgress (releaseProgress (serveProgress (remoteProgress (settleHost s))))

/-- What follows every row in which a job may end or the pair's roles change: a yielding device gives up its actuators (R408). -/
def settle (s : State) : State :=
  prepProgress (spindleProgress (releaseProgress (serveProgress (finishYield (remoteProgress (settleHost (releaseAcked s)))))))

end Sys2Proof.Machine
end

