-- ==== Sys2Proof/Machine/Clp.lean ====
section
/-! DEFINITION. The Carillon Port: checks, rings, power grants, seek slots, phase, heartbeat and TOCSIN (R423 to R447). -/

namespace Sys2Proof.Machine

def ownNode (s : State) : Nat := rdF s.clp.csr CLP_NODE.NODE
def granter (s : State) : Nat := rdF s.clp.csr CLP_NODE.GRANTER
def clpOn (s : State) : Bool := rdB s.clp.csr CLP_CTL.EN

/-- Whether EN may be 1 (R423): a port, a key, a node number, and a dialect within CLP_DIAL. -/
def clpMayRun (s : State) : Bool :=
  let c := s.clp.csr
  let d := rdF c CLP_PORT.DIALECT
  decide (rdF c CLP_PORT.PORT ≠ 0) && rdB c CLP_STAT.KEY && decide (ownNode s ≠ 16383) &&
    decide (rdF c CLP_DIAL.MIND ≤ d ∧ d ≤ rdF c CLP_DIAL.MAXD)

/-! ### Reception (R425, R429, R430, R444, R445) -/

/-- Little-endian bytes of buffer memory as a number. -/
def memLE (s : State) (a n : Nat) : Nat := (List.range n).foldl (fun v i => v + memByte s.mem (a + i) * 2 ^ (8 * i)) 0

/-- A node's entry of the replay table: the highest counter accepted and the bitmap, in which bit i stands for the counter
H − 63 + i. -/
def replayEntry (s : State) (node : Nat) : Nat × Nat :=
  let a := clpBase s + 0x15000 + 16 * node
  (memLE s a 4, memLE s (a + 8) 8)

/-- The entry after a counter, or none where it is a replay. An entry that was never written is all zeros. -/
def replayNext (e : Nat × Nat) (c : Nat) : Option (Nat × Nat) :=
  if e = (0, 0) then some (c, 2 ^ 63)
  else if e.1 < c then some (c, (e.2 >>> (c - e.1)) % 2 ^ 63 + 2 ^ 63)
  else if e.1 - c < 64 ∧ !e.2.testBit (63 - (e.1 - c)) then some (e.1, e.2 + 2 ^ (63 - (e.1 - c)))
  else none

/-- A message without its tag: its header and its body (R428). -/
def clpMessage (h : ClpHdr) (type : Nat) (body : List Nat) : List Nat :=
  [h.ver, type, h.scope, h.hops] ++ bytesBE 2 h.node ++ bytesBE 2 h.dialect ++ bytesBE 4 h.counter ++ bytesBE 2 h.length ++
    [0, 0] ++ body

/-- The tag of a message under the domain key: byte 3, HOPS, counts as zero (R428). -/
def clpTag (s : State) (h : ClpHdr) (type : Nat) (body : List Nat) : List Nat :=
  Cmac.tag s.clp.key (clpMessage { h with hops := 0 } type body)

/-- The group's address ff02::1c:4e (R427). -/
def clpGroup : Nat := 0xFF02 * 2 ^ 112 + 0x1C * 2 ^ 16 + 0x4E

/-- The device's link-local address, from the MAC address of R427: 02h and the low 40 bits of the unique identifier. -/
def linkLocal (s : State) : Nat :=
  let uid := clpOpt s 9 + (clpOpt s 10 % 256) * 2 ^ 32
  0xFE80 * 2 ^ 112 + (uid / 2 ^ 24) * 2 ^ 40 + 0xFFFE * 2 ^ 24 + uid % 2 ^ 24

/-- The sum of the 16-bit words of some bytes, the first the higher half; a last single byte is followed by zero. -/
def sum16 : List Nat → Nat
  | [] => 0
  | [a] => 256 * a
  | a :: b :: r => 256 * a + b + sum16 r

/-- A UDP datagram of a payload, with a checksum (R427). -/
def udpBytes (h : ClpHdr) (cksum : Nat) (payload : List Nat) : List Nat :=
  bytesBE 2 h.sport ++ bytesBE 2 h.dport ++ bytesBE 2 (payload.length + 8) ++ bytesBE 2 cksum ++ payload

/-- The one's complement sum over the pseudo-header of IPv6 and the datagram, modulo 65,535. -/
def udpSum (h : ClpHdr) (cksum : Nat) (payload : List Nat) : Nat :=
  (sum16 (bytesBE 16 h.src ++ bytesBE 16 h.dst ++ bytesBE 4 (payload.length + 8) ++ [0, 0, 0, 17] ++ udpBytes h cksum payload)) % 65535

/-- The checksum that a datagram is to carry: zero is sent as all ones. -/
def udpCheck (h : ClpHdr) (payload : List Nat) : Nat := 65535 - udpSum h 0 payload

/-- Check 1 of R429: destination and port, the UDP checksum, VER, and a LENGTH within 0 to 224 that fits the datagram. -/
def clpWireOk (s : State) (h : ClpHdr) (type : Nat) (body : List Nat) : Bool :=
  decide (h.dst = clpGroup ∧ h.dport = rdF s.clp.csr CLP_PORT.PORT ∧ h.cksum ≠ 0 ∧
    udpSum h h.cksum (clpMessage h type body ++ h.tag) = 0 ∧ h.ver = 1 ∧ h.tag.length = 16 ∧
    h.length = body.length ∧ body.length ≤ 224)

/-- A stranger (R429): dropped and counted; at most one a minute is recorded. -/
def stranger (s : State) : State :=
  let s := clpReg (fun c => incR c CLP_STRANGER 1) s
  let quiet : Bool := match s.clp.strangerAt with
    | none => false
    | some t => decide (s.sys.us < t + 60000000)
  if quiet then s else coordEvent (modClp (fun c => { c with strangerAt := some s.sys.us }) s)

/-- CLP_STAT.CONFLICT is set; its TOCSIN goes out when it was clear. -/
def conflict (s : State) : State :=
  let was := rdB s.clp.csr CLP_STAT.CONFLICT
  let s := clpReg (fun c => wrB c CLP_STAT.CONFLICT true) s
  if was then s else tocsin 5 s

/-- Enter a message in the receive ring, with the exchange slot that it matched. -/
def ringEnter (h : ClpHdr) (type : Nat) (body : List Nat) (slot : Option Nat) (s : State) : State :=
  let prod := rdF s.clp.csr CLP_RXQ.PROD
  let w := type + (match slot with
    | some n => n * 2 ^ 24 + 2 ^ 31
    | none => 0)
  let s := bufPut (clpBase s + 256 * prod) (bytesLE 4 w ++ bytesLE 4 h.us ++ List.replicate 8 0 ++ clpMessage h type body) s
  clpReg (fun c => wrF c CLP_RXQ.PROD ((prod + 1) % 256)) s

/-- The checks of R429 in order. The answer says whether the message is accepted and to be acted on: a late response is
accepted and discarded (R436). -/
def clpReceive (h : ClpHdr) (type : Nat) (known : List Nat) (slot : Option Nat) (late : Bool) (s : State) : Bool × State :=
  let c := s.clp.csr
  let body := known ++ h.more
  let prod := rdF c CLP_RXQ.PROD
  if !clpOn s then (false, s)
  else if !h.phyOk then (false, clpReg (fun c => incR c CLP_COLL 1) s)
  else if !clpWireOk s h type body then (false, stranger s)
  else if h.node = ownNode s then (false, if h.tag = clpTag s h type body then conflict (stranger s) else stranger s)
  else if h.node < rdF c CLP_DOM.LO ∨ rdF c CLP_DOM.HI < h.node ∨ 16383 ≤ h.node ∨ h.tag ≠ clpTag s h type body then (false, stranger s)
  else match replayNext (replayEntry s h.node) h.counter with
    | none => (false, clpReg (fun c => incR c CLP_REPLAY 1) s)
    | some e =>
      let d := rdF c CLP_PORT.DIALECT
      if h.dialect + 1 < d ∨ d + 1 < h.dialect then (false, stranger s)
      else if !late && decide ((prod + 1) % 256 = rdF c CLP_RXQ.CONS) then (false, clpReg (fun c => incR c CLP_DROP 1) s)
      else
        let s := bufPut (clpBase s + 0x15000 + 16 * h.node) (bytesLE 4 e.1 ++ [0, 0, 0, 0] ++ bytesLE 8 e.2) s
        let s := clpReg (fun c => incR c CLP_RX 1) s
        if late then (false, clpReg (fun c => incR c CLP_LATE 1) s) else (true, ringEnter h type body slot s)

/-- Receive a message and act on it if it is accepted. -/
def onClp (h : ClpHdr) (type : Nat) (body : List Nat) (f : State → State) (s : State) : State :=
  let r := clpReceive h type body none false s
  if r.1 then f r.2 else r.2

/-! ### Exchanges and the requester (R433, R435, R436) -/

/-- The body of a POWER_GRANT. -/
def powerBody (op : Nat) (m : PowerMsg) : List Nat :=
  [op, m.pos] ++ bytesBE 2 m.domain ++ bytesBE 2 m.subject ++ bytesBE 2 m.reqid ++ bytesBE 2 m.watts ++ bytesBE 4 m.dur

def xchgAt (s : State) (n : Nat) : Xchg := (tget none s.clp.xchg n).getD ⟨false, false, false, 0, 0⟩
def putXchg (n : Nat) (x : Xchg) (s : State) : State := modClp (fun c => { c with xchg := tput none c.xchg n (some x) }) s

/-- Arm an exchange slot's timer. -/
def armXchg (n tmo reqid : Nat) (s : State) : State := putXchg n ⟨true, false, false, tmo, reqid⟩ s

/-- The slots in some state for a REQID. -/
def slotsFor (s : State) (reqid : Nat) (p : Xchg → Bool) : Option Nat :=
  (List.range 8).find? (fun n => p (xchgAt s n) && decide ((xchgAt s n).reqid = reqid))

/-- Issue CMD START, granted or not. -/
def spinUp (reqid : Nat) (granted : Bool) (s : State) : State :=
  scuCmdStart (modClp (fun c => { c with req := .spinning reqid granted }) s)

/-- What the requester does on each answer (R435). -/
def grantTaken (reqid : Nat) (s : State) : State := match s.clp.req with
  | .wait r _ _ => if r = reqid then spinUp r true s else s
  | .queued r _ _ => if r = reqid then spinUp r true s else s
  | _ => s
def queuedTaken (reqid : Nat) (s : State) : State := match s.clp.req with
  | .wait r _ _ => if r = reqid then armXchg 0 50 r (modClp (fun c => { c with req := .queued r s.sys.us false }) s) else s
  | .queued r t _ => if r = reqid then armXchg 0 50 r (modClp (fun c => { c with req := .queued r t false }) s) else s
  | _ => s
def denyTaken (reqid : Nat) (s : State) : State := match s.clp.req with
  | .wait r _ _ => if r = reqid then modClp (fun c => { c with req := .backoff }) s else s
  | .queued r _ _ => if r = reqid then modClp (fun c => { c with req := .backoff }) s else s
  | _ => s

/-- A response: only from the granter and only for this node; one for this node from elsewhere is recorded (R433). Its
exchange timer may have won (R436). -/
def response (op : Nat) (h : ClpHdr) (m : PowerMsg) (f : Nat → State → State) (s : State) : State :=
  let mine := decide (m.subject = ownNode s ∧ h.node = granter s ∧ granter s ≠ 16383)
  let slot := if mine then slotsFor s m.reqid (fun x => x.go) else none
  let late := mine && slot.isNone && (slotsFor s m.reqid (fun x => x.expired)).isSome
  let r := clpReceive h 1 (powerBody op m) slot late s
  if r.1 && mine then
    let t := match slot with
      | some n => putXchg n { xchgAt r.2 n with go := false, matched := true } r.2
      | none => r.2
    f m.reqid t
  else if r.1 && decide (m.subject = ownNode s) then coordEvent r.2
  else r.2

/-- GRANT. -/
def grant (h : ClpHdr) (m : PowerMsg) (s : State) : State := response 2 h m grantTaken s

/-- GRANT_QUEUED. -/
def grantQueued (h : ClpHdr) (m : PowerMsg) (s : State) : State := response 3 h m queuedTaken s

/-- GRANT_DENY. -/
def grantDeny (h : ClpHdr) (m : PowerMsg) (s : State) : State := response 4 h m denyTaken s

/-! ### The granter (R434) -/

def isGranter (s : State) : Bool := decide (granter s = ownNode s ∧ ownNode s ≠ 16383)

/-- The budget of the supply domain, in 0.1 W (option area field 400). -/
def budget (s : State) : Nat := clpOpt s 400

/-- Answer a requester; the granter's own requests are answered here. -/
def answer (op pos : Nat) (e : GrantEnt) (dur : Nat) (s : State) : State :=
  if e.subject = ownNode s then
    (match op with
      | 2 => grantTaken e.reqid s
      | 3 => queuedTaken e.reqid s
      | _ => denyTaken e.reqid s)
  else clpSend false 1 1 (powerBody op ⟨pos, clpOpt s 404, e.subject, e.reqid, e.watts, dur⟩) s

/-- Grant from the head of the queue what the budget allows. -/
def pumpGrants : Nat → State → State
  | 0, s => s
  | n + 1, s =>
    match s.clp.queue with
    | [] => s
    | e :: q =>
      if s.clp.restartWait || decide (budget s < s.clp.active.foldl (fun a x => a + x.watts) e.watts) then s
      else
        let s := modClp (fun c => { c with
          queue := q
          active := c.active ++ [{ e with time := s.sys.us + 1000 * e.dur }] }) s
        pumpGrants n (answer 2 0 e e.dur s)
def grantAll (s : State) : State := pumpGrants 255 s

/-- A REQUEST at the granter. -/
def request (subject reqid watts dur : Nat) (s : State) : State :=
  let same := fun (e : GrantEnt) => decide (e.subject = subject ∧ e.reqid = reqid)
  let e : GrantEnt := ⟨subject, reqid, watts, dur, s.sys.us⟩
  match s.clp.active.find? same with
  | some a => answer 2 0 a ((a.time - s.sys.us) / 1000) s
  | none => match s.clp.queue.findIdx? same with
    | some i => answer 3 (i + 1) e dur (modClp (fun c => { c with
        queue := c.queue.map (fun x => if same x then { x with time := s.sys.us } else x) }) s)
    | none =>
      if budget s < watts ∨ 255 ≤ s.clp.queue.length then answer 4 0 e dur s
      else
        let s := grantAll (modClp (fun c => { c with queue := c.queue ++ [e] }) s)
        match s.clp.queue.findIdx? same with
        | some i => answer 3 (i + 1) e dur s
        | none => s

/-- GRANT_REQUEST: its fields within their ranges, and for this granter's domain. -/
def grantRequest (h : ClpHdr) (m : PowerMsg) (s : State) : State :=
  onClp h 1 (powerBody 1 m) (fun s =>
    if isGranter s && decide (m.subject = h.node ∧ m.domain = clpOpt s 404 ∧ 1 ≤ m.watts ∧ 1 ≤ m.dur ∧ m.dur ≤ 60000) then
      request m.subject m.reqid m.watts m.dur s
    else s) s

/-- End the active grants that satisfy a condition, and go on granting. -/
def endGrants (p : GrantEnt → Bool) (s : State) : State :=
  grantAll (modClp (fun c => { c with active := c.active.filter (fun e => !p e) }) s)

/-- GRANT_RELEASE. -/
def grantRelease (h : ClpHdr) (m : PowerMsg) (s : State) : State :=
  onClp h 1 (powerBody 5 m) (fun s =>
    if isGranter s && decide (m.subject = h.node) then endGrants (fun e => decide (e.subject = m.subject ∧ e.reqid = m.reqid)) s
    else s) s

/-- GRANT_EXPIRY: the grant's duration has passed. -/
def grantExpiry (subject reqid : Nat) (s : State) : State :=
  endGrants (fun e => decide (e.subject = subject ∧ e.reqid = reqid ∧ e.time ≤ s.sys.us)) s

/-- GRANT_QUEUE_LAPSE: the request has not been repeated within 15 s. -/
def grantQueueLapse (subject reqid : Nat) (s : State) : State :=
  grantAll (modClp (fun c => { c with queue := c.queue.filter (fun e =>
    !decide (e.subject = subject ∧ e.reqid = reqid ∧ e.time + 15000000 ≤ s.sys.us)) }) s)

/-- GRANTER_RESTART_WAIT_END. -/
def granterRestartWaitEnd (s : State) : State := grantAll (modClp (fun c => { c with restartWait := false }) s)

/-! ### The requester's own events (R435, R436) -/

/-- Send a REQUEST for a start's power and duration, from the option area; to itself where this device is the granter. -/
def sendRequest (reqid : Nat) (s : State) : State :=
  if isGranter s then request (ownNode s) reqid (clpOpt s 401) (clpOpt s 402) s
  else clpSend false 1 1 (powerBody 1 ⟨0, clpOpt s 404, ownNode s, reqid, clpOpt s 401, clpOpt s 402⟩) s

/-- SPIN_START_NEEDED: with Carillon off the spindle starts at once. -/
def spinStartNeeded (s : State) : State :=
  if !clpOn s then scuCmdStart s
  else match s.clp.req with
    | .idle =>
      let r := s.clp.nextReq
      sendRequest r (armXchg 0 10 r (modClp (fun c => { c with nextReq := (r + 1) % 65536, req := .wait r 1 false }) s))
    | _ => s

/-- XCHG_ARM: CLP_XCHG.GO. The requester whose timer ran out repeats its REQUEST with it, under the same REQID. -/
def xchgArm (n tmo reqid : Nat) (s : State) : State :=
  let s := armXchg (n % 8) (max 1 tmo) reqid s
  match s.clp.req with
  | .wait r k true => if r = reqid then sendRequest r (modClp (fun c => { c with req := .wait r (k + 1) false }) s) else s
  | .queued r t true => if r = reqid then sendRequest r (modClp (fun c => { c with req := .queued r t false }) s) else s
  | _ => s

/-- XCHG_EXPIRY: the timer wins; after five sends, or 120 s in the queue, the requester backs off. -/
def xchgExpiry (n : Nat) (s : State) : State :=
  let x := xchgAt s (n % 8)
  if !x.go then s
  else
    let s := putXchg (n % 8) { x with go := false, expired := true } s
    match s.clp.req with
    | .wait r k _ =>
      if r ≠ x.reqid then s
      else modClp (fun c => { c with req := if 5 ≤ k then .backoff else .wait r k true }) s
    | .queued r t _ =>
      if r ≠ x.reqid then s
      else modClp (fun c => { c with req := if t + 120000000 ≤ s.sys.us then .backoff else .queued r t true }) s
    | _ => s

/-- SPIN_BACKOFF_END: an ungranted start. -/
def spinBackoffEnd (s : State) : State := match s.clp.req with
  | .backoff => spinUp 0 false s
  | _ => s

/-- Steps 9 to 11 of R455 follow the spindle and the heads: step 9 runs from the start of the spindle, step 10 from
its speed, and step 11 from the loading of every owned actuator. -/
def bootProgress (s : State) : State :=
  let n := rdF s.sys.csr SYS_BOOT_STAT.STAGE
  if s.sys.phase ≠ .running ∨ s.sys.dump ≠ .none ∨ recovery s ∨ s.hqe.ioReady ∨ n < 8 ∨ 10 < n then s
  else if n = 8 then (if scuState s = 0 ∨ scuState s = 8 ∨ scuState s = 10 then s else bootStage 9 s)
  else if n = 9 then (if spindleReady s then bootStage 10 s else s)
  else if ([0, 1, 2, 3] : List (Fin 4)).all (fun k => !actOwned s k || decide ((actOf s k).state ∈ [3, 4, 5, 8])) then
    bootStage 11 s
  else s

/-- A start is over when the spindle is within 1 % of its speed, or has stopped or failed: a grant is released. -/
def spinEnded (s : State) : State :=
  let s := bootProgress s
  match s.clp.req with
  | .spinning r granted =>
    let dev := ((scuSpeed s : Int) - speedSet s).natAbs
    if scuState s = 0 ∨ scuState s = 10 ∨ 100 * dev ≤ speedSet s then
      let s := modClp (fun c => { c with req := .idle }) s
      if !granted then s
      else if isGranter s then endGrants (fun e => decide (e.subject = ownNode s ∧ e.reqid = r)) s
      else clpSend false 1 1 (powerBody 5 ⟨0, clpOpt s 404, ownNode s, r, clpOpt s 401, clpOpt s 402⟩) s
    else s
  | _ => s

/-! ### Sled (R437 to R440) -/

def ownSled (s : State) : Nat := clpOpt s 403

/-- The other members of the sled: heard within 3 s. -/
def sledMembers (s : State) : List Nat :=
  (s.clp.members.filter (fun m => decide (m.sled = ownSled s ∧ ownSled s ≠ 0 ∧ s.sys.us < m.us + 3000000))).map (fun m => m.node)

/-- Write PLE_VIB_WIN in one access. -/
def writeWindow (period phase len : Nat) (s : State) : State :=
  pleReg (fun c => wr c PLE_VIB_WIN (BitVec.ofNat 32 ((period % 4096) * 2 ^ 20 + (phase % 4096) * 2 ^ 8 + len % 256))) s

/-- SEEK_SLOT (R438, R439): the table of the lowest node heard is followed; a master that hears a lower node stops. -/
def seekSlot (h : ClpHdr) (m : SeekSlotMsg) (s : State) : State :=
  let body := bytesBE 2 m.sled ++ bytesBE 2 m.period ++ [m.len, m.nodes.length] ++ bytesBE 4 m.offset ++ m.nodes.flatMap (bytesBE 2)
  onClp h 2 body (fun s =>
    if m.sled ≠ ownSled s ∨ m.sled = 0 then s
    else
      let s := if h.node < ownNode s then modClp (fun c => { c with master := false }) s else s
      let older := match s.clp.follow with
        | none => true
        | some (n, t) => decide (h.node ≤ n ∨ t + 3000000 ≤ s.sys.us)
      if s.clp.master || !older then s
      else
        let at_ := m.nodes.findIdx? (fun n => decide (n = ownNode s))
        let s := modClp (fun c => { c with follow := some (h.node, s.sys.us), place := at_.map (fun i => (i, m.nodes.length)) }) s
        match at_ with
        | none => writeWindow 0 0 0 s
        | some i =>
          if 4095 < m.period ∨ m.period = 0 then writeWindow 0 0 0 s
          else
            let start : Int := ((h.us : Int) - m.offset) / 1000
            let phase := ((start + i * m.len) % (m.period : Int)).toNat
            writeWindow m.period phase m.len (pleReg (fun c => wrB c PLE_VIB_CTL.EN true) s)) s

/-- SEEK_SLOT_SILENCE: the window closes, and the lowest member becomes master. -/
def seekSlotSilence (s : State) : State :=
  let s := modClp (fun c => { c with follow := none, place := none }) (writeWindow 0 0 0 s)
  if ownSled s ≠ 0 ∧ (sledMembers s).all (fun n => decide (ownNode s < n)) then modClp (fun c => { c with master := true }) s else s

/-- The body of a PHASE. -/
def phaseBody (m : PhaseMsg) : List Nat := bytesBE 2 m.sled ++ bytesBE 2 m.speed ++ bytesBE 4 m.offset ++ bytesBE 4 m.rev

/-- CLP_PHASE (R440): a member without SPSYNC sets its own phase at i ÷ n of a turn after the master's. -/
def clpPhase (h : ClpHdr) (m : PhaseMsg) (s : State) : State :=
  onClp h 3 (phaseBody m) (fun s => match s.clp.place with
    | some (i, n) =>
      if m.sled = ownSled s ∧ m.sled ≠ 0 ∧ rdB s.sce.csr SCE_SPN_CTL.PHASE_FW ∧ !s.sce.spn.sync then
        sceReg (fun c => wrF c SCE_SPN_SET.PHASE (i * 65536 / max 1 n)) s
      else s
    | none => s) s

/-! ### HEARTBEAT, DIALECT and TOCSIN (R432, R441, R442) -/

/-- The pair partner's HEARTBEAT (R407, R408): with the Tandem Link silent it makes the class a link fault. -/
def partnerBeat (b : ClpBeat) (us : Nat) (s : State) : State :=
  let s := modClp (fun c => { c with pairBeat := some us, pairFlags := b.flags }) s
  let s := if !rdB s.tdl.csr TDL_STAT.HEARD && !rdB s.elg.csr ELG_CTL.PAIR_OK && s.tdl.roles &&
      decide (rdF s.tdl.csr TDL_STAT.CLASS = 0) then linkFault s else s
  let s := if b.flags.testBit 1 then seeYield s else s
  if b.flags.testBit 2 then seeSolo s else s

/-- CLP_HEARTBEAT. -/
def clpHeartbeat (h : ClpHdr) (b : ClpBeat) (s : State) : State :=
  let body := [b.flags, 0] ++ bytesBE 2 b.partner ++ bytesBE 2 b.sled ++ bytesBE 2 b.domain ++ bytesBE 8 b.fw
  onClp h 4 body (fun s =>
    let s := modClp (fun c => { c with members := c.members.filter (fun x => decide (x.node ≠ h.node)) ++
      [⟨h.node, b.sled, s.sys.us⟩] }) s
    if inPair s && decide (h.node = clpOpt s 405) then partnerBeat b s.sys.us s else s) s

/-- The body of a DIALECT. -/
def dialectBody (d : DialectMsg) : List Nat :=
  bytesBE 2 d.low ++ bytesBE 2 d.high ++ bytesBE 2 d.current ++ bytesBE 2 d.product ++ bytesBE 8 d.fw

/-- CLP_DIALECT. -/
def clpDialect (h : ClpHdr) (d : DialectMsg) (s : State) : State :=
  onClp h 5 (dialectBody d) (modClp (fun c => { c with dialects := tput none c.dialects h.node (some d) })) s

/-- TOCSIN: the first copy of an event is recorded, ends its subject's grants here and takes it out of the sled table;
later copies are ignored. -/
def tocsinIn (h : ClpHdr) (m : TocsinMsg) (s : State) : State :=
  onClp h 6 (tocsinBody m) (fun s =>
    if s.clp.seen.contains (m.subject, m.event) then s
    else
      let s := modClp (fun c => { c with
        seen := (m.subject, m.event) :: c.seen
        members := c.members.filter (fun x => decide (x.node ≠ m.subject)) }) (coordEvent s)
      if isGranter s then endGrants (fun e => decide (e.subject = m.subject)) s else s) s

/-- TOCSIN_REPEAT: the next copy of an event of this device. -/
def tocsinRepeat (event : Nat) (s : State) : State :=
  match s.clp.tocsins.find? (fun e => decide (e.msg.event = event)) with
  | none => s
  | some e =>
    let s := modClp (fun c => { c with tocsins := c.tocsins.filterMap (fun x => if x.msg.event = event then
      (if x.left ≤ 1 then none else some { x with left := x.left - 1 }) else some x) }) s
    clpSend true 6 1 (tocsinBody e.msg) s

/-! ### The PHY and transmission (R424 to R427, R431) -/

/-- NEIGHBOR_SOLICITATION: answered where it asks for the device's own address. -/
def neighborSolicitation (target : Nat) (s : State) : State :=
  if clpOn s && decide (target = linkLocal s) then modClp (fun c => { c with answered := c.answered + 1 }) s else s

/-- The queue that sends next: ALARM before NORMAL (R426); none where both are empty. -/
def nextTx (s : State) : Option Bool :=
  let c := s.clp.csr
  if rdF c CLP_TXQ.ACONS ≠ rdF c CLP_TXQ.APROD then some true
  else if rdF c CLP_TXQ.NCONS ≠ rdF c CLP_TXQ.NPROD then some false else none

/-- Take an entry off its ring. -/
def txAdvance (alarm : Bool) (s : State) : State :=
  let f := if alarm then CLP_TXQ.ACONS else CLP_TXQ.NCONS
  clpReg (fun c => wrF c f ((rdF c f + 1) % (if alarm then 16 else 64))) s

/-- The sending counter moves on; the stored value stays ahead of it, and at the top sending stops (R431). -/
def txCount (s : State) : State :=
  let n := (rd s.clp.csr CLP_TXCNT).toNat + 1
  let s := clpReg (fun c => wr c CLP_TXCNT (BitVec.ofNat 32 n)) s
  let s := if n = clpOpt s 406 then optUpdate (tput 0 s.nv.opt 406 (BitVec.ofNat 32 (min 0xFFFFFFFF (n + 65536)))) s else s
  if n = 0xFFFFFFFF then clpReg (fun c => wrB c CLP_STAT.EXHAUST true) s else s

/-- CLP_TRANSMIT: at a transmit opportunity, with the collisions that the frame met; the sixteenth drops it. The CLP fills in
VER, HOPS, NODE, DIALECT, COUNTER and TAG, and sends the message as one UDP datagram (R427). -/
def clpTransmit (collisions : Nat) (s : State) : State :=
  if !clpOn s || rdB s.clp.csr CLP_STAT.EXHAUST || decide (rd s.clp.csr CLP_TXCNT = 0xFFFFFFFF) then s
  else match nextTx s with
    | none => s
    | some alarm =>
      let cons := rdF s.clp.csr (if alarm then CLP_TXQ.ACONS else CLP_TXQ.NCONS)
      let a := clpBase s + (if alarm then 0x10000 else 0x11000) + 256 * cons + 16
      let scope := memByte s.mem (a + 2)
      let len := min 224 (memByte s.mem (a + 12) * 256 + memByte s.mem (a + 13))
      let port := rdF s.clp.csr CLP_PORT.PORT
      let h : ClpHdr := {
        phyOk := true
        src := linkLocal s
        dst := clpGroup
        sport := port
        dport := port
        cksum := 0
        ver := 1
        scope := scope
        hops := if 128 ≤ scope then 7 else 0
        node := ownNode s
        dialect := rdF s.clp.csr CLP_PORT.DIALECT
        counter := (rd s.clp.csr CLP_TXCNT).toNat
        length := len
        more := []
        tag := []
        us := s.sys.us }
      let body := (List.range len).map (fun i => memByte s.mem (a + 16 + i))
      let type := memByte s.mem (a + 1)
      let payload := clpMessage h type body ++ clpTag s h type body
      let datagram := udpBytes h (udpCheck h payload) payload
      let s := clpReg (fun c => incR c CLP_COLL collisions) s
      let s := txCount (txAdvance alarm s)
      if 16 ≤ collisions then clpReg (fun c => incR c CLP_DROP 1) s
      else modClp (fun c => { c with sent := datagram }) (clpReg (fun c => incR c CLP_TX 1) s)

/-- PLCA_FALLBACK. -/
def plcaFallback (s : State) : State :=
  if rdB s.clp.csr CLP_STAT.PLCA_OK then clpReg (fun c => incR (wrB c CLP_STAT.PLCA_OK false) CLP_FALLBACK 1) s else s

/-- PLCA_BEACON. With a node ID of 255, PLCA is not used (R424). -/
def plcaBeacon (s : State) : State :=
  if clpOn s && decide (rdF s.clp.csr CLP_PLCA.ID ≠ 255) then clpReg (fun c => wrB c CLP_STAT.PLCA_OK true) s else s

/-! ### What firmware sends by the clock (R432, R437, R440, R441) -/

/-- The firmware version that messages carry: the image of the active slot. -/
def fwVersion (s : State) : Nat := fwSlot s s.nv.fwActive

/-- HEARTBEAT. The spindle counts as at speed when it is ready for LOAD, within ± BAND (R150). -/
def sendClpBeat (s : State) : State :=
  let flags := b2n (inPair s) + 2 * b2n s.clp.yield_ + 4 * b2n s.clp.solo + 8 * b2n (serving s) + 16 * b2n (spindleReady s) +
    32 * b2n (writeThrough s)
  clpSend false 4 0 ([flags, 0] ++ bytesBE 2 (if inPair s then clpOpt s 405 else 16383) ++ bytesBE 2 (ownSled s) ++
    bytesBE 2 (clpOpt s 404) ++ bytesBE 8 (fwVersion s)) s

/-- DIALECT, at enable and every 60 s. -/
def sendDialect (s : State) : State :=
  let c := s.clp.csr
  clpSend false 5 0 (dialectBody ⟨rdF c CLP_DIAL.MIND, rdF c CLP_DIAL.MAXD, rdF c CLP_PORT.DIALECT, 0x7440, fwVersion s⟩) s

/-- The window length of a sled master, 25 ms unless the option area says otherwise (field 407). -/
def slotLen (s : State) : Nat := if clpOpt s 407 = 0 then 25 else clpOpt s 407 % 256

/-- The master's table: the first 64 members in ascending order, itself among them. -/
def sledTable (s : State) : List Nat := ((ownNode s :: sledMembers s).dedup.mergeSort (fun a b => decide (a ≤ b))).take 64

/-- SEEK_SLOT: the table, sent at the start of the master's own window, which is slot 0 as it is the lowest member;
the master's own window is placed with it. Its OFFSET depends on when the frame starts, which is a free value (log
207). -/
def sendSeekSlot (s : State) : State :=
  let t := sledTable s
  let period := t.length * slotLen s
  let f := takeFree s
  let s := modClp (fun c => { c with slotSent := some s.sys.us, place := some (0, t.length) }) f.2
  let s := if 4095 < period then writeWindow 0 0 0 s
    else writeWindow period (nowMs s % max 1 period) (slotLen s) (pleReg (fun c => wrB c PLE_VIB_CTL.EN true) s)
  clpSend false 2 0 (bytesBE 2 (ownSled s) ++ bytesBE 2 (period % 65536) ++ [slotLen s, t.length] ++
    bytesBE 4 (Config.freeWord f.1).toNat ++ t.flatMap (bytesBE 2)) s

/-- PHASE, of a master whose spindle is in WEDGE_RUN; OFFSET as in SEEK_SLOT. -/
def sendPhase (s : State) : State :=
  if scuState s ≠ 4 then s
  else
    let f := takeFree s
    clpSend false 3 0 (bytesBE 2 (ownSled s) ++ bytesBE 2 (scuSpeed s) ++ bytesBE 4 (Config.freeWord f.1).toNat ++
      bytesBE 4 s.sce.spn.rev) f.2

/-- Whether the master's next table is due: a second has passed, and its own window starts. -/
def slotDue (s : State) : Bool :=
  let period := rdF s.ple.csr PLE_VIB_WIN.PERIOD
  s.clp.master && decide (s.sys.us % 1000 = 0) &&
    (match s.clp.slotSent with
     | none => true
     | some t => decide (t + 1000000 ≤ s.sys.us)) &&
    (decide (period = 0) || decide ((nowMs s + period - rdF s.ple.csr PLE_VIB_WIN.PHASE % period) % period = 0))

/-- What the clock sends at a microsecond. -/
def clpTick (s : State) : State :=
  if !clpOn s then s
  else
    let s := if s.sys.us % (if inPair s then 100000 else 1000000) = 0 then sendClpBeat s else s
    let s := if s.sys.us % 60000000 = 0 then sendDialect s else s
    if slotDue s then sendPhase (sendSeekSlot s) else s

/-- Carillon is enabled: DIALECT is sent (R432), and firmware clears AUTORST, so that no start goes without a grant (R435). -/
def clpEnabled (s : State) : State := scuReg (fun c => wrB c SCU_CTL.AUTORST false) (sendDialect s)

/-- CLP_CLR_CNT. -/
def clpClrCnt (s : State) : State := clpReg (fun c => tdrop c 0x30 0x50) s

end Sys2Proof.Machine
end

