-- ==== Sys2Proof/Machine/CsrRead.lean ====
section
/-! DEFINITION. Reading CSR space (R24 to R26): what each register shows, and what a read does besides. -/

namespace Sys2Proof.Machine

/-! ### What each register shows -/

/-- SYS: the fabric registers among them. A read of SYS_OPTSEC shows what the last read of SYS_OPTIME latched. -/
def viewSys (s : State) (off : Nat) : Word :=
  if off = SYS_ID then (if s.part = .dhk7440 then 0x744000B0 else 0x742000B0)
  else if off = SYS_OPTIME then BitVec.ofNat 32 (nowSec s / 3600)
  else if off = SYS_OPTSEC then s.sys.optSecLatch
  else if off = SYS_PWRCYC then BitVec.ofNat 32 s.nv.pwrcyc
  else rd s.sys.csr off

/-- Commands that wait for admission (1) or for map space (2). -/
def heldFor (s : State) (why : Nat) : Nat :=
  (s.hqe.slots.filter (fun e => match e.2 with
    | some x => decide (x.held = why)
    | none => false)).length

/-- HQE (R274). -/
def viewHqe (s : State) (off : Nat) : Word :=
  let f := rdF s.hqe.csr HQE_FN_IDX.FN
  if off = HQE_SLOTS then
    let io := ioSlots s
    BitVec.ofNat 32 ((s.hqe.slots.length - io) * 65536 + io)
  else if off = HQE_WAIT then BitVec.ofNat 32 (min 65535 (heldFor s 2) * 65536 + min 65535 (heldFor s 1))
  else if off = HQE_FN_CAP then (if fnExists s f then BitVec.ofNat 32 (fnOf s f).cap else 0)
  else if off = HQE_FN_STAT then
    (if fnExists s f then BitVec.ofNat 32 (fnIoSlots s f * 65536 + ((fnOf s f).sqs.filter (fun e => decide (e.1 ≠ 0))).length) else 0)
  else if off = HQE_ABORTF then
    BitVec.ofNat 32 (s.hqe.fns.foldl (fun n e => n + ((e.2.map (fun x => x.filters.length)).getD 0)) 0)
  else if off = HQE_UNLOCK then match s.hqe.unlock with
    | none => 0
    | some u => if reached s u.ends then 0 else BitVec.ofNat 32 (2 ^ 31 + min 0x1FFFF (u.ends - nowSec s) * 2 ^ 14 + u.fn % 256 * 4 + u.scope % 4)
  else rd s.hqe.csr off

/-- Actuators that hold DEGRADED bands. -/
def degradedActs (s : State) : Nat :=
  s.ple.map.bands.foldl (fun m e => match e.2 with
    | some b => if b.st = 7 then m ||| 2 ^ (b.mc % 4) else m
    | none => m) 0

/-- Live echo copies (R188). One that is marked for drop still counts here, while log C3h counts it no more: neither
rule says what Dropping counts as (DESIGN CHOICE, log 251). -/
def echoLive (s : State) : Nat :=
  s.ple.map.echoes.foldl (fun n e => match e.2 with
    | some x => n + b2n (decide (x.st0 = 2)) + b2n (decide (x.st1 = 2))
    | none => n) 0

/-- PLE (R229). -/
def viewPle (s : State) (off : Nat) : Word :=
  if off = PLE_STAT then BitVec.ofNat 32 (s.ple.mapst % 4 * 2 ^ 30 + b2n s.ple.snapping.isSome * 2 ^ 29 + degradedActs s % 16 * 2 ^ 24)
  else if off = PLE_MAP_USED then BitVec.ofNat 32 ((mapUsed s + 1023) / 1024)
  else if off = PLE_ECHO_LIVE then BitVec.ofNat 32 (echoLive s)
  else match schSelected s with
    | none => if 0x2C ≤ off ∧ off ≤ 0x38 then 0 else rd s.ple.csr off
    | some k =>
      let q := schedOf s k
      if off = PLE_SCH_STAT then
        BitVec.ofNat 32 (min 4096 q.ready.length * 65536 +
          min 8191 ((q.ready.filter (fun c => if c.cls = 0 then dueUrgent s c else dueOther s c)).length))
      else if off = PLE_SCH_MAXW then q.maxw
      else if off = PLE_SCH_DUEPK then q.duepk
      else if off = PLE_SCH_CLAIM then q.claimLost
      else rd s.ple.csr off

/-- The selected word of the ADC masks; words 5 to 7 select nothing. -/
def adcKey (m : Mc) : Option Nat :=
  let w := rdF m.csr MC_ADC_IDX.WORD
  if 5 ≤ w then none else some (rdF m.csr MC_ADC_IDX.ADC * 16 + rdF m.csr MC_ADC_IDX.BANK * 8 + w)

/-- The head that MC_ASC_IDX selects; 12 to 15 select none. -/
def ascHead (m : Mc) : Option Nat :=
  let h := rdF m.csr MC_ASC_IDX.HEAD
  if 12 ≤ h then none else some h

/-- MSQ_STAT: the running job, or the last one. -/
def msqStat (m : Mc) : Word :=
  let w := wordSetField (rd m.csr MSQ_STAT) 31 30 (msqState m)
  match m.job with
  | none => w
  | some j =>
    wordSetField (wordSetField (wordSetField (wordSetField w 29 29 (b2n (decide (0x3800 ≤ j.pc)))) 27 25 j.stack.length)
      21 16 j.entry) 13 0 j.pc

/-- A Media Channel's registers (R71, R105, R141). -/
def viewMc (m : Mc) (off : Nat) : Word :=
  if off = MC_ADC_SEL then match adcKey m with
    | none => 0
    | some k => tget 0 m.adcMask k
  else if off = MC_ASC_LVL then match ascHead m with
    | none => 0
    | some h => BitVec.ofNat 32 (tget 0 m.ascLevel (16 * h + rdF m.csr MC_ASC_IDX.LEVEL))
  else if off = MC_ASC_AGE then match ascHead m with
    | none => 0
    | some h => ascAgeOf m h
  else if off = MC_ASC_HON then match ascHead m with
    | none => 0
    | some h => BitVec.ofNat 32 (min 0xFFFFFFFF (tget 0 m.onTimeUs h / 1000))
  else if off = MC_ASC_HRISE then match ascHead m with
    | none => 0
    | some h => BitVec.ofNat 32 (tget 0 m.rises h)
  else if off = MC_HIF_PDATA then tget 0 m.preload (rdF m.csr MC_HIF_PIDX.IDX)
  else if off = MC_ASC_STAT then
    rd (wrB m.csr MC_ASC_STAT.DUTY_HOLD (m.dutyHold.contains (rdF m.csr MC_ASC_STAT.HEAD))) off
  else if off = MSQ_STAT then msqStat m
  else if off = MSQ_JT_DATA then jtW m (rdF m.csr MSQ_JT_IDX.ENTRY) (rdF m.csr MSQ_JT_IDX.DW)
  else if off = MSQ_EVT_LO then (evtLo m).1
  else if off = MSQ_EVT_HI then (evtHi m).1
  else if off = MSQ_ST_DATA then (stRead m).1
  else if off = MSQ_RTAB_DATA then tget 0 m.knobs (2 * rdF m.csr MSQ_RTAB_IDX.SET + rdF m.csr MSQ_RTAB_IDX.DW)
  else if off = MSQ_TRACE then (traceOut m).1
  else rd m.csr off

/-- One bit per actuator or Media Channel. -/
def maskOf (p : Fin 4 → Bool) : Nat :=
  (([0, 1, 2, 3] : List (Fin 4)).filter p).foldl (fun n k => n + 2 ^ k.val) 0

/-- SCE_STAT (R179). -/
def sceStat (s : State) : Word :=
  let src := if !rdB s.sce.csr SCE_CTL.SPN_EN then 0 else if (refMc s).isSome then 1 else 2
  BitVec.ofNat 32 (maskOf (onTrack s) * 2 ^ 28 + maskOf (fun k => (actOf s k).parked) * 2 ^ 24 +
    maskOf (fun k => decide ((actOf s k).state = 6)) * 2 ^ 20 + maskOf (fun k => writeInhibited s k) * 2 ^ 16 + src * 2 ^ 14 +
    ((refMc s).map (fun k => k.val)).getD 0 * 2 ^ 12 + b2n (following s) * 2 ^ 11 +
    b2n (rdB s.sce.csr SCE_CTL.ZREBUILD) * 2 ^ 10)

/-- The actuator that SCE_ACT_IDX selects, if the part has it. -/
def actSelected (s : State) : Option (Fin 4) :=
  let k := mcIx (rdF s.sce.csr SCE_ACT_IDX.ACT)
  if actExists s k then some k else none

/-- SCE (R179). -/
def viewSce (s : State) (off : Nat) : Word :=
  if off = SCE_STAT then sceStat s
  else if off = SCE_COEF_DATA then
    (if rdF s.sce.csr SCE_COEF_IDX.LOOP ≤ 4 then
      coefAt s.sce (rdF s.sce.csr SCE_COEF_IDX.LOOP) (rdF s.sce.csr SCE_COEF_IDX.BANK) (rdF s.sce.csr SCE_COEF_IDX.ADDR)
    else 0)
  else if off = SCE_TBL_DATA then
    (if rdF s.sce.csr SCE_TBL_IDX.SLOT = 3 then 0
    else BitVec.ofNat 32 (tget 0 s.sce.tbl (rdF s.sce.csr SCE_TBL_IDX.SLOT * 1024 + rdF s.sce.csr SCE_TBL_IDX.ENTRY)))
  else if 0x18 ≤ off ∧ off ≤ 0x30 then match actSelected s with
    | none => 0
    | some k =>
      let a := actOf s k
      if off = SCE_ACT_CMD then a.cmd
      else if off = SCE_ACT_TRK then a.trk
      else if off = SCE_ACT_POS then BitVec.ofNat 32 (toBits 32 a.x0)
      else if off = SCE_ACT_LIM then a.lim
      else if off = SCE_ACT_STAT then actStatWord s k
      else if off = SCE_ACT_COAST then a.coast
      else a.rej
  else rd s.sce.csr off

/-- SCU (R180). -/
def viewScu (s : State) (off : Nat) : Word :=
  if off = SCU_CTAB_DATA then BitVec.ofNat 32 (ctabAt s.scu (rdF s.scu.csr SCU_CTAB_IDX.ENTRY)) else rd s.scu.csr off

/-- BMC (R329). -/
def viewBmc (s : State) (off : Nat) : Word :=
  if off = BMC_STAT then wordSetField (rd s.bmc.csr BMC_STAT) 12 0 (min 4096 s.bmc.stale.length) else rd s.bmc.csr off

/-- MPC (R330). -/
def viewMpc (s : State) (off : Nat) : Word :=
  if off = MPC_LOCKED then BitVec.ofNat 32 (mpcLockedCount s)
  else if off = MPC_LOCK_CMD then wordSetField (rd s.mpc.csr off) 31 31 (b2n s.mpc.locking.isSome)
  else if off = MPC_RANGE_STAT ∨ off = MPC_RANGE_CMD then wordSetField (rd s.mpc.csr off) 31 31 (b2n s.mpc.range.isSome)
  else rd s.mpc.csr off

/-- DMA (R331). -/
def viewDma (s : State) (off : Nat) : Word :=
  let x := chanAt s (rdF s.dma.csr DMA_CH_IDX.CH)
  if off = DMA_CH_STAT then
    BitVec.ofNat 32 (b2n x.active.isSome * 2 ^ 31 + b2n x.shadow.isSome * 2 ^ 30 + b2n x.stopped * 2 ^ 29 + b2n x.err * 2 ^ 28 +
      x.ecode % 16 * 2 ^ 24 + x.remain % 2 ^ 22)
  else if off = DMA_CH_CMD then BitVec.ofNat 32 (b2n x.ign * 2 ^ 28)
  else if off = DMA_INFL then BitVec.ofNat 32 (s.dma.inUse1 / 1024 * 65536 + s.dma.inUse0 / 1024)
  else rd s.dma.csr off

/-- PCT (R358). -/
def viewPct (s : State) (off : Nat) : Word :=
  if off = PCT_STAT then
    wordSetField (wordSetField (rd s.pct.csr PCT_STAT) 27 26 (b2n s.pct.susp.1 + 2 * b2n s.pct.susp.2)) 7 0 (pctBusy s)
  else if off = PCT_SUSP then
    wordSetField (rd s.pct.csr PCT_SUSP) 31 31 (b2n (waitsSusp s (rdF s.pct.csr PCT_SUSP.DIE)))
  else if off = PCT_ERASED then BitVec.ofNat 32 (pctErased s)
  else rd s.pct.csr off

/-- ELG (R388). -/
def viewElg (s : State) (off : Nat) : Word :=
  let n := rdF s.elg.csr ELG_MTR_IDX.METER
  let reserved : Bool := decide (n = 13 ∨ n = 14 ∨ n = 15)
  if off = ELG_MTR_LO then BitVec.ofNat 32 (meterSelected s)
  else if off = ELG_MTR_HI then s.elg.hiLatch
  else if off = ELG_MTR_PWR then (if reserved then 0 else BitVec.ofNat 32 (windowPower s n))
  else if off = ELG_SPEED then BitVec.ofNat 32 ((speedInUse s).2 * 2 ^ 30 + min 65535 (speedInUse s).1)
  else if off = ELG_CEIL then (if rdB s.elg.csr ELG_CTL.EN then rd s.elg.csr ELG_CEIL else 0)
  else if off = ELG_HOLD then BitVec.ofNat 32 (holdings s)
  else if off = ELG_GOV then BitVec.ofNat 32 (s.elg.plim.getD 0 * 65536 + govSteps s * 256 + permitCount s % 8)
  else if off = ELG_VCORE then wordSetField (rd s.elg.csr ELG_VCORE) 28 28 (b2n (vcoreRt s))
  else if off = ELG_WT then
    wordSetField (wordSetField (wordSetField (rd s.elg.csr ELG_WT) 31 31 (b2n s.elg.wt)) 30 28 s.elg.reason) 27 27
      (b2n s.elg.predumping)
  else if off = ELG_ANCH_DATA then
    (let i := rdF s.elg.csr ELG_ANCH_IDX.IDX
     if 6 ≤ i then 0 else BitVec.ofNat 32 (anchor s i))
  else rd s.elg.csr off

/-- TMN (R389). -/
def viewTmn (s : State) (off : Nat) : Word :=
  if off = TMN_TEMP then tmnTemp s
  else if off = TMN_STAT then wordSetField (rd s.tmn.csr TMN_STAT) 5 0 (tmnActive s)
  else if off = TMN_REQ then wordSetField (rd s.tmn.csr TMN_REQ) 31 31 (b2n s.tmn.fwReq.isSome)
  else rd s.tmn.csr off

/-- CAL (R391). Items 14 and 15 do not exist. -/
def viewCal (s : State) (off : Nat) : Word :=
  let n := rdF s.cal.csr CAL_IDX.ITEM
  let x := calItem s n
  if off = CAL_CTL ∨ off = CAL_IDX then rd s.cal.csr off
  else if 14 ≤ n then 0
  else if off = CAL_CFG then x.cfg
  else if off = CAL_RUN then BitVec.ofNat 32 (b2n x.forced * 2 ^ 31)
  else if off = CAL_STAT then calStat s
  else if off = CAL_ACCEPT then x.accepts
  else if off = CAL_REJECT then x.rejects
  else if off = CAL_LAST then BitVec.ofNat 32 x.lastGood
  else 0

/-- TDL (R421). -/
def viewTdl (s : State) (off : Nat) : Word :=
  if off = TDL_STAT then wordSetField (rd s.tdl.csr TDL_STAT) 3 0 (ownedMask s)
  else if off = TDL_HANDOFF then wordSetField (rd s.tdl.csr TDL_HANDOFF) 29 29 (b2n (handoffAccepted s))
  else if off = TDL_MSEQ_TX then BitVec.ofNat 32 s.tdl.mseqTx
  else if off = TDL_MSEQ_ACK then BitVec.ofNat 32 s.tdl.mseqAck
  else if off = TDL_MSEQ_RX then BitVec.ofNat 32 s.tdl.mseqRx
  else rd s.tdl.csr off

/-- CLP (R446). -/
def viewClp (s : State) (off : Nat) : Word :=
  if off = CLP_XCHG then
    let x := xchgAt s (rdF s.clp.csr CLP_XCHG.SLOT)
    wordSetField (rd s.clp.csr CLP_XCHG) 31 29 (4 * b2n x.go + 2 * b2n x.expired + b2n x.matched)
  else rd s.clp.csr off

/-- A sequence number from two dwords. -/
def seqOf (l : List Word) : Nat := (l.getD 0 0).toNat + (l.getD 1 0).toNat * 2 ^ 32

/-- The sequence number of the next record (R494). -/
def evrNext (s : State) : Nat := (rd s.evr.csr EVR_NEXT).toNat + (rd s.evr.csr EVR_NEXTH).toNat * 2 ^ 32

/-- The sequence number of the oldest record in the ring; of an empty ring, the next one. -/
def evrOldest (s : State) : Nat := s.evr.ring.foldl (fun m e => min m (seqOf e.2)) (evrNext s)

/-- EVR (R500), the record window among it. -/
def viewEvr (s : State) (off : Nat) : Word :=
  if off = EVR_OLDEST then BitVec.ofNat 32 (evrOldest s)
  else if off = EVR_LIST_DATA then
    tget 0 s.evr.lists (16 * rdF s.evr.csr EVR_LIST_IDX.CLASS + rdF s.evr.csr EVR_LIST_IDX.ENTRY)
  else if 0x100 ≤ off ∧ off < 0x180 then
    (tget [] s.evr.ring ((rd s.evr.csr EVR_CUR).toNat % 4096)).getD ((off - 0x100) / 4) 0
  else rd s.evr.csr off

/-- MCK (R501). -/
def viewMck (s : State) (off : Nat) : Word :=
  if off = MCK_STAT then wordSetField (rd s.mck.csr MCK_STAT) 4 0 s.mck.fifo.length
  else if MCK_SYN0 ≤ off ∧ off ≤ MCK_SYN3 then (s.mck.fifo.headD []).getD ((off - MCK_SYN0) / 4) 0
  else rd s.mck.csr off

/-- A byte address that is a decode error (R25). -/
def decodeError (a : Nat) : Bool := decide (a % 4 ≠ 0) || decide (a / 65536 = 3) || decide (0x150000 ≤ a)

/-- The register at a byte address, as it stands: no read has a side effect here (R489). -/
def csrView (s : State) (a : Nat) : Word :=
  let off := a % 65536
  if decodeError a then 0
  else match a / 65536 with
    | 0 => viewSys s off
    | 1 => viewHqe s off
    | 2 => viewPle s off
    | 4 => viewMc s.mcs.m0 off
    | 5 => viewMc s.mcs.m1 off
    | 6 => if mcAbsent s 2 then 0 else viewMc s.mcs.m2 off
    | 7 => if mcAbsent s 3 then 0 else viewMc s.mcs.m3 off
    | 8 => viewSce s off
    | 9 => viewScu s off
    | 10 => viewBmc s off
    | 11 => viewMpc s off
    | 12 => viewDma s off
    | 13 => viewPct s off
    | 14 => viewElg s off
    | 15 => viewTmn s off
    | 16 => viewCal s off
    | 17 => viewTdl s off
    | 18 => viewClp s off
    | 19 => viewEvr s off
    | 20 => viewMck s off
    | _ => 0

/-! ### What a read does besides -/

/-- A decode error is counted, and its address recorded (R25). -/
def noteDecodeError (a : Nat) (s : State) : State :=
  { s with sys := { s.sys with csr := wr (incF s.sys.csr SYS_FAB_DECERR.COUNT 1) SYS_FAB_DECADDR (BitVec.ofNat 32 a) } }

/-- Advance an index field after an access of its window, where AUTOINC asks for it. -/
def autoInc (auto f : Fld) (c : List (Nat × Word)) : List (Nat × Word) := if rdB c auto then wrapF c f 1 else c

/-- The side effects of reading a Media Channel's register. -/
def readMc (off : Nat) (m : Mc) : Mc :=
  if off = MSQ_JT_DATA then { m with csr := autoInc MSQ_JT_IDX.AUTOINC MSQ_JT_IDX.DW m.csr }
  else if off = MSQ_EVT_LO then (evtLo m).2
  else if off = MSQ_EVT_HI then (evtHi m).2
  else if off = MSQ_ST_DATA then (stRead m).2
  else if off = MSQ_TRACE then (traceOut m).2
  else m

/-- A read of MCK_SYN3 removes the oldest syndrome (R498). -/
def synPop (s : State) : State := { s with mck := { s.mck with fifo := s.mck.fifo.drop 1 } }

/-- The side effects of a read. -/
def readEffect (a : Nat) (s : State) : State :=
  let off := a % 65536
  if decodeError a then noteDecodeError a s
  else match a / 65536 with
    | 0 => if off = SYS_OPTIME then { s with sys := { s.sys with optSecLatch := BitVec.ofNat 32 (nowSec s % 3600) } } else s
    | 4 => modMc 0 (readMc off) s
    | 5 => modMc 1 (readMc off) s
    | 6 => if mcAbsent s 2 then s else modMc 2 (readMc off) s
    | 7 => if mcAbsent s 3 then s else modMc 3 (readMc off) s
    | 8 =>
      if off = SCE_COEF_DATA then sceReg (autoInc SCE_COEF_IDX.AUTOINC SCE_COEF_IDX.ADDR) s
      else if off = SCE_TBL_DATA then sceReg (autoInc SCE_TBL_IDX.AUTOINC SCE_TBL_IDX.ENTRY) s
      else s
    | 9 => if off = SCU_CTAB_DATA then scuReg (autoInc SCU_CTAB_IDX.AUTOINC SCU_CTAB_IDX.ENTRY) s else s
    | 14 => if off = ELG_MTR_LO then mtrLoRead s else s
    | 20 => if off = MCK_SYN3 then synPop s else s
    | _ => s

/-- A CSR read: what it returns, and the machine after it. -/
def csrRead (a : Nat) (s : State) : Word × State :=
  let v := csrView s a
  let t := readEffect a s
  (v, { t with sys := { t.sys with rdata := v } })

/-! ### Rows that read one register -/

/-- EVT_LO_READ, EVT_HI_READ, TRACE_READ (R141, R142); those of a Media Channel that the part lacks read zero (R3). -/
def evtLoRead (k : Fin 4) (s : State) : State := if mcAbsent s k then readsZero s else mcReadOut k evtLo s
def evtHiRead (k : Fin 4) (s : State) : State := if mcAbsent s k then readsZero s else mcReadOut k evtHi s
def traceRead (k : Fin 4) (s : State) : State := if mcAbsent s k then readsZero s else mcReadOut k traceOut s

/-- MCK_SYN_POP (R498): a read of MCK_SYN3. -/
def mckSynPop (s : State) : State := (csrRead (0x140000 + MCK_SYN3) s).2

end Sys2Proof.Machine
end

