-- ==== Sys2Proof/Machine/Recorder.lean ====
section
/-! DEFINITION. The Event Recorder and the machine check unit (R269, R486 to R502). -/

namespace Sys2Proof.Machine

/-- Update the EVR and its registers. -/
def modEvr (f : Evr → Evr) (s : State) : State := { s with evr := f s.evr }
def evrReg (f : List (Nat × Word) → List (Nat × Word)) (s : State) : State := modEvr (fun e => { e with csr := f e.csr }) s

/-! ### Records (R487, R489) -/

/-- The addresses of a class's valid list entries, in list order. -/
def snapList (s : State) (cls : Nat) : List Nat :=
  (List.range 16).filterMap (fun i =>
    let w := tget 0 s.evr.lists (16 * (cls % 8) + i)
    if wordBit w 0 then some (wordField w 31 2 * 4) else none)

/-- The bytes of a dword, little-endian. -/
def wordBytes (w : Word) : List Nat := bytesLE 4 w.toNat

/-- A record's 32 dwords, its CRC last. -/
def mkRecord (seq flags : Nat) (p : EvrPost) (snap : List Word) : List Word :=
  let n := snap.length
  let pad := fun (l : List Word) (k : Nat) => (l ++ List.replicate k 0).take k
  let body : List Word := [BitVec.ofNat 32 seq, BitVec.ofNat 32 (seq / 2 ^ 32), BitVec.ofNat 32 (p.cls % 8 + 256 * n + 65536 * (p.id % 65536)),
    p.pwrcyc, p.hours, BitVec.ofNat 32 (p.sec % 4096 + 65536 * flags), p.detail, 0] ++ pad snap 16 ++
    pad (if p.cls = 1 then p.syn else []) 4 ++ [0, 0, 0]
  body ++ [BitVec.ofNat 32 (crc32c (body.flatMap wordBytes))]

/-- A record with its FLAGS replaced. -/
def reflag (flags : Nat) (r : List Word) : List Word :=
  let body := (r.take 31).set 5 (wordSetField (r.getD 5 0) 31 16 flags)
  body ++ [BitVec.ofNat 32 (crc32c (body.flatMap wordBytes))]

/-- How far a 32-bit sequence lies past another. -/
def seqPast (a b : Nat) : Nat := (a + 2 ^ 32 - b % 2 ^ 32) % 2 ^ 32

/-- The persisted log keeps the newest 2,097,152 records (R492). -/
def logAppend (rs : List (List Word)) (s : State) : State :=
  let l := s.nv.evlog ++ rs
  { s with nv := { s.nv with evlog := l.drop (l.length - 2097152) } }

/-- EVR_RECORD: the oldest post is granted, its class's list is read without side effects, and the record is written at the
next sequence. An unflushed record that it overwrites is counted, and EVR_FLUSH moves past it (R493). -/
def evrRecord (s : State) : State :=
  match s.evr.posts with
  | [] => s
  | p :: rest =>
    let seq := evrNext s
    let snap := (snapList s p.cls).map (csrView s)
    let slot := seq % 4096
    let old := tget [] s.evr.ring slot
    let flush := (rd s.evr.csr EVR_FLUSH).toNat
    let s := modEvr (fun e => { e with
      posts := rest
      ring := tput [] e.ring slot (mkRecord seq 0 p snap) }) s
    let s := evrReg (fun c => wr (wr c EVR_NEXT (BitVec.ofNat 32 (seq + 1))) EVR_NEXTH (BitVec.ofNat 32 ((seq + 1) / 2 ^ 32))) s
    if old ≠ [] ∧ seqPast (old.getD 0 0).toNat flush < 2 ^ 31 then
      evrReg (fun c => wr (incR c EVR_OVWR 1) EVR_FLUSH (BitVec.ofNat 32 ((old.getD 0 0).toNat + 1))) s
    else s

/-- EVR_FIRMWARE_POST: EVR_DETAIL and EVR_POST with GO. Class 1 is refused. -/
def evrFirmwarePost (cls id : Nat) (detail : Word) (s : State) : State :=
  let s := evrReg (fun c => wrF (wrF (wr c EVR_DETAIL detail) EVR_POST.CLASS cls) EVR_POST.ID id) s
  if cls % 8 = 1 then s else evrPost (cls % 8) (id % 65536) detail [] s

/-- The records of the ring from EVR_FLUSH on, in sequence: the recorder tail (R493). -/
def recorderTail (s : State) : List (List Word) :=
  let flush := (rd s.evr.csr EVR_FLUSH).toNat
  let next := (rd s.evr.csr EVR_NEXT).toNat
  (List.range (min 4096 (seqPast next flush))).filterMap (fun i =>
    let r := tget [] s.evr.ring ((flush + i) % 4096)
    if (r.getD 0 0).toNat = (flush + i) % 2 ^ 32 ∧ r ≠ [] then some r else none)

/-- Firmware moves EVR_FLUSH once the records before it are persisted (R492). -/
def flushTo (w : Word) (s : State) : State :=
  let flush := (rd s.evr.csr EVR_FLUSH).toNat
  let n := seqPast w.toNat flush
  let s := if n ≤ 4096 then logAppend ((recorderTail s).filter (fun r => decide (seqPast (r.getD 0 0).toNat flush < n))) s else s
  evrReg (fun c => wr c EVR_FLUSH w) s

/-- EVR_CLR.CNT (R502). -/
def evrClrCnt (s : State) : State := evrReg (fun c => wr (wr c EVR_OVWR 0) EVR_LOST 0) s

/-- MCK_CLR.CNT (R502). -/
def mckClrCnt (s : State) : State := { s with mck := { s.mck with csr := wr (wr s.mck.csr MCK_COUNT 0) MCK_LOST 0 } }

/-! ### Recorder Read (R269) -/

/-- The records that a source holds, in ascending sequence, and its oldest sequence. -/
def recordsOf (s : State) (log : Bool) : List (List Word) × Nat :=
  if log then (s.nv.evlog, (s.nv.evlog.head?.map seqOf).getD (evrNext s))
  else
    let o := evrOldest s
    ((List.range (min 4096 (evrNext s - o))).filterMap (fun i =>
      let r := tget [] s.evr.ring ((o + i) % 4096)
      if r = [] then none else some r), o)

/-- RECORDER_READ: consistent records from the later of FIRST and the oldest one; the rest of the buffer is zero. -/
def recorderRead (n : Nat) (s : State) : State :=
  onAdmin 0xC2 n (fun x s =>
    let want := wordField (x.cdw 10) 13 0 + 1
    let first := (x.cdw 11).toNat
    let (l, oldest) := recordsOf s (wordBit (x.cdw 12) 0)
    let got := (l.filter (fun r => decide (first ≤ seqOf r))).take want
    finish n 0 (BitVec.ofNat 32 got.length) (BitVec.ofNat 32 oldest)
      (modSlot n (fun y => { y with data := pageBytes 0 (128 * want) (got.flatMap (fun r => r.flatMap wordBytes)) }) s)) s

/-! ### Fatal machine checks (R497, R99, R178) -/

/-- FLT_N is low while FLT or FATAL is 1 (R499). -/
def fltLow (s : State) : Bool := rdB s.mck.csr MCK_STAT.FLT || rdB s.mck.csr MCK_STAT.FATAL

end Sys2Proof.Machine
end

