-- ==== Sys2Proof/Machine/Reset.lean ====
section
/-! DEFINITION. Dumps, resets and unit resets (R296 to R298, R448 to R453, R474). -/

namespace Sys2Proof.Machine

/-! ### Dumps (R297, R298, R450) -/

/-- Whether a command that is in its slot when a dump starts is performed (R298); a Firmware Commit whose slot is
recorded is too (R295). -/
def dumpPerforms (s : State) (n : Nat) (x : Slot) : Bool :=
  if adminSlot n then decide ((s.hqe.activating.map Prod.fst) = some n)
  else writeClass x && (acceptable s x || decide (x.st = .done ∧ x.status = 0))

/-- The commands in slots, in fetch order. -/
def slotsByAge (s : State) : List (Nat × Slot) :=
  let l := s.hqe.slots.filterMap (fun e => e.2.map (fun x => (e.1, x)))
  l.foldl (fun l e => l.takeWhile (fun y => decide (y.2.order < e.2.order)) ++ e ::
    l.dropWhile (fun y => decide (y.2.order < e.2.order))) []

/-- The slot records as they stand at step 1 (R298). -/
def slotRecords (s : State) : List C1Entry :=
  (slotsByAge s).map (fun e => c1Entry s e.2 (if e.2.st = .committed then 2 else if dumpPerforms s e.1 e.2 then 1 else 0))

/-- The commands that the dump performs take effect; what the others have journaled is taken back, so that a replay of
the journal finds nothing of them (R298). -/
def performDumped (s : State) : State :=
  (slotsByAge s).foldl (fun t e =>
    if decide (e.2.st ≠ .active) || adminSlot e.1 then t
    else if dumpPerforms s e.1 e.2 then modSlot e.1 (fun y => { y with st := .done }) (applyCmd e.2 t)
    else unjournal e.1 t) s

/-- A dump that holds nothing, of an event now. -/
def emptyDump (s : State) : Dump := ⟨false, (0, 0), 0, [], [], [], [], [], [], writeThrough s, s.nv.pwrcyc, nowSec s⟩

/-- Steps 1, 2 and 4 of R297, which every dump runs: fetching and commits stop, slot records are taken, write gates
fall at the next sector boundary, and the actuators unload at their next wedges; a handoff ends, and what its channels
hold unloads (R414). The recovery image writes no bulk block (R461), so nothing is recorded under it; and a dump that
cannot be written leaves an earlier one that was not replayed in its place. -/
def dumpStart (kind : DumpKind) (s : State) : State :=
  let d := { emptyDump s with slots := slotRecords s }
  let s := performDumped s
  let s := if recovery s then s
    else { s with nv := { s.nv with dump := if bmcServes s then some d else some (s.nv.dump.getD d) } }
  let s := modHqe (fun h => { h with fetching := [] }) { s with sys := { s.sys with dump := kind } }
  if s.tdl.handoff = .none then s
  else
    let held := rdF s.sce.csr SCE_PSL_STAT.OWNED
    modTdl (fun t => { t with handoff := .none }) (forMcs (fun k s => if held.testBit k.val then unload k s else s) s)

/-- Pages of 16 KiB for some bytes. -/
def dumpPagesOf (bytes : Nat) : Nat := (bytes + 16383) / 16384

/-- The pages of a dump: of its journal tail, its slot records, its data and its recorder tail, each begun on a page
of its own: the rules give the order alone (DESIGN CHOICE, log 244). -/
def dumpPages (d : Dump) : Nat :=
  dumpPagesOf (64 * (d.journal.foldl (fun n r => n + r.recs.length) 0)) + dumpPagesOf (64 * (d.slots.length + d.cmds.length)) +
    dumpPagesOf (4096 * (d.dirty.length + d.held.length)) + dumpPagesOf (128 * d.tail.length)

/-- Steps 5 and 6: journal tail, slot records, dirty data and recorder tail are on bulk blocks, and the marker is
written, with the first and last sequence numbers of the dump's pages and their count. -/
def dumpDone (s : State) : State :=
  if recovery s || !bmcServes s then s
  else
    let held : List (Nat × Nat) := s.tdl.held.filterMap (fun e => e.2.map (fun v => (e.1, v)))
    let fill := fun (d : Dump) =>
      let d := { d with
        marker := true
        journal := s.ple.jbuf
        dirty := s.ple.dirty.filter (fun e => !s.ple.persisted.contains e.1)
        held := held ++ s.tdl.cmds.flatMap (fun (c : PartnerCmd) => c.data)
        cmds := s.tdl.cmds.map (fun (c : PartnerCmd) => ({ c with data := [] } : PartnerCmd))
        tail := recorderTail s }
      { d with
        seqs := (s.nv.pageSeq + 1, s.nv.pageSeq + dumpPages d)
        pages := dumpPages d }
    let d := s.nv.dump.map fill
    { s with nv := { s.nv with
      dump := d
      pageSeq := s.nv.pageSeq + (d.map (fun d => d.pages)).getD 0 } }

/-! ### The device reset (R449) -/

/-- An actuator after a reset. What the power stage senses is outside. -/
def actAfterReset (a : Act) : Act := { Act.reset with parkedSense := a.parkedSense }

/-- A Media Channel after a reset. HFLT_N is an input. -/
def mcAfterReset (m : Mc) : Mc := { Mc.reset with
  hfltLow := m.hfltLow
  csr := wrB Mc.reset.csr MC_HIF_STAT.HFLT_NOW m.hfltLow }

/-- The assist totals of every head of a Media Channel are carried on (R97). -/
def keepMcAssist (k : Fin 4) (s : State) : State := (List.range 12).foldl (fun s h => keepAssist k h s) s

/-- Every unit, island and register is reset (R449). SYS_RST_CAUSE, SYS_WDOG_STAT.EXPIRIES, the TAP and the straps keep their
values, and so do the counts that their own rules keep since POR; what the Persistence Array and the media hold is not altered.
The device is then held until it boots. -/
def deviceReset (s : State) : State :=
  let s := pctStop (forMcs keepMcAssist s)
  let r := State.reset
  let c := wr r.sys.csr SYS_RST_CAUSE (rd s.sys.csr SYS_RST_CAUSE)
  let c := wrF c SYS_WDOG_STAT.EXPIRIES (rdF s.sys.csr SYS_WDOG_STAT.EXPIRIES)
  let c := wr c SYS_STRAP (rd s.sys.csr SYS_STRAP)
  { r with
    pending := s.pending
    part := s.part
    sys := { r.sys with
      csr := c
      phase := .held
      tap := s.sys.tap }
    pins := { s.pins with
      ddrResetN := false
      uart := [] }
    mcs := ⟨mcAfterReset s.mcs.m0, mcAfterReset s.mcs.m1, mcAfterReset s.mcs.m2, mcAfterReset s.mcs.m3⟩
    media := s.media
    sce := { r.sce with acts := ⟨actAfterReset s.sce.acts.m0, actAfterReset s.sce.acts.m1, actAfterReset s.sce.acts.m2,
      actAfterReset s.sce.acts.m3⟩ }
    ple := { r.ple with
      jseq := s.ple.jseq
      jflushed := s.ple.jseq
      jring := s.ple.jring
      jpos := s.ple.jpos
      snapNum := s.ple.snapNum
      snapSeq := s.ple.snapSeq
      snapAt := s.ple.snapAt }
    hqe := { r.hqe with fns := s.hqe.fns.map (fun e => (e.1, e.2.map (fun x => { Fn.init with nss := x.nss }))) }
    nv := { s.nv with
      optime := nowSec s
      fwBuf := 0
      predump := s.nv.predump.filter (fun e => s.ple.persisted.contains e.1 ||
        (!s.elg.predumping && decide (tget none s.ple.dirty e.1 = e.2))) }
    elg := { r.elg with
      csr := wrF r.elg.csr ELG_WT.ENTRIES (rdF s.elg.csr ELG_WT.ENTRIES)
      meters := s.elg.meters }
    bmc := { r.bmc with absent := if s.bmc.absent.isSome then s.bmc.absent else failedChannel s }
    pct := { r.pct with pages := s.pct.pages }
    cal := { r.cal with items := s.cal.items.map (fun e => (e.1, e.2.map (fun x =>
      ({ x with due := 0, forced := false, targets := [], result := 0, fails := 0 } : CalItem)))) }
    free := s.free }

/-- A cause bit of SYS_RST_CAUSE is set. -/
def setCause (f : Fld) (s : State) : State := sysReg (fun c => wrB c f true) s

/-- A source of a device reset (R448, R450, R451): its cause is set; the first source starts the reset dump, with FAULT sent
first while the Tandem Link is up; with the BMC off or stopped the dump is skipped and the reset takes effect at once. -/
def resetTrigger (cause : Fld) (s : State) : State :=
  if s.sys.phase = .unpowered then s
  else
    let s := setCause cause s
    if s.sys.phase ≠ .running ∨ s.sys.dump ≠ .none then s
    else
      let s := if linkUp s then sendCtrl .fault s else s
      if bmcServes s then dumpStart .reset s
      else
        -- a replay proceeds as with the marker missing (R450)
        let d := some (s.nv.dump.getD { emptyDump s with slots := slotRecords s })
        deviceReset (setCause SYS_RST_CAUSE.NODUMP { s with nv := { s.nv with dump := if recovery s then s.nv.dump else d } })

/-- What POR resets besides (R449): the causes, which then show POR alone, the expiries, the TAP, the straps and every count
since POR. -/
def powerOnReset (s : State) : State :=
  let s := deviceReset s
  { s with
    sys := { s.sys with
      csr := wrB initSys SYS_RST_CAUSE.POR true
      tap := Sys.reset.tap }
    pins := Pins.reset
    elg := Elg.reset
    bmc := State.reset.bmc
    cal := State.reset.cal
    nv := { s.nv with sectors := (0, 0) } }

/-- POR_ASSERT (R474, R470): VIN below 2.25 V. No signal ball is driven any more; what was not persistent is gone. -/
def porAssert (s : State) : State :=
  if s.sys.phase = .unpowered then s
  else
    let s := powerOnReset s
    { s with sys := { s.sys with phase := .unpowered } }

/-! ### Cloudburst (R296, R297, R451) -/

/-- A Cloudburst trigger: the first one counts. A reset dump becomes a Cloudburst at its current step. -/
def cloudburst (s : State) : State :=
  if s.sys.phase ≠ .running ∨ s.sys.dump = .cloudburst then s
  else
    let s := { s with nv := { s.nv with use := { s.nv.use with cuts := s.nv.use.cuts + 1 } } }
    let s := if s.sys.dump = .none then dumpStart .cloudburst s else { s with sys := { s.sys with dump := .cloudburst } }
    tocsin 3 (pctCloudburst (scuCloudburst s))

/-- CLOUDBURST_TRIGGER: PFAIL_N falls, VIN is below its armed monitor's 2.65 V, or VM_SNS is below PF (R296, R474, R175). -/
def cloudburstTrigger (i : BurstIn) (s : State) : State :=
  match i with
  | .pfail => if s.pins.pfailLow then s else cloudburst (if s.sys.phase = .running then { s with pins := { s.pins with pfailLow := true } } else s)
  | .vin peak mv =>
    let armed := s.pins.vinArmed || decide (2750 < peak)
    let s := { s with pins := { s.pins with
      vin := mv
      vinArmed := armed } }
    if armed && decide (mv < 2650) then cloudburst s else s
  | .vm mv => if vmFails s mv then cloudburst (scuEvt SCU_EVT.PF s) else s

/-! ### Watchdog (R452) -/

/-- The watchdog's timeout in ms. -/
def wdogTmo (s : State) : Nat := max 10 (rdF s.sys.csr SYS_WDOG_CTL.TMO)

/-- WATCHDOG_KICK: 0xD00D restarts the count; any other key is ignored, and so is a kick that comes after the expiry (R12). -/
def watchdogKick (key : Nat) (s : State) : State :=
  if key % 65536 = 0xD00D ∧ ¬ s.sys.wdogOut then sysReg (fun c => wrF c SYS_WDOG_STAT.REMAIN (wdogTmo s)) s else s

/-- WATCHDOG_EXPIRY: counted, and a device reset. -/
def watchdogExpiry (s : State) : State :=
  if rdB s.sys.csr SYS_WDOG_CTL.EN && decide (s.sys.phase = .running) && !s.sys.wdogOut then
    let s := sysReg (fun c => incF c SYS_WDOG_STAT.EXPIRIES 1) s
    resetTrigger SYS_RST_CAUSE.WDOG { s with sys := { s.sys with wdogOut := true } }
  else s

/-- SOFT_RESET: SYS_RST_CTL.DEV is written 1. -/
def softReset (s : State) : State := resetTrigger SYS_RST_CAUSE.SOFT (sysReg (fun c => wrB c SYS_RST_CTL.DEV true) s)

/-- SYS_CLR_WDOG (R465). -/
def sysClrWdog (s : State) : State := sysReg (fun c => wrF c SYS_WDOG_STAT.EXPIRIES 0) s

/-! ### Fatal machine checks (R497, R499) -/

/-- The bridge and the brake chopper in high impedance at once (R178). -/
def floatGates (s : State) : State :=
  modScu (fun u => { u with
    gates := .off
    amp := 0
    brakeAmp := 0
    brakeHold := false
    legs := restLegs u
    pinsZ := true }) s

/-- The slot being written is cut, and takes no data at its end. -/
def cutNow (k : Fin 4) (s : State) : State := modJob k (fun j => { j with writing := none }) (cutWrite k s)

/-- What a fatal syndrome does besides: every OWN falls, the gates float, FAULT is sent and heartbeats stop, TOCSIN code 6 goes
out, and with FATAL_RST a device reset starts. -/
def fatalEffects (s : State) : State :=
  let s := floatGates (forMcs (fun k s => dropOwn k (cutNow k s)) s)
  let s := if linkUp s then sendCtrl .fault s else s
  let s := tocsin 6 (modTdl (fun t => { t with beatStopped := true }) s)
  if rdB s.sys.csr SYS_RST_CTL.FATAL_RST then resetTrigger SYS_RST_CAUSE.FATAL s else s

/-- A second channel failure is recorded in log C1h (R314), whose kinds do not name it: the kind is a free value (log 204). -/
def recordLoss (s t : State) : State :=
  if t.bmc.down && !s.bmc.down then
    let f := takeFree t
    reportC1 (f.1 % 256) 0 0xFFFF 0 [] f.2
  else t

/-- A row that may raise a fatal syndrome. -/
def withFatal (f : State → State) (s : State) : State :=
  let t := recordLoss s (f s)
  if rdB t.mck.csr MCK_STAT.FATAL && !rdB s.mck.csr MCK_STAT.FATAL then fatalEffects t else t

/-! ### What units take from the option area at a reset -/

/-- A dword of the option area in force. -/
def optWord (s : State) (n : Nat) : Word := tget 0 s.nv.opt n

/-- A Media Channel's assist type and ADC masks, into both banks (R79, R92). -/
def optMc (k : Fin 4) (s : State) : State :=
  let ty := optWord s (460 + k.val)
  let masks := (List.range 10).foldl (fun t i =>
    let w := optWord s (512 + 10 * k.val + i) &&& (if i % 5 = 4 then 0x7F else 0xFFFFFFFF)
    tput 0 (tput 0 t (i / 5 * 16 + i % 5) w) (i / 5 * 16 + 8 + i % 5) w) []
  modMc k (fun m => { m with
    csr := wrF m.csr MC_ASC_CTL.TYPE ty.toNat
    adcMask := masks
    adcTarget := masks.filter (fun x => decide (x.1 % 16 < 8)) }) s

/-- PCT_CLASS.BULK_FIRST; a value of 0 in the option area leaves the reset value. -/
def optPct (s : State) : State :=
  let n := (optWord s 5).toNat
  pctReg (fun c => if n = 0 then c else wrF c PCT_CLASS.BULK_FIRST n) s

/-- The pair position and the pair configuration (R392). -/
def optTdl (s : State) : State :=
  tdlReg (fun c => wrF (wrB c TDL_CTL.PAIR (decide (optWord s 12 ≠ 0))) TDL_CTL.POS (optWord s 6).toNat) s

/-- The Carillon section (R423), where the option area has one. -/
def optClp (s : State) : State :=
  if (List.range 6).all (fun i => decide (optWord s (410 + i) = 0)) then s
  else
    let field := fun (off n : Nat) =>
      let r := rowOf rowsClp off
      optWord s n &&& (r.rw ||| r.rwl)
    let key := (List.range 12).any (fun i => decide (optWord s (415 + i) ≠ 0))
    let s := clpReg (fun c => wr (wr (wr (wr (wrB c CLP_STAT.KEY key) CLP_NODE (field CLP_NODE 411))
      CLP_PLCA (field CLP_PLCA 412)) CLP_PORT (field CLP_PORT 413)) CLP_DOM (field CLP_DOM 414)) s
    let wrapped := (List.range 12).foldl (fun v i => v + (optWord s (415 + i)).toNat * 2 ^ (32 * i)) 0
    let s := if wrapped = 0 then s else modClp (fun c => { c with key := Config.domainKey wrapped }) s
    clpReg (fun c => wrB c CLP_CTL.EN (decide (optWord s 410 ≠ 0) && clpMayRun s)) s

/-! ### Unit resets (R453) -/

/-- A unit reset request is discarded during a device reset (R451). -/
def unitReset (f : State → State) (s : State) : State :=
  if s.sys.phase = .running ∧ s.sys.dump = .none then f s else s

/-- UNIT_RESET_MC: OWN falls at once, which cuts a write; jobs end without status, and firmware treats those it had armed as
failed-retryable. The store keeps its words. -/
def unitResetMc (k : Fin 4) (s : State) : State :=
  if s.part = .dhk7420 ∧ 2 ≤ k.val then s
  else unitReset (fun s =>
    let s := keepMcAssist k (cutWrite k s)
    let m := mcOf s k
    let s := (quadGet s.ple.sched k).armed.foldl (fun s e => jobEndHook k e.1 1 s) s
    optMc k (setMc k { mcAfterReset m with
      store := m.store
      vendorLoaded := m.vendorLoaded } s)) s

/-- The SCE's reset takes effect once every actuator is OFF or PARKED; its bit of SYS_UNIT_RST then reads 0 again. -/
def sceResetProgress (s : State) : State :=
  if rdB s.sys.csr SYS_UNIT_RST.SCE &&
      ([0, 1, 2, 3] : List (Fin 4)).all (fun k => decide ((actOf s k).state ≤ 1)) then
    sysReg (fun c => wrB c SYS_UNIT_RST.SCE false) { s with sce := { Sce.reset with acts :=
      ⟨actAfterReset s.sce.acts.m0, actAfterReset s.sce.acts.m1, actAfterReset s.sce.acts.m2, actAfterReset s.sce.acts.m3⟩ } }
  else s

/-- UNIT_RESET_SCE: every actuator that is not PARKED unloads first (R161). -/
def unitResetSce (s : State) : State :=
  unitReset (fun s => sceResetProgress (forMcs unload (sysReg (fun c => wrB c SYS_UNIT_RST.SCE true) s))) s

/-- UNIT_RESET_SCU: the gates and BRK_G float at once, and the state is STOP. -/
def unitResetScu (s : State) : State :=
  unitReset (fun s =>
    let s := { s with scu := Scu.reset }
    spinEnded (if clpOn s then scuReg (fun c => wrB c SCU_CTL.AUTORST false) s else s)) s

/-- UNIT_RESET_PCT: programs and erases end as R351 gives, the ring is emptied, and every block is unknown. -/
def unitResetPct (s : State) : State :=
  unitReset (fun s => optPct (pctReg (fun _ => initPct) (pctStop s))) s

/-- UNIT_RESET_TDL: heartbeats stop and the replay buffer is emptied; the partner sees silence. -/
def unitResetTdl (s : State) : State :=
  unitReset (fun s => optTdl (modTdl (fun t => { t with
    csr := initTdl
    replay := []
    nextSeq := 0
    outC := []
    outM := []
    lastCtrl := false
    rxSeq := 0
    nak := false
    beatStopped := true }) s)) s

/-- UNIT_RESET_CLP: the rings are emptied; CLP_TXCNT and the replay table in DRAM keep their values. -/
def unitResetClp (s : State) : State :=
  unitReset (fun s => optClp (modClp (fun c => { c with
    csr := wrB (wr initClp CLP_TXCNT (rd c.csr CLP_TXCNT)) CLP_STAT.EXHAUST (rdB c.csr CLP_STAT.EXHAUST)
    xchg := [] }) s)) s

end Sys2Proof.Machine
end

