-- ==== Sys2Proof/Machine/Boot.lean ====
section
/-! DEFINITION. The boot, from the release of a reset to I/O ready (R299, R455 to R462). -/

namespace Sys2Proof.Machine

/-- Step 1: VCORE at 0.80 V, the straps sampled after a POR, DDR_PWR_EN raised at its end (R454, R477). -/
def bootStraps (b : BootIn) (por : Bool) (s : State) : State :=
  let s := bootStage 1 s
  let straps := fun c => wrB (wrB (wrB (wrB c SYS_STRAP.TEST b.test) SYS_STRAP.XTAL_BYP b.xtalByp) SYS_STRAP.RCVRY_N b.rcvryN)
    SYS_STRAP.PCIE_MODE b.pcieMode
  let s := if por then sysReg straps s else s
  let s := elgReg (fun c => wrF c ELG_VCORE.NOW 800) s
  hqeReg (fun c => wrB c HQE_PORT.MODE (rdB s.sys.csr SYS_STRAP.PCIE_MODE))
    { s with pins := { s.pins with
      ddrPwrEn := true
      driven := true } }

/-- A copy of the option area as the boot reads it: downward from the highest programmed index to the first version
that is valid. -/
def readOption (bad : Nat) (c : OptCopy) : OptCopy := { c with vers := c.vers.drop bad }

/-- The option-area copy that R457 uses: true for B. -/
def optCopy (v : Nv) : Option Bool := match v.optA.vers, v.optB.vers with
  | [], [] => none
  | _ :: _, [] => some false
  | [], _ :: _ => some true
  | x :: _, y :: _ => some (decide (x.2.seq < y.2.seq))

/-- A version that was written from outside, over JTAG or by programs of blocks 0 to 3 (R337, R463), in both copies.
Carillon's stored counter is kept in it until a new domain key is enrolled (R431). -/
def outsideOption (words : List (Nat × Word)) (s : State) : State :=
  if words = [] then s
  else
    let sameKey := (List.range 12).all (fun i => decide (tget 0 words (415 + i) = optWord s (415 + i)))
    let x : OptVersion := ⟨max (optSeq s.nv false) (optSeq s.nv true) + 1, tput 0 words 406 (if sameKey then optWord s 406 else 0)⟩
    let put := fun (c : OptCopy) => if c.top < 256 then (⟨(c.top, x) :: c.vers, c.top + 1⟩ : OptCopy) else ⟨[(0, x)], 1⟩
    { s with nv := { s.nv with
      optA := put s.nv.optA
      optB := put s.nv.optB } }

/-- The fields that units take from the option area (R464's chapters), with the energy anchors and the Dump Cost anchor. -/
def loadOptions (s : State) : State :=
  let s := forMcs optMc (optClp (optTdl (optPct s)))
  let s := hqeReg (fun c => wrB c HQE_CTL.RSQ_EN (decide (optWord s 4 ≠ 0))) s
  let anchors := (List.range 6).foldl (fun t i => tput 0 t i (optWord s (450 + i)).toNat) []
  let s := modElg (fun e => { e with anchors := anchors }) s
  if optWord s 456 = 0 then s else elgReg (fun c => wr c ELG_DCOST (optWord s 456)) s

/-- Step 2 (R457): each copy is read down to its newest valid version, and the version with the higher SEQ is in
force; without one the device is in factory state. -/
def bootOptions (b : BootIn) (s : State) : State × Bool :=
  let s := outsideOption b.opt (pctReg (fun c => wrB c PCT_CTL.EN true) (bootStage 2 s))
  let s := { s with nv := { s.nv with
    optA := readOption b.optBadA s.nv.optA
    optB := readOption b.optBadB s.nv.optB
    optDue := none } }
  match optCopy s.nv with
  | none => (sysReg (fun c => wrB c SYS_JTAG.OPEN true) (bootStage 0x81 s), false)
  | some useB =>
    let ix := fun (c : OptCopy) => (c.vers.head?.map Prod.fst).getD 0
    let has := fun (c : OptCopy) => !c.vers.isEmpty
    let stat := fun c => wrF (wrF (wrB (wrB (wrB c SYS_OPT_STAT.VALID_A (has s.nv.optA)) SYS_OPT_STAT.VALID_B (has s.nv.optB))
      SYS_OPT_STAT.SEL useB) SYS_OPT_STAT.IDXA (ix s.nv.optA)) SYS_OPT_STAT.IDXB (ix s.nv.optB)
    let s := sysReg (fun c => wrB (stat c) SYS_BOOT_STAT.OPTCOPY useB) s
    let words := ((optCopyOf s.nv useB).vers.head?.map (fun e => e.2.words)).getD []
    (loadOptions { s with nv := { s.nv with opt := words } }, true)

/-- The self-test items that the part runs (R458). -/
def bistItems (s : State) : Nat := if s.part = .dhk7420 then 0x1FFFF - 0xCCC0 else 0x1FFFF

/-- Step 3 (R458, R459): what was run and what failed; a failure of the checkers that acceptance rests on asks for the recovery
image, any other takes its MC out of service. -/
def bootSelfTest (b : BootIn) (s : State) : State × Bool :=
  let s := bootStage 3 s
  let run := bistItems s
  let bad := b.bistFail &&& run
  let s := sysReg (fun c => wrF (wrF c SYS_BIST_RUN.ITEMS run) SYS_BIST_FAIL.ITEMS bad) s
  let core := bad &&& 0x1000F
  let s := if bad ≠ core then setReliability s else s
  if core ≠ 0 then (bootStage 0x82 s, false) else (s, true)

/-- A step's number, unless a failed self-test holds the stage at 0x82. -/
def bootStageOk (ok : Bool) (n : Nat) (s : State) : State := if ok then bootStage n s else s

/-- Step 4 (R304, R314, R461, R477): DRAM training. One channel that fails leaves three-channel mode; more leave no image to
run. -/
def bootDram (b : BootIn) (ok : Bool) (s : State) : State × Bool :=
  let s := bootStageOk ok 4 s
  let dens := rdF s.bmc.csr BMC_CFG.DENS
  let bad := ([0, 1, 2, 3] : List Nat).filter (fun ch => b.trainFail.testBit ch || decide (s.bmc.absent = some ch))
  if !b.ddrPwrgd || decide (dens < 1 ∨ 3 < dens) || decide (2 ≤ bad.length) then (bootStage 0x83 s, false)
  else
    let s := { s with pins := { s.pins with ddrResetN := true } }
    let s := match bad.head? with
      | none => s
      | some ch =>
        let s := setReliability (bmcReg (fun c => wrF (wrB c BMC_STAT.DEGRADED true) BMC_STAT.FAILCH ch) s)
        machineCheck 10 0x03 2 (BitVec.ofNat 32 ch) 0 { s with bmc := { s.bmc with absent := some ch } }
    (bmcReg (fun c => wrB c BMC_STAT.TRAINED true) s, true)

/-- The firmware image key that the option area enrolls; 0 where it enrolls none (R354, R460). -/
def firmwareKey (s : State) : Nat := enrolledKey s 748

/-- Step 5 (R460, R461): the image that runs, by SYS_BOOT_STAT.SLOT: 0 and 1 the slots, 2 recovery, 3 none. -/
def bootImage (b : BootIn) (ok : Bool) (s : State) : Nat :=
  let slotOk := fun (n : Nat) => if n = 2 then b.slot2Ok else b.slot1Ok
  let first := if s.nv.fwNext = 2 then 2 else 1
  let other := 3 - first
  if firmwareKey s = 0 then 3
  else if !ok || !rdB s.sys.csr SYS_STRAP.RCVRY_N then (if b.recoveryOk then 2 else 3)
  else if slotOk first then first - 1
  else if slotOk other then other - 1
  else if b.recoveryOk then 2 else 3

/-! ### Replay (R219, R266, R268, R299) -/

/-- A command whose sectors are lost (R299): what was write-class and performed, of a dump without its marker, or with
a lost key among its sectors. -/
def lostEntry (m : MapImage) (marker : Bool) (gone : List Nat) (e : C1Entry) : C1Entry :=
  let first := e.assigned.getD e.slba
  let hit := match m.nss.find? (fun n => decide (n.nsid = e.nsid)) with
    | some n => gone.any (fun k => decide (lkey n.nsx first ≤ k ∧ k < lkey n.nsx first + e.nlb + 1))
    | none => false
  let sectors := decide (e.opc = 0x01 ∨ e.opc = 0x08 ∨ e.opc = 0x7D)
  if e.disp ≠ 0 ∧ e.sqid ≠ 0 ∧ ((sectors || decide (e.opc = 0x79 ∨ e.opc = 0x91 ∨ e.opc = 0x09)) && !marker || sectors && hit) then
    { e with disp := 3 } else e

/-- Ranges of the journal in SEQ order. -/
def rangesByOrder (l : List JRange) : List JRange :=
  l.foldl (fun l r => l.takeWhile (fun y => decide (y.first < r.first)) ++ r :: l.dropWhile (fun y => decide (y.first < r.first))) []

/-- The ranges that a replay applies from a SEQ on (R219): repeated ones are discarded, and it stops at the first SEQ
that is missing, or whose record fails its CRC, with what lies in an unfinished range. -/
def chainRanges (fails : Option Nat) : Nat → List JRange → List JRange
  | _, [] => []
  | next, r :: l =>
    let last := r.first + r.recs.length
    if last ≤ next then chainRanges fails next l
    else if r.first ≠ next ∨ fails.any (fun q => decide (q < last)) then []
    else r :: chainRanges fails last l

/-- The journal that a boot finds: the ring of the system area, the tail of a dump that has its marker, and that of a
precautionary dump or of a dump that an earlier boot replayed. -/
def foundRanges (s : State) : List JRange :=
  s.nv.ring ++ (match s.nv.dump with
    | some d => if d.marker then d.journal else []
    | none => []) ++ s.nv.pretail

/-- The data that dumps hold for the sectors that the map places in DRAM: of the last dump, if it has its marker, and
of the one before it. What no valid page holds is taken from the partner's dump, or is lost (R299): the dirty data,
and the lost keys. -/
def replayData (b : BootIn) (dram : List Nat) (s : State) : List (Nat × Option Nat) × List Nat :=
  let whole := match s.nv.dump with
    | some d => if d.marker then d.dirty else []
    | none => []
  let mine := (s.nv.predump ++ whole).foldl (fun l e => if b.badDump.contains e.1 then l else tput none l e.1 e.2) []
  let dirty := dram.foldl (fun l k =>
    let v := match tget none mine k with
      | some v => some v
      | none => (b.partner.find? (fun e => decide (e.1 = k))).map Prod.snd
    if v.isSome then tput none l k v else l) []
  (dirty, dram.filter (fun k => (tget none dirty k).isNone))

/-- Tracks with more than an eighth of their slots in the primary list are retired from the start (R69). -/
def retirePrimary (s : State) : State :=
  let tracks := (s.ple.map.pdl.map (fun d => (d.mc, d.head, d.track))).eraseDups
  tracks.foldl (fun s t =>
    let slots := slotsOfTrack s t.1 t.2.1 t.2.2
    if slots ≠ 0 ∧ slots < 8 * badSlots s t.1 t.2.1 t.2.2 ∧ ¬ trackRetired s t.1 t.2.1 t.2.2 then
      modMap (fun m => { m with gdl := insertDefect ⟨3, t.1, t.2.1, t.2.2, 0, 0, 6⟩ m.gdl }) s
    else s) s

/-- The factory's tables: the bands, and the PDL sorted and within its capacity (R65), as the snapshot that a new
drive starts from. -/
def factoryMap (b : BootIn) (s : State) : State :=
  let s := retirePrimary (modMap (fun m => { m with
    bands := b.factory
    pdl := (b.pdl.take 4194304).foldl (fun l d => insertDefect d l) [] }) s)
  { s with nv := { s.nv with snaps := [⟨0, s.ple.jseq, s.ple.map⟩] } }

/-- The map that a boot restores (R219): the newest snapshot of which a copy can be read, with the journal's later
changes; a namespace's key comes from its own record (R265). -/
def restoreMap (b : BootIn) (s : State) : State :=
  match (s.nv.snaps.drop b.snapBad).head? with
  | none => s
  | some snap =>
    let l := chainRanges b.journalEnd (snap.seq + 1) (rangesByOrder (foundRanges s))
    let s := modPle (fun p => { p with map := snap.map, snapNum := snap.num, snapSeq := snap.seq }) s
    let s := (l.flatMap (fun r => r.ops)).foldl applyOp s
    let reach := fun (l : List JRange) => l.foldl (fun n r => max n (r.first + r.recs.length - 1)) snap.seq
    let tail := l.filter (fun r => !s.nv.ring.contains r)
    let keyed := fun (n : Ns) => if n.key = 0 then n else { n with key := tget 0 s.nv.keys n.nsx }
    { modMap (fun m => { m with nss := m.nss.map keyed }) (modPle (fun p => { p with
        jseq := max p.jseq (reach l)
        jflushed := reach (l.filter (fun r => s.nv.ring.contains r))
        jbuf := tail }) s) with
      nv := { s.nv with pretail := tail } }

/-- The data of a sector as it stands, in DRAM or on media. -/
def sectorNow (s : State) (n : Ns) (lba : Nat) : Nat := match lookup s n lba 0 with
  | .data v => v
  | .media a => (tget MediaSector.blank s.media a).data
  | _ => 0

/-- The sums of P1 rows whose parity unit is not on media follow from the rows' data (R193). -/
def restoreSums (s : State) : State :=
  let zones := s.ple.map.zones.filterMap (fun e => e.2.map (fun z => (e.1, z)))
  zones.foldl (fun s e => match nsByX s (e.1 / 2 ^ 20) with
    | none => s
    | some n =>
      if n.cls ≠ 1 then s
      else (List.range e.2.wp).foldl (fun s o =>
        let zn := e.1 % 2 ^ 20
        if sumWritten s (parityKey n.nsx zn (o / 768 * 256 + o % 256)) then s
        else addParity n zn o (sectorNow s n (zn * zsze s n + o)) s) s) (modMap (fun m => { m with parity := [] }) s)

/-- What the defect list says has to move once more (R67 to R70): the slots of its entries, those of open bands when
they have been written. What holds no live data falls away when it is tried. -/
def restoreDefects (s : State) : State :=
  let slots := s.ple.map.gdl.flatMap (fun d =>
    let first := if d.kind = 3 then 0 else d.slot
    let n := if d.kind = 3 then slotsOfTrack s d.mc d.head d.track else max 1 d.run
    (List.range n).map (fun i => packAddr d.mc d.head d.track (first + i)))
  let used := slots.filter (fun a => match bandOf s a with
    | some h => (keyAt s h).isSome || (parityAt s h).isSome
    | none => false)
  modPle (fun p => { p with
    lateDefects := used.filter (defectWaits s)
    relocWait := used.filter (fun a => !defectWaits s a) }) s

/-- How many leading data sectors of a band's next Stripe stand on media under the band's own tags. -/
def openPrefix (s : State) (b : Band) (track : Nat) (data : List Nat) : Nat :=
  (data.takeWhile (fun x =>
    let a := packAddr b.mc b.head track x
    decide ((tget MediaSector.blank s.media a).seed = tagSeed (genAt s a) (fmtId s) a))).length

/-- A band as it is found: nothing is under way for it any more. A Stripe that was being written is open, and is
closed before the band is written again (R219); what it holds has not been relied on, so all of it counts as fill. A MAP band of a
snapshot that was not completed is given up. -/
def reopenBand (n : Nat) (s : State) : State :=
  match bandAt s n with
  | none => s
  | some x =>
    let x := { x with
      st := if x.st = 5 ∧ x.snap then 2 else x.st
      snap := false
      next := x.wp
      holes := x.holes.filter (fun o => decide (o < x.wp)) }
    let s := putBand n x s
    if x.st ≠ 1 ∧ x.st ≠ 3 then s
    else match stripeFrom (bandStripes s x) x.wp with
      | none => s
      | some (track, data, _) =>
        let k := openPrefix s x track data
        if k = 0 then s
        else
          let at_ := packAddr x.mc x.head track (data.getD (min k (data.length - 1)) 0)
          let c := newCand s 0 true (.close n (min k (data.length - 1)) none) at_ (data.map (fun _ => fillKey)) (data.map (fun _ => 0))
          enterCand c (putBand n { x with
            next := x.wp + data.length
            holes := x.holes ++ (List.range data.length).map (x.wp + ·) } s)

/-- What a reset leaves of work under way (R209, R213, R219): echo copies that were being made are abandoned, pools
take no more data, and open Stripes are closed. -/
def mapSettle (s : State) : State :=
  let s := s.ple.map.echoes.foldl (fun s e => echoAbandon e.1 1 (echoAbandon e.1 0 s)) s
  let pools := s.ple.map.zones.filter (fun e => decide (1024 * 2 ^ 20 ≤ e.1))
  let mine := pools.flatMap (fun e => (e.2.map (fun z => z.bands)).getD [])
  let s := modMap (fun m => { m with
    zones := m.zones.map (fun e => if 1024 * 2 ^ 20 ≤ e.1 then (e.1, e.2.map (fun z => { z with st := 14 })) else e)
    echoes := m.echoes.map (fun e => (e.1, e.2.map (fun x => { x with pins := 0 }))) }) s
  let s := (s.ple.map.bands.map Prod.fst).foldl (fun s n => reopenBand n s) s
  mine.foldl (fun s b => modBand b (fun x => if x.st = 1 then { x with st := 2 } else x) s) s

/-- The replay before any I/O (R219, R299): the map, the dirty data and what is lost. Log C1h tells of a dump as it
was at the event, and of what is lost without one. The old dump stays readable until its data is destaged or a newer
one covers it. -/
def replay (b : BootIn) (s : State) : State :=
  let dump := s.nv.dump
  let fresh : Bool := s.nv.snaps.isEmpty && s.nv.ring.isEmpty && !(dump.any (fun d => d.marker))
  let s := if fresh then factoryMap b s else restoreMap b s
  let r := replayData b s.ple.map.dram s
  let missing : Bool := dump.any (fun d => !d.marker)
  let s := modMap (fun m => { m with
    dram := m.dram.filter (fun k => !r.2.contains k)
    lost := r.2 ++ m.lost.filter (fun k => !r.2.contains k) }) s
  let es := ((dump.map (fun d => d.slots)).getD []).map (lostEntry s.ple.map (!missing) r.2)
  let s := if missing || !r.2.isEmpty then setReliability s else s
  let s := match dump with
    | some d => noteC1At d.wt d.pwrcyc d.time 4 (b2n missing) 0xFFFF 0 es s
    | none => if r.2 = [] then s else noteC1 4 0 0xFFFF 0 [] s
  let s := if dump.isSome || !r.2.isEmpty then
      modHqe (fun h => { h with fns := h.fns.map (fun e => (e.1, e.2.map (fun x => { x with events := [aerWord 7 0 0xC1] }))) }) s
    else s
  let held : List (Nat × Nat) := match dump with
    | some d => if d.marker then d.held.filter (fun (e : Nat × Nat) => s.ple.map.dram.contains e.1) else []
    | none => []
  let cmds := match dump with
    | some d => if d.marker then d.cmds else []
    | none => []
  let s := { s with nv := { s.nv with
    dump := none
    predump := r.1 } }
  let s := modTdl (fun t => { t with held := held.map (fun (e : Nat × Nat) => (e.1, some e.2)), cmds := cmds }) s
  let s := restoreDefects (restoreSums (mapSettle (modPle (fun p => { p with dirty := r.1 }) s)))
  -- a format without its end record is completed before its namespace takes I/O (R266)
  let s := (s.ple.map.nss.filter (fun n => n.formatting)).foldl (fun s n => formatComplete n.nsid s) s
  updateMapState (freeBands s)

/-! ### The Event Recorder at boot (R490, R493, R494) -/

/-- The default snapshot lists of R490, class by class. The BOOT record holds SYS_BIST_RUN and SYS_BIST_FAIL too (R459), which its
default list leaves out: they follow it. -/
def snapDefaults : List (List Nat) :=
  let mcs := fun (off : Nat) => (List.range 4).map (fun k => 0x40000 + 0x10000 * k + off)
  [[SYS_RST_CAUSE, SYS_BOOT_STAT, SYS_OPT_STAT, SYS_WDOG_STAT, 0xA0000 + BMC_STAT, 0xD0000 + PCT_STAT,
    SYS_BIST_RUN, SYS_BIST_FAIL],
   [0x140000 + MCK_STAT, SYS_PACE_NOW, SYS_CBP_STAT, 0xE0000 + ELG_VCORE] ++ mcs MSQ_STOP ++ mcs MC_WR_FAULT ++
    [0x80000 + SCE_STAT, 0x90000 + SCU_STAT, 0xA0000 + BMC_ERR_INFO, 0xD0000 + PCT_STAT],
   mcs MC_RECOV_LAST ++ mcs MC_RECOV_TRACK ++ [0x20000 + PLE_STAT, 0x20000 + PLE_MAP_USED],
   [0x90000 + SCU_STAT, 0x90000 + SCU_VM_NOW, 0x80000 + SCE_STAT, 0x80000 + SCE_FINISH, 0x80000 + SCE_WINH],
   [0xE0000 + ELG_WT, 0xE0000 + ELG_RESERVE, 0xE0000 + ELG_CEIL, 0xE0000 + ELG_HOLD, 0xE0000 + ELG_SPEED, 0xF0000 + TMN_STAT],
   [0x110000 + TDL_STAT, 0x110000 + TDL_MSEQ_TX, 0x110000 + TDL_MSEQ_ACK, 0x110000 + TDL_MSEQ_RX],
   [0x120000 + CLP_STAT, 0x120000 + CLP_STRANGER, 0x120000 + CLP_REPLAY], []]

/-- The lists as the recorder holds them. -/
def snapLists : List (Nat × Word) :=
  ((List.range 8).zip snapDefaults).flatMap (fun c =>
    ((List.range c.2.length).zip c.2).map (fun e => (16 * c.1 + e.1, BitVec.ofNat 32 (e.2 + 1))))

/-- A replayed tail joins the persisted log, numbering goes on above it, the lists are entered, and the BOOT record is posted;
the rules give it no ID and no DETAIL. -/
def bootRecorder (s : State) : State :=
  let tail := match s.nv.dump with
    | some d => if d.marker && !recovery s then d.tail else []
    | none => []
  let s := logAppend (tail.map (reflag 1)) s
  let next := s.nv.evlog.foldl (fun m r => max m (seqOf r + 1)) 0
  let s := evrReg (fun c => wrB (wr (wr (wr c EVR_NEXT (BitVec.ofNat 32 next)) EVR_NEXTH (BitVec.ofNat 32 (next / 2 ^ 32)))
    EVR_FLUSH (BitVec.ofNat 32 next)) EVR_CTL.EN true) (modEvr (fun e => { e with lists := snapLists }) s)
  let f := takeFree s
  evrPost 0 (f.1 % 65536) (Config.freeWord f.1) [] f.2

/-! ### Steps 6 to 8 -/

/-- Customer microcode is restored from the last image loaded (R137), vendor code from the firmware. -/
def restoreStore (k : Fin 4) (s : State) : State :=
  modMc k (fun m =>
    let m := { m with vendorLoaded := true }
    match tget none s.nv.custImg k.val with
    | none => m
    | some img => loadRegion img m) s

/-- Step 6: firmware starts: clocks and counts, microcode, the recorder, then the BMC, MPC, HQE and the PCT's ring. -/
def bootFirmware (por : Bool) (ok : Bool) (s : State) : State :=
  let s := bootStageOk ok 6 s
  let s := if por then { s with nv := { s.nv with pwrcyc := (s.nv.pwrcyc + 1) % 2 ^ 32 } } else s
  let unclean := if por then !frontierFits s else rdB s.sys.csr SYS_RST_CAUSE.POSTDUMP
  let s := when_ unclean rewriteRecords s
  let s := bootRecorder (forMcs restoreStore s)
  let s := bmcReg (fun c => wrB c BMC_CTL.EN true) (mpcReg (fun c => wrB c MPC_CTL.EN true) s)
  let s := hqeReg (fun c => wrB c HQE_CTL.EN true) (bootFrontier (pctReg (fun c => wrB c PCT_CTL.RING_EN true) s))
  let s := modHqe (fun h => { h with
    feats := s.nv.feats.filter (fun e => !ownFeature (e.1 % 65536))
    san := s.nv.san }) s
  -- the saved Energy Cap and Drizzle Rate are in force again (R261)
  ([0xC0, 0xC2] : List Nat).foldl (fun s fid => match tget none s.nv.feats fid with
    | some v => featureEffect 0 fid v 0 s
    | none => s) s

/-- The other option-area copy is brought up to the one used, at its next free page index, before step 8 (R457). -/
def healOptions (s : State) : State := match optCopy s.nv with
  | none => s
  | some useB =>
    if optSeq s.nv false = optSeq s.nv true then s
    else optionSecond (openOptions { s with nv := { s.nv with optDue := some !useB } })

/-- Carillon's counter starts at the stored value, and the next one is stored before the first send (R431). -/
def bootCounter (s : State) : State :=
  if !rdB s.clp.csr CLP_CTL.EN then s
  else
    let n := optWord s 406
    let s := clpReg (fun c => wrB (wr c CLP_TXCNT n) CLP_STAT.EXHAUST (decide (n = 0xFFFFFFFF))) s
    clpEnabled (optUpdate (tput 0 s.nv.opt 406 (BitVec.ofNat 32 (min 0xFFFFFFFF (n.toNat + 65536)))) s)

/-- Step 8 in single configuration (R462): a spindle that turns at 10 % or more is caught, with no grant; one that turns more
slowly goes through COAST. -/
def bootSpindle (b : BootIn) (s : State) : State :=
  if inPair s || decide (b.spindlePct = 0) then s
  else if 10 ≤ b.spindlePct then enterCatch (scuReg (fun c => wrB c SCU_CTL.DRIVE true) s)
  else enterCoast s

/-- Boot from a released reset (R455): every step up to the admin ready state, and the restoring of map and data; the starts of
spindle and heads, and I/O ready, have rows of their own. A TEST strap that is high ends it at step 1, where no firmware
runs (R454). -/
def boot (b : BootIn) (por : Bool) (s : State) : State :=
  let s := bootStraps b por { s with sys := { s.sys with phase := .running } }
  if rdB s.sys.csr SYS_STRAP.TEST then s
  else
    let o := bootOptions b s
    if !o.2 then o.1
    else
      let t := bootSelfTest b o.1
      let d := bootDram b t.2 t.1
      if !d.2 then d.1
      else
        let s := readRecords b.badRecords (bootStageOk t.2 5 d.1)
        let slot := bootImage b t.2 s
        let s := sysReg (fun c => wrF c SYS_BOOT_STAT.SLOT slot) s
        if slot = 3 then bootStage 0x84 s
        else
          let rcv : Bool := decide (slot = 2)
          let s := sysReg (fun c => wrB c SYS_BOOT_STAT.RCV rcv) s
          let new : Bool := !rcv && decide (s.nv.fwActive ≠ slot + 1)
          let s := if rcv then s else { s with nv := { s.nv with
            fwActive := slot + 1
            fwNext := slot + 1 } }
          let s := when_ new firmwareEvent (bootFirmware por t.2 s)
          let s := sysReg (fun c => wrF c SYS_BOOT_STAT.BOOTMS (min 65535 b.bootMs)) (bootStageOk t.2 7 s)
          if rcv then bootStageOk t.2 8 (restoreMap b s)
          else bootSpindle b (bootStage 8 (bootCounter (saveRecords (healOptions (failActuators (replay b s))))))

/-! ### The rows of power and reset -/

/-- POR (R449, R474): VIN rises through 2.60 V with PWRGOOD high, and the device boots. -/
def por (vin : Nat) (b : BootIn) (s : State) : State :=
  if s.sys.phase ≠ .unpowered ∨ vin < 2600 then s
  else
    let s := powerOnReset s
    boot b true { s with pins := { s.pins with
      vin := vin
      vinArmed := decide (2750 < vin)
      pwrgood := true } }

/-- Boot unless RESET_N holds the device. -/
def bootUnlessHeld (b : BootIn) (s : State) : State := if s.pins.resetLow then s else boot b false s

/-- RESET_N (R448, R450, R455): low starts a device reset and holds it; high lets a held device boot. -/
def resetPin (low : Bool) (b : BootIn) (s : State) : State :=
  if s.sys.phase = .unpowered then s
  else
    let was := s.pins.resetLow
    let s := { s with pins := { s.pins with resetLow := low } }
    if low then (if was then s else resetTrigger SYS_RST_CAUSE.PIN s)
    else if was ∧ s.sys.phase = .held then boot b false s
    else s

/-- RESET_DUMP_END (R450): the marker is written and the reset takes effect; the boot follows unless RESET_N is low. After a
reset whose dump was skipped, the boot alone is left. -/
def resetDumpEnd (b : BootIn) (s : State) : State :=
  if s.sys.dump = .reset then bootUnlessHeld b (deviceReset (setCause SYS_RST_CAUSE.DUMPED (dumpDone s)))
  else if s.sys.phase = .held then bootUnlessHeld b s
  else s

/-- CLOUDBURST_END (R297, R448): the marker is written, and the Post-dump reset and boot follow. -/
def cloudburstEnd (b : BootIn) (s : State) : State :=
  if s.sys.dump = .cloudburst then
    let s := deviceReset (setCause SYS_RST_CAUSE.POSTDUMP (dumpDone s))
    bootUnlessHeld b { s with pins := { s.pins with pfailLow := false } }
  else s

/-- PRECAUTIONARY_DUMP_END (R289, R314, R367): what was dumped and has not been written since counts as persistent,
and the journal tail with it; the dump's cost is measured. After a channel failure, the critical warning is set and
the Post-dump reset follows. -/
def precautionaryDumpEnd (cost : Nat) (s : State) : State :=
  if !s.elg.predumping then s
  else
    let keys := (s.nv.predump.filter (fun e => decide (tget none s.ple.dirty e.1 = e.2))).map Prod.fst
    let s := modElg (fun e => { e with
      predumping := false
      predumped := e.predumped + 1 }) s
    let s := dcostMeasure cost (modPle (fun p => { p with persisted := keys }) { s with nv := { s.nv with pretail := s.ple.jbuf } })
    if failedChannel s = none ∨ failedChannel s = s.bmc.absent then settleWt s
    else deviceReset (setCause SYS_RST_CAUSE.POSTDUMP (setReliability s))

/-- IO_READY (R456): step 12; namespaces become ready, and a Namespace Attribute Notices event is queued. -/
def ioReady (s : State) : State :=
  let n := rdF s.sys.csr SYS_BOOT_STAT.STAGE
  if s.sys.phase ≠ .running ∨ s.sys.dump ≠ .none ∨ recovery s ∨ s.hqe.ioReady ∨ n < 8 ∨ 12 < n then s
  else queueAll (aerWord 2 0 4) (modHqe (fun h => { h with ioReady := true }) (bootStage 12 s))

/-- DEVRST (R463): a device reset while SYS_JTAG.OPEN is 1. -/
def jtagReset (s : State) : State :=
  if rdB s.sys.csr SYS_JTAG.OPEN then resetTrigger SYS_RST_CAUSE.JTAG s else s

end Sys2Proof.Machine
end

