-- ==== Sys2Proof/Machine/CsrWrite.lean ====
section
/-! DEFINITION. Writing CSR space (R7 to R10, R24 to R26): the access codes, and what each register does when it is written. -/

namespace Sys2Proof.Machine

/-- A register takes a write by its access codes, with some bits left out because the write does something of its own there. -/
def putMasked (rows : List RegRow) (lock : Fld) (off : Nat) (own v : Word) (c : List (Nat × Word)) : List (Nat × Word) :=
  let r := rowOf rows off
  wr c off (maskWrite ⟨off, r.rw &&& ~~~own, r.w1c, r.w1s &&& ~~~own, r.rwl⟩ (rdB c lock) (rd c off) v)

/-! ### SYS -/

/-- The operating time becomes T seconds now. -/
def setOperating (t : Nat) (s : State) : State :=
  { s with
    nv := { s.nv with optime := t }
    sys := { s.sys with optBase := s.sys.us } }

/-- The rows of SYS_FAB_CLR (R27). -/
def fabClrPacemin (s : State) : State := sysReg (fun c => wrF c SYS_PACE_MIN.MIN 0xFFFF) s
def fabClrDec (s : State) : State := sysReg (fun c => wr (wrF c SYS_FAB_DECERR.COUNT 0) SYS_FAB_DECADDR 0) s
def fabClrArb (s : State) : State := sysReg (fun c => wrF c SYS_ARB_SLOW.COUNT 0) s

/-- The unit resets that a write of SYS_UNIT_RST asks for. -/
def unitResets (v : Word) (s : State) : State :=
  let s := forMcs (fun k s => when_ (wordBit v k.val) (unitResetMc k) s) s
  when_ (wordBit v 8) unitResetClp (when_ (wordBit v 7) unitResetTdl (when_ (wordBit v 6) unitResetPct
    (when_ (wordBit v 5) unitResetScu (when_ (wordBit v 4) unitResetSce s))))

/-- SYS (R464), and the fabric registers. -/
def writeSys (off : Nat) (v : Word) (s : State) : State :=
  let locked := rdB s.sys.csr SYS_CTL.LOCK
  let plain := fun (own : Word) (s : State) => sysReg (putMasked rowsSys SYS_CTL.LOCK off own v) s
  if off = SYS_RST_CTL then when_ (wordBit v 31) softReset (plain 0x80000000 s)
  else if off = SYS_UNIT_RST then unitResets v s
  else if off = SYS_WDOG_KICK then watchdogKick v.toNat s
  else if off = SYS_PWRCYC then (if locked then s else { s with nv := { s.nv with pwrcyc := v.toNat } })
  else if off = SYS_OPTIME then (if locked then s else setOperating (v.toNat * 3600 + nowSec s % 3600) s)
  else if off = SYS_OPTSEC then (if locked then s else setOperating (nowSec s / 3600 * 3600 + wordField v 11 0) s)
  else if off = SYS_CLR then when_ (wordBit v 0) sysClrWdog s
  else if off = 0x820 then
    when_ (wordBit v 2) fabClrArb (when_ (wordBit v 1) fabClrDec (when_ (wordBit v 0) fabClrPacemin s))
  else plain 0 s

/-! ### HQE, PLE -/

/-- HQE (R274). -/
def writeHqe (off : Nat) (v : Word) (s : State) : State :=
  let f := rdF s.hqe.csr HQE_FN_IDX.FN
  if off = HQE_FN_CAP then (if fnExists s f then modFn f (fun x => { x with cap := wordField v 15 0 }) s else s)
  else if off = HQE_CLR then when_ (wordBit v 0) hqeClrCnt s
  else hqeReg (putMasked rowsHqe HQE_CTL.LOCK off 0 v) s

/-- PLE (R229). -/
def writePle (off : Nat) (v : Word) (s : State) : State :=
  if off = PLE_CLR then
    when_ (wordBit v 2) pleClrClaim (when_ (wordBit v 1) pleClrDue (when_ (wordBit v 0) pleClrMaxw s))
  else pleReg (putMasked rowsPle PLE_CTL.LOCK off 0 v) s

/-! ### MC -/

/-- A pending ADC mask word; the active bank ignores writes, and word 4 has seven bits. -/
def writeAdc (v : Word) (m : Mc) : Mc := match adcKey m with
  | none => m
  | some i =>
    if rdF m.csr MC_ADC_IDX.BANK = 0 then m
    else { m with adcMask := tput 0 m.adcMask i (if rdF m.csr MC_ADC_IDX.WORD = 4 then v &&& 0x7F else v) }

/-- MSQ_JT_DATA: an armed or running entry, and dwords 10 to 15, take nothing. -/
def writeJt (v : Word) (m : Mc) : Mc :=
  let e := rdF m.csr MSQ_JT_IDX.ENTRY
  let dw := rdF m.csr MSQ_JT_IDX.DW
  let m' := if jtState m e = 1 ∨ jtState m e = 2 ∨ 10 ≤ dw then m else jtWrite e dw v m
  { m' with csr := autoInc MSQ_JT_IDX.AUTOINC MSQ_JT_IDX.DW m'.csr }

/-- The windows and tables of a Media Channel; `none` where the register is none of them. -/
def writeMcTable (off : Nat) (v : Word) (m : Mc) : Option Mc :=
  if off = MC_ADC_SEL then some (writeAdc v m)
  else if off = MC_ASC_LVL then match ascHead m with
    | none => some m
    | some h => some { m with ascLevel := tput 0 m.ascLevel (16 * h + rdF m.csr MC_ASC_IDX.LEVEL) (wordField v 11 0) }
  else if off = MC_ASC_AGE then match ascHead m with
    | none => some m
    | some h => some (putAscAge h (v &&& 0x03FF03FF) m)
  else if off = MC_HIF_PDATA then some { m with preload := tput 0 m.preload (rdF m.csr MC_HIF_PIDX.IDX) (v &&& 0x807FFFFF) }
  else if off = MSQ_JT_DATA then some (writeJt v m)
  else if off = MSQ_ST_DATA then some (stWrite v m)
  else if off = MSQ_RTAB_DATA then
    some { m with knobs := tput 0 m.knobs (2 * rdF m.csr MSQ_RTAB_IDX.SET + rdF m.csr MSQ_RTAB_IDX.DW) v }
  else none

/-- The entries whose DONE bits a write of 1s clears. -/
def clearDone (k : Fin 4) (base : Nat) (v : Word) (s : State) : State :=
  (List.range 32).foldl (fun s i => when_ (wordBit v i) (jtDoneClear k (base + i)) s) s

/-- A Media Channel (R71, R105, R141). -/
def writeMc (k : Fin 4) (off : Nat) (v : Word) (s : State) : State :=
  let plain := fun (own : Word) (s : State) => mcReg k (putMasked rowsMc MC_ASC_CTL.LOCK off own v) s
  match writeMcTable off v (mcOf s k) with
  | some m => setMc k m s
  | none =>
    if off = MC_ADC_STAT then when_ (wordBit v 31) (adcMaskApply k) (plain 0x80000000 s)
    else if off = MC_SYN_CTL then
      -- free run holds no lock (R88)
      modMc k (fun m => if rdB m.csr MC_SYN_CTL.FREE then { m with csr := wrB m.csr MC_SYN_STAT.LOCK false } else m) (plain 0 s)
    else if off = MC_HIF_CTL then hifOwnWrite k (wordBit v 31) (plain 0x80000000 s)
    else if off = MC_HIF_CMD then
      (if wordBit v 31 then hifFirmwareFrame k v s
       else if rdB (mcOf s k).csr MC_HIF_CMD.GO then s else plain 0x80000000 s)
    else if off = MC_CH_CLR then
      when_ (wordBit v 3) (clrAsc k) (when_ (wordBit v 2) (clrHif k) (when_ (wordBit v 1) (clrSyn k)
        (when_ (wordBit v 0) (clrLdpc k) s)))
    else if off = MC_FMT_CLR then when_ (wordBit v 1) (clrFmtRec k) (when_ (wordBit v 0) (clrFmtCnt k) s)
    else if off = MSQ_CTL then msqEnWrite k (wordBit v 31) (plain 0x80000000 s)
    else if off = MSQ_JT_CMD then
      (if wordBit v 31 && wordBit v 30 then s
       else
         let s := plain 0xC0000000 s
         let e := wordField v 5 0
         when_ (wordBit v 30) (jtCancel k e) (when_ (wordBit v 31) (jtArm k e) s))
    else if off = MSQ_JT_DONE_LO then clearDone k 0 v s
    else if off = MSQ_JT_DONE_HI then clearDone k 32 v s
    else if off = MSQ_CLR then
      when_ (wordBit v 2) (clrEvt k) (when_ (wordBit v 1) (clrTrace k) (when_ (wordBit v 0) (clrMsqCnt k) s))
    else plain 0 s

/-! ### SCE, SCU -/

/-- A coefficient of a shadow bank; the active bank ignores writes, and loops 5 to 7 select nothing. -/
def writeCoef (v : Word) (c : Sce) : Sce :=
  let l := rdF c.csr SCE_COEF_IDX.LOOP
  let c' := if 5 ≤ l ∨ rdF c.csr SCE_COEF_IDX.BANK = 0 then c else coefPut l (rdF c.csr SCE_COEF_IDX.ADDR) v c
  { c' with csr := autoInc SCE_COEF_IDX.AUTOINC SCE_COEF_IDX.ADDR c'.csr }

/-- A table entry; slot 3 selects nothing. -/
def writeTbl (v : Word) (c : Sce) : Sce :=
  let n := rdF c.csr SCE_TBL_IDX.SLOT
  let c' := if n = 3 then c else { c with tbl := tput 0 c.tbl (n * 1024 + rdF c.csr SCE_TBL_IDX.ENTRY) (wordField v 15 0) }
  { c' with csr := autoInc SCE_TBL_IDX.AUTOINC SCE_TBL_IDX.ENTRY c'.csr }

/-- The registers of the selected actuator. -/
def writeAct (k : Fin 4) (off : Nat) (v : Word) (s : State) : State :=
  let a := actOf s k
  if off = SCE_ACT_CMD then
    (if wordBit v 31 then actCommand k (wordField v 29 27) (wordField v 23 20) (wordField v 12 8) (wordField a.trk 20 0) s
     else modAct k (fun a => { a with cmd := (a.cmd &&& ~~~0x38F01F00) ||| (v &&& 0x38F01F00) }) s)
  else if off = SCE_ACT_TRK then modAct k (fun a => { a with trk := v &&& 0x1FFFFF }) s
  else if off = SCE_ACT_LIM then modAct k (fun a => { a with lim := v }) s
  else s

/-- SCE (R179). -/
def writeSce (off : Nat) (v : Word) (s : State) : State :=
  let plain := fun (own : Word) (s : State) => sceReg (putMasked rowsSce SCE_CTL.LOCK off own v) s
  if off = SCE_CTL then
    forMcs (fun k s => actEnWrite k (wordBit v k.val) s) (when_ (wordBit v 8) zrebuild (plain 0x10F s))
  else if SCE_ACT_CMD ≤ off ∧ off ≤ SCE_ACT_REJ then match actSelected s with
    | none => s
    | some k => writeAct k off v s
  else if off = SCE_COEF_DATA then modSce (writeCoef v) s
  else if off = SCE_TBL_DATA then modSce (writeTbl v) s
  else if off = SCE_PSL_CMD then
    (if wordBit v 31 ∧ ¬ rdB s.sce.csr SCE_PSL_CMD.GO then pslReg (wordBit v 30) (wordField v 23 16) (wordField v 15 0) s
     else plain 0x80000000 s)
  else if off = SCE_CLR then
    when_ (wordBit v 4) sceClrPsl (when_ (wordBit v 3) sceClrAct (when_ (wordBit v 2) sceClrFin (when_ (wordBit v 1) sceClrLate
      (when_ (wordBit v 0) sceClrOvr s))))
  else if off = SCE_SPN_CTL then dropSync (plain 0 s)
  else plain 0 s

/-- SCU_CTL.CMD. -/
def scuCmd (n : Nat) (s : State) : State := match n with
  | 1 => scuCmdStart s
  | 2 => scuCmdStop s
  | 3 => scuCmdCoast s
  | 4 => scuCmdCatch s
  | 5 => scuCmdRectify s
  | _ => s

/-- SCU (R180). -/
def writeScu (off : Nat) (v : Word) (s : State) : State :=
  let plain := fun (own : Word) (s : State) => scuReg (putMasked rowsScu SCU_CTL.LOCK off own v) s
  if off = SCU_CTL then scuCmd (wordField v 23 20) (driveWrite (wordBit v 30) (plain 0x40000000 s))
  else if off = SCU_CTAB_DATA then
    scuReg (autoInc SCU_CTAB_IDX.AUTOINC SCU_CTAB_IDX.ENTRY)
      (modScu (fun u => ctabPut (rdF u.csr SCU_CTAB_IDX.ENTRY) (wordField v 15 0) u) s)
  else if off = SCU_CLR then when_ (wordBit v 0) scuClrCnt s
  else plain 0 s

/-! ### BMC, MPC, DMA, PCT -/

/-- BMC (R329). -/
def writeBmc (off : Nat) (v : Word) (s : State) : State :=
  if off = BMC_CLR then when_ (wordBit v 1) bmcClrErr (when_ (wordBit v 0) bmcClrCnt s)
  else bmcReg (putMasked rowsBmc BMC_CTL.LOCK off 0 v) s

/-- MPC (R330). A write of EN 0 is ignored while any line is valid. -/
def writeMpc (off : Nat) (v : Word) (s : State) : State :=
  let plain := fun (own : Word) (s : State) => mpcReg (putMasked rowsMpc MPC_CTL.LOCK off own v) s
  if off = MPC_CTL then plain (if wordBit v 0 || s.mpc.lines.isEmpty then 0 else 1) s
  else if off = MPC_RANGE_CMD then when_ (wordBit v 31) (rangeGo (wordField v 1 0)) (plain 0x80000000 s)
  else if off = MPC_LOCK_CMD then when_ (wordBit v 31) lockGo (plain 0x80000000 s)
  else if off = MPC_CLR then when_ (wordBit v 0) mpcClrCnt s
  else plain 0 s

/-- DMA (R331). A write of more than one of LOAD, STOP and CLEAR is ignored; clearing an engine's enable stops its channels. -/
def writeDma (off : Nat) (v : Word) (s : State) : State :=
  let plain := fun (s : State) => dmaReg (putMasked rowsDma DMA_CTL.LOCK off 0 v) s
  if off = DMA_CTL then
    let up := rdB s.dma.csr DMA_CTL.UP_EN && !wordBit v 0
    let dn := rdB s.dma.csr DMA_CTL.DN_EN && !wordBit v 1
    when_ dn (stopEngine true) (when_ up (stopEngine false) (plain s))
  else if off = DMA_CH_CMD then match wordField v 31 29 with
    | 4 => dmaLoad s
    | 2 => dmaStop s
    | 1 => dmaClear s
    | _ => s
  else if off = DMA_CLR then when_ (wordBit v 0) dmaClrCnt s
  else plain s

/-- The wear table that the last snapshot saved is loaded where the table is placed (R352). -/
def loadWearTable (s : State) : State :=
  dramPut (s.nv.wear.map (fun e => (wearAddr s 0 + e.1, e.2))) s

/-- PCT (R358). -/
def writePct (off : Nat) (v : Word) (s : State) : State :=
  let plain := fun (own : Word) (s : State) => pctReg (putMasked rowsPct PCT_CTL.LOCK off own v) s
  if off = PCT_RING_TAIL then (if wordField v 7 0 = ringHead s then s else plain 0 s)
  else if off = PCT_SUSP then
    (if wordBit v 31 && wordBit v 30 then s
     else
       let d := wordField v 0 0
       when_ (wordBit v 30) (pctResume d) (when_ (wordBit v 31) (pctSuspend d) (plain 0xC0000000 s)))
  else if off = PCT_WEAR_BASE then (if rdB s.pct.csr PCT_CTL.LOCK then s else loadWearTable (plain 0 s))
  else if off = PCT_CLR then when_ (wordBit v 0) pctClrCnt s
  else plain 0 s

/-! ### ELG, TMN, CAL -/

/-- ELG (R388). -/
def writeElg (off : Nat) (v : Word) (s : State) : State :=
  if off = ELG_DCMEAS then dcostMeasure v.toNat s
  else if off = ELG_ANCH_DATA then
    let i := rdF s.elg.csr ELG_ANCH_IDX.IDX
    if 6 ≤ i ∨ rdB s.elg.csr ELG_CTL.LOCK then s else modElg (fun e => { e with anchors := tput 0 e.anchors i v.toNat }) s
  else if off = ELG_ANCH_IDX then elgReg (fun c => wrF c ELG_ANCH_IDX.IDX v.toNat) s
  else (if off = ELG_CAP then capSettle else id) (elgReg (putMasked rowsElg ELG_CTL.LOCK off 0 v) s)

/-- TMN (R389). -/
def writeTmn (off : Nat) (v : Word) (s : State) : State :=
  let plain := fun (own : Word) (s : State) => tmnReg (putMasked rowsTmn TMN_CTL.LOCK off own v) s
  if off = TMN_REQ then when_ (wordBit v 31) (tmnRequest (wordField v 3 0)) (plain 0x80000000 s)
  else if off = TMN_CLR then when_ (wordBit v 0) tmnClrCnt s
  else plain 0 s

/-- CAL (R391). Items 14 and 15 do not exist. -/
def writeCal (off : Nat) (v : Word) (s : State) : State :=
  let n := rdF s.cal.csr CAL_IDX.ITEM
  if off = CAL_CTL then modCal (fun c => { c with csr := putMasked rowsCal CAL_CTL.LOCK off 0xC000 v c.csr }) s
  else if off = CAL_IDX then modCal (fun c => { c with csr := putMasked rowsCal CAL_CTL.LOCK off 0 v c.csr }) s
  else if off = CAL_CFG then (if 14 ≤ n then s else modItem n (fun x => { x with cfg := v &&& 0x80FFFFFF }) s)
  else if off = CAL_RUN then when_ (wordBit v 31 && decide (n < 14)) calRun s
  else s

/-! ### TDL, CLP, EVR, MCK -/

/-- TDL (R421). A change of the ANA state that SERVE makes is reported (R394); clearing EN takes the link down. -/
def writeTdl (off : Nat) (v : Word) (s : State) : State :=
  let plain := fun (own : Word) (s : State) => tdlReg (putMasked rowsTdl TDL_CTL.LOCK off own v) s
  if off = TDL_CTL then
    let was := anaState s
    let on := rdB s.tdl.csr TDL_CTL.EN
    let s := plain 0 (when_ (on && !wordBit v 0) linkDown s)
    let starts := rdB s.tdl.csr TDL_CTL.EN && !on && !rdB s.mck.csr MCK_STAT.FATAL
    let s := if starts then modTdl (fun t => { t with beatStopped := false }) s else s
    when_ (decide (anaState s ≠ was)) anaChange s
  else if off = TDL_HANDOFF then
    (if wordBit v 31 && wordBit v 30 then s
     else when_ (wordBit v 30) handoffDisarm (when_ (wordBit v 31) handoffArm (plain 0xC0000000 s)))
  else if off = TDL_CLR then when_ (wordBit v 0) tdlClrCnt s
  else plain 0 s

/-- The saved replay table of Carillon is loaded where the memory region is placed (R430, R445). -/
def loadReplayTable (s : State) : State :=
  dramPut (s.nv.clpTable.map (fun e => (clpBase s + 0x15000 + e.1, e.2))) s

/-- The ring indices that firmware writes: a consumer may not pass the producer, and a producer may not fill its ring. -/
def writeRings (off : Nat) (v : Word) (c : List (Nat × Word)) : List (Nat × Word) :=
  if off = CLP_RXQ then
    let cons := rdF c CLP_RXQ.CONS
    let new := wordField v 7 0
    if (new + 256 - cons) % 256 ≤ (rdF c CLP_RXQ.PROD + 256 - cons) % 256 then wrF c CLP_RXQ.CONS new else c
  else
    let n := wordField v 29 24
    let a := wordField v 11 8
    let c := if (n + 1) % 64 = rdF c CLP_TXQ.NCONS then c else wrF c CLP_TXQ.NPROD n
    if (a + 1) % 16 = rdF c CLP_TXQ.ACONS then c else wrF c CLP_TXQ.APROD a

/-- CLP (R446). A write of EN 1 is ignored while the port may not run (R423). -/
def writeClp (off : Nat) (v : Word) (s : State) : State :=
  let plain := fun (own : Word) (s : State) => clpReg (putMasked rowsClp CLP_CTL.LOCK off own v) s
  if off = CLP_CTL then
    let was := clpOn s
    let s := plain (if wordBit v 0 && !clpMayRun s then 1 else 0) s
    when_ (clpOn s && !was) clpEnabled s
  else if off = CLP_MEM_BASE then (if rdB s.clp.csr CLP_CTL.LOCK then s else loadReplayTable (plain 0 s))
  else if off = CLP_RXQ ∨ off = CLP_TXQ then clpReg (writeRings off v) s
  else if off = CLP_XCHG then
    when_ (wordBit v 31) (xchgArm (wordField v 26 24) (wordField v 23 16) (wordField v 15 0)) (plain 0x80000000 s)
  else if off = CLP_CLR then when_ (wordBit v 0) clpClrCnt s
  else plain 0 s

/-- EVR (R500). -/
def writeEvr (off : Nat) (v : Word) (s : State) : State :=
  let plain := fun (own : Word) (s : State) => evrReg (putMasked rowsEvr EVR_CTL.LOCK off own v) s
  if off = EVR_NEXT ∨ off = EVR_NEXTH then (if rdB s.evr.csr EVR_CTL.EN then s else evrReg (fun c => wr c off v) s)
  else if off = EVR_FLUSH then flushTo v s
  else if off = EVR_CUR then evrReg (fun c => wr c EVR_CUR v) s
  else if off = EVR_POST then
    (if wordBit v 31 then evrFirmwarePost (wordField v 18 16) (wordField v 15 0) (rd s.evr.csr EVR_DETAIL) s
     else plain 0x80000000 s)
  else if off = EVR_LIST_DATA then
    (if rdB s.evr.csr EVR_CTL.LOCK || decodeError (wordField v 31 2 * 4) then s
     else
       let i := 16 * rdF s.evr.csr EVR_LIST_IDX.CLASS + rdF s.evr.csr EVR_LIST_IDX.ENTRY
       modEvr (fun e => { e with lists := tput 0 e.lists i (v &&& 0xFFFFFFFD) }) s)
  else if off = EVR_CLR then when_ (wordBit v 0) evrClrCnt s
  else plain 0 s

/-- MCK (R501). -/
def writeMck (off : Nat) (v : Word) (s : State) : State :=
  if off = MCK_CLR then when_ (wordBit v 0) mckClrCnt s
  else { s with mck := { s.mck with csr := putMasked rowsMck MCK_CTL.LOCK off 0 v s.mck.csr } }

/-! ### A write of any register -/

/-- A CSR write at a byte address. A decode error changes nothing and is counted; an absent Media Channel takes nothing. -/
def csrWrite (a : Nat) (v : Word) (s : State) : State :=
  let off := a % 65536
  if decodeError a then noteDecodeError a s
  else match a / 65536 with
    | 0 => writeSys off v s
    | 1 => writeHqe off v s
    | 2 => writePle off v s
    | 4 => writeMc 0 off v s
    | 5 => writeMc 1 off v s
    | 6 => if mcAbsent s 2 then s else writeMc 2 off v s
    | 7 => if mcAbsent s 3 then s else writeMc 3 off v s
    | 8 => writeSce off v s
    | 9 => writeScu off v s
    | 10 => writeBmc off v s
    | 11 => writeMpc off v s
    | 12 => writeDma off v s
    | 13 => writePct off v s
    | 14 => writeElg off v s
    | 15 => writeTmn off v s
    | 16 => writeCal off v s
    | 17 => writeTdl off v s
    | 18 => writeClp off v s
    | 19 => writeEvr off v s
    | 20 => writeMck off v s
    | _ => s

/-- A CSR write of so many bytes: anything but an aligned 32-bit access is a decode error (R25). -/
def csrAccess (bytes a : Nat) (v : Word) (s : State) : State := if bytes = 4 then csrWrite a v s else noteDecodeError a s

end Sys2Proof.Machine
end

