-- ==== Sys2Proof/Machine/Access.lean ====
section
/-! DEFINITION. The rows of CSR access, of the TAP, of the Pace Monitor and of CBP faults (R15, R18, R26, R270, R452, R463). -/

namespace Sys2Proof.Machine

/-- CSR_READ_CMD (R270): C6h with CDW13 bit 31 clear. -/
def csrReadCmd (n : Nat) (s : State) : State :=
  onAdmin 0xC6 n (fun x s =>
    if wordBit (x.cdw 13) 31 then s
    else if !unlocked s x.fn 0 then reply n 0x15 s
    else
      let r := csrRead (x.cdw 10).toNat s
      finish n 0 r.1 0 r.2) s

/-- CSR_WRITE_CMD (R270): C5h with CDW13 bits 31 and 30 clear. -/
def csrWriteCmd (n : Nat) (s : State) : State :=
  onAdmin 0xC5 n (fun x s =>
    if wordBit (x.cdw 13) 31 || wordBit (x.cdw 13) 30 then s
    else if !unlocked s x.fn 1 then reply n 0x15 s
    else reply n 0 (csrWrite (x.cdw 10).toNat (x.cdw 11) s)) s

/-! ### The Pace Monitor's window, which the timebase counts (R18, R97, R430, R452) -/

/-- A microsecond of AG on a head joins the intervals that the duty window looks back on; one that continues the last interval
lengthens it, and intervals that have left the window go (R96). -/
def noteAg (now head : Nat) (m : Mc) : Mc :=
  let kept := m.agHist.filter (fun e => decide (now < e.2.2 + dutyWinUs m))
  { m with agHist := match kept with
    | (h, a, b) :: r => if h = head ∧ b + 1 = now then (h, a, now) :: r else (head, now - 1, now) :: kept
    | [] => [(head, now - 1, now)] }

/-- The assist element's on-time of the head under AG (R97), and the duty of the head that MC_ASC_STAT names (R96). Which head
R96 means by 'the current head' is not said: DUTY_NOW follows HEAD (DESIGN CHOICE, log 220). -/
def countAssist (now : Nat) (m : Mc) : Mc :=
  let m := if m.ag then noteAg now (curHead m) { m with
    onTimeUs := tput 0 m.onTimeUs (curHead m) (tget 0 m.onTimeUs (curHead m) + 1) } else m
  { m with csr := wrF m.csr MC_ASC_STAT.DUTY_NOW (min 255 (dutyNow m now (rdF m.csr MC_ASC_STAT.HEAD))) }

/-- The watchdog counts a millisecond. -/
def wdogTick (s : State) : State :=
  if rdB s.sys.csr SYS_WDOG_CTL.EN && decide (s.sys.phase = .running) then
    sysReg (fun c => wrF c SYS_WDOG_STAT.REMAIN (rdF c SYS_WDOG_STAT.REMAIN - 1)) s
  else s

/-- PACE_WINDOW_END: the pace of the last microsecond is published as a whole, its minimum and the alarm follow, and what counts
the timebase advances. -/
def paceWindowEnd (tokens : Nat) (s : State) : State :=
  let n := tokens % 65536
  let alarm : Bool := rdB s.sys.csr SYS_PACE_CTL.EN && decide (n < rdF s.sys.csr SYS_PACE_CTL.ALARM)
  let s := sysReg (fun c =>
    let c := wrF (wrF c SYS_PACE_NOW.TOKENS n) SYS_PACE_MIN.MIN (min n (rdF c SYS_PACE_MIN.MIN))
    if alarm then wrB c SYS_PACE_STAT.ALARM true else c) s
  let s := noteSpeed s
  let s := forMcs (fun k s => modMc k (countAssist (s.sys.us)) s) { s with sys := { s.sys with us := s.sys.us + 1 } }
  let s := forMcs pushEnd s
  let s := clpTick (if s.sys.us % 1000 = 0 then wdogTick s else s)
  if s.sys.us % 60000000 = 0 then saveReplayTable s else s

/-! ### CBP faults (R15) -/

/-- The islands of R13 by their bits of SYS_CBP_STAT: the PCIe controller, the DRAM's back end, the Media Timing
Islands of MC0 to MC3, the motor PWM with the Power Stage Link, the Tandem Link SerDes and the 10BASE-T1S PHY. Each
gives its CBP FIFO's entries, either way, and the bits of an entry. -/
def cbpFifo (i : Fin 9) : Nat × Nat :=
  match i.val with
  | 0 => (64, 256)
  | 1 => (64, 256)
  | 2 => (128, 64)
  | 3 => (128, 64)
  | 4 => (128, 64)
  | 5 => (128, 64)
  | 6 => (16, 32)
  | 7 => (32, 128)
  | _ => (8, 32)

/-- The sectors whose codewords stand in a Media Timing Island's write FIFO. -/
def mtiQueued (s : State) (k : Fin 4) : Nat := ((mcOf s k).job.map (fun (j : Job) => (cbpOf j.writeQ).length)).getD 0

/-- The bits that stand on their way into an island: what its fabric unit has handed over and not seen through. Of the
PCIe island, a header for each channel at work and each read request out; of the DRAM, the writebacks that are issued;
of a Media Timing Island, the codeword of its oldest queued sector; of the PWM island, the frame whose reply is out;
of the Tandem Link, the flits that wait; a T1S frame is whole in its own row. -/
def cbpBits (i : Fin 9) (s : State) : Nat :=
  match i.val with
  | 0 => 128 * (tagsOut s 0 + tagsOut s 1 + (s.dma.chans.filter (fun e => (e.2.bind (fun x => x.active)).isSome)).length)
  | 1 => 512 * (s.mpc.eb.filter (fun e => e.issued)).length
  | 2 => 36864 * (mtiQueued s 0)
  | 3 => 36864 * (mtiQueued s 1)
  | 4 => 36864 * (mtiQueued s 2)
  | 5 => 36864 * (mtiQueued s 3)
  | 6 => 64 * s.sce.pslOut.length
  | 7 => 256 * s.tdl.replay.length
  | _ => 0

/-- The entries that an island's CBP FIFO holds towards it. A sender with more to hand over than the FIFO takes is
held off, and drops nothing (R13). -/
def cbpFill (i : Fin 9) (s : State) : Nat := min (cbpFifo i).1 ((cbpBits i s + (cbpFifo i).2 - 1) / (cbpFifo i).2)

/-- The island side's full and empty flags (R13). -/
def cbpFull (i : Fin 9) (s : State) : Bool := decide (cbpFill i s = (cbpFifo i).1)
def cbpEmpty (i : Fin 9) (s : State) : Bool := decide (cbpFill i s = 0)

/-- What an island's transfers in progress come to (R15): of the PCIe island, the DMA channels' transfers are cut, to
be started again; of the DRAM's, a writeback that is issued is issued again; of the power stage's, the frame whose
reply is out fails; of the Tandem Link's, the flits that are not acknowledged are resent. -/
def failTransfers (i : Nat) (s : State) : State :=
  match i with
  | 0 => cutTransfers (fun _ => true) s
  | 1 => { s with mpc := { s.mpc with eb := s.mpc.eb.map (fun e => { e with issued := false }) } }
  | 6 => modSce (fun c => { c with pslOut := c.pslOut.map (fun o => { o with cut := true }) }) s
  | 7 => if s.tdl.replay.isEmpty then s else resendFlits s
  | _ => s

/-- CBP_FAULT: the island's bit, a machine check, and what the transfer in progress comes to; on a Media Timing Island the gates
drop and the job stops, with WRITE_ABORT where WG was high. -/
def cbpFault (island : Fin 9) (s : State) : State :=
  let i := island.val
  if s.part = .dhk7420 ∧ (i = 4 ∨ i = 5) then s else
  let s := sysReg (fun c => wr c SYS_CBP_STAT (wordSetField (rd c SYS_CBP_STAT) i i 1)) s
  let s := machineCheck 0 0x01 1 (BitVec.ofNat 32 i) 0 s
  if 2 ≤ i ∧ i ≤ 5 then
    let k := mcIx (i - 2)
    if (mcOf s k).wg then writeAbort k MC_WR_FAULT.CBP 7 s
    else dropGates k (stopJob k 14 s)
  else if cbpEmpty island s then s
  else failTransfers i s

/-! ### The TAP (R463) -/

/-- The TAP takes an instruction, with the data register that it selects. -/
def tapLoad (i : TapInstr) (dr : Word) (s : State) : State :=
  { s with sys := { s.sys with tap := { s.sys.tap with
    instr := i
    dr := dr } } }

/-- Whether RESET_N holds the device in reset. -/
def heldByPin (s : State) : Bool := s.pins.resetLow && decide (s.sys.phase = .held)

/-- BYPASS. -/
def tapBypass (s : State) : State := tapLoad .bypass 0 s

/-- IDCODE: version 1, the part's number, manufacturer code 2B7h. -/
def tapIdcode (s : State) : State := tapLoad .idcode (if s.part = .dhk7440 then 0x1744056F else 0x1742056F) s

/-- SAMPLE/PRELOAD: the cells that are shifted in wait in the boundary register. What is sampled are the balls' levels, which lie
outside. -/
def tapSamplePreload (cells : List Bool) (s : State) : State :=
  let s := tapLoad .samplePreload 0 s
  { s with sys := { s.sys with tap := { s.sys.tap with boundary := cells } } }

/-- The instructions that drive or float the balls load BYPASS unless RESET_N holds the device in reset. -/
def tapPins (i : TapInstr) (s : State) : State := if heldByPin s then tapLoad i 0 s else tapBypass s

/-- EXTEST, CLAMP, HIGHZ. -/
def tapExtest (s : State) : State := tapPins .extest s
def tapClamp (s : State) : State := tapPins .clamp s
def tapHighz (s : State) : State := tapPins .highz s

/-- DEVRST: a device reset while SYS_JTAG.OPEN is 1, else BYPASS. -/
def tapDevrst (s : State) : State :=
  if rdB s.sys.csr SYS_JTAG.OPEN then jtagReset (tapLoad .devrst 0 s) else tapBypass s

/-- CSRACC: one access of the CSR path while SYS_JTAG.OPEN is 1, a write of the data or a read into the data register, else
BYPASS. -/
def tapCsracc (write : Bool) (a : Nat) (v : Word) (s : State) : State :=
  if !rdB s.sys.csr SYS_JTAG.OPEN then tapBypass s
  else if write then csrWrite a v (tapLoad .csracc v s)
  else
    let r := csrRead a s
    tapLoad .csracc r.1 r.2

end Sys2Proof.Machine
end

