-- ==== Sys2Proof/Machine/Follow.lean ====
section
/-! DEFINITION. What surrounds the rows: a Media Channel that the part lacks takes nothing, and what follows an access to the
registers or a PWM period. -/

namespace Sys2Proof.Machine

/-- A row of a Media Channel. The DHK-7420 has no Media Channels 2 and 3: nothing happens on them (R3). -/
def onMc (k : Fin 4) (f : State → State) (s : State) : State := if mcAbsent s k then s else f s

/-- What follows a row of servo control: a reset of the SCE that waits, and a boot that waits for the heads. -/
def afterServo (s : State) : State := bootProgress (sceResetProgress s)

/-- What follows a register access, which may have moved any unit on. -/
def afterCsr (s : State) : State := settle (sceResetProgress (spinEnded s))

/-- A failing VM is an event of the SCU and a Cloudburst (R175, R296). -/
def vmFailure (vm : Nat) (was s : State) : State := if vmFails was vm then cloudburst (scuEvt SCU_EVT.PF s) else s

/-- PWM_HALF_PERIOD (R168, R175, R178): while a fatal syndrome stands, the gates stay in high impedance. -/
def pwmRow (i : PwmIn) (s : State) : State :=
  let t := vmFailure i.vm s (pwmHalf i s)
  if rdB t.mck.csr MCK_STAT.FATAL then floatGates t else t

end Sys2Proof.Machine
end

