-- ==== Sys2Proof/Machine/ExecAdminCmd.lean ====
section
/-! DEFINITION. What each row of admin commands does, one definition for each row. -/

namespace Sys2Proof.Machine

/-- CREATE_IO_SQ (R238): Create I/O Submission Queue checks its fields and creates the queue. -/
def execCreateIoSq (n : Nat) (s : State) : Host.Outcome State Fault Refusal :=
  .next (createIoSq n s)

/-- CREATE_IO_CQ (R238): Create I/O Completion Queue checks its fields and creates the queue. -/
def execCreateIoCq (n : Nat) (s : State) : Host.Outcome State Fault Refusal :=
  .next (createIoCq n s)

/-- DELETE_IO_SQ (R294): Delete I/O Submission Queue removes the queue at the fetch arbiter and disposes of its fetched
commands. -/
def execDeleteIoSq (n : Nat) (s : State) : Host.Outcome State Fault Refusal :=
  .next (settleSlots (deleteIoSq n s))

/-- DELETE_IO_SQ_COMPLETE (R294): After all of the deleted queue's command completions have been posted, the Delete completes.
-/
def execDeleteIoSqComplete (n : Nat) (s : State) : Host.Outcome State Fault Refusal :=
  .next (settleSlots (deleteIoSqComplete n s))

/-- DELETE_IO_CQ (R238): Delete I/O Completion Queue removes a completion queue that no SQ is bound to. -/
def execDeleteIoCq (n : Nat) (s : State) : Host.Outcome State Fault Refusal :=
  .next (deleteIoCq n s)

/-- GET_LOG_PAGE (R262): Get Log Page returns a supported log page. -/
def execGetLogPage (n : Nat) (s : State) : Host.Outcome State Fault Refusal :=
  .next (getLogPage n s)

/-- IDENTIFY (R259): Identify returns a supported data structure. -/
def execIdentify (n : Nat) (s : State) : Host.Outcome State Fault Refusal :=
  .next (identify n s)

/-- ABORT (R254): Abort claims its target's slot or takes an abort filter entry. -/
def execAbort (n : Nat) (s : State) : Host.Outcome State Fault Refusal :=
  .next (settleSlots (abort n s))

/-- SET_FEATURES (R261): Set Features sets a supported feature, saving it when SV is set. -/
def execSetFeatures (n : Nat) (s : State) : Host.Outcome State Fault Refusal :=
  .next (setFeatures n s)

/-- GET_FEATURES (R261): Get Features returns a supported feature's values in force. -/
def execGetFeatures (n : Nat) (s : State) : Host.Outcome State Fault Refusal :=
  .next (getFeatures n s)

/-- ASYNC_EVENT_REQUEST (R243): Asynchronous Event Request is held in the function's list of four without a slot. -/
def execAsyncEventRequest (n : Nat) (s : State) : Host.Outcome State Fault Refusal :=
  .next (asyncEventRequest n s)

/-- NAMESPACE_CREATE (R263): Namespace Management create makes a conventional or zoned namespace of one protection class. -/
def execNamespaceCreate (n : Nat) (r : NsReq) (s : State) : Host.Outcome State Fault Refusal :=
  .next (settleSlots (namespaceCreate n r s))

/-- NAMESPACE_DELETE (R259): Namespace Management delete removes a namespace. -/
def execNamespaceDelete (n : Nat) (s : State) : Host.Outcome State Fault Refusal :=
  .next (settleSlots (namespaceDelete n s))

/-- NAMESPACE_ATTACHMENT (R259): Namespace Attachment attaches a namespace to any controller of the subsystem. -/
def execNamespaceAttachment (n : Nat) (ctrls : List Nat) (s : State) : Host.Outcome State Fault Refusal :=
  .next (namespaceAttachment n ctrls s)

/-- FIRMWARE_IMAGE_DOWNLOAD (R259): Firmware Image Download receives part of a signed firmware image. -/
def execFirmwareImageDownload (n image : Nat) (s : State) : Host.Outcome State Fault Refusal :=
  .next (firmwareImageDownload n image s)

/-- FIRMWARE_COMMIT (R259): Firmware Commit with actions 0–2 commits a slot and records it for the next boot. -/
def execFirmwareCommit (n : Nat) (sigOk : Bool) (s : State) : Host.Outcome State Fault Refusal :=
  .next (firmwareCommit n sigOk s)

/-- FIRMWARE_ACTIVATE (R295): Firmware Commit with action 3 stops fetching and lets in-flight commands drain. -/
def execFirmwareActivate (n : Nat) (sigOk : Bool) (s : State) : Host.Outcome State Fault Refusal :=
  .next (settleSlots (firmwareActivate n sigOk s))

/-- FIRMWARE_ACTIVATE_DRAIN_TIMEOUT (R295): At 2.0 s, commands still abortable complete with Command Interrupted. -/
def execFirmwareActivateDrainTimeout (s : State) : Host.Outcome State Fault Refusal :=
  .next (settleSlots (firmwareActivateDrainTimeout s))

/-- FIRMWARE_ACTIVATE_DONE (R295): The new firmware has taken over, the commit completes and fetching resumes. -/
def execFirmwareActivateDone (s : State) : Host.Outcome State Fault Refusal :=
  .next (settleSlots (activateDone s))

/-- DIRECTIVE_SEND (R259): Directive Send applies an Identify or Streams directive. -/
def execDirectiveSend (n : Nat) (s : State) : Host.Outcome State Fault Refusal :=
  .next (directiveSend n s)

/-- DIRECTIVE_RECEIVE (R259): Directive Receive returns Identify or Streams directive data. -/
def execDirectiveReceive (n : Nat) (s : State) : Host.Outcome State Fault Refusal :=
  .next (directiveReceive n s)

/-- FORMAT_NVM (R266): Format NVM replaces a namespace's key, deletes its mapping and applies a new LBA format. -/
def execFormatNvm (n : Nat) (s : State) : Host.Outcome State Fault Refusal :=
  .next (settleSlots (formatNvm n s))

/-- FORMAT_COMPLETE (R266): A running format records its end and completes. -/
def execFormatComplete (nsid : Nat) (s : State) : Host.Outcome State Fault Refusal :=
  .next (settleSlots (formatComplete nsid s))

/-- SANITIZE_EXIT_FAILURE (R267): Sanitize with SANACT 001b exits the failure mode. -/
def execSanitizeExitFailure (n : Nat) (s : State) : Host.Outcome State Fault Refusal :=
  .next (sanitizeExitFailure n s)

/-- SANITIZE_OVERWRITE (R267): Sanitize overwrite crypto-erases and then writes OVRPAT to every slot of every band. -/
def execSanitizeOverwrite (n : Nat) (s : State) : Host.Outcome State Fault Refusal :=
  .next (settleSlots (sanitizeOverwrite n s))

/-- SANITIZE_CRYPTO_ERASE (R267): Sanitize crypto erase replaces every key and clears the map, the dumps and DRAM. -/
def execSanitizeCryptoErase (n : Nat) (s : State) : Host.Outcome State Fault Refusal :=
  .next (settleSlots (sanitizeCryptoErase n s))

/-- SANITIZE_BAND_DONE (R268): Each band of an overwrite completes and its progress is recorded in a brown-out record. -/
def execSanitizeBandDone (fault : Bool) (s : State) : Host.Outcome State Fault Refusal :=
  .next (settleSlots (sanitizeBandDone fault s))

/-- RECORDER_READ (R269): Recorder Read (C2h) returns consistent Event Recorder records from the RAM ring or the persisted log.
-/
def execRecorderRead (n : Nat) (s : State) : Host.Outcome State Fault Refusal :=
  .next (recorderRead n s)

/-- CSR_READ_CMD (R270): CSR Read (C6h) reads one register over the CSR path when unlocked. -/
def execCsrReadCmd (n : Nat) (s : State) : Host.Outcome State Fault Refusal :=
  .next (csrReadCmd n s)

/-- CSR_WRITE_CMD (R270): CSR Write (C5h) writes one register over the CSR path when unlocked. -/
def execCsrWriteCmd (n : Nat) (s : State) : Host.Outcome State Fault Refusal :=
  .next (afterCsr (csrWriteCmd n s))

/-- NONCE_REQUEST (R271): C6h with CDW13 bit 31 returns a fresh 64-bit unlock nonce. -/
def execNonceRequest (n : Nat) (s : State) : Host.Outcome State Fault Refusal :=
  .next (nonceRequest n s)

/-- UNLOCK_TOKEN (R272): C5h with CDW13 bit 31 presents a signed unlock token, unlocking its scope or failing with C0h. -/
def execUnlockToken (n : Nat) (t : List Nat) (s : State) : Host.Outcome State Fault Refusal :=
  .next (unlockToken n t s)

/-- UNLOCK_END (R272): C5h with CDW13 bit 30 ends the unlock. -/
def execUnlockEnd (n : Nat) (s : State) : Host.Outcome State Fault Refusal :=
  .next (unlockEnd n s)

/-- NONCE_EXPIRY (R271): A nonce left unused for 10 min of operating time expires. -/
def execNonceExpiry (s : State) : Host.Outcome State Fault Refusal :=
  .next (nonceExpiry s)

/-- UNLOCK_EXPIRY (R272): An unlock ends when its DURATION of operating time has passed. -/
def execUnlockExpiry (s : State) : Host.Outcome State Fault Refusal :=
  .next (unlockExpiry s)

end Sys2Proof.Machine
end

