-- ==== Sys2Proof/Machine/ExecArrays.lean ====
section
/-! DEFINITION. What each row of the Persistence Array does, one definition for each row. -/

namespace Sys2Proof.Machine

/-- PSA_READ (R334): A READ descriptor reads a PSA page and checks its BCH and CRC. -/
def execPsaRead (x : Nat) (found : List PsaIn) (s : State) : Host.Outcome State Fault Refusal :=
  .next (psaRead x found s)

/-- PSA_PROGRAM (R341): A PROGRAM descriptor programs an erased page by verified pulses, or is refused as not erased. -/
def execPsaProgram (x : Nat) (found : List PsaIn) (s : State) : Host.Outcome State Fault Refusal :=
  .next (psaProgram x found s)

/-- PSA_ERASE (R341): An ERASE descriptor erases a block by verified pulses. -/
def execPsaErase (x : Nat) (s : State) : Host.Outcome State Fault Refusal :=
  .next (psaErase x s)

/-- PSA_BLANK (R342): A BLANK descriptor checks a page at the erase-verify level. -/
def execPsaBlank (x : Nat) (found : List PsaIn) (s : State) : Host.Outcome State Fault Refusal :=
  .next (psaBlank x found s)

/-- PSA_MARGIN_READ (R345): A MARGIN_READ descriptor reads a page at a shifted level. -/
def execPsaMarginRead (x : Nat) (found : List PsaIn) (s : State) : Host.Outcome State Fault Refusal :=
  .next (psaMarginRead x found s)

/-- PSA_FRONTIER_LOAD (R343): A FRONTIER_LOAD descriptor loads every block's U and F, only as the first such descriptor since
reset. -/
def execPsaFrontierLoad (x : Nat) (s : State) : Host.Outcome State Fault Refusal :=
  .next (psaFrontierLoad x s)

/-- PSA_PULSE_END (R339): A program or erase pulse and its verify end, stopping at the first pass or at the pulse limit. -/
def execPsaPulseEnd (x : Nat) (pass : Bool) (s : State) : Host.Outcome State Fault Refusal :=
  .next (psaPulseEnd x pass s)

/-- PSA_DIE_READY (R349): A die's ready indication ends its operation, and the descriptor's status is written. -/
def execPsaDieReady (grp : Nat) (s : State) : Host.Outcome State Fault Refusal :=
  .next (psaDieReady grp s)

/-- PSA_DIE_TIMEOUT (R349): A die operation's timer expires, so the PCT reads status, restarts the timer once, or ends with
DIE_FAULT. -/
def execPsaDieTimeout (grp : Nat) (done : Bool) (s : State) : Host.Outcome State Fault Refusal :=
  .next (psaDieTimeout grp done s)

/-- BROWN_OUT_TRIP (R344): The PSA brown-out detector trips, stopping new brown-out pulses and ending queued brown-out
operations. -/
def execBrownOutTrip (s : State) : Host.Outcome State Fault Refusal :=
  .next (brownOutTrip s)

/-- PCT_SUSPEND (R347): PCT_SUSP.SUSPEND suspends the die's program or erase, or misses if the operation has ended. -/
def execPctSuspend (d : Nat) (s : State) : Host.Outcome State Fault Refusal :=
  .next (pctSuspend d s)

/-- PCT_RESUME (R347): PCT_SUSP.RESUME continues the suspended operation. -/
def execPctResume (d : Nat) (s : State) : Host.Outcome State Fault Refusal :=
  .next (pctResume d s)

/-- PCT_CLR_CNT (R359): Writing 1 to PCT_CLR.CNT clears the PCT counters. -/
def execPctClrCnt (s : State) : Host.Outcome State Fault Refusal :=
  .next (pctClrCnt s)

end Sys2Proof.Machine
end

