-- ==== Sys2Proof/Machine/ExecBuffers.lean ====
section
/-! DEFINITION. What each row of dumps, buffer memory, MPC and DMA does, one definition for each row. -/

namespace Sys2Proof.Machine

/-- CLOUDBURST_TRIGGER (R296): PFAIL_N falling, VIN below its monitor or VM below PF starts Cloudburst: stop fetch, drop WG,
rectify, unload and dump. -/
def execCloudburstTrigger (x : BurstIn) (s : State) : Host.Outcome State Fault Refusal :=
  .next (cloudburstTrigger x s)

/-- CLOUDBURST_END (R297): The dump's completion marker is written and the post-dump device reset follows. -/
def execCloudburstEnd (b : BootIn) (s : State) : Host.Outcome State Fault Refusal :=
  .next (cloudburstEnd b s)

/-- PRECAUTIONARY_DUMP_END (R289): A precautionary dump completes and its data counts as persistent. -/
def execPrecautionaryDumpEnd (cost : Nat) (s : State) : Host.Outcome State Fault Refusal :=
  .next (settleSlots (precautionaryDumpEnd cost s))

/-- BUFFER_READ (R307): A buffer read checks parity, decodes the page when needed, and writes a corrected page back. -/
def execBufferRead (n off len : Nat) (use : PageUse) (requester : Nat) (e : PageErr) (s : State) :
    Host.Outcome State Fault Refusal :=
  .next (withFatal (readBuffer n off len use requester e) s)

/-- BUFFER_WRITE (R306): A buffer write stores a whole page with its codes, or a partial write that marks the page stale. -/
def execBufferWrite (n : Nat) (bytes : List (Nat × Byte)) (requester : Nat) (s : State) : Host.Outcome State Fault Refusal :=
  .next (bufferWrite n bytes requester s)

/-- DRIZZLE_RECOMPUTE (R309): Drizzle recomputes a stale page's strong check, committing only if no write reached the page. -/
def execDrizzleRecompute (now : Option Nat) (raced : Bool) (e : PageErr) (s : State) : Host.Outcome State Fault Refusal :=
  .next (withFatal (drizzleRecompute now raced e) s)

/-- DRIZZLE_SCRUB (R309): Drizzle reads and decodes the next buffer page of its pass and writes back a corrected page. -/
def execDrizzleScrub (use : PageUse) (raced : Bool) (e : PageErr) (s : State) : Host.Outcome State Fault Refusal :=
  .next (withFatal (drizzleScrub use raced e) s)

/-- DQS_OSC_CHECK (R304): Every 100 ms the BMC reads each channel's DQS oscillator and schedules a retrain on a drift above 5 %.
-/
def execDqsOscCheck (drifted : Nat) (s : State) : Host.Outcome State Fault Refusal :=
  .next (dqsOscCheck drifted s)

/-- DRAM_RETRAIN (R304): A channel's DQ delays are retrained within refresh windows. -/
def execDramRetrain (ch : Nat) (ok : Bool) (s : State) : Host.Outcome State Fault Refusal :=
  .next (withFatal (dramRetrain ch ok) s)

/-- MPC_REQUEST (R315): A Map Cache request hits, misses and allocates, or is served from the eviction buffer. -/
def execMpcRequest (line : Nat) (w : List (Nat × Byte)) (issued : Bool) (x : MpcIn) (s : State) :
    Host.Outcome State Fault Refusal :=
  .next (mpcRequest line w issued x s)

/-- EVICTION_WRITEBACK_DONE (R317): A dirty line's writeback completes and frees its eviction buffer entry. -/
def execEvictionWritebackDone (line : Nat) (s : State) : Host.Outcome State Fault Refusal :=
  .next (evictionWritebackDone line s)

/-- MPC_LOCK (R316): MPC_LOCK_CMD with OP LOCK fills and locks a line, or is refused when the set holds 4 locked ways. -/
def execMpcLock (s : State) : Host.Outcome State Fault Refusal :=
  .next (mpcLock s)

/-- MPC_UNLOCK (R316): MPC_LOCK_CMD with OP UNLOCK unlocks a line, or is refused if it is not locked. -/
def execMpcUnlock (s : State) : Host.Outcome State Fault Refusal :=
  .next (mpcUnlock s)

/-- MPC_CLEAN (R318): Range operation CLEAN starts writing back the dirty lines of the range. -/
def execMpcClean (s : State) : Host.Outcome State Fault Refusal :=
  .next (mpcClean s)

/-- MPC_INVALIDATE (R318): Range operation INVALIDATE starts discarding unlocked lines of the range. -/
def execMpcInvalidate (s : State) : Host.Outcome State Fault Refusal :=
  .next (mpcInvalidate s)

/-- MPC_CLEAN_INVALIDATE (R318): Range operation CLEAN_INVALIDATE starts writing back and discarding the range's lines. -/
def execMpcCleanInvalidate (s : State) : Host.Outcome State Fault Refusal :=
  .next (mpcCleanInvalidate s)

/-- MPC_RANGE_END (R318): The range engine finishes its sets and waits, and BUSY clears. -/
def execMpcRangeEnd (s : State) : Host.Outcome State Fault Refusal :=
  .next (mpcRangeEnd s)

/-- DMA_LOAD (R324): DMA_CH_CMD.LOAD copies the staged descriptor into the channel's shadow set, or is ignored or refused. -/
def execDmaLoad (s : State) : Host.Outcome State Fault Refusal :=
  .next (dmaLoad s)

/-- DMA_STOP (R325): DMA_CH_CMD.STOP stops the channel at its next descriptor boundary. -/
def execDmaStop (s : State) : Host.Outcome State Fault Refusal :=
  .next (settleSlots (dmaStop s))

/-- DMA_CLEAR (R325): DMA_CH_CMD.CLEAR returns a stopped channel to idle and clears its error. -/
def execDmaClear (s : State) : Host.Outcome State Fault Refusal :=
  .next (settleSlots (dmaClear s))

/-- DMA_DESCRIPTOR_DONE (R324): An active descriptor finishes, and a valid shadow is promoted with no gap. -/
def execDmaDescriptorDone (c : Nat) (s : State) : Host.Outcome State Fault Refusal :=
  .next (settleSlots (dmaDescriptorDone c s))

/-- DMA_READ_REQUEST (R327): The Downstream Engine issues a read once window space and a tag are free. -/
def execDmaReadRequest (c mrrs : Nat) (s : State) : Host.Outcome State Fault Refusal :=
  .next (dmaReadRequest c mrrs s)

/-- DMA_READ_COMPLETION (R327): A read completion's data is placed by address in the Staging Buffer. -/
def execDmaReadCompletion (c at0 : Nat) (bytes : List Byte) (s : State) : Host.Outcome State Fault Refusal :=
  .next (settleSlots (readCompletion c at0 bytes s))

/-- ORDERING_READ_COMPLETE (R326): The zero-length read after a LAST upstream descriptor completes, which lets its completion
entry be written. -/
def execOrderingReadComplete (c : Nat) (ok : Bool) (s : State) : Host.Outcome State Fault Refusal :=
  .next (settleSlots (orderingReadComplete c ok s))

/-- BMC_CLR_ERR (R332): Writing 1 to BMC_CLR.ERR clears the last-error registers. -/
def execBmcClrErr (s : State) : Host.Outcome State Fault Refusal :=
  .next (bmcClrErr s)

/-- BMC_CLR_CNT (R332): Writing 1 to BMC_CLR.CNT clears the BMC counters. -/
def execBmcClrCnt (s : State) : Host.Outcome State Fault Refusal :=
  .next (bmcClrCnt s)

/-- MPC_CLR_CNT (R332): Writing 1 to MPC_CLR.CNT clears the MPC counters. -/
def execMpcClrCnt (s : State) : Host.Outcome State Fault Refusal :=
  .next (mpcClrCnt s)

/-- DMA_CLR_CNT (R332): Writing 1 to DMA_CLR.CNT clears DMA_ORDRD and DMA_ERRCNT. -/
def execDmaClrCnt (s : State) : Host.Outcome State Fault Refusal :=
  .next (dmaClrCnt s)

end Sys2Proof.Machine
end

