-- ==== Sys2Proof/Machine/ExecCarillon.lean ====
section
/-! DEFINITION. What each row of Carillon does, one definition for each row. -/

namespace Sys2Proof.Machine

/-- GRANT_REQUEST (R434): A received REQUEST is queued, granted, answered with QUEUED or DENY by a granter, or repeated. -/
def execGrantRequest (h : ClpHdr) (m : PowerMsg) (s : State) : Host.Outcome State Fault Refusal :=
  .next (grantRequest h m s)

/-- GRANT (R435): A received GRANT for this node lets the device issue CMD START. -/
def execGrant (h : ClpHdr) (m : PowerMsg) (s : State) : Host.Outcome State Fault Refusal :=
  .next (grant h m s)

/-- GRANT_QUEUED (R435): A received QUEUED for this node arms a 5 s repeat timer. -/
def execGrantQueued (h : ClpHdr) (m : PowerMsg) (s : State) : Host.Outcome State Fault Refusal :=
  .next (grantQueued h m s)

/-- GRANT_DENY (R435): A received DENY starts the node's backoff before an ungranted start. -/
def execGrantDeny (h : ClpHdr) (m : PowerMsg) (s : State) : Host.Outcome State Fault Refusal :=
  .next (grantDeny h m s)

/-- GRANT_RELEASE (R434): A received RELEASE ends the subject's grant at the granter. -/
def execGrantRelease (h : ClpHdr) (m : PowerMsg) (s : State) : Host.Outcome State Fault Refusal :=
  .next (grantRelease h m s)

/-- SEEK_SLOT (R438): A received SEEK_SLOT sets the member's seek window in PLE_VIB_WIN. -/
def execSeekSlot (h : ClpHdr) (m : SeekSlotMsg) (s : State) : Host.Outcome State Fault Refusal :=
  .next (seekSlot h m s)

/-- CLP_PHASE (R440): A received PHASE gives the member's spindle phase reference. -/
def execClpPhase (h : ClpHdr) (m : PhaseMsg) (s : State) : Host.Outcome State Fault Refusal :=
  .next (clpPhase h m s)

/-- CLP_HEARTBEAT (R441): A received Carillon HEARTBEAT updates sled membership and the pair evidence, including YIELD and SOLO.
-/
def execClpHeartbeat (h : ClpHdr) (b : ClpBeat) (s : State) : Host.Outcome State Fault Refusal :=
  .next (settle (clpHeartbeat h b s))

/-- CLP_DIALECT (R432): A received DIALECT reports a node's dialect range and product. -/
def execClpDialect (h : ClpHdr) (d : DialectMsg) (s : State) : Host.Outcome State Fault Refusal :=
  .next (clpDialect h d s)

/-- TOCSIN (R442): A received TOCSIN is recorded, ends the subject's grants and removes it from the sled table. -/
def execTocsin (h : ClpHdr) (m : TocsinMsg) (s : State) : Host.Outcome State Fault Refusal :=
  .next (settle (tocsinIn h m s))

/-- NEIGHBOR_SOLICITATION (R427): An IPv6 Neighbor Solicitation for the device's link-local address is answered. -/
def execNeighborSolicitation (target : Nat) (s : State) : Host.Outcome State Fault Refusal :=
  .next (neighborSolicitation target s)

/-- CLP_TRANSMIT (R426): At a transmit opportunity the CLP sends the next frame, ALARM first, with counter and tag. -/
def execClpTransmit (collisions : Nat) (s : State) : Host.Outcome State Fault Refusal :=
  .next (clpTransmit collisions s)

/-- PLCA_FALLBACK (R425): Beacons stop, PLCA status goes false and the PHY falls back to CSMA/CD. -/
def execPlcaFallback (s : State) : Host.Outcome State Fault Refusal :=
  .next (plcaFallback s)

/-- PLCA_BEACON (R425): The first beacon received returns PLCA status to true. -/
def execPlcaBeacon (s : State) : Host.Outcome State Fault Refusal :=
  .next (plcaBeacon s)

/-- XCHG_ARM (R436): CLP_XCHG.GO arms an exchange slot's timer for a REQID. -/
def execXchgArm (n tmo reqid : Nat) (s : State) : Host.Outcome State Fault Refusal :=
  .next (xchgArm n tmo reqid s)

/-- XCHG_EXPIRY (R436): An exchange timer wins against its response, sets EXPIRED, and a later response is discarded as late. -/
def execXchgExpiry (n : Nat) (s : State) : Host.Outcome State Fault Refusal :=
  .next (xchgExpiry n s)

/-- SPIN_START_NEEDED (R435): A needed spindle start sends a REQUEST with a new REQID and arms the exchange timer. -/
def execSpinStartNeeded (s : State) : Host.Outcome State Fault Refusal :=
  .next (spinStartNeeded s)

/-- SPIN_BACKOFF_END (R435): After (NODE mod 16) × 2.5 s of backoff the device issues an ungranted CMD START. -/
def execSpinBackoffEnd (s : State) : Host.Outcome State Fault Refusal :=
  .next (spinBackoffEnd s)

/-- GRANT_EXPIRY (R434): A grant ends when its duration has passed. -/
def execGrantExpiry (subject reqid : Nat) (s : State) : Host.Outcome State Fault Refusal :=
  .next (grantExpiry subject reqid s)

/-- GRANT_QUEUE_LAPSE (R434): A queued request not repeated within 15 s is dropped. -/
def execGrantQueueLapse (subject reqid : Nat) (s : State) : Host.Outcome State Fault Refusal :=
  .next (grantQueueLapse subject reqid s)

/-- SEEK_SLOT_SILENCE (R439): No SEEK_SLOT for 3 s closes the window and may make the member the sled master. -/
def execSeekSlotSilence (s : State) : Host.Outcome State Fault Refusal :=
  .next (seekSlotSilence s)

/-- TOCSIN_REPEAT (R442): Each TOCSIN event is sent again 10 ms apart, three times in all. -/
def execTocsinRepeat (event : Nat) (s : State) : Host.Outcome State Fault Refusal :=
  .next (tocsinRepeat event s)

/-- CLP_CLR_CNT (R447): Writing 1 to CLP_CLR.CNT clears the CLP counters. -/
def execClpClrCnt (s : State) : Host.Outcome State Fault Refusal :=
  .next (clpClrCnt s)

end Sys2Proof.Machine
end

