-- ==== Sys2Proof/Machine/ExecFabric.lean ====
section
/-! DEFINITION. What each row of CSR access, the Pace Monitor and the fabric does, one definition for each row. -/

namespace Sys2Proof.Machine

/-- CSR_WRITE (R26): A 32-bit write, from any CSR path, to a register that has no row of its own, applied atomically in the
arbiter's grant order. -/
def execCsrWrite (bytes a : Nat) (v : Word) (s : State) : Host.Outcome State Fault Refusal :=
  .next (afterCsr (csrAccess bytes a v s))

/-- PACE_WINDOW_END (R18): At the end of each 1 µs window the Pace Monitor replaces SYS_PACE_NOW as a whole and updates
SYS_PACE_MIN. -/
def execPaceWindowEnd (tokens : Nat) (s : State) : Host.Outcome State Fault Refusal :=
  .next (afterServo (paceWindowEnd tokens s))

/-- FAB_CLR_PACEMIN (R27): Writing 1 to SYS_FAB_CLR.PACEMIN sets SYS_PACE_MIN to 0xFFFF. -/
def execFabClrPacemin (s : State) : Host.Outcome State Fault Refusal :=
  .next (fabClrPacemin s)

/-- FAB_CLR_DEC (R27): Writing 1 to SYS_FAB_CLR.DEC clears the decode error count and the recorded address. -/
def execFabClrDec (s : State) : Host.Outcome State Fault Refusal :=
  .next (fabClrDec s)

/-- FAB_CLR_ARB (R27): Writing 1 to SYS_FAB_CLR.ARB clears SYS_ARB_SLOW. -/
def execFabClrArb (s : State) : Host.Outcome State Fault Refusal :=
  .next (fabClrArb s)

/-- CBP_FAULT (R15): An island-side CBP underflow or overflow sets the island's SYS_CBP_STAT bit, raises a machine check, drops
WG and AG on a Media Timing Island and fails the transfer as retryable. -/
def execCbpFault (island : Fin 9) (s : State) : Host.Outcome State Fault Refusal :=
  .next (settle (cbpFault island s))

end Sys2Proof.Machine
end

