-- ==== Sys2Proof/Machine/ExecIoCmd.lean ====
section
/-! DEFINITION. What each row of I/O commands, and resets of controllers does, one definition for each row. -/

namespace Sys2Proof.Machine

/-- FLUSH (R290): Flush completes with success once it has passed its checks. -/
def execFlush (n : Nat) (s : State) : Host.Outcome State Fault Refusal :=
  .next (settleSlots (flush n s))

/-- WRITE (R277): Write transfers its data into DRAM, journals its map change and waits for acceptance. -/
def execWrite (n : Nat) (data : List Nat) (s : State) : Host.Outcome State Fault Refusal :=
  .next (settleSlots (write n data s))

/-- READ (R282): Read returns each sector from DRAM, from media or as zeros, through DMA to host memory. -/
def execRead (n : Nat) (s : State) : Host.Outcome State Fault Refusal :=
  .next (settleSlots (read n s))

/-- WRITE_ZEROES (R260): Write Zeroes deallocates the range in a conventional namespace or writes zeroed sectors at a zone's
write pointer. -/
def execWriteZeroes (n : Nat) (s : State) : Host.Outcome State Fault Refusal :=
  .next (settleSlots (writeZeroes n s))

/-- DATASET_MANAGEMENT (R199): Dataset Management deallocates ranges and records Access Frequency. -/
def execDatasetManagement (n : Nat) (ranges : List DsmRange) (s : State) : Host.Outcome State Fault Refusal :=
  .next (settleSlots (datasetManagement n ranges s))

/-- VERIFY (R260): Verify reads its range through the retry ladder and tag check without transfer. -/
def execVerify (n : Nat) (s : State) : Host.Outcome State Fault Refusal :=
  .next (settleSlots (verify n s))

/-- ZONE_OPEN (R260): Zone Management Send Open opens a zone. -/
def execZoneOpen (n : Nat) (s : State) : Host.Outcome State Fault Refusal :=
  .next (settleSlots (zoneOpen n s))

/-- ZONE_CLOSE (R260): Zone Management Send Close closes a zone. -/
def execZoneClose (n : Nat) (s : State) : Host.Outcome State Fault Refusal :=
  .next (settleSlots (zoneClose n s))

/-- ZONE_FINISH (R195): Zone Finish closes the zone's last Stripes with fill and turns the band remainder into a tail. -/
def execZoneFinish (n : Nat) (s : State) : Host.Outcome State Fault Refusal :=
  .next (settleSlots (zoneFinish n s))

/-- ZONE_RESET (R196): Zone Reset drops the zone's tail echoes and overrides and releases its binding. -/
def execZoneReset (n : Nat) (s : State) : Host.Outcome State Fault Refusal :=
  .next (settleSlots (zoneReset n s))

/-- ZONE_RESET_COMPLETE (R196): A zone reset completes after every read of the zone fetched before it has completed. -/
def execZoneResetComplete (n : Nat) (s : State) : Host.Outcome State Fault Refusal :=
  .next (settleSlots (zoneResetComplete n s))

/-- ZONE_OFFLINE (R260): Zone Management Send Offline takes a zone offline. -/
def execZoneOffline (n : Nat) (s : State) : Host.Outcome State Fault Refusal :=
  .next (settleSlots (zoneOffline n s))

/-- REPORT_ZONES (R260): Zone Management Receive returns a Report Zones structure. -/
def execReportZones (n : Nat) (s : State) : Host.Outcome State Fault Refusal :=
  .next (settleSlots (reportZones n s))

/-- ZONE_APPEND (R281): Zone Append takes the zone's write pointer as its LBA at its turn and returns it at completion. -/
def execZoneAppend (n : Nat) (data : List Nat) (s : State) : Host.Outcome State Fault Refusal :=
  .next (settleSlots (zoneAppend n data s))

/-- CONTROLLER_RESET (R292): A CC.EN clear or CC.SHN write stops the function's fetching, withdraws its reads and disposes of
its writes. -/
def execControllerReset (f : Nat) (shn : Bool) (s : State) : Host.Outcome State Fault Refusal :=
  .next (settleSlots (controllerReset f shn s))

/-- FUNCTION_LEVEL_RESET (R291): A Function Level Reset is a controller reset of one function. -/
def execFunctionLevelReset (f : Nat) (s : State) : Host.Outcome State Fault Refusal :=
  .next (settleSlots (functionLevelReset f s))

/-- CONTROLLER_RESET_SLOTS_FREE (R292): When the reset function's slots are free, log C1h is written and a vendor asynchronous
event is queued. -/
def execControllerResetSlotsFree (f : Nat) (s : State) : Host.Outcome State Fault Refusal :=
  .next (settleSlots (controllerResetSlotsFree f s))

/-- CONTROLLER_ENABLE (R236): A CC.EN write of 1 enables the controller with its command set selection. -/
def execControllerEnable (f : Nat) (cc : Word) (asqs acqs width speed : Nat) (s : State) : Host.Outcome State Fault Refusal :=
  .next (settleSlots (controllerEnable f cc asqs acqs width speed s))

/-- HQE_CLR_CNT (R275): Writing 1 to HQE_CLR.CNT clears the HQE counters. -/
def execHqeClrCnt (s : State) : Host.Outcome State Fault Refusal :=
  .next (hqeClrCnt s)

end Sys2Proof.Machine
end

