-- ==== Sys2Proof/Machine/ExecLink.lean ====
section
/-! DEFINITION. What each row of the Tandem Link does, one definition for each row. -/

namespace Sys2Proof.Machine

/-- HELLO (R416): A received HELLO sets the link version, or refuses the pair, or is handled as a link fault. -/
def execHello (h : FlitHdr) (x : HelloIn) (s : State) : Host.Outcome State Fault Refusal :=
  .next (settle (hello h x s))

/-- TDL_HEARTBEAT (R406): A received Tandem Link HEARTBEAT updates the partner's serving flag, ownership and applied MSEQ. -/
def execTdlHeartbeat (h : FlitHdr) (b : BeatIn) (s : State) : Host.Outcome State Fault Refusal :=
  .next (settle (tdlHeartbeat h b s))

/-- TDL_ACK (R403): A received ACK covers mirror records up to its MSEQ, or is discarded as late. -/
def execTdlAck (h : FlitHdr) (mseq : Nat) (late : Bool) (s : State) : Host.Outcome State Fault Refusal :=
  .next (settle (tdlAck h mseq late s))

/-- MEDIA_REQ (R404): A received MEDIA_REQ enters a remote media operation as a candidate on the owning device. -/
def execMediaReq (h : FlitHdr) (r : MediaReq) (s : State) : Host.Outcome State Fault Refusal :=
  .next (settle (mediaReq h r s))

/-- MEDIA_CANCEL (R404): A received MEDIA_CANCEL withdraws a remote candidate under R227. -/
def execMediaCancel (h : FlitHdr) (tag : Nat) (s : State) : Host.Outcome State Fault Refusal :=
  .next (settle (mediaCancel h tag s))

/-- MEDIA_END (R404): A received MEDIA_END reports a remote job's end or cancellation. -/
def execMediaEnd (h : FlitHdr) (tag cls : Nat) (s : State) : Host.Outcome State Fault Refusal :=
  .next (settle (mediaEnd h tag cls s))

/-- TDL_CLAIM (R404): A received CLAIM is decided by the serving device's claim arbiter. -/
def execTdlClaim (h : FlitHdr) (tag claim : Nat) (s : State) : Host.Outcome State Fault Refusal :=
  .next (settle (tdlClaim h tag claim s))

/-- CLAIM_REPLY (R404): A received CLAIM_REPLY tells the owning scheduler whether its claim won. -/
def execClaimReply (h : FlitHdr) (tag : Nat) (won : Bool) (s : State) : Host.Outcome State Fault Refusal :=
  .next (settle (claimReply h tag won s))

/-- HANDOFF_REQ (R412): A received HANDOFF_REQ starts release of the named actuators. -/
def execHandoffReq (h : FlitHdr) (acts : Nat) (spindle : Bool) (s : State) : Host.Outcome State Fault Refusal :=
  .next (settle (handoffReq h acts spindle s))

/-- HANDOFF_STATE (R412): A received HANDOFF_STATE gives the targets, and the taking device claims the channels. -/
def execHandoffState (h : FlitHdr) (targets : List (Fin 4 × Nat × Nat × Nat)) (spindle : Bool) (s : State) :
    Host.Outcome State Fault Refusal :=
  .next (settle (handoffState h targets spindle s))

/-- HANDOFF_DONE (R412): A received HANDOFF_DONE lets the serving device re-enter the returned candidates on the new owner. -/
def execHandoffDone (h : FlitHdr) (s : State) : Host.Outcome State Fault Refusal :=
  .next (settle (handoffDone h s))

/-- SERVE_XFER (R415): A received SERVE_XFER makes the arriving device Optimized once its applied MSEQ reaches the given value.
-/
def execServeXfer (h : FlitHdr) (mseq : Nat) (s : State) : Host.Outcome State Fault Refusal :=
  .next (settle (serveXfer h mseq s))

/-- TDL_FAULT (R407): A received FAULT classifies the partner as faulted and starts failover. -/
def execTdlFault (h : FlitHdr) (s : State) : Host.Outcome State Fault Refusal :=
  .next (settle (tdlFault h s))

/-- TDL_SLOT (R402): A received SLOT record is stored in the slot-record table and acknowledged. -/
def execTdlSlot (h : FlitHdr) (mseq : Nat) (r : SlotRec) (s : State) : Host.Outcome State Fault Refusal :=
  .next (settle (tdlSlot h mseq r s))

/-- TDL_DATA (R402): A received DATA record is written to the protected region and counted in holdings. -/
def execTdlData (h : FlitHdr) (mseq slot key v need : Nat) (s : State) : Host.Outcome State Fault Refusal :=
  .next (settle (tdlData h mseq slot key v need s))

/-- TDL_JOURNAL (R402): A received JOURNAL record enters the journal buffer and is applied once its range is complete. -/
def execTdlJournal (h : FlitHdr) (mseq seq slot : Nat) (final : Bool) (ops : List MapOp) (assigned : Option Nat) (s : State) :
    Host.Outcome State Fault Refusal :=
  .next (settle (tdlJournal h mseq seq slot final ops assigned s))

/-- COMMIT_DONE (R402): A received COMMIT_DONE marks a mirrored command's completion as committed. -/
def execCommitDone (h : FlitHdr) (mseq slot cid : Nat) (s : State) : Host.Outcome State Fault Refusal :=
  .next (settle (commitDone h mseq slot cid s))

/-- TDL_RELEASE (R403): A received RELEASE drops mirrored data whose new location is journaled. -/
def execTdlRelease (h : FlitHdr) (mseq : Nat) (keys : List Nat) (s : State) : Host.Outcome State Fault Refusal :=
  .next (settle (tdlRelease h mseq keys s))

/-- READ_DATA (R404): A received READ_DATA places remote read sectors in the serving device's Staging Buffer. -/
def execReadData (h : FlitHdr) (tag : Nat) (vals : List Nat) (s : State) : Host.Outcome State Fault Refusal :=
  .next (settle (readData h tag vals s))

/-- FLIT_REPLAY_TIMEOUT (R398): A flit unacknowledged for 4 µs is resent from ACKSEQ + 1. -/
def execFlitReplayTimeout (s : State) : Host.Outcome State Fault Refusal :=
  .next (settle (flitReplayTimeout s))

/-- TDL_RETRAIN_DONE (R398): A link retrain completes and mirror records are resent from the partner's applied MSEQ. -/
def execTdlRetrainDone (s : State) : Host.Outcome State Fault Refusal :=
  .next (settle (tdlRetrainDone s))

/-- MIRROR_RESEND_TIMEOUT (R403): A mirror record unacknowledged for 50 µs resends every record from the oldest unacknowledged
one. -/
def execMirrorResendTimeout (s : State) : Host.Outcome State Fault Refusal :=
  .next (settle (mirrorResendTimeout s))

/-- HEARTBEAT_SEND_TICK (R406): Every 1 ms the TDL hardware sends HEARTBEAT without core action. -/
def execHeartbeatSendTick (s : State) : Host.Outcome State Fault Refusal :=
  .next (settle (heartbeatSendTick s))

/-- TDL_SILENCE (R407): No valid flit for TMO clears PAIR_OK and classifies the partner. -/
def execTdlSilence (s : State) : Host.Outcome State Fault Refusal :=
  .next (settle (tdlSilence s))

/-- CARILLON_ABSENCE (R407): No partner Carillon heartbeat for CTMO, with the TDL silent, declares a partner fault. -/
def execCarillonAbsence (s : State) : Host.Outcome State Fault Refusal :=
  .next (settle (carillonAbsence s))

/-- HANDOFF_ARM (R412): TDL_HANDOFF.ARM arms the handoff start or stop for the actuators in ACT. -/
def execHandoffArm (s : State) : Host.Outcome State Fault Refusal :=
  .next (settle (handoffArm s))

/-- HANDOFF_DISARM (R412): TDL_HANDOFF.DISARM clears ARM. -/
def execHandoffDisarm (s : State) : Host.Outcome State Fault Refusal :=
  .next (settle (handoffDisarm s))

/-- HANDOFF_JOB_TIMEOUT (R412): A running job that has not ended within 100 ms ends the handoff, and the releasing device keeps
the actuators. -/
def execHandoffJobTimeout (s : State) : Host.Outcome State Fault Refusal :=
  .next (settle (handoffJobTimeout s))

/-- SERVE_XFER_DRAIN_TIMEOUT (R415): Commands still in flight 2 s into a serving transfer are interrupted as under R295. -/
def execServeXferDrainTimeout (s : State) : Host.Outcome State Fault Refusal :=
  .next (settle (serveXferDrainTimeout s))

/-- HELLO_WAIT_TIMEOUT (R420): No HELLO within 5 s of admin ready makes the device classify its partner and act alone or yield.
-/
def execHelloWaitTimeout (s : State) : Host.Outcome State Fault Refusal :=
  .next (settle (helloWaitTimeout s))

/-- TDL_CLR_CNT (R422): Writing 1 to TDL_CLR.CNT clears the TDL counters. -/
def execTdlClrCnt (s : State) : Host.Outcome State Fault Refusal :=
  .next (tdlClrCnt s)

end Sys2Proof.Machine
end

