-- ==== Sys2Proof/Machine/ExecMedia.lean ====
section
/-! DEFINITION. What each row of media format, read and write channel, assist does, one definition for each row. -/

namespace Sys2Proof.Machine

/-- SYNC_MARK_FOUND (R58): A sync-mark candidate within the window matches SYNC_PAT within TOL bits, is taken as the mark and
stops the search. -/
def execSyncMarkFound (k : Fin 4) (slot : Nat) (pos : Int) (bits : Nat) (s : State) : Host.Outcome State Fault Refusal :=
  .next (onMc k (syncMarkFound k slot pos bits) s)

/-- SYNC_WINDOW_CLOSE (R59): The sync search window closes, and with no mark found the sector proceeds as a missed mark. -/
def execSyncWindowClose (k : Fin 4) (slot : Nat) (lateMark : Bool) (runs : List SampleRun) (s : State) :
    Host.Outcome State Fault Refusal :=
  .next (onMc k (syncWindowClose k slot lateMark runs) s)

/-- TIMED_SYNC_END (R61): A timed-sync search ends at its first converged attempt with a correct tag or after its last offset,
counting MC_TIMED_OK or MC_TIMED_FAIL. -/
def execTimedSyncEnd (k : Fin 4) (att : List (Int × Quad Reading)) (s : State) : Host.Outcome State Fault Refusal :=
  .next (settle (onMc k (searchEnd k true att) s))

/-- REALIGN_END (R62): A realignment search ends in success or failure, is counted, and is recorded in MC_RECOV_LAST and
MC_RECOV_TRACK. -/
def execRealignEnd (k : Fin 4) (att : List (Int × Quad Reading)) (s : State) : Host.Outcome State Fault Refusal :=
  .next (settle (onMc k (searchEnd k false att) s))

/-- DECODE_COMPLETE (R82): A streaming LDPC decode ends at a zero syndrome or at SITER iterations and reports convergence,
iterations and corrected bits. -/
def execDecodeComplete (k : Fin 4) (d : DecodeIn) (s : State) : Host.Outcome State Fault Refusal :=
  .next (onMc k (decodeComplete k d) s)

/-- STRIPE_SOLVE_END (R57): A Stripe solve ends, rebuilding up to p erasures checked by the spare syndromes, or failing and
counting MC_STRIPE_FAIL. -/
def execStripeSolveEnd (k : Fin 4) (s : State) : Host.Outcome State Fault Refusal :=
  .next (settle (onMc k (stripeSolveEnd k) s))

/-- MC_FMT_CLR_REC (R72): Writing 1 to MC_FMT_CLR.REC clears the recovery and tag-difference records. -/
def execMcFmtClrRec (k : Fin 4) (s : State) : Host.Outcome State Fault Refusal :=
  .next (onMc k (clrFmtRec k) s)

/-- MC_FMT_CLR_CNT (R72): Writing 1 to MC_FMT_CLR.CNT clears the format and recovery counters. -/
def execMcFmtClrCnt (k : Fin 4) (s : State) : Host.Outcome State Fault Refusal :=
  .next (onMc k (clrFmtCnt k) s)

/-- WEDGE_MARK (R86): A wedge timing mark found within its window corrects the synthesiser phase and hands the position sample
to the SCE. -/
def execWedgeMark (k : Fin 4) (x : WedgeIn) (s : State) : Host.Outcome State Fault Refusal :=
  .next (onMc k (wedgeMark k x) s)

/-- MARK_WINDOW_CLOSE (R86): The mark window closes without a usable mark, so the wedge is coasted and the SCE is told that its
sample is missing. -/
def execMarkWindowClose (k : Fin 4) (late : Bool) (atest : Nat) (s : State) : Host.Outcome State Fault Refusal :=
  .next (settle (onMc k (markWindowClose k late atest) s))

/-- ADC_MASK_APPLY (R79): Writing MC_ADC_STAT.APPLY checks both pending masks, rejecting a bad mask or starting its exchanges.
-/
def execAdcMaskApply (k : Fin 4) (s : State) : Host.Outcome State Fault Refusal :=
  .next (onMc k (adcMaskApply k) s)

/-- HFLT_FALL (R100): HFLT_N falling drops WG and AG within 20 ns and sets MC_HIF_STAT.HFLT. -/
def execHfltFall (k : Fin 4) (stays : Bool) (s : State) : Host.Outcome State Fault Refusal :=
  .next (settle (onMc k (hfltFall k stays) s))

/-- HIF_FRAME_END (R101): A preamp serial frame ends, and its status or returned CRC is taken. -/
def execHifFrameEnd (k : Fin 4) (r : HifResp) (s : State) : Host.Outcome State Fault Refusal :=
  .next (settle (onMc k (hifFrameEnd k r) s))

/-- HIF_FIRMWARE_FRAME (R104): Writing MC_HIF_CMD.GO queues a firmware read or write frame to the preamp. -/
def execHifFirmwareFrame (k : Fin 4) (w : Word) (s : State) : Host.Outcome State Fault Refusal :=
  .next (onMc k (hifFirmwareFrame k w) s)

/-- HIF_OWN_WRITE (R98): A write of MC_HIF_CTL.OWN sets ownership of the preamp lines and releases any held frames when OWN
becomes 1. -/
def execHifOwnWrite (k : Fin 4) (b : Bool) (s : State) : Host.Outcome State Fault Refusal :=
  .next (onMc k (hifOwnWrite k b) s)

/-- HIF_OWN_RELEASE (R99): A deferred write of OWN 0 takes effect at the next sector boundary, after WG and AG have fallen. -/
def execHifOwnRelease (k : Fin 4) (s : State) : Host.Outcome State Fault Refusal :=
  .next (onMc k (hifOwnRelease k) s)

/-- ASSIST_LEAD_LONG (R95): AG high for longer than MC_ASC_LEAD.MAX without WG returns the element to bias and sets LEAD_LONG.
-/
def execAssistLeadLong (k : Fin 4) (s : State) : Host.Outcome State Fault Refusal :=
  .next (onMc k (assistLeadLong k) s)

/-- ASSIST_DUTY_NEAR (R96): The head's assist duty reaches 90 % of LIMIT, setting DUTY_NEAR and posting an MC event. -/
def execAssistDutyNear (k : Fin 4) (head : Nat) (s : State) : Host.Outcome State Fault Refusal :=
  .next (onMc k (assistDutyNear k head) s)

/-- ASSIST_DUTY_LIMIT (R96): The duty reaches LIMIT, so after the current sector every AGATE rise on the head is refused and the
job fails retryable. -/
def execAssistDutyLimit (k : Fin 4) (head : Nat) (s : State) : Host.Outcome State Fault Refusal :=
  .next (settle (onMc k (assistDutyLimit k head) s))

/-- ASSIST_DUTY_RELEASE (R96): The duty falls back to 75 % of LIMIT, which clears DUTY_HOLD. -/
def execAssistDutyRelease (k : Fin 4) (head : Nat) (s : State) : Host.Outcome State Fault Refusal :=
  .next (onMc k (assistDutyRelease k head) s)

/-- MC_CH_CLR_ASC (R106): Writing 1 to MC_CH_CLR.ASC clears the on-time and rise counters of the selected head. -/
def execMcChClrAsc (k : Fin 4) (s : State) : Host.Outcome State Fault Refusal :=
  .next (onMc k (clrAsc k) s)

/-- MC_CH_CLR_HIF (R106): Writing 1 to MC_CH_CLR.HIF clears MC_HIF_ERR. -/
def execMcChClrHif (k : Fin 4) (s : State) : Host.Outcome State Fault Refusal :=
  .next (onMc k (clrHif k) s)

/-- MC_CH_CLR_SYN (R106): Writing 1 to MC_CH_CLR.SYN clears the synthesiser counters. -/
def execMcChClrSyn (k : Fin 4) (s : State) : Host.Outcome State Fault Refusal :=
  .next (onMc k (clrSyn k) s)

/-- MC_CH_CLR_LDPC (R106): Writing 1 to MC_CH_CLR.LDPC clears the LDPC counters and MC_WR_FAULT.COUNT. -/
def execMcChClrLdpc (k : Fin 4) (s : State) : Host.Outcome State Fault Refusal :=
  .next (onMc k (clrLdpc k) s)

end Sys2Proof.Machine
end

