-- ==== Sys2Proof/Machine/ExecMotion.lean ====
section
/-! DEFINITION. What each row of servo and spindle control does, one definition for each row. -/

namespace Sys2Proof.Machine

/-- SERVO_SAMPLE (R144): A wedge's position sample reaches the SCE and the actuator loop computation for that wedge starts. -/
def execServoSample (k : Fin 4) (x : SampleIn) (s : State) : Host.Outcome State Fault Refusal :=
  .next (settle (afterServo (servoSample k x s)))

/-- LOOP_RESULT_READY (R146): A loop computation completes before its deadline, and its result and slack are recorded. -/
def execLoopResultReady (loop : Fin 5) (slack : Int) (s : State) : Host.Outcome State Fault Refusal :=
  .next (loopResultReady loop slack s)

/-- LOOP_DEADLINE (R146): A loop's deadline passes before its result, so the previous output is resent and the result is counted
late. -/
def execLoopDeadline (loop : Fin 5) (slack : Int) (s : State) : Host.Outcome State Fault Refusal :=
  .next (loopDeadline loop slack s)

/-- OUTPUT_RELEASE (R145): A loop output is applied at beat 0 of the next wedge, one wedge period after its sample. -/
def execOutputRelease (loop : Fin 5) (s : State) : Host.Outcome State Fault Refusal :=
  .next (outputRelease loop s)

/-- PSL_FRAME_SEND (R165): The PSL sends a frame in the first free slot for a command, register access or outstanding reply. -/
def execPslFrameSend (delay : Nat) (s : State) : Host.Outcome State Fault Refusal :=
  .next (pslFrameSend delay s)

/-- PSL_REPLY (R166): A power-stage reply arrives in the next frame slot with status, parked state, back-EMF and current. -/
def execPslReply (r : Option Nat) (fits : Bool) (delay : Nat) (s : State) : Host.Outcome State Fault Refusal :=
  .next (settle (afterServo (pslReply r fits delay s)))

/-- SPINDLE_LOOP_TICK (R144): While no MC is locked, the spindle loop runs on each TICK of the timebase. -/
def execSpindleLoopTick (s : State) : Host.Outcome State Fault Refusal :=
  .next (spindleLoopTick s)

/-- ACT_SEEK (R155): GO with OP SEEK retargets the actuator to a head, zone and track. -/
def execActSeek (k : Fin 4) (head zone track : Nat) (s : State) : Host.Outcome State Fault Refusal :=
  .next (actCommand k 1 head zone track s)

/-- ACT_LOAD (R150): GO with OP LOAD moves a parked actuator off the ramp toward its target. -/
def execActLoad (k : Fin 4) (head zone track : Nat) (s : State) : Host.Outcome State Fault Refusal :=
  .next (actCommand k 2 head zone track s)

/-- ACT_UNLOAD (R161): GO with OP UNLOAD unloads a loaded actuator to the ramp. -/
def execActUnload (k : Fin 4) (head zone track : Nat) (s : State) : Host.Outcome State Fault Refusal :=
  .next (actCommand k 3 head zone track s)

/-- ACT_HOLD (R155): GO with OP HOLD brings the actuator to zero velocity at its estimated position. -/
def execActHold (k : Fin 4) (head zone track : Nat) (s : State) : Host.Outcome State Fault Refusal :=
  .next (actCommand k 4 head zone track s)

/-- ZREBUILD (R149): Writing SCE_CTL.ZREBUILD starts a recompute of the zone bases and the descriptor copy. -/
def execZrebuild (s : State) : Host.Outcome State Fault Refusal :=
  .next (zrebuild s)

/-- ZREBUILD_END (R149): The zone base recompute ends, clearing ZBUSY and letting waiting GOs be taken. -/
def execZrebuildEnd (s : State) : Host.Outcome State Fault Refusal :=
  .next (zrebuildEnd s)

/-- COEF_SWAP (R157): Writing a loop's SCE_COEF_SWAP bit requests an exchange of its coefficient banks. -/
def execCoefSwap (loop : Fin 5) (s : State) : Host.Outcome State Fault Refusal :=
  .next (coefSwap loop s)

/-- LOST_TIMEOUT (R152): 64 wedges in LOST without three plausible samples raise a machine check and unload the actuator. -/
def execLostTimeout (k : Fin 4) (s : State) : Host.Outcome State Fault Refusal :=
  .next (lostTimeout k s)

/-- LOAD_TIMEOUT (R155): 200 ms of LOAD without plausible samples raises a machine check and unloads. -/
def execLoadTimeout (k : Fin 4) (s : State) : Host.Outcome State Fault Refusal :=
  .next (loadTimeout k s)

/-- UNLOAD_BEMF_LOW (R161): An unload ends after back-EMF stays below 20 mV for 2 ms while pushing outward. -/
def execUnloadBemfLow (k : Fin 4) (s : State) : Host.Outcome State Fault Refusal :=
  .next (afterServo (unloadBemfLow k s))

/-- UNLOAD_TIMEOUT (R161): After 300 ms of unload, full outward current is applied for 50 ms and the actuator is reported
parked. -/
def execUnloadTimeout (k : Fin 4) (s : State) : Host.Outcome State Fault Refusal :=
  .next (afterServo (unloadTimeout k s))

/-- SPSYNC_EDGE (R163): A rising SPSYNC edge is checked against the period tolerance and updates the speed and phase set-points.
-/
def execSpsyncEdge (speed : Nat) (late : Bool) (s : State) : Host.Outcome State Fault Refusal :=
  .next (spsyncEdge speed late s)

/-- SPSYNC_MISSING (R163): No SPSYNC pulse within 1.5 periods counts a missing pulse, and MISSN of them clear SYNC. -/
def execSpsyncMissing (s : State) : Host.Outcome State Fault Refusal :=
  .next (spsyncMissing s)

/-- PSL_REG_WRITE (R166): SCE_PSL_CMD.GO with RD 0 sends a TYPE 2 power-stage register write. -/
def execPslRegWrite (addr data : Nat) (s : State) : Host.Outcome State Fault Refusal :=
  .next (pslReg false addr data s)

/-- PSL_REG_READ (R166): SCE_PSL_CMD.GO with RD 1 sends a TYPE 3 power-stage register read. -/
def execPslRegRead (addr : Nat) (s : State) : Host.Outcome State Fault Refusal :=
  .next (pslReg true addr 0 s)

/-- ACT_EN_WRITE (R410): Setting an ACT_EN bit starts the loop in its enable state, and clearing one unloads the actuator or,
under handoff, stops the loop. -/
def execActEnWrite (k : Fin 4) (on : Bool) (s : State) : Host.Outcome State Fault Refusal :=
  .next (afterServo (actEnWrite k on s))

/-- SCE_CLR_PSL (R181): Writing 1 to SCE_CLR.PSL clears SCE_PSL_ERR. -/
def execSceClrPsl (s : State) : Host.Outcome State Fault Refusal :=
  .next (sceClrPsl s)

/-- SCE_CLR_ACT (R181): Writing 1 to SCE_CLR.ACT clears the selected actuator's coast and reject counts. -/
def execSceClrAct (s : State) : Host.Outcome State Fault Refusal :=
  .next (sceClrAct s)

/-- SCE_CLR_FIN (R181): Writing 1 to SCE_CLR.FIN resets SCE_FINISH. -/
def execSceClrFin (s : State) : Host.Outcome State Fault Refusal :=
  .next (sceClrFin s)

/-- SCE_CLR_LATE (R181): Writing 1 to SCE_CLR.LATE clears SCE_LATE. -/
def execSceClrLate (s : State) : Host.Outcome State Fault Refusal :=
  .next (sceClrLate s)

/-- SCE_CLR_OVR (R181): Writing 1 to SCE_CLR.OVR clears SCE_OVERRUN. -/
def execSceClrOvr (s : State) : Host.Outcome State Fault Refusal :=
  .next (sceClrOvr s)

end Sys2Proof.Machine
end

