-- ==== Sys2Proof/Machine/ExecMotor.lean ====
section
/-! DEFINITION. What each row of the spindle motor does, one definition for each row. -/

namespace Sys2Proof.Machine

/-- PWM_HALF_PERIOD (R168): At each PWM half-period the SCU computes the three phase duties from the angle and amplitude. -/
def execPwmHalfPeriod (x : PwmIn) (s : State) : Host.Outcome State Fault Refusal :=
  .next (spinEnded (pwmRow x s))

/-- BEMF_ZERO_CROSSING (R170): A floated phase's zero crossing updates the back-EMF observer's angle and speed. -/
def execBemfZeroCrossing (x : CrossIn) (s : State) : Host.Outcome State Fault Refusal :=
  .next (spinEnded (bemfZeroCrossing x s))

/-- FLOAT_WINDOW_CLOSE (R170): A float window closes without its crossing, so the observer coasts over it and a late crossing
counts in SCU_LATE. -/
def execFloatWindowClose (late : Bool) (s : State) : Host.Outcome State Fault Refusal :=
  .next (spinEnded (floatWindowClose late s))

/-- SCU_CMD_START (R172): CMD START in STOP begins alignment of the spindle. -/
def execScuCmdStart (s : State) : Host.Outcome State Fault Refusal :=
  .next (spinEnded (scuCmdStart s))

/-- SCU_CMD_STOP (R172): CMD STOP brakes a running spindle or leaves FAULT. -/
def execScuCmdStop (s : State) : Host.Outcome State Fault Refusal :=
  .next (spinEnded (scuCmdStop s))

/-- SCU_CMD_COAST (R172): CMD COAST turns all gates off and enters COAST. -/
def execScuCmdCoast (s : State) : Host.Outcome State Fault Refusal :=
  .next (spinEnded (scuCmdCoast s))

/-- SCU_CMD_CATCH (R174): CMD CATCH starts catch-spin from a running, rectifying, coasting or faulted state. -/
def execScuCmdCatch (s : State) : Host.Outcome State Fault Refusal :=
  .next (spinEnded (scuCmdCatch s))

/-- SCU_CMD_RECTIFY (R176): CMD RECTIFY starts synchronous rectification of a running spindle. -/
def execScuCmdRectify (s : State) : Host.Outcome State Fault Refusal :=
  .next (spinEnded (scuCmdRectify s))

/-- ALIGN_TIMEOUT (R172): ALIGN_T elapses and forced commutation starts in RAMP. -/
def execAlignTimeout (s : State) : Host.Outcome State Fault Refusal :=
  .next (spinEnded (alignTimeout s))

/-- LOCKED_ROTOR (R173): LR_WIN passes in RAMP without a crossing, so the gates turn off and a retry or FAULT follows. -/
def execLockedRotor (s : State) : Host.Outcome State Fault Refusal :=
  .next (spinEnded (lockedRotor s))

/-- LOCKED_ROTOR_RETRY (R173): 1 s after a locked rotor, with TRIES below LR_TRIES, the SCU re-enters ALIGN. -/
def execLockedRotorRetry (s : State) : Host.Outcome State Fault Refusal :=
  .next (spinEnded (lockedRotorRetry s))

/-- CATCH_TIMEOUT (R174): 50 ms in CATCH without reacquisition sets CATCH_FAIL, unloads every owned actuator and enters COAST.
-/
def execCatchTimeout (s : State) : Host.Outcome State Fault Refusal :=
  .next (spinEnded (catchTimeout s))

/-- BRAKE_HOLD_END (R172): After 100 ms with the low sides on below 1 % speed, the gates turn off and the SCU enters STOP. -/
def execBrakeHoldEnd (s : State) : Host.Outcome State Fault Refusal :=
  .next (spinEnded (brakeHoldEnd s))

/-- COAST_TIMEOUT (R172): In COAST, no crossing for 1 s or a speed below 10 % restarts the spindle or enters STOP. -/
def execCoastTimeout (s : State) : Host.Outcome State Fault Refusal :=
  .next (spinEnded (coastTimeout s))

/-- SCU_DRIVE_WRITE (R178): A write of SCU_CTL.DRIVE drives or releases the gate pins, entering CATCH when taking over a turning
spindle. -/
def execScuDriveWrite (b : Bool) (s : State) : Host.Outcome State Fault Refusal :=
  .next (spinEnded (driveWrite b s))

/-- SCU_CLR_CNT (R181): Writing 1 to SCU_CLR.CNT clears the SCU counters. -/
def execScuClrCnt (s : State) : Host.Outcome State Fault Refusal :=
  .next (scuClrCnt s)

end Sys2Proof.Machine
end

