-- ==== Sys2Proof/Machine/ExecPlacement.lean ====
section
/-! DEFINITION. What each row of placement and scheduling does, one definition for each row. -/

namespace Sys2Proof.Machine

/-- SCHEDULER_DECISION (R225): When the MC's job ends, or a candidate enters an empty ready set, the scheduler evaluates its
candidates by rank and cost and chooses one. -/
def execSchedulerDecision (k : Fin 4) (x : SchedIn) (s : State) : Host.Outcome State Fault Refusal :=
  .next (settleSlots (schedulerDecision k x s))

/-- HEAT_DECAY (R207): Every HALF seconds each Heat Table entry is halved. -/
def execHeatDecay (s : State) : Host.Outcome State Fault Refusal :=
  .next (settleSlots (heatDecay s))

/-- ECHO_DROP (R209): A dropping echo copy whose pin count reaches 0 is journaled dropped. -/
def execEchoDrop (idx copy : Nat) (s : State) : Host.Outcome State Fault Refusal :=
  .next (settleSlots (echoDrop idx copy s))

/-- COMPACTION_START (R213): A compaction trigger selects a source band and enters copy candidates at its rank. -/
def execCompactionStart (trigger : Nat) (s : State) : Host.Outcome State Fault Refusal :=
  .next (settleSlots (compactionStart trigger s))

/-- COMPACTION_COMMIT (R212): A copied range's map change commits only if its record still names the source address. -/
def execCompactionCommit (s : State) : Host.Outcome State Fault Refusal :=
  .next (settleSlots (compactionCommit s))

/-- JOURNAL_UNIT_FLUSH (R217): A filled 64 KiB journal unit, or 100 ms, writes the journal buffer to both system-area heads. -/
def execJournalUnitFlush (s : State) : Host.Outcome State Fault Refusal :=
  .next (settleSlots (journalFlush s))

/-- SNAPSHOT_START (R218): Every 15 min, or at half the journal ring, a map snapshot is started to the PSA and to MAP bands. -/
def execSnapshotStart (s : State) : Host.Outcome State Fault Refusal :=
  .next (settleSlots (snapshotStart s))

/-- ZONE_MOVE_SWITCH (R197): A completed zone move switches the binding in one journal record. -/
def execZoneMoveSwitch (nsx zone : Nat) (bands : List Nat) (s : State) : Host.Outcome State Fault Refusal :=
  .next (settleSlots (zoneMoveSwitch nsx zone bands s))

/-- MAP_WAIT_RELEASE (R216): A write held in FULL proceeds to acceptance once merging has freed records. -/
def execMapWaitRelease (n : Nat) (s : State) : Host.Outcome State Fault Refusal :=
  .next (settleSlots (mapWaitRelease n s))

/-- MAP_WAIT_EXPIRY (R216): A write held 2 s for map records completes with Namespace Not Ready and applies nothing. -/
def execMapWaitExpiry (n : Nat) (s : State) : Host.Outcome State Fault Refusal :=
  .next (settleSlots (mapWaitExpiry n s))

/-- PLE_CLR_CLAIM (R230): Writing 1 to PLE_CLR.CLAIM clears PLE_SCH_CLAIM of the selected MC. -/
def execPleClrClaim (s : State) : Host.Outcome State Fault Refusal :=
  .next (pleClrClaim s)

/-- PLE_CLR_DUE (R230): Writing 1 to PLE_CLR.DUE clears PLE_SCH_DUEPK of the selected MC. -/
def execPleClrDue (s : State) : Host.Outcome State Fault Refusal :=
  .next (pleClrDue s)

/-- PLE_CLR_MAXW (R230): Writing 1 to PLE_CLR.MAXW clears PLE_SCH_MAXW of the selected MC. -/
def execPleClrMaxw (s : State) : Host.Outcome State Fault Refusal :=
  .next (pleClrMaxw s)

/-- GDL_ADD (R67): A slot is entered in the grown defect list, journaled, and its live data relocated at urgent class. -/
def execGdlAdd (addr reason : Nat) (s : State) : Host.Outcome State Fault Refusal :=
  .next (settleSlots (gdlAdd addr reason s))

end Sys2Proof.Machine
end

