-- ==== Sys2Proof/Machine/ExecPower.lean ====
section
/-! DEFINITION. What each row of energy, temperature, calibration does, one definition for each row. -/

namespace Sys2Proof.Machine

/-- METER_SAMPLE (R360): Every 10 µs the Ledger samples the shunts and adds energy to the meter counters. -/
def execMeterSample (x : MeterIn) (s : State) : Host.Outcome State Fault Refusal :=
  .next (meterSample x s)

/-- METER_BIN_END (R362): At the end of each 1 ms bin the meters' window power is updated. -/
def execMeterBinEnd (s : State) : Host.Outcome State Fault Refusal :=
  .next (meterBinEnd s)

/-- RESERVE_RECOMPUTE (R364): Every 1 ms the Ledger recomputes the Dump Reserve. -/
def execReserveRecompute (s : State) : Host.Outcome State Fault Refusal :=
  .next (reserveRecompute s)

/-- MTR_LO_READ (R361): A read of ELG_MTR_LO latches the counter's upper half into ELG_MTR_HI. -/
def execMtrLoRead (s : State) : Host.Outcome State Fault Refusal :=
  .next (mtrLoRead s)

/-- DCOST_MEASURE (R367): A write of ELG_DCMEAS raises ELG_DCOST at once, or lowers it by at most one eighth of the difference.
-/
def execDcostMeasure (v : Nat) (s : State) : Host.Outcome State Fault Refusal :=
  .next (dcostMeasure v s)

/-- TEST_DUMP (R368): A 256 MiB test dump runs after boot and every 24 h to measure the Dump Cost. -/
def execTestDump (v : Nat) (s : State) : Host.Outcome State Fault Refusal :=
  .next (testDump v s)

/-- GOVERNOR_WINDOW_END (R374): At the end of each 10 ms window the Governor steps PLIM and recomputes permits and WE. -/
def execGovernorWindowEnd (pIdle pMc : Nat) (s : State) : Host.Outcome State Fault Refusal :=
  .next (governorWindowEnd pIdle pMc s)

/-- VCORE_STEP (R378): The Governor changes VCORE by one 10 mV step toward its target or under a pace alarm. -/
def execVcoreStep (lower : Bool) (s : State) : Host.Outcome State Fault Refusal :=
  .next (vcoreStep lower s)

/-- TMN_SCHEDULE (R380): Every SPER ms a conversion is requested for each enabled sensor. -/
def execTmnSchedule (s : State) : Host.Outcome State Fault Refusal :=
  .next (tmnSchedule s)

/-- TMN_REQUEST (R380): TMN_REQ.GO requests a conversion of one sensor. -/
def execTmnRequest (n : Nat) (s : State) : Host.Outcome State Fault Refusal :=
  .next (tmnRequest n s)

/-- TMN_CONVERSION_DONE (R381): A 40 µs conversion ends and the sensor is checked against its thresholds. -/
def execTmnConversionDone (t : Int) (atEnd : Bool) (s : State) : Host.Outcome State Fault Refusal :=
  .next (tmnConversionDone t atEnd s)

/-- TMN_CLR_CNT (R390): Writing 1 to TMN_CLR.CNT clears TMN_CONV. -/
def execTmnClrCnt (s : State) : Host.Outcome State Fault Refusal :=
  .next (tmnClrCnt s)

/-- CAL_RUN (R382): CAL_RUN.GO makes a calibration item overdue now. -/
def execCalRun (s : State) : Host.Outcome State Fault Refusal :=
  .next (calRun s)

/-- CAL_DUE (R384): A calibration item's interval or temperature trigger makes it due, or overdue after 4 intervals. -/
def execCalDue (n : Nat) (s : State) : Host.Outcome State Fault Refusal :=
  .next (calDue n s)

/-- CAL_RUN_END (R382): A calibration run ends accepted or rejected. -/
def execCalRunEnd (n reader result : Nat) (targets : List CalTarget) (s : State) : Host.Outcome State Fault Refusal :=
  .next (calRunEnd n reader result targets s)

/-- CAL_STEP_APPLY (R382): At its application point an accepted item applies one bounded step toward the measured values. -/
def execCalStepApply (n : Nat) (s : State) : Host.Outcome State Fault Refusal :=
  .next (calStepApply n s)

end Sys2Proof.Machine
end

