-- ==== Sys2Proof/Machine/ExecQueues.lean ====
section
/-! DEFINITION. What each row of host queues does, one definition for each row. -/

namespace Sys2Proof.Machine

/-- PORT_RESET (R233): A PERST_N or hot reset on one port resets every function of that port. -/
def execPortReset (p : Nat) (s : State) : Host.Outcome State Fault Refusal :=
  .next (settleSlots (portReset p s))

/-- LINK_DOWN (R233): A port's link going down is a controller reset of every function of that port. -/
def execLinkDown (p : Nat) (s : State) : Host.Outcome State Fault Refusal :=
  .next (settleSlots (linkDownPort p s))

/-- DOORBELL_WRITE (R239): A host doorbell write is checked and replaces an SQ tail or CQ head, or is rejected with an
asynchronous error event. -/
def execDoorbellWrite (f : Nat) (isCq : Bool) (q v : Nat) (s : State) : Host.Outcome State Fault Refusal :=
  .next (doorbellWrite f isCq q v s)

/-- FETCH_TURN (R240): The fetch arbiter chooses the class, function and queue of the next fetch and issues the entry reads. -/
def execFetchTurn (s : State) : Host.Outcome State Fault Refusal :=
  .next (fetchTurn s)

/-- SQ_ENTRY_ARRIVE (R251): A fetched submission entry arrives, takes a slot and is checked in order. -/
def execSqEntryArrive (f q : Nat) (e : Sqe) (s : State) : Host.Outcome State Fault Refusal :=
  .next (settleSlots (sqEntryArrive f q e s))

/-- HOST_MEMORY_ERROR (R250): A host memory access ending in UR, CA or a poisoned completion fails its command, repeats a
structure read once, or sets CFS. -/
def execHostMemoryError (a : HostAccess) (code : Nat) (s : State) : Host.Outcome State Fault Refusal :=
  .next (settleSlots (hostMemoryError a code s))

/-- COMPLETION_TIMEOUT (R250): A PCIe request's completion timer expires and the access is handled as failed. -/
def execCompletionTimeout (a : HostAccess) (s : State) : Host.Outcome State Fault Refusal :=
  .next (settleSlots (completionTimeout a s))

/-- LATE_COMPLETION (R250): A PCIe completion that arrives after its timeout is discarded and counted in HQE_LATE. -/
def execLateCompletion (s : State) : Host.Outcome State Fault Refusal :=
  .next (lateCompletion s)

/-- HELD_WRITE_ADMIT (R23): A write held above the admission ceiling is admitted once destage lowers dirty data or the cache is
in write-through. -/
def execHeldWriteAdmit (n : Nat) (s : State) : Host.Outcome State Fault Refusal :=
  .next (settleSlots (heldWriteAdmit n s))

/-- WRITE_ACCEPT (R277): Once every acceptance condition of its configuration holds, a write-class command's completion is
committed and it is accepted. -/
def execWriteAccept (n : Nat) (s : State) : Host.Outcome State Fault Refusal :=
  .next (settleSlots (writeAccept n s))

/-- COMPLETION_POST (R248): A completion entry is written once its completion queue has an empty slot, and the command's slot is
freed. -/
def execCompletionPost (n : Nat) (s : State) : Host.Outcome State Fault Refusal :=
  .next (settleSlots (completionPost n s))

/-- COALESCE_TIMER_EXPIRY (R249): The interrupt coalescing timer expires and raises the vector's interrupt. -/
def execCoalesceTimerExpiry (f v : Nat) (s : State) : Host.Outcome State Fault Refusal :=
  .next (coalesceExpiry f v s)

end Sys2Proof.Machine
end

