-- ==== Sys2Proof/Machine/ExecRecords.lean ====
section
/-! DEFINITION. What each row of the Event Recorder, machine checks, and rows added to other families does, one definition for each row. -/

namespace Sys2Proof.Machine

/-- MCK_SYN_POP (R498): A read of MCK_SYN3 removes the oldest syndrome from the FIFO. -/
def execMckSynPop (s : State) : Host.Outcome State Fault Refusal :=
  .next (mckSynPop s)

/-- EVR_FIRMWARE_POST (R488): EVR_POST.GO queues a firmware record of a class and ID, or drops it and counts EVR_LOST. -/
def execEvrFirmwarePost (cls id : Nat) (detail : Word) (s : State) : Host.Outcome State Fault Refusal :=
  .next (evrFirmwarePost cls id detail s)

/-- EVR_RECORD (R489): A granted post gets its SEQ, its snapshot list is read and the record is written into the ring. -/
def execEvrRecord (s : State) : Host.Outcome State Fault Refusal :=
  .next (evrRecord s)

/-- EVR_CLR_CNT (R502): Writing 1 to EVR_CLR.CNT clears EVR_OVWR and EVR_LOST. -/
def execEvrClrCnt (s : State) : Host.Outcome State Fault Refusal :=
  .next (evrClrCnt s)

/-- MCK_CLR_CNT (R502): Writing 1 to MCK_CLR.CNT clears MCK_COUNT and MCK_LOST. -/
def execMckClrCnt (s : State) : Host.Outcome State Fault Refusal :=
  .next (mckClrCnt s)

/-- POR_ASSERT (R474): VIN falling through 2.25 V asserts power-on reset, and every signal ball goes to high impedance. -/
def execPorAssert (s : State) : Host.Outcome State Fault Refusal :=
  .next (porAssert s)

/-- LOSS_OF_LANE_LOCK (R398): A loss of lane lock on the Tandem Link takes the link down, counts TDL_DOWN and starts a retrain.
-/
def execLossOfLaneLock (s : State) : Host.Outcome State Fault Refusal :=
  .next (lossOfLaneLock s)

/-- TDL_NAK (R398): A received flit with NAK set makes the sender resend from ACKSEQ + 1. -/
def execTdlNak (h : FlitHdr) (s : State) : Host.Outcome State Fault Refusal :=
  .next (settle (tdlNak h s))

/-- FLIT_DROPPED (R398): A received flit that fails its CRC, arrives out of sequence or repeats an FSEQ already taken is
dropped, with a NAK sent or the duplicate counted in TDL_DUP and acknowledged again. -/
def execFlitDropped (bytes : List Nat) (s : State) : Host.Outcome State Fault Refusal :=
  .next (flitDropped bytes s)

/-- VF_ENABLE_CLEAR (R291): Clearing VF Enable is a controller reset of every VF of the PF. -/
def execVfEnableClear (pf : Nat) (s : State) : Host.Outcome State Fault Refusal :=
  .next (settleSlots (vfEnableClear pf s))

/-- PERSISTENT_LINK_ERROR (R314): An LPDDR4X PHY reports a persistent link error and the BMC declares that channel failed. -/
def execPersistentLinkError (ch : Nat) (s : State) : Host.Outcome State Fault Refusal :=
  .next (withFatal (persistentLinkError ch) s)

/-- RDECODE_REPORT (R123): An RDECODE on the retry decode path ends after its outer passes, reports its outcome and frees the
held sample buffer. -/
def execRdecodeReport (k : Fin 4) (q : Quad Reading) (s : State) : Host.Outcome State Fault Refusal :=
  .next (onMc k (rdecodeReport k q) s)

/-- GRANTER_RESTART_WAIT_END (R434): After the granter's own restart, its 60 s wait ends and it begins granting the head of its
queue. -/
def execGranterRestartWaitEnd (s : State) : Host.Outcome State Fault Refusal :=
  .next (granterRestartWaitEnd s)

end Sys2Proof.Machine
end

