-- ==== Sys2Proof/Machine/ExecResets.lean ====
section
/-! DEFINITION. What each row of reset, boot, watchdog, TAP does, one definition for each row. -/

namespace Sys2Proof.Machine

/-- POR (R449): VIN rising through its threshold with PWRGOOD high releases power-on reset, which resets everything and boots.
-/
def execPor (vin : Nat) (b : BootIn) (s : State) : Host.Outcome State Fault Refusal :=
  if s.sys.phase = .unpowered ∧ 6500 < vin then .fault .outsideRatings else .next (por vin b s)

/-- IO_READY (R456): After spin-up, head load and journal replay, namespaces become ready and a notice event is queued. -/
def execIoReady (s : State) : Host.Outcome State Fault Refusal :=
  .next (ioReady s)

/-- RESET_N (R448): RESET_N low for 1 µs or more starts a device reset with a reset dump. -/
def execResetN (low : Bool) (b : BootIn) (s : State) : Host.Outcome State Fault Refusal :=
  .next (resetPin low b s)

/-- RESET_DUMP_END (R450): The reset dump's completion marker is written and the device reset takes effect. -/
def execResetDumpEnd (b : BootIn) (s : State) : Host.Outcome State Fault Refusal :=
  .next (resetDumpEnd b s)

/-- WATCHDOG_KICK (R452): A write of 0xD00D to SYS_WDOG_KICK restarts the watchdog count. -/
def execWatchdogKick (key : Nat) (s : State) : Host.Outcome State Fault Refusal :=
  .next (watchdogKick key s)

/-- WATCHDOG_EXPIRY (R452): The watchdog count expires, counts EXPIRIES and starts a device reset. -/
def execWatchdogExpiry (s : State) : Host.Outcome State Fault Refusal :=
  .next (watchdogExpiry s)

/-- SOFT_RESET (R450): Writing SYS_RST_CTL.DEV starts a device reset. -/
def execSoftReset (s : State) : Host.Outcome State Fault Refusal :=
  .next (softReset s)

/-- UNIT_RESET_MC (R453): An MC unit reset drops OWN, frees the Job Table without status and empties the zone shadow. -/
def execUnitResetMc (k : Fin 4) (s : State) : Host.Outcome State Fault Refusal :=
  .next (settle (unitResetMc k s))

/-- UNIT_RESET_SCE (R453): An SCE unit reset unloads every loaded actuator and returns the coefficient banks to pass-through. -/
def execUnitResetSce (s : State) : Host.Outcome State Fault Refusal :=
  .next (unitResetSce s)

/-- UNIT_RESET_SCU (R453): An SCU unit reset floats the gates and returns the spindle state to STOP. -/
def execUnitResetScu (s : State) : Host.Outcome State Fault Refusal :=
  .next (unitResetScu s)

/-- UNIT_RESET_PCT (R453): A PCT unit reset ends programs and erases, empties the ring and marks every block unknown. -/
def execUnitResetPct (s : State) : Host.Outcome State Fault Refusal :=
  .next (unitResetPct s)

/-- UNIT_RESET_TDL (R453): A TDL unit reset stops heartbeats and empties the replay buffer. -/
def execUnitResetTdl (s : State) : Host.Outcome State Fault Refusal :=
  .next (unitResetTdl s)

/-- UNIT_RESET_CLP (R453): A CLP unit reset empties the rings and keeps the counter and replay table. -/
def execUnitResetClp (s : State) : Host.Outcome State Fault Refusal :=
  .next (unitResetClp s)

/-- SYS_CLR_WDOG (R465): Writing 1 to SYS_CLR.WDOG clears SYS_WDOG_STAT.EXPIRIES. -/
def execSysClrWdog (s : State) : Host.Outcome State Fault Refusal :=
  .next (sysClrWdog s)

/-- BYPASS (R463): The JTAG BYPASS instruction selects the bypass register. -/
def execBypass (s : State) : Host.Outcome State Fault Refusal :=
  .next (tapBypass s)

/-- IDCODE (R463): The JTAG IDCODE instruction returns the part's IDCODE. -/
def execIdcode (s : State) : Host.Outcome State Fault Refusal :=
  .next (tapIdcode s)

/-- SAMPLE_PRELOAD (R463): The JTAG SAMPLE/PRELOAD instruction samples and preloads the boundary register. -/
def execSamplePreload (cells : List Bool) (s : State) : Host.Outcome State Fault Refusal :=
  .next (tapSamplePreload cells s)

/-- EXTEST (R463): The JTAG EXTEST instruction drives pins from the boundary register, only while RESET_N holds the device in
reset. -/
def execExtest (s : State) : Host.Outcome State Fault Refusal :=
  .next (tapExtest s)

/-- CLAMP (R463): The JTAG CLAMP instruction holds pins at boundary values, only while RESET_N holds the device in reset. -/
def execClamp (s : State) : Host.Outcome State Fault Refusal :=
  .next (tapClamp s)

/-- HIGHZ (R463): The JTAG HIGHZ instruction floats the outputs, only while RESET_N holds the device in reset. -/
def execHighz (s : State) : Host.Outcome State Fault Refusal :=
  .next (tapHighz s)

/-- DEVRST (R463): The JTAG DEVRST instruction starts a device reset while SYS_JTAG.OPEN is 1. -/
def execDevrst (s : State) : Host.Outcome State Fault Refusal :=
  .next (tapDevrst s)

/-- CSRACC (R463): The JTAG CSRACC instruction performs a CSR access while SYS_JTAG.OPEN is 1. -/
def execCsracc (write : Bool) (a : Nat) (v : Word) (s : State) : Host.Outcome State Fault Refusal :=
  .next (afterCsr (tapCsracc write a v s))

end Sys2Proof.Machine
end

