-- ==== Sys2Proof/Machine/ExecSequencer.lean ====
section
/-! DEFINITION. What each row of the Media Sequencer and Run Sequences does, one definition for each row. -/

namespace Sys2Proof.Machine

/-- JUMP (R118): A microword in JUMP mode performs its field actions and continues at NEXT if COND is true, else at a + 1. -/
def execSeqJump (k : Fin 4) (x : MsqIn) (s : State) : Host.Outcome State Fault Refusal :=
  .next (settle (onMc k (stepWord k 0 x) s))

/-- BRANCH (R118): A microword in BRANCH mode continues at NEXT with bit 0 replaced by COND. -/
def execSeqBranch (k : Fin 4) (x : MsqIn) (s : State) : Host.Outcome State Fault Refusal :=
  .next (settle (onMc k (stepWord k 1 x) s))

/-- DISPATCH (R118): A microword in DISPATCH mode continues at NEXT with bits [3:0] replaced by the selected source value. -/
def execSeqDispatch (k : Fin 4) (x : MsqIn) (s : State) : Host.Outcome State Fault Refusal :=
  .next (settle (onMc k (stepWord k 2 x) s))

/-- CALL (R120): A microword in CALL mode pushes a + 1 and goes to NEXT when COND is true. -/
def execSeqCall (k : Fin 4) (x : MsqIn) (s : State) : Host.Outcome State Fault Refusal :=
  .next (settle (onMc k (stepWord k 3 x) s))

/-- RETURN (R120): A microword in RETURN mode pops the stack and goes there when COND is true. -/
def execSeqReturn (k : Fin 4) (x : MsqIn) (s : State) : Host.Outcome State Fault Refusal :=
  .next (settle (onMc k (stepWord k 4 x) s))

/-- WAIT (R119): A microword in WAIT mode holds until its condition is true or its timer or the watchdog ends the wait. -/
def execSeqWait (k : Fin 4) (x : MsqIn) (s : State) : Host.Outcome State Fault Refusal :=
  .next (settle (onMc k (stepWord k 5 x) s))

/-- LOOP (R118): A microword in LOOP mode decrements CTRA and goes to NEXT while CTRA is nonzero. -/
def execSeqLoop (k : Fin 4) (x : MsqIn) (s : State) : Host.Outcome State Fault Refusal :=
  .next (settle (onMc k (stepWord k 6 x) s))

/-- HALT (R118): A microword in HALT mode ends the job when COND is true. -/
def execSeqHalt (k : Fin 4) (x : MsqIn) (s : State) : Host.Outcome State Fault Refusal :=
  .next (settle (onMc k (stepWord k 7 x) s))

/-- HALT_PAD_END (R109): A HALT reached while WG is high takes effect when the pad of the sector being written ends. -/
def execHaltPadEnd (k : Fin 4) (s : State) : Host.Outcome State Fault Refusal :=
  .next (settle (onMc k (haltPadEnd k) s))

/-- WAIT_PASS (R119): A waiting WAIT word's condition becomes true and control passes to NEXT. -/
def execWaitPass (k : Fin 4) (x : MsqIn) (s : State) : Host.Outcome State Fault Refusal :=
  .next (settle (onMc k (waitPass k x) s))

/-- MSQ_TIMER_EXPIRY (R119): The MSQ timer expires, sets TIMER_EXP and moves a bounded WAIT to a + 1. -/
def execMsqTimerExpiry (k : Fin 4) (race : Option Bool) (s : State) : Host.Outcome State Fault Refusal :=
  .next (settle (onMc k (timerExpiry k race) s))

/-- WAIT_WATCHDOG (R119): A WAIT with no timer running reaches MSQ_CTL.WDOG wedge marks and the job stops with WATCHDOG. -/
def execWaitWatchdog (k : Fin 4) (s : State) : Host.Outcome State Fault Refusal :=
  .next (settle (onMc k (waitWatchdog k) s))

/-- STORE_SCRUB (R132): While no job runs, the MSQ checks one store word per beat and reloads a word that fails parity. -/
def execStoreScrub (k : Fin 4) (a : Nat) (imgBad : Bool) (s : State) : Host.Outcome State Fault Refusal :=
  .next (onMc k (storeScrub k a imgBad) s)

/-- JT_ARM (R127): MSQ_JT_CMD.ARM arms a Job Table entry, or rejects it and sets REJ. -/
def execJtArm (k : Fin 4) (e : Nat) (s : State) : Host.Outcome State Fault Refusal :=
  .next (onMc k (jtArm k e) s)

/-- JT_CANCEL (R129): MSQ_JT_CMD.CANCEL cancels an entry according to its state: armed, running, done or free. -/
def execJtCancel (k : Fin 4) (e : Nat) (s : State) : Host.Outcome State Fault Refusal :=
  .next (settle (onMc k (jtCancel k e) s))

/-- CANCEL_EFFECT (R129): A pending cancel of a running job takes effect at the first sector boundary with WG low, ending the
job with END 1. -/
def execCancelEffect (k : Fin 4) (s : State) : Host.Outcome State Fault Refusal :=
  .next (settle (onMc k (cancelEffect k) s))

/-- JOB_BEGIN (R128): At its start-wedge mark an armed job begins, unless it is held, late or at its hold limit. -/
def execJobBegin (k : Fin 4) (e : Nat) (lateArm : Bool) (s : State) : Host.Outcome State Fault Refusal :=
  .next (settle (onMc k (beginJob k e lateArm) s))

/-- MSQ_EN_WRITE (R128): A write of MSQ_CTL.EN enables the MSQ or disables it once no job is running. -/
def execMsqEnWrite (k : Fin 4) (b : Bool) (s : State) : Host.Outcome State Fault Refusal :=
  .next (onMc k (msqEnWrite k b) s)

/-- JT_DONE_CLEAR (R129): Clearing an entry's MSQ_JT_DONE bit frees the entry. -/
def execJtDoneClear (k : Fin 4) (e : Nat) (s : State) : Host.Outcome State Fault Refusal :=
  .next (onMc k (jtDoneClear k e) s)

/-- EVT_LO_READ (R142): A read of MSQ_EVT_LO latches the oldest event. -/
def execEvtLoRead (k : Fin 4) (s : State) : Host.Outcome State Fault Refusal :=
  .next (evtLoRead k s)

/-- EVT_HI_READ (R142): A read of MSQ_EVT_HI returns the latched event's high word and removes the event from the queue. -/
def execEvtHiRead (k : Fin 4) (s : State) : Host.Outcome State Fault Refusal :=
  .next (evtHiRead k s)

/-- TRACE_READ (R141): A read of MSQ_TRACE returns the oldest trace entry and removes it. -/
def execTraceRead (k : Fin 4) (s : State) : Host.Outcome State Fault Refusal :=
  .next (traceRead k s)

/-- STORE_LANE0_READ (R141): A read of lane 0 of MSQ_ST_DATA latches the whole store word. -/
def execStoreLane0Read (k : Fin 4) (s : State) : Host.Outcome State Fault Refusal :=
  .next (storeLane0Read k s)

/-- STORE_WORD_COMMIT (R141): A write to lane 4 of MSQ_ST_DATA commits the staged store word, parity as written, unless a job
runs. -/
def execStoreWordCommit (k : Fin 4) (w : Word) (s : State) : Host.Outcome State Fault Refusal :=
  .next (onMc k (storeWordCommit k w) s)

/-- MSQ_CLR_EVT (R143): Writing 1 to MSQ_CLR.EVT empties the event queue without counting losses. -/
def execMsqClrEvt (k : Fin 4) (s : State) : Host.Outcome State Fault Refusal :=
  .next (onMc k (clrEvt k) s)

/-- MSQ_CLR_TRACE (R143): Writing 1 to MSQ_CLR.TRACE empties the trace buffer. -/
def execMsqClrTrace (k : Fin 4) (s : State) : Host.Outcome State Fault Refusal :=
  .next (onMc k (clrTrace k) s)

/-- MSQ_CLR_CNT (R143): Writing 1 to MSQ_CLR.CNT clears the MSQ counters. -/
def execMsqClrCnt (k : Fin 4) (s : State) : Host.Outcome State Fault Refusal :=
  .next (onMc k (clrMsqCnt k) s)

/-- MICROPROGRAM_LOAD (R136): Microprogram Load (C1h) checks a signed customer image and holds the customer-region jobs of each
MC in its mask. -/
def execMicroprogramLoad (n : Nat) (img : GrlnImage) (s : State) : Host.Outcome State Fault Refusal :=
  .next (settleSlots (microprogramLoad n img s))

/-- MICROPROGRAM_LOAD_QUIESCED (R137): Once customer-region jobs have ended, the new region is written to the store, the image
and the PSA, and the held jobs are released. -/
def execMicroprogramLoadQuiesced (n : Nat) (s : State) : Host.Outcome State Fault Refusal :=
  .next (settleSlots (microprogramLoadQuiesced n s))

/-- MICROPROGRAM_LOAD_TIMEOUT (R137): Quiescence is not reached within 2 s, so the load completes with C6h and the old code
stays in force. -/
def execMicroprogramLoadTimeout (n : Nat) (s : State) : Host.Outcome State Fault Refusal :=
  .next (settleSlots (microprogramLoadTimeout n s))

/-- RUN_SEQUENCE_WRITE (R139): Run Sequence 91h runs one Track Job within the sequence reserve, with data from the host. -/
def execRunSequenceWrite (n : Nat) (data : List Nat) (s : State) : Host.Outcome State Fault Refusal :=
  .next (settleSlots (runSequenceWrite n data s))

/-- RUN_SEQUENCE_READ (R139): Run Sequence 92h runs one Track Job and returns its sectors to the host. -/
def execRunSequenceRead (n : Nat) (s : State) : Host.Outcome State Fault Refusal :=
  .next (settleSlots (runSequenceRead n s))

/-- RUN_SEQUENCE_COMPLETE (R140): At the end of its job a Run Sequence completes with the entry's dwords 10 and 12 and a status
from CLASS. -/
def execRunSequenceComplete (k : Fin 4) (e slot cls n : Nat) (s : State) : Host.Outcome State Fault Refusal :=
  .next (settleSlots (runSequenceComplete k e slot cls n s))

end Sys2Proof.Machine
end

