-- ==== Sys2Proof/Machine/Dispatch.lean ====
section
/-! DEFINITION. The dispatcher: one arm for each command. -/

namespace Sys2Proof.Machine

def exec (i : Instr) (s : State) : Host.Outcome State Fault Refusal :=
  match i with
  | .csrWrite bytes a v => Sys2Proof.Machine.execCsrWrite bytes a v s
  | .paceWindowEnd tokens => Sys2Proof.Machine.execPaceWindowEnd tokens s
  | .fabClrPacemin => Sys2Proof.Machine.execFabClrPacemin s
  | .fabClrDec => Sys2Proof.Machine.execFabClrDec s
  | .fabClrArb => Sys2Proof.Machine.execFabClrArb s
  | .cbpFault island => Sys2Proof.Machine.execCbpFault island s
  | .syncMarkFound k slot pos bits => Sys2Proof.Machine.execSyncMarkFound k slot pos bits s
  | .syncWindowClose k slot lateMark runs => Sys2Proof.Machine.execSyncWindowClose k slot lateMark runs s
  | .timedSyncEnd k att => Sys2Proof.Machine.execTimedSyncEnd k att s
  | .realignEnd k att => Sys2Proof.Machine.execRealignEnd k att s
  | .decodeComplete k d => Sys2Proof.Machine.execDecodeComplete k d s
  | .stripeSolveEnd k => Sys2Proof.Machine.execStripeSolveEnd k s
  | .mcFmtClrRec k => Sys2Proof.Machine.execMcFmtClrRec k s
  | .mcFmtClrCnt k => Sys2Proof.Machine.execMcFmtClrCnt k s
  | .wedgeMark k x => Sys2Proof.Machine.execWedgeMark k x s
  | .markWindowClose k late atest => Sys2Proof.Machine.execMarkWindowClose k late atest s
  | .adcMaskApply k => Sys2Proof.Machine.execAdcMaskApply k s
  | .hfltFall k stays => Sys2Proof.Machine.execHfltFall k stays s
  | .hifFrameEnd k r => Sys2Proof.Machine.execHifFrameEnd k r s
  | .hifFirmwareFrame k w => Sys2Proof.Machine.execHifFirmwareFrame k w s
  | .hifOwnWrite k b => Sys2Proof.Machine.execHifOwnWrite k b s
  | .hifOwnRelease k => Sys2Proof.Machine.execHifOwnRelease k s
  | .assistLeadLong k => Sys2Proof.Machine.execAssistLeadLong k s
  | .assistDutyNear k head => Sys2Proof.Machine.execAssistDutyNear k head s
  | .assistDutyLimit k head => Sys2Proof.Machine.execAssistDutyLimit k head s
  | .assistDutyRelease k head => Sys2Proof.Machine.execAssistDutyRelease k head s
  | .mcChClrAsc k => Sys2Proof.Machine.execMcChClrAsc k s
  | .mcChClrHif k => Sys2Proof.Machine.execMcChClrHif k s
  | .mcChClrSyn k => Sys2Proof.Machine.execMcChClrSyn k s
  | .mcChClrLdpc k => Sys2Proof.Machine.execMcChClrLdpc k s
  | .seqJump k x => Sys2Proof.Machine.execSeqJump k x s
  | .seqBranch k x => Sys2Proof.Machine.execSeqBranch k x s
  | .seqDispatch k x => Sys2Proof.Machine.execSeqDispatch k x s
  | .seqCall k x => Sys2Proof.Machine.execSeqCall k x s
  | .seqReturn k x => Sys2Proof.Machine.execSeqReturn k x s
  | .seqWait k x => Sys2Proof.Machine.execSeqWait k x s
  | .seqLoop k x => Sys2Proof.Machine.execSeqLoop k x s
  | .seqHalt k x => Sys2Proof.Machine.execSeqHalt k x s
  | .haltPadEnd k => Sys2Proof.Machine.execHaltPadEnd k s
  | .waitPass k x => Sys2Proof.Machine.execWaitPass k x s
  | .msqTimerExpiry k race => Sys2Proof.Machine.execMsqTimerExpiry k race s
  | .waitWatchdog k => Sys2Proof.Machine.execWaitWatchdog k s
  | .storeScrub k a imgBad => Sys2Proof.Machine.execStoreScrub k a imgBad s
  | .jtArm k e => Sys2Proof.Machine.execJtArm k e s
  | .jtCancel k e => Sys2Proof.Machine.execJtCancel k e s
  | .cancelEffect k => Sys2Proof.Machine.execCancelEffect k s
  | .jobBegin k e lateArm => Sys2Proof.Machine.execJobBegin k e lateArm s
  | .msqEnWrite k b => Sys2Proof.Machine.execMsqEnWrite k b s
  | .jtDoneClear k e => Sys2Proof.Machine.execJtDoneClear k e s
  | .evtLoRead k => Sys2Proof.Machine.execEvtLoRead k s
  | .evtHiRead k => Sys2Proof.Machine.execEvtHiRead k s
  | .traceRead k => Sys2Proof.Machine.execTraceRead k s
  | .storeLane0Read k => Sys2Proof.Machine.execStoreLane0Read k s
  | .storeWordCommit k w => Sys2Proof.Machine.execStoreWordCommit k w s
  | .msqClrEvt k => Sys2Proof.Machine.execMsqClrEvt k s
  | .msqClrTrace k => Sys2Proof.Machine.execMsqClrTrace k s
  | .msqClrCnt k => Sys2Proof.Machine.execMsqClrCnt k s
  | .microprogramLoad n img => Sys2Proof.Machine.execMicroprogramLoad n img s
  | .microprogramLoadQuiesced n => Sys2Proof.Machine.execMicroprogramLoadQuiesced n s
  | .microprogramLoadTimeout n => Sys2Proof.Machine.execMicroprogramLoadTimeout n s
  | .runSequenceWrite n data => Sys2Proof.Machine.execRunSequenceWrite n data s
  | .runSequenceRead n => Sys2Proof.Machine.execRunSequenceRead n s
  | .runSequenceComplete k e slot cls n => Sys2Proof.Machine.execRunSequenceComplete k e slot cls n s
  | .servoSample k x => Sys2Proof.Machine.execServoSample k x s
  | .loopResultReady loop slack => Sys2Proof.Machine.execLoopResultReady loop slack s
  | .loopDeadline loop slack => Sys2Proof.Machine.execLoopDeadline loop slack s
  | .outputRelease loop => Sys2Proof.Machine.execOutputRelease loop s
  | .pslFrameSend delay => Sys2Proof.Machine.execPslFrameSend delay s
  | .pslReply r fits delay => Sys2Proof.Machine.execPslReply r fits delay s
  | .spindleLoopTick => Sys2Proof.Machine.execSpindleLoopTick s
  | .actSeek k head zone track => Sys2Proof.Machine.execActSeek k head zone track s
  | .actLoad k head zone track => Sys2Proof.Machine.execActLoad k head zone track s
  | .actUnload k head zone track => Sys2Proof.Machine.execActUnload k head zone track s
  | .actHold k head zone track => Sys2Proof.Machine.execActHold k head zone track s
  | .zrebuild => Sys2Proof.Machine.execZrebuild s
  | .zrebuildEnd => Sys2Proof.Machine.execZrebuildEnd s
  | .coefSwap loop => Sys2Proof.Machine.execCoefSwap loop s
  | .lostTimeout k => Sys2Proof.Machine.execLostTimeout k s
  | .loadTimeout k => Sys2Proof.Machine.execLoadTimeout k s
  | .unloadBemfLow k => Sys2Proof.Machine.execUnloadBemfLow k s
  | .unloadTimeout k => Sys2Proof.Machine.execUnloadTimeout k s
  | .spsyncEdge speed late => Sys2Proof.Machine.execSpsyncEdge speed late s
  | .spsyncMissing => Sys2Proof.Machine.execSpsyncMissing s
  | .pslRegWrite addr data => Sys2Proof.Machine.execPslRegWrite addr data s
  | .pslRegRead addr => Sys2Proof.Machine.execPslRegRead addr s
  | .actEnWrite k on => Sys2Proof.Machine.execActEnWrite k on s
  | .sceClrPsl => Sys2Proof.Machine.execSceClrPsl s
  | .sceClrAct => Sys2Proof.Machine.execSceClrAct s
  | .sceClrFin => Sys2Proof.Machine.execSceClrFin s
  | .sceClrLate => Sys2Proof.Machine.execSceClrLate s
  | .sceClrOvr => Sys2Proof.Machine.execSceClrOvr s
  | .pwmHalfPeriod x => Sys2Proof.Machine.execPwmHalfPeriod x s
  | .bemfZeroCrossing x => Sys2Proof.Machine.execBemfZeroCrossing x s
  | .floatWindowClose late => Sys2Proof.Machine.execFloatWindowClose late s
  | .scuCmdStart => Sys2Proof.Machine.execScuCmdStart s
  | .scuCmdStop => Sys2Proof.Machine.execScuCmdStop s
  | .scuCmdCoast => Sys2Proof.Machine.execScuCmdCoast s
  | .scuCmdCatch => Sys2Proof.Machine.execScuCmdCatch s
  | .scuCmdRectify => Sys2Proof.Machine.execScuCmdRectify s
  | .alignTimeout => Sys2Proof.Machine.execAlignTimeout s
  | .lockedRotor => Sys2Proof.Machine.execLockedRotor s
  | .lockedRotorRetry => Sys2Proof.Machine.execLockedRotorRetry s
  | .catchTimeout => Sys2Proof.Machine.execCatchTimeout s
  | .brakeHoldEnd => Sys2Proof.Machine.execBrakeHoldEnd s
  | .coastTimeout => Sys2Proof.Machine.execCoastTimeout s
  | .scuDriveWrite b => Sys2Proof.Machine.execScuDriveWrite b s
  | .scuClrCnt => Sys2Proof.Machine.execScuClrCnt s
  | .schedulerDecision k x => Sys2Proof.Machine.execSchedulerDecision k x s
  | .heatDecay => Sys2Proof.Machine.execHeatDecay s
  | .echoDrop idx copy => Sys2Proof.Machine.execEchoDrop idx copy s
  | .compactionStart trigger => Sys2Proof.Machine.execCompactionStart trigger s
  | .compactionCommit => Sys2Proof.Machine.execCompactionCommit s
  | .journalUnitFlush => Sys2Proof.Machine.execJournalUnitFlush s
  | .snapshotStart => Sys2Proof.Machine.execSnapshotStart s
  | .zoneMoveSwitch nsx zone bands => Sys2Proof.Machine.execZoneMoveSwitch nsx zone bands s
  | .mapWaitRelease n => Sys2Proof.Machine.execMapWaitRelease n s
  | .mapWaitExpiry n => Sys2Proof.Machine.execMapWaitExpiry n s
  | .pleClrClaim => Sys2Proof.Machine.execPleClrClaim s
  | .pleClrDue => Sys2Proof.Machine.execPleClrDue s
  | .pleClrMaxw => Sys2Proof.Machine.execPleClrMaxw s
  | .gdlAdd addr reason => Sys2Proof.Machine.execGdlAdd addr reason s
  | .portReset p => Sys2Proof.Machine.execPortReset p s
  | .linkDown p => Sys2Proof.Machine.execLinkDown p s
  | .doorbellWrite f isCq q v => Sys2Proof.Machine.execDoorbellWrite f isCq q v s
  | .fetchTurn => Sys2Proof.Machine.execFetchTurn s
  | .sqEntryArrive f q e => Sys2Proof.Machine.execSqEntryArrive f q e s
  | .hostMemoryError a code => Sys2Proof.Machine.execHostMemoryError a code s
  | .completionTimeout a => Sys2Proof.Machine.execCompletionTimeout a s
  | .lateCompletion => Sys2Proof.Machine.execLateCompletion s
  | .heldWriteAdmit n => Sys2Proof.Machine.execHeldWriteAdmit n s
  | .writeAccept n => Sys2Proof.Machine.execWriteAccept n s
  | .completionPost n => Sys2Proof.Machine.execCompletionPost n s
  | .coalesceTimerExpiry f v => Sys2Proof.Machine.execCoalesceTimerExpiry f v s
  | .createIoSq n => Sys2Proof.Machine.execCreateIoSq n s
  | .createIoCq n => Sys2Proof.Machine.execCreateIoCq n s
  | .deleteIoSq n => Sys2Proof.Machine.execDeleteIoSq n s
  | .deleteIoSqComplete n => Sys2Proof.Machine.execDeleteIoSqComplete n s
  | .deleteIoCq n => Sys2Proof.Machine.execDeleteIoCq n s
  | .getLogPage n => Sys2Proof.Machine.execGetLogPage n s
  | .identify n => Sys2Proof.Machine.execIdentify n s
  | .abort n => Sys2Proof.Machine.execAbort n s
  | .setFeatures n => Sys2Proof.Machine.execSetFeatures n s
  | .getFeatures n => Sys2Proof.Machine.execGetFeatures n s
  | .asyncEventRequest n => Sys2Proof.Machine.execAsyncEventRequest n s
  | .namespaceCreate n r => Sys2Proof.Machine.execNamespaceCreate n r s
  | .namespaceDelete n => Sys2Proof.Machine.execNamespaceDelete n s
  | .namespaceAttachment n ctrls => Sys2Proof.Machine.execNamespaceAttachment n ctrls s
  | .firmwareImageDownload n image => Sys2Proof.Machine.execFirmwareImageDownload n image s
  | .firmwareCommit n sigOk => Sys2Proof.Machine.execFirmwareCommit n sigOk s
  | .firmwareActivate n sigOk => Sys2Proof.Machine.execFirmwareActivate n sigOk s
  | .firmwareActivateDrainTimeout => Sys2Proof.Machine.execFirmwareActivateDrainTimeout s
  | .firmwareActivateDone => Sys2Proof.Machine.execFirmwareActivateDone s
  | .directiveSend n => Sys2Proof.Machine.execDirectiveSend n s
  | .directiveReceive n => Sys2Proof.Machine.execDirectiveReceive n s
  | .formatNvm n => Sys2Proof.Machine.execFormatNvm n s
  | .formatComplete nsid => Sys2Proof.Machine.execFormatComplete nsid s
  | .sanitizeExitFailure n => Sys2Proof.Machine.execSanitizeExitFailure n s
  | .sanitizeOverwrite n => Sys2Proof.Machine.execSanitizeOverwrite n s
  | .sanitizeCryptoErase n => Sys2Proof.Machine.execSanitizeCryptoErase n s
  | .sanitizeBandDone fault => Sys2Proof.Machine.execSanitizeBandDone fault s
  | .recorderRead n => Sys2Proof.Machine.execRecorderRead n s
  | .csrReadCmd n => Sys2Proof.Machine.execCsrReadCmd n s
  | .csrWriteCmd n => Sys2Proof.Machine.execCsrWriteCmd n s
  | .nonceRequest n => Sys2Proof.Machine.execNonceRequest n s
  | .unlockToken n t => Sys2Proof.Machine.execUnlockToken n t s
  | .unlockEnd n => Sys2Proof.Machine.execUnlockEnd n s
  | .nonceExpiry => Sys2Proof.Machine.execNonceExpiry s
  | .unlockExpiry => Sys2Proof.Machine.execUnlockExpiry s
  | .flush n => Sys2Proof.Machine.execFlush n s
  | .write n data => Sys2Proof.Machine.execWrite n data s
  | .read n => Sys2Proof.Machine.execRead n s
  | .writeZeroes n => Sys2Proof.Machine.execWriteZeroes n s
  | .datasetManagement n ranges => Sys2Proof.Machine.execDatasetManagement n ranges s
  | .verify n => Sys2Proof.Machine.execVerify n s
  | .zoneOpen n => Sys2Proof.Machine.execZoneOpen n s
  | .zoneClose n => Sys2Proof.Machine.execZoneClose n s
  | .zoneFinish n => Sys2Proof.Machine.execZoneFinish n s
  | .zoneReset n => Sys2Proof.Machine.execZoneReset n s
  | .zoneResetComplete n => Sys2Proof.Machine.execZoneResetComplete n s
  | .zoneOffline n => Sys2Proof.Machine.execZoneOffline n s
  | .reportZones n => Sys2Proof.Machine.execReportZones n s
  | .zoneAppend n data => Sys2Proof.Machine.execZoneAppend n data s
  | .controllerReset f shn => Sys2Proof.Machine.execControllerReset f shn s
  | .functionLevelReset f => Sys2Proof.Machine.execFunctionLevelReset f s
  | .controllerResetSlotsFree f => Sys2Proof.Machine.execControllerResetSlotsFree f s
  | .controllerEnable f cc asqs acqs width speed => Sys2Proof.Machine.execControllerEnable f cc asqs acqs width speed s
  | .hqeClrCnt => Sys2Proof.Machine.execHqeClrCnt s
  | .cloudburstTrigger x => Sys2Proof.Machine.execCloudburstTrigger x s
  | .cloudburstEnd b => Sys2Proof.Machine.execCloudburstEnd b s
  | .precautionaryDumpEnd cost => Sys2Proof.Machine.execPrecautionaryDumpEnd cost s
  | .bufferRead n off len use requester e => Sys2Proof.Machine.execBufferRead n off len use requester e s
  | .bufferWrite n bytes requester => Sys2Proof.Machine.execBufferWrite n bytes requester s
  | .drizzleRecompute now raced e => Sys2Proof.Machine.execDrizzleRecompute now raced e s
  | .drizzleScrub use raced e => Sys2Proof.Machine.execDrizzleScrub use raced e s
  | .dqsOscCheck drifted => Sys2Proof.Machine.execDqsOscCheck drifted s
  | .dramRetrain ch ok => Sys2Proof.Machine.execDramRetrain ch ok s
  | .mpcRequest line w issued x => Sys2Proof.Machine.execMpcRequest line w issued x s
  | .evictionWritebackDone line => Sys2Proof.Machine.execEvictionWritebackDone line s
  | .mpcLock => Sys2Proof.Machine.execMpcLock s
  | .mpcUnlock => Sys2Proof.Machine.execMpcUnlock s
  | .mpcClean => Sys2Proof.Machine.execMpcClean s
  | .mpcInvalidate => Sys2Proof.Machine.execMpcInvalidate s
  | .mpcCleanInvalidate => Sys2Proof.Machine.execMpcCleanInvalidate s
  | .mpcRangeEnd => Sys2Proof.Machine.execMpcRangeEnd s
  | .dmaLoad => Sys2Proof.Machine.execDmaLoad s
  | .dmaStop => Sys2Proof.Machine.execDmaStop s
  | .dmaClear => Sys2Proof.Machine.execDmaClear s
  | .dmaDescriptorDone c => Sys2Proof.Machine.execDmaDescriptorDone c s
  | .dmaReadRequest c mrrs => Sys2Proof.Machine.execDmaReadRequest c mrrs s
  | .dmaReadCompletion c at0 bytes => Sys2Proof.Machine.execDmaReadCompletion c at0 bytes s
  | .orderingReadComplete c ok => Sys2Proof.Machine.execOrderingReadComplete c ok s
  | .bmcClrErr => Sys2Proof.Machine.execBmcClrErr s
  | .bmcClrCnt => Sys2Proof.Machine.execBmcClrCnt s
  | .mpcClrCnt => Sys2Proof.Machine.execMpcClrCnt s
  | .dmaClrCnt => Sys2Proof.Machine.execDmaClrCnt s
  | .psaRead x found => Sys2Proof.Machine.execPsaRead x found s
  | .psaProgram x found => Sys2Proof.Machine.execPsaProgram x found s
  | .psaErase x => Sys2Proof.Machine.execPsaErase x s
  | .psaBlank x found => Sys2Proof.Machine.execPsaBlank x found s
  | .psaMarginRead x found => Sys2Proof.Machine.execPsaMarginRead x found s
  | .psaFrontierLoad x => Sys2Proof.Machine.execPsaFrontierLoad x s
  | .psaPulseEnd x pass => Sys2Proof.Machine.execPsaPulseEnd x pass s
  | .psaDieReady grp => Sys2Proof.Machine.execPsaDieReady grp s
  | .psaDieTimeout grp done => Sys2Proof.Machine.execPsaDieTimeout grp done s
  | .brownOutTrip => Sys2Proof.Machine.execBrownOutTrip s
  | .pctSuspend d => Sys2Proof.Machine.execPctSuspend d s
  | .pctResume d => Sys2Proof.Machine.execPctResume d s
  | .pctClrCnt => Sys2Proof.Machine.execPctClrCnt s
  | .meterSample x => Sys2Proof.Machine.execMeterSample x s
  | .meterBinEnd => Sys2Proof.Machine.execMeterBinEnd s
  | .reserveRecompute => Sys2Proof.Machine.execReserveRecompute s
  | .mtrLoRead => Sys2Proof.Machine.execMtrLoRead s
  | .dcostMeasure v => Sys2Proof.Machine.execDcostMeasure v s
  | .testDump v => Sys2Proof.Machine.execTestDump v s
  | .governorWindowEnd pIdle pMc => Sys2Proof.Machine.execGovernorWindowEnd pIdle pMc s
  | .vcoreStep lower => Sys2Proof.Machine.execVcoreStep lower s
  | .tmnSchedule => Sys2Proof.Machine.execTmnSchedule s
  | .tmnRequest n => Sys2Proof.Machine.execTmnRequest n s
  | .tmnConversionDone t atEnd => Sys2Proof.Machine.execTmnConversionDone t atEnd s
  | .tmnClrCnt => Sys2Proof.Machine.execTmnClrCnt s
  | .calRun => Sys2Proof.Machine.execCalRun s
  | .calDue n => Sys2Proof.Machine.execCalDue n s
  | .calRunEnd n reader result targets => Sys2Proof.Machine.execCalRunEnd n reader result targets s
  | .calStepApply n => Sys2Proof.Machine.execCalStepApply n s
  | .hello h x => Sys2Proof.Machine.execHello h x s
  | .tdlHeartbeat h b => Sys2Proof.Machine.execTdlHeartbeat h b s
  | .tdlAck h mseq late => Sys2Proof.Machine.execTdlAck h mseq late s
  | .mediaReq h r => Sys2Proof.Machine.execMediaReq h r s
  | .mediaCancel h tag => Sys2Proof.Machine.execMediaCancel h tag s
  | .mediaEnd h tag cls => Sys2Proof.Machine.execMediaEnd h tag cls s
  | .tdlClaim h tag claim => Sys2Proof.Machine.execTdlClaim h tag claim s
  | .claimReply h tag won => Sys2Proof.Machine.execClaimReply h tag won s
  | .handoffReq h acts spindle => Sys2Proof.Machine.execHandoffReq h acts spindle s
  | .handoffState h targets spindle => Sys2Proof.Machine.execHandoffState h targets spindle s
  | .handoffDone h => Sys2Proof.Machine.execHandoffDone h s
  | .serveXfer h mseq => Sys2Proof.Machine.execServeXfer h mseq s
  | .tdlFault h => Sys2Proof.Machine.execTdlFault h s
  | .tdlSlot h mseq r => Sys2Proof.Machine.execTdlSlot h mseq r s
  | .tdlData h mseq slot key v need => Sys2Proof.Machine.execTdlData h mseq slot key v need s
  | .tdlJournal h mseq seq slot final ops assigned => Sys2Proof.Machine.execTdlJournal h mseq seq slot final ops assigned s
  | .commitDone h mseq slot cid => Sys2Proof.Machine.execCommitDone h mseq slot cid s
  | .tdlRelease h mseq keys => Sys2Proof.Machine.execTdlRelease h mseq keys s
  | .readData h tag vals => Sys2Proof.Machine.execReadData h tag vals s
  | .flitReplayTimeout => Sys2Proof.Machine.execFlitReplayTimeout s
  | .tdlRetrainDone => Sys2Proof.Machine.execTdlRetrainDone s
  | .mirrorResendTimeout => Sys2Proof.Machine.execMirrorResendTimeout s
  | .heartbeatSendTick => Sys2Proof.Machine.execHeartbeatSendTick s
  | .tdlSilence => Sys2Proof.Machine.execTdlSilence s
  | .carillonAbsence => Sys2Proof.Machine.execCarillonAbsence s
  | .handoffArm => Sys2Proof.Machine.execHandoffArm s
  | .handoffDisarm => Sys2Proof.Machine.execHandoffDisarm s
  | .handoffJobTimeout => Sys2Proof.Machine.execHandoffJobTimeout s
  | .serveXferDrainTimeout => Sys2Proof.Machine.execServeXferDrainTimeout s
  | .helloWaitTimeout => Sys2Proof.Machine.execHelloWaitTimeout s
  | .tdlClrCnt => Sys2Proof.Machine.execTdlClrCnt s
  | .grantRequest h m => Sys2Proof.Machine.execGrantRequest h m s
  | .grant h m => Sys2Proof.Machine.execGrant h m s
  | .grantQueued h m => Sys2Proof.Machine.execGrantQueued h m s
  | .grantDeny h m => Sys2Proof.Machine.execGrantDeny h m s
  | .grantRelease h m => Sys2Proof.Machine.execGrantRelease h m s
  | .seekSlot h m => Sys2Proof.Machine.execSeekSlot h m s
  | .clpPhase h m => Sys2Proof.Machine.execClpPhase h m s
  | .clpHeartbeat h b => Sys2Proof.Machine.execClpHeartbeat h b s
  | .clpDialect h d => Sys2Proof.Machine.execClpDialect h d s
  | .tocsin h m => Sys2Proof.Machine.execTocsin h m s
  | .neighborSolicitation target => Sys2Proof.Machine.execNeighborSolicitation target s
  | .clpTransmit collisions => Sys2Proof.Machine.execClpTransmit collisions s
  | .plcaFallback => Sys2Proof.Machine.execPlcaFallback s
  | .plcaBeacon => Sys2Proof.Machine.execPlcaBeacon s
  | .xchgArm n tmo reqid => Sys2Proof.Machine.execXchgArm n tmo reqid s
  | .xchgExpiry n => Sys2Proof.Machine.execXchgExpiry n s
  | .spinStartNeeded => Sys2Proof.Machine.execSpinStartNeeded s
  | .spinBackoffEnd => Sys2Proof.Machine.execSpinBackoffEnd s
  | .grantExpiry subject reqid => Sys2Proof.Machine.execGrantExpiry subject reqid s
  | .grantQueueLapse subject reqid => Sys2Proof.Machine.execGrantQueueLapse subject reqid s
  | .seekSlotSilence => Sys2Proof.Machine.execSeekSlotSilence s
  | .tocsinRepeat event => Sys2Proof.Machine.execTocsinRepeat event s
  | .clpClrCnt => Sys2Proof.Machine.execClpClrCnt s
  | .por vin b => Sys2Proof.Machine.execPor vin b s
  | .ioReady => Sys2Proof.Machine.execIoReady s
  | .resetN low b => Sys2Proof.Machine.execResetN low b s
  | .resetDumpEnd b => Sys2Proof.Machine.execResetDumpEnd b s
  | .watchdogKick key => Sys2Proof.Machine.execWatchdogKick key s
  | .watchdogExpiry => Sys2Proof.Machine.execWatchdogExpiry s
  | .softReset => Sys2Proof.Machine.execSoftReset s
  | .unitResetMc k => Sys2Proof.Machine.execUnitResetMc k s
  | .unitResetSce => Sys2Proof.Machine.execUnitResetSce s
  | .unitResetScu => Sys2Proof.Machine.execUnitResetScu s
  | .unitResetPct => Sys2Proof.Machine.execUnitResetPct s
  | .unitResetTdl => Sys2Proof.Machine.execUnitResetTdl s
  | .unitResetClp => Sys2Proof.Machine.execUnitResetClp s
  | .sysClrWdog => Sys2Proof.Machine.execSysClrWdog s
  | .bypass => Sys2Proof.Machine.execBypass s
  | .idcode => Sys2Proof.Machine.execIdcode s
  | .samplePreload cells => Sys2Proof.Machine.execSamplePreload cells s
  | .extest => Sys2Proof.Machine.execExtest s
  | .clamp => Sys2Proof.Machine.execClamp s
  | .highz => Sys2Proof.Machine.execHighz s
  | .devrst => Sys2Proof.Machine.execDevrst s
  | .csracc write a v => Sys2Proof.Machine.execCsracc write a v s
  | .mckSynPop => Sys2Proof.Machine.execMckSynPop s
  | .evrFirmwarePost cls id detail => Sys2Proof.Machine.execEvrFirmwarePost cls id detail s
  | .evrRecord => Sys2Proof.Machine.execEvrRecord s
  | .evrClrCnt => Sys2Proof.Machine.execEvrClrCnt s
  | .mckClrCnt => Sys2Proof.Machine.execMckClrCnt s
  | .porAssert => Sys2Proof.Machine.execPorAssert s
  | .lossOfLaneLock => Sys2Proof.Machine.execLossOfLaneLock s
  | .tdlNak h => Sys2Proof.Machine.execTdlNak h s
  | .flitDropped bytes => Sys2Proof.Machine.execFlitDropped bytes s
  | .vfEnableClear pf => Sys2Proof.Machine.execVfEnableClear pf s
  | .persistentLinkError ch => Sys2Proof.Machine.execPersistentLinkError ch s
  | .rdecodeReport k q => Sys2Proof.Machine.execRdecodeReport k q s
  | .granterRestartWaitEnd => Sys2Proof.Machine.execGranterRestartWaitEnd s

end Sys2Proof.Machine
end

