-- ==== Sys2Proof/Safety.lean ====
section
/-! DEFINITION. What counts as a safe run, which parts of the machine each command may touch, and the canonical form of its tables,
in the terms that statements use. -/

namespace Sys2Proof.Machine

/-- The step answers a next state: it neither faults nor refuses. -/
def completes (s : State) : Prop := ∃ t, step s = .next t

/-- What running the queue's first `n` commands reaches, where no step stops. -/
def reaches : Nat → State → State → Prop
  | 0, s, t => s = t
  | n + 1, s, t => ∃ u, step s = .next u ∧ reaches n u t

/-! ### The canonical form of the tables -/

/-- The register files of the units are canonical tables. -/
def regsWf (s : State) : Bool :=
  twf 0 s.sys.csr && twf 0 s.evr.csr && twf 0 s.mck.csr && twf 0 s.mcs.m0.csr && twf 0 s.mcs.m1.csr && twf 0 s.mcs.m2.csr &&
  twf 0 s.mcs.m3.csr && twf 0 s.sce.csr && twf 0 s.scu.csr && twf 0 s.tdl.csr && twf 0 s.ple.csr && twf 0 s.hqe.csr &&
  twf 0 s.elg.csr && twf 0 s.bmc.csr && twf 0 s.mpc.csr && twf 0 s.dma.csr && twf 0 s.pct.csr && twf 0 s.tmn.csr &&
  twf 0 s.cal.csr && twf 0 s.clp.csr

/-! ### What a command may touch -/

/-- The parts of the state: a unit, the pins, the media, the memories, what outlasts resets, and the count of open values. -/
inductive Piece where
  | sys
  | evr
  | mck
  | pins
  | mcs
  | media
  | mem
  | staging
  | sce
  | scu
  | tdl
  | ple
  | hqe
  | nv
  | elg
  | bmc
  | mpc
  | dma
  | pct
  | tmn
  | cal
  | clp
  | free
  deriving DecidableEq, Repr

/-- A part is the same in two states. -/
def same (p : Piece) (s t : State) : Prop :=
  match p with
  | .sys => t.sys = s.sys
  | .evr => t.evr = s.evr
  | .mck => t.mck = s.mck
  | .pins => t.pins = s.pins
  | .mcs => t.mcs = s.mcs
  | .media => t.media = s.media
  | .mem => t.mem = s.mem
  | .staging => t.staging = s.staging
  | .sce => t.sce = s.sce
  | .scu => t.scu = s.scu
  | .tdl => t.tdl = s.tdl
  | .ple => t.ple = s.ple
  | .hqe => t.hqe = s.hqe
  | .nv => t.nv = s.nv
  | .elg => t.elg = s.elg
  | .bmc => t.bmc = s.bmc
  | .mpc => t.mpc = s.mpc
  | .dma => t.dma = s.dma
  | .pct => t.pct = s.pct
  | .tmn => t.tmn = s.tmn
  | .cal => t.cal = s.cal
  | .clp => t.clp = s.clp
  | .free => t.free = s.free

/-- The families of the commands, in the order of spec/opcode_table.json. -/
inductive Family where
  | fabric
  | media
  | sequencer
  | motion
  | motor
  | placement
  | queues
  | adminCmd
  | ioCmd
  | buffers
  | arrays
  | power
  | link
  | carillon
  | resets
  | records
  deriving DecidableEq, Repr

/-- What a register write may touch: every part but the Staging Buffer, or all. -/
def csrPieces : List Piece := [.sys, .evr, .mck, .pins, .mcs, .media, .mem, .staging, .sce, .scu, .tdl, .ple, .hqe, .nv, .elg,
  .bmc, .mpc, .dma, .pct, .tmn, .cal, .clp, .free]
/-- What rows in which a job may end may touch. -/
def jobPieces : List Piece := [.mcs, .free]
/-- What a microword may touch. -/
def wordPieces : List Piece := [.sys, .evr, .mck, .mcs, .media, .mem, .staging, .sce, .scu, .tdl, .ple, .hqe, .nv, .bmc, .dma,
  .pct, .clp, .free]
/-- Parts that some rows touch together. -/
def pieces3 : List Piece := [.sys, .evr, .mck, .mcs, .media, .mem, .sce, .scu, .tdl, .ple, .hqe, .nv, .bmc, .dma, .pct, .clp,
  .free]
/-- What the rows of commands and candidates may touch: the host queues, placement, the link, DMA, Job Tables, and what is persistent. -/
def slotPieces : List Piece := [.sys, .evr, .mck, .mcs, .mem, .tdl, .ple, .hqe, .nv, .bmc, .dma, .pct, .free]
/-- Parts that some rows touch together. -/
def pieces5 : List Piece := [.sys, .evr, .mck, .sce, .free]
/-- Parts that some rows touch together. -/
def pieces6 : List Piece := [.sys, .evr, .mck, .pins, .mem, .scu, .bmc, .clp, .free]
/-- Parts that some rows touch together. -/
def pieces7 : List Piece := [.sys, .evr, .mck, .mcs, .mem, .staging, .tdl, .ple, .hqe, .nv, .bmc, .dma, .pct, .free]
/-- Parts that some rows touch together. -/
def pieces8 : List Piece := [.sys, .evr, .mck, .mem, .hqe, .nv, .elg, .bmc, .mpc, .free]
/-- Parts that some rows touch together. -/
def pieces9 : List Piece := [.sys, .evr, .mck, .mem, .bmc, .mpc, .free]
/-- Parts that some rows touch together. -/
def pieces10 : List Piece := [.sys, .evr, .mck, .mem, .bmc, .pct, .free]
/-- Parts that some rows touch together. -/
def pieces11 : List Piece := [.sys, .evr, .mck, .mcs, .media, .mem, .sce, .scu, .tdl, .ple, .hqe, .nv, .elg, .bmc, .dma, .pct,
  .clp, .free]
/-- Parts that some rows touch together. -/
def pieces12 : List Piece := [.sys, .evr, .mck, .mem, .scu, .bmc, .clp, .free]
/-- Parts that some rows touch together. -/
def pieces13 : List Piece := [.sys, .evr, .mck, .mem, .bmc, .clp, .free]
/-- Parts that some rows touch together. -/
def pieces14 : List Piece := [.sys, .evr, .mck, .pins, .mcs, .mem, .staging, .sce, .scu, .tdl, .ple, .hqe, .nv, .elg, .bmc,
  .mpc, .dma, .pct, .tmn, .cal, .clp]

/-- The family of each command, and the parts of the state that it may touch; every other part it leaves as it is. -/
def footprint (c : Instr) : Family × List Piece :=
  match c with
  | .csrWrite _ _ _ => (.fabric, csrPieces)
  | .paceWindowEnd _ => (.fabric, [.sys, .evr, .mck, .pins, .mcs, .mem, .sce, .ple, .nv, .elg, .bmc, .clp, .free])
  | .fabClrPacemin => (.fabric, [.sys])
  | .fabClrDec => (.fabric, [.sys])
  | .fabClrArb => (.fabric, [.sys])
  | .cbpFault _ => (.fabric, [.sys, .evr, .mck, .mcs, .media, .mem, .sce, .scu, .tdl, .ple, .hqe, .nv, .bmc, .mpc, .dma, .pct, .clp, .free])
  | .syncMarkFound _ _ _ _ => (.media, jobPieces)
  | .syncWindowClose _ _ _ _ => (.media, [.mcs, .staging, .free])
  | .timedSyncEnd _ _ => (.media, wordPieces)
  | .realignEnd _ _ => (.media, wordPieces)
  | .decodeComplete _ _ => (.media, [.mcs, .staging, .free])
  | .stripeSolveEnd _ => (.media, wordPieces)
  | .mcFmtClrRec _ => (.media, [.mcs])
  | .mcFmtClrCnt _ => (.media, [.mcs])
  | .wedgeMark _ _ => (.media, [.mcs])
  | .markWindowClose _ _ _ => (.media, [.sys, .evr, .mck, .mcs, .media, .mem, .sce, .scu, .tdl, .ple, .hqe, .nv, .bmc, .dma, .pct, .cal, .clp, .free])
  | .adcMaskApply _ => (.media, [.mcs])
  | .hfltFall _ _ => (.media, pieces3)
  | .hifFrameEnd _ _ => (.media, pieces3)
  | .hifFirmwareFrame _ _ => (.media, [.mcs])
  | .hifOwnWrite _ _ => (.media, [.mcs])
  | .hifOwnRelease _ => (.media, [.mcs])
  | .assistLeadLong _ => (.media, [.mcs])
  | .assistDutyNear _ _ => (.media, [.mcs])
  | .assistDutyLimit _ _ => (.media, pieces3)
  | .assistDutyRelease _ _ => (.media, [.mcs])
  | .mcChClrAsc _ => (.media, [.mcs, .nv])
  | .mcChClrHif _ => (.media, [.mcs])
  | .mcChClrSyn _ => (.media, [.mcs])
  | .mcChClrLdpc _ => (.media, [.mcs])
  | .seqJump _ _ => (.sequencer, wordPieces)
  | .seqBranch _ _ => (.sequencer, wordPieces)
  | .seqDispatch _ _ => (.sequencer, wordPieces)
  | .seqCall _ _ => (.sequencer, wordPieces)
  | .seqReturn _ _ => (.sequencer, wordPieces)
  | .seqWait _ _ => (.sequencer, wordPieces)
  | .seqLoop _ _ => (.sequencer, wordPieces)
  | .seqHalt _ _ => (.sequencer, wordPieces)
  | .haltPadEnd _ => (.sequencer, pieces3)
  | .waitPass _ _ => (.sequencer, pieces3)
  | .msqTimerExpiry _ _ => (.sequencer, pieces3)
  | .waitWatchdog _ => (.sequencer, pieces3)
  | .storeScrub _ _ _ => (.sequencer, [.sys, .evr, .mck, .mcs, .free])
  | .jtArm _ _ => (.sequencer, [.mcs])
  | .jtCancel _ _ => (.sequencer, pieces3)
  | .cancelEffect _ => (.sequencer, pieces3)
  | .jobBegin _ _ _ => (.sequencer, pieces3)
  | .msqEnWrite _ _ => (.sequencer, [.mcs])
  | .jtDoneClear _ _ => (.sequencer, [.mcs])
  | .evtLoRead _ => (.sequencer, [.sys, .mcs])
  | .evtHiRead _ => (.sequencer, [.sys, .mcs])
  | .traceRead _ => (.sequencer, [.sys, .mcs])
  | .storeLane0Read _ => (.sequencer, [.sys, .mcs])
  | .storeWordCommit _ _ => (.sequencer, [.mcs])
  | .msqClrEvt _ => (.sequencer, [.mcs])
  | .msqClrTrace _ => (.sequencer, [.mcs])
  | .msqClrCnt _ => (.sequencer, [.mcs])
  | .microprogramLoad _ _ => (.sequencer, slotPieces)
  | .microprogramLoadQuiesced _ => (.sequencer, slotPieces)
  | .microprogramLoadTimeout _ => (.sequencer, slotPieces)
  | .runSequenceWrite _ _ => (.sequencer, slotPieces)
  | .runSequenceRead _ => (.sequencer, slotPieces)
  | .runSequenceComplete _ _ _ _ _ => (.sequencer, slotPieces)
  | .servoSample _ _ => (.motion, [.sys, .evr, .mck, .pins, .mcs, .media, .mem, .sce, .scu, .tdl, .ple, .hqe, .nv, .bmc, .dma, .pct, .cal, .clp, .free])
  | .loopResultReady _ _ => (.motion, [.sce])
  | .loopDeadline _ _ => (.motion, pieces5)
  | .outputRelease _ => (.motion, [.sce, .scu])
  | .pslFrameSend _ => (.motion, [.sce])
  | .pslReply _ _ _ => (.motion, [.sys, .evr, .mck, .pins, .mcs, .media, .mem, .sce, .scu, .tdl, .ple, .hqe, .nv, .bmc, .dma, .pct, .clp, .free])
  | .spindleLoopTick => (.motion, [.sce])
  | .actSeek _ _ _ _ => (.motion, [.sce])
  | .actLoad _ _ _ _ => (.motion, [.sce])
  | .actUnload _ _ _ _ => (.motion, [.sce])
  | .actHold _ _ _ _ => (.motion, [.sce])
  | .zrebuild => (.motion, [.sce])
  | .zrebuildEnd => (.motion, [.sce])
  | .coefSwap _ => (.motion, [.sce])
  | .lostTimeout _ => (.motion, pieces5)
  | .loadTimeout _ => (.motion, pieces5)
  | .unloadBemfLow _ => (.motion, [.sys, .pins, .sce])
  | .unloadTimeout _ => (.motion, [.sys, .pins, .sce])
  | .spsyncEdge _ _ => (.motion, [.sce])
  | .spsyncMissing => (.motion, [.sce])
  | .pslRegWrite _ _ => (.motion, [.sce])
  | .pslRegRead _ => (.motion, [.sce])
  | .actEnWrite _ _ => (.motion, [.sys, .pins, .sce])
  | .sceClrPsl => (.motion, [.sce])
  | .sceClrAct => (.motion, [.sce])
  | .sceClrFin => (.motion, [.sce])
  | .sceClrLate => (.motion, [.sce])
  | .sceClrOvr => (.motion, [.sce])
  | .pwmHalfPeriod _ => (.motor, [.sys, .evr, .mck, .pins, .mem, .sce, .scu, .tdl, .ple, .hqe, .nv, .elg, .bmc, .pct, .clp, .free])
  | .bemfZeroCrossing _ => (.motor, [.sys, .evr, .mck, .pins, .mcs, .media, .mem, .sce, .scu, .ple, .bmc, .clp, .free])
  | .floatWindowClose _ => (.motor, pieces6)
  | .scuCmdStart => (.motor, pieces6)
  | .scuCmdStop => (.motor, pieces6)
  | .scuCmdCoast => (.motor, pieces6)
  | .scuCmdCatch => (.motor, [.sys, .evr, .mck, .pins, .mcs, .media, .mem, .sce, .scu, .ple, .bmc, .clp, .free])
  | .scuCmdRectify => (.motor, pieces6)
  | .alignTimeout => (.motor, pieces6)
  | .lockedRotor => (.motor, pieces6)
  | .lockedRotorRetry => (.motor, pieces6)
  | .catchTimeout => (.motor, [.sys, .evr, .mck, .pins, .mem, .sce, .scu, .bmc, .clp, .free])
  | .brakeHoldEnd => (.motor, pieces6)
  | .coastTimeout => (.motor, pieces6)
  | .scuDriveWrite _ => (.motor, [.sys, .evr, .mck, .pins, .mcs, .media, .mem, .sce, .scu, .tdl, .ple, .bmc, .clp, .free])
  | .scuClrCnt => (.motor, [.scu])
  | .schedulerDecision _ _ => (.placement, pieces7)
  | .heatDecay => (.placement, slotPieces)
  | .echoDrop _ _ => (.placement, slotPieces)
  | .compactionStart _ => (.placement, slotPieces)
  | .compactionCommit => (.placement, slotPieces)
  | .journalUnitFlush => (.placement, slotPieces)
  | .snapshotStart => (.placement, slotPieces)
  | .zoneMoveSwitch _ _ _ => (.placement, slotPieces)
  | .mapWaitRelease _ => (.placement, slotPieces)
  | .mapWaitExpiry _ => (.placement, slotPieces)
  | .pleClrClaim => (.placement, [.ple])
  | .pleClrDue => (.placement, [.ple])
  | .pleClrMaxw => (.placement, [.ple])
  | .gdlAdd _ _ => (.placement, slotPieces)
  | .portReset _ => (.queues, slotPieces)
  | .linkDown _ => (.queues, slotPieces)
  | .doorbellWrite _ _ _ _ => (.queues, [.hqe])
  | .fetchTurn => (.queues, [.hqe, .free])
  | .sqEntryArrive _ _ _ => (.queues, [.sys, .evr, .mck, .mcs, .mem, .tdl, .ple, .hqe, .nv, .elg, .bmc, .dma, .pct, .free])
  | .hostMemoryError _ _ => (.queues, slotPieces)
  | .completionTimeout _ => (.queues, slotPieces)
  | .lateCompletion => (.queues, [.hqe])
  | .heldWriteAdmit _ => (.queues, slotPieces)
  | .writeAccept _ => (.queues, slotPieces)
  | .completionPost _ => (.queues, slotPieces)
  | .coalesceTimerExpiry _ _ => (.queues, [.hqe])
  | .createIoSq _ => (.adminCmd, [.hqe])
  | .createIoCq _ => (.adminCmd, [.hqe])
  | .deleteIoSq _ => (.adminCmd, slotPieces)
  | .deleteIoSqComplete _ => (.adminCmd, slotPieces)
  | .deleteIoCq _ => (.adminCmd, [.hqe])
  | .getLogPage _ => (.adminCmd, [.hqe, .tmn, .free])
  | .identify _ => (.adminCmd, [.hqe, .free])
  | .abort _ => (.adminCmd, slotPieces)
  | .setFeatures _ => (.adminCmd, [.tdl, .ple, .hqe, .nv, .elg, .bmc, .pct])
  | .getFeatures _ => (.adminCmd, [.hqe, .tmn])
  | .asyncEventRequest _ => (.adminCmd, [.hqe])
  | .namespaceCreate _ _ => (.adminCmd, slotPieces)
  | .namespaceDelete _ => (.adminCmd, slotPieces)
  | .namespaceAttachment _ _ => (.adminCmd, [.hqe])
  | .firmwareImageDownload _ _ => (.adminCmd, [.hqe, .nv])
  | .firmwareCommit _ _ => (.adminCmd, [.hqe, .nv])
  | .firmwareActivate _ _ => (.adminCmd, slotPieces)
  | .firmwareActivateDrainTimeout => (.adminCmd, slotPieces)
  | .firmwareActivateDone => (.adminCmd, slotPieces)
  | .directiveSend _ => (.adminCmd, [.tdl, .ple, .hqe])
  | .directiveReceive _ => (.adminCmd, [.hqe])
  | .formatNvm _ => (.adminCmd, slotPieces)
  | .formatComplete _ => (.adminCmd, slotPieces)
  | .sanitizeExitFailure _ => (.adminCmd, [.hqe, .nv])
  | .sanitizeOverwrite _ => (.adminCmd, pieces7)
  | .sanitizeCryptoErase _ => (.adminCmd, pieces7)
  | .sanitizeBandDone _ => (.adminCmd, [.sys, .evr, .mck, .mcs, .media, .mem, .tdl, .ple, .hqe, .nv, .bmc, .dma, .pct, .free])
  | .recorderRead _ => (.adminCmd, [.hqe])
  | .csrReadCmd _ => (.adminCmd, [.sys, .mck, .mcs, .sce, .scu, .hqe, .elg])
  | .csrWriteCmd _ => (.adminCmd, csrPieces)
  | .nonceRequest _ => (.adminCmd, [.hqe, .free])
  | .unlockToken _ _ => (.adminCmd, [.hqe])
  | .unlockEnd _ => (.adminCmd, [.hqe])
  | .nonceExpiry => (.adminCmd, [.hqe])
  | .unlockExpiry => (.adminCmd, [.hqe])
  | .flush _ => (.ioCmd, slotPieces)
  | .write _ _ => (.ioCmd, slotPieces)
  | .read _ => (.ioCmd, slotPieces)
  | .writeZeroes _ => (.ioCmd, slotPieces)
  | .datasetManagement _ _ => (.ioCmd, slotPieces)
  | .verify _ => (.ioCmd, slotPieces)
  | .zoneOpen _ => (.ioCmd, slotPieces)
  | .zoneClose _ => (.ioCmd, slotPieces)
  | .zoneFinish _ => (.ioCmd, slotPieces)
  | .zoneReset _ => (.ioCmd, slotPieces)
  | .zoneResetComplete _ => (.ioCmd, slotPieces)
  | .zoneOffline _ => (.ioCmd, slotPieces)
  | .reportZones _ => (.ioCmd, slotPieces)
  | .zoneAppend _ _ => (.ioCmd, slotPieces)
  | .controllerReset _ _ => (.ioCmd, slotPieces)
  | .functionLevelReset _ => (.ioCmd, slotPieces)
  | .controllerResetSlotsFree _ => (.ioCmd, slotPieces)
  | .controllerEnable _ _ _ _ _ _ => (.ioCmd, slotPieces)
  | .hqeClrCnt => (.ioCmd, [.hqe])
  | .cloudburstTrigger _ => (.buffers, [.sys, .evr, .mck, .pins, .mem, .sce, .scu, .tdl, .ple, .hqe, .nv, .elg, .bmc, .pct, .clp, .free])
  | .cloudburstEnd _ => (.buffers, csrPieces)
  | .precautionaryDumpEnd _ => (.buffers, [.sys, .evr, .mck, .pins, .mcs, .mem, .staging, .sce, .scu, .tdl, .ple, .hqe, .nv, .elg, .bmc, .mpc, .dma, .pct, .tmn, .cal, .clp, .free])
  | .bufferRead _ _ _ _ _ _ => (.buffers, csrPieces)
  | .bufferWrite _ _ _ => (.buffers, [.sys, .evr, .mck, .mem, .bmc, .free])
  | .drizzleRecompute _ _ _ => (.buffers, csrPieces)
  | .drizzleScrub _ _ _ => (.buffers, csrPieces)
  | .dqsOscCheck _ => (.buffers, [.bmc])
  | .dramRetrain _ _ => (.buffers, csrPieces)
  | .mpcRequest _ _ _ _ => (.buffers, pieces8)
  | .evictionWritebackDone _ => (.buffers, pieces8)
  | .mpcLock => (.buffers, pieces8)
  | .mpcUnlock => (.buffers, [.mpc])
  | .mpcClean => (.buffers, pieces9)
  | .mpcInvalidate => (.buffers, pieces9)
  | .mpcCleanInvalidate => (.buffers, pieces9)
  | .mpcRangeEnd => (.buffers, pieces9)
  | .dmaLoad => (.buffers, [.dma])
  | .dmaStop => (.buffers, slotPieces)
  | .dmaClear => (.buffers, slotPieces)
  | .dmaDescriptorDone _ => (.buffers, slotPieces)
  | .dmaReadRequest _ _ => (.buffers, [.dma])
  | .dmaReadCompletion _ _ _ => (.buffers, pieces7)
  | .orderingReadComplete _ _ => (.buffers, slotPieces)
  | .bmcClrErr => (.buffers, [.bmc])
  | .bmcClrCnt => (.buffers, [.bmc])
  | .mpcClrCnt => (.buffers, [.mpc])
  | .dmaClrCnt => (.buffers, [.dma])
  | .psaRead _ _ => (.arrays, pieces10)
  | .psaProgram _ _ => (.arrays, pieces10)
  | .psaErase _ => (.arrays, pieces10)
  | .psaBlank _ _ => (.arrays, pieces10)
  | .psaMarginRead _ _ => (.arrays, pieces10)
  | .psaFrontierLoad _ => (.arrays, pieces10)
  | .psaPulseEnd _ _ => (.arrays, [.pct])
  | .psaDieReady _ => (.arrays, [.sys, .evr, .mck, .mem, .hqe, .nv, .elg, .bmc, .pct, .free])
  | .psaDieTimeout _ _ => (.arrays, [.sys, .evr, .mck, .mem, .hqe, .nv, .elg, .bmc, .pct, .free])
  | .brownOutTrip => (.arrays, pieces10)
  | .pctSuspend _ => (.arrays, [.pct])
  | .pctResume _ => (.arrays, [.pct])
  | .pctClrCnt => (.arrays, [.pct])
  | .meterSample _ => (.power, [.pins, .elg])
  | .meterBinEnd => (.power, [.elg])
  | .reserveRecompute => (.power, [.evr, .nv, .elg, .free])
  | .mtrLoRead => (.power, [.sys, .elg])
  | .dcostMeasure _ => (.power, [.elg, .free])
  | .testDump _ => (.power, [.elg, .free])
  | .governorWindowEnd _ _ => (.power, [.ple, .elg])
  | .vcoreStep _ => (.power, [.elg])
  | .tmnSchedule => (.power, [.tmn])
  | .tmnRequest _ => (.power, [.tmn])
  | .tmnConversionDone _ _ => (.power, [.sys, .evr, .mck, .mem, .hqe, .elg, .bmc, .tmn, .clp, .free])
  | .tmnClrCnt => (.power, [.tmn])
  | .calRun => (.power, [.cal])
  | .calDue _ => (.power, [.cal])
  | .calRunEnd _ _ _ _ => (.power, [.sys, .evr, .mck, .mcs, .mem, .sce, .scu, .nv, .elg, .bmc, .cal, .free])
  | .calStepApply _ => (.power, [.sys, .evr, .mck, .mcs, .mem, .sce, .scu, .nv, .elg, .bmc, .cal, .free])
  | .hello _ _ => (.link, pieces3)
  | .tdlHeartbeat _ _ => (.link, pieces11)
  | .tdlAck _ _ _ => (.link, pieces3)
  | .mediaReq _ _ => (.link, pieces3)
  | .mediaCancel _ _ => (.link, pieces3)
  | .mediaEnd _ _ _ => (.link, pieces3)
  | .tdlClaim _ _ _ => (.link, pieces3)
  | .claimReply _ _ _ => (.link, pieces3)
  | .handoffReq _ _ _ => (.link, pieces3)
  | .handoffState _ _ _ => (.link, pieces3)
  | .handoffDone _ => (.link, pieces3)
  | .serveXfer _ _ => (.link, pieces3)
  | .tdlFault _ => (.link, pieces11)
  | .tdlSlot _ _ _ => (.link, pieces3)
  | .tdlData _ _ _ _ _ _ => (.link, pieces3)
  | .tdlJournal _ _ _ _ _ _ _ => (.link, pieces3)
  | .commitDone _ _ _ _ => (.link, pieces3)
  | .tdlRelease _ _ _ => (.link, pieces3)
  | .readData _ _ _ => (.link, pieces3)
  | .flitReplayTimeout => (.link, pieces3)
  | .tdlRetrainDone => (.link, pieces3)
  | .mirrorResendTimeout => (.link, pieces3)
  | .heartbeatSendTick => (.link, pieces3)
  | .tdlSilence => (.link, pieces11)
  | .carillonAbsence => (.link, pieces11)
  | .handoffArm => (.link, pieces3)
  | .handoffDisarm => (.link, pieces3)
  | .handoffJobTimeout => (.link, pieces3)
  | .serveXferDrainTimeout => (.link, pieces3)
  | .helloWaitTimeout => (.link, pieces3)
  | .tdlClrCnt => (.link, [.tdl])
  | .grantRequest _ _ => (.carillon, pieces12)
  | .grant _ _ => (.carillon, pieces12)
  | .grantQueued _ _ => (.carillon, pieces13)
  | .grantDeny _ _ => (.carillon, pieces13)
  | .grantRelease _ _ => (.carillon, pieces12)
  | .seekSlot _ _ => (.carillon, [.sys, .evr, .mck, .mem, .ple, .bmc, .clp, .free])
  | .clpPhase _ _ => (.carillon, [.sys, .evr, .mck, .mem, .sce, .bmc, .clp, .free])
  | .clpHeartbeat _ _ => (.carillon, pieces3)
  | .clpDialect _ _ => (.carillon, pieces13)
  | .tocsin _ _ => (.carillon, pieces3)
  | .neighborSolicitation _ => (.carillon, [.clp])
  | .clpTransmit _ => (.carillon, [.nv, .pct, .clp])
  | .plcaFallback => (.carillon, [.clp])
  | .plcaBeacon => (.carillon, [.clp])
  | .xchgArm _ _ _ => (.carillon, pieces12)
  | .xchgExpiry _ => (.carillon, [.clp])
  | .spinStartNeeded => (.carillon, pieces12)
  | .spinBackoffEnd => (.carillon, [.scu, .clp])
  | .grantExpiry _ _ => (.carillon, pieces12)
  | .grantQueueLapse _ _ => (.carillon, pieces12)
  | .seekSlotSilence => (.carillon, [.ple, .clp])
  | .tocsinRepeat _ => (.carillon, pieces13)
  | .clpClrCnt => (.carillon, [.clp])
  | .por _ _ => (.resets, csrPieces)
  | .ioReady => (.resets, [.sys, .pins, .hqe])
  | .resetN _ _ => (.resets, csrPieces)
  | .resetDumpEnd _ => (.resets, csrPieces)
  | .watchdogKick _ => (.resets, [.sys])
  | .watchdogExpiry => (.resets, pieces14)
  | .softReset => (.resets, pieces14)
  | .unitResetMc _ => (.resets, pieces3)
  | .unitResetSce => (.resets, [.sys, .sce])
  | .unitResetScu => (.resets, pieces6)
  | .unitResetPct => (.resets, [.pct])
  | .unitResetTdl => (.resets, [.tdl])
  | .unitResetClp => (.resets, [.clp])
  | .sysClrWdog => (.resets, [.sys])
  | .bypass => (.resets, [.sys])
  | .idcode => (.resets, [.sys])
  | .samplePreload _ => (.resets, [.sys])
  | .extest => (.resets, [.sys])
  | .clamp => (.resets, [.sys])
  | .highz => (.resets, [.sys])
  | .devrst => (.resets, pieces14)
  | .csracc _ _ _ => (.resets, csrPieces)
  | .mckSynPop => (.records, [.sys, .mck, .mcs, .sce, .scu, .elg])
  | .evrFirmwarePost _ _ _ => (.records, [.evr])
  | .evrRecord => (.records, [.evr])
  | .evrClrCnt => (.records, [.evr])
  | .mckClrCnt => (.records, [.mck])
  | .porAssert => (.records, pieces14)
  | .lossOfLaneLock => (.records, [.evr, .tdl, .free])
  | .tdlNak _ => (.records, pieces3)
  | .flitDropped _ => (.records, [.tdl])
  | .vfEnableClear _ => (.records, slotPieces)
  | .persistentLinkError _ => (.records, csrPieces)
  | .rdecodeReport _ _ => (.records, [.mcs, .staging, .free])
  | .granterRestartWaitEnd => (.records, pieces12)

/-- The Media Channel that a command acts on, for the commands that act on one channel alone. -/
def channelOf (c : Instr) : Option (Fin 4) :=
  match c with
  | .mcFmtClrRec k => some k
  | .mcFmtClrCnt k => some k
  | .wedgeMark k _ => some k
  | .adcMaskApply k => some k
  | .hifFirmwareFrame k _ => some k
  | .hifOwnWrite k _ => some k
  | .hifOwnRelease k => some k
  | .assistLeadLong k => some k
  | .assistDutyNear k _ => some k
  | .assistDutyRelease k _ => some k
  | .mcChClrAsc k => some k
  | .mcChClrHif k => some k
  | .mcChClrSyn k => some k
  | .mcChClrLdpc k => some k
  | .jtArm k _ => some k
  | .msqEnWrite k _ => some k
  | .jtDoneClear k _ => some k
  | .evtLoRead k => some k
  | .evtHiRead k => some k
  | .traceRead k => some k
  | .storeLane0Read k => some k
  | .storeWordCommit k _ => some k
  | .msqClrEvt k => some k
  | .msqClrTrace k => some k
  | .msqClrCnt k => some k
  | _ => none

/-- A command completes from a state and leaves every part outside its footprint, the queue and the part number as they are. -/
def staysIn (c : Instr) (s : State) : Prop :=
  ∃ t, exec c s = .next t ∧ t.pending = s.pending ∧ t.part = s.part ∧ ∀ p, p ∉ (footprint c).2 → same p s t

/-! ### Where a microword leaves its job -/

/-- The channel's job was stopped with a code: the gates are low, and MSQ_STOP records the code, the entry and the address. -/
def stoppedWith (k : Fin 4) (code : Nat) (j : Job) (u : State) : Prop :=
  (mcOf u k).job = none ∧ (mcOf u k).wg = false ∧ (mcOf u k).ag = false ∧ rdB (mcOf u k).csr MSQ_STOP.STICKY = true ∧
  rdF (mcOf u k).csr MSQ_STOP.CODE = code ∧ rdF (mcOf u k).csr MSQ_STOP.JOB = j.entry % 64 ∧
  rdF (mcOf u k).csr MSQ_STOP.ADDR = j.pc % 2 ^ 14

/-- The word at the job's address is a legal word that only sequences: every field but NEXT, SEQ and COND is zero. -/
def onlySequences (s : State) (k : Fin 4) (j : Job) (w : Nat) : Prop :=
  (mcOf s k).job = some j ∧ j.mode = .words ∧ fetchWord (mcOf s k) j.pc = some w ∧ parityOk w = true ∧ w % 2 ^ 114 = 0 ∧
  j.pc < 2 ^ 14

/-- The state in which the word at the running job's address is executed: it is the last one executed, and the head has come to where
the event puts it. -/
def comesTo (k : Fin 4) (x : MsqIn) (s : State) : State :=
  headMoves k false x (modJob k (fun j => { j with lastPc := j.pc }) s)

/-- Control reaches address n with the stack and the first counter given and the job's other registers as they were; past the
last address the job stops with code 2, and from the customer region into vendor code with code 6 (R122, R124). -/
def continuesAt (k : Fin 4) (j : Job) (n : Nat) (stack : List Nat) (ctrA : Nat) (u : State) : Prop :=
  if n = 2 ^ 14 then stoppedWith k 2 j u
  else if 0x3800 ≤ j.pc ∧ 0x0100 ≤ n ∧ n ≤ 0x37FF then stoppedWith k 6 j u
  else ∃ y, (mcOf u k).job = some y ∧ y.pc = n ∧ y.mode = .words ∧ y.stack = stack ∧ y.ctrA = ctrA ∧ y.ctrB = j.ctrB ∧
    y.sp = j.sp ∧ y.bp = j.bp ∧ y.disp = j.disp ∧ y.status = j.status ∧ y.gr0 = j.gr0 ∧ y.gr1 = j.gr1 ∧ y.flags = j.flags ∧
    y.timer = j.timer ∧ y.outcome = j.outcome ∧ y.need = j.need ∧ y.writeQ = j.writeQ

end Sys2Proof.Machine
end

