-- ==== Sys2Proof/WellFormed.lean ====
section
/-! DEFINITION. Which commands are well formed: every operand within what its carrier can spell (an index within its table, a
field within its width). Commands outside it have their meaning too; no statement needs this one. -/

namespace Sys2Proof

/-- Whether every operand is within its range. -/
def Instr.wellFormed (i : Instr) : Bool :=
  match i with
  | .csrWrite _ a _ => decide (a < 2 ^ 32)
  | .paceWindowEnd tokens => decide (tokens < 65536)
  | .fabClrPacemin => true
  | .fabClrDec => true
  | .fabClrArb => true
  | .cbpFault _ => true
  | .syncMarkFound _ _ _ bits => decide (bits < 2 ^ 32)
  | .syncWindowClose _ _ _ _ => true
  | .timedSyncEnd _ _ => true
  | .realignEnd _ _ => true
  | .decodeComplete _ _ => true
  | .stripeSolveEnd _ => true
  | .mcFmtClrRec _ => true
  | .mcFmtClrCnt _ => true
  | .wedgeMark _ _ => true
  | .markWindowClose _ _ _ => true
  | .adcMaskApply _ => true
  | .hfltFall _ _ => true
  | .hifFrameEnd _ _ => true
  | .hifFirmwareFrame _ _ => true
  | .hifOwnWrite _ _ => true
  | .hifOwnRelease _ => true
  | .assistLeadLong _ => true
  | .assistDutyNear _ head => decide (head < 12)
  | .assistDutyLimit _ head => decide (head < 12)
  | .assistDutyRelease _ head => decide (head < 12)
  | .mcChClrAsc _ => true
  | .mcChClrHif _ => true
  | .mcChClrSyn _ => true
  | .mcChClrLdpc _ => true
  | .seqJump _ _ => true
  | .seqBranch _ _ => true
  | .seqDispatch _ _ => true
  | .seqCall _ _ => true
  | .seqReturn _ _ => true
  | .seqWait _ _ => true
  | .seqLoop _ _ => true
  | .seqHalt _ _ => true
  | .haltPadEnd _ => true
  | .waitPass _ _ => true
  | .msqTimerExpiry _ _ => true
  | .waitWatchdog _ => true
  | .storeScrub _ a _ => decide (a < 16384)
  | .jtArm _ e => decide (e < 64)
  | .jtCancel _ e => decide (e < 64)
  | .cancelEffect _ => true
  | .jobBegin _ e _ => decide (e < 64)
  | .msqEnWrite _ _ => true
  | .jtDoneClear _ e => decide (e < 64)
  | .evtLoRead _ => true
  | .evtHiRead _ => true
  | .traceRead _ => true
  | .storeLane0Read _ => true
  | .storeWordCommit _ _ => true
  | .msqClrEvt _ => true
  | .msqClrTrace _ => true
  | .msqClrCnt _ => true
  | .microprogramLoad n img => decide (n < 65536) && img.bytes.all (fun x => decide (x < 256))
  | .microprogramLoadQuiesced n => decide (n < 65536)
  | .microprogramLoadTimeout n => decide (n < 65536)
  | .runSequenceWrite n _ => decide (n < 65536)
  | .runSequenceRead n => decide (n < 65536)
  | .runSequenceComplete _ e _ _ n => decide (e < 64 ∧ n < 65536)
  | .servoSample _ _ => true
  | .loopResultReady _ _ => true
  | .loopDeadline _ _ => true
  | .outputRelease _ => true
  | .pslFrameSend _ => true
  | .pslReply _ _ _ => true
  | .spindleLoopTick => true
  | .actSeek _ head zone track => decide (head < 16 ∧ zone < 32 ∧ track < 2 ^ 21)
  | .actLoad _ head zone track => decide (head < 16 ∧ zone < 32 ∧ track < 2 ^ 21)
  | .actUnload _ head zone track => decide (head < 16 ∧ zone < 32 ∧ track < 2 ^ 21)
  | .actHold _ head zone track => decide (head < 16 ∧ zone < 32 ∧ track < 2 ^ 21)
  | .zrebuild => true
  | .zrebuildEnd => true
  | .coefSwap _ => true
  | .lostTimeout _ => true
  | .loadTimeout _ => true
  | .unloadBemfLow _ => true
  | .unloadTimeout _ => true
  | .spsyncEdge _ _ => true
  | .spsyncMissing => true
  | .pslRegWrite addr data => decide (addr < 128 ∧ data < 65536)
  | .pslRegRead addr => decide (addr < 128)
  | .actEnWrite _ _ => true
  | .sceClrPsl => true
  | .sceClrAct => true
  | .sceClrFin => true
  | .sceClrLate => true
  | .sceClrOvr => true
  | .pwmHalfPeriod _ => true
  | .bemfZeroCrossing _ => true
  | .floatWindowClose _ => true
  | .scuCmdStart => true
  | .scuCmdStop => true
  | .scuCmdCoast => true
  | .scuCmdCatch => true
  | .scuCmdRectify => true
  | .alignTimeout => true
  | .lockedRotor => true
  | .lockedRotorRetry => true
  | .catchTimeout => true
  | .brakeHoldEnd => true
  | .coastTimeout => true
  | .scuDriveWrite _ => true
  | .scuClrCnt => true
  | .schedulerDecision _ _ => true
  | .heatDecay => true
  | .echoDrop _ _ => true
  | .compactionStart _ => true
  | .compactionCommit => true
  | .journalUnitFlush => true
  | .snapshotStart => true
  | .zoneMoveSwitch _ _ _ => true
  | .mapWaitRelease n => decide (n < 65536)
  | .mapWaitExpiry n => decide (n < 65536)
  | .pleClrClaim => true
  | .pleClrDue => true
  | .pleClrMaxw => true
  | .gdlAdd _ _ => true
  | .portReset p => decide (p < 2)
  | .linkDown p => decide (p < 2)
  | .doorbellWrite f _ q v => decide (f < 256 ∧ q < 65536 ∧ v < 2 ^ 32)
  | .fetchTurn => true
  | .sqEntryArrive f q _ => decide (f < 256 ∧ q < 65536)
  | .hostMemoryError _ _ => true
  | .completionTimeout _ => true
  | .lateCompletion => true
  | .heldWriteAdmit n => decide (n < 65536)
  | .writeAccept n => decide (n < 65536)
  | .completionPost n => decide (n < 65536)
  | .coalesceTimerExpiry f v => decide (f < 256 ∧ v < 65536)
  | .createIoSq n => decide (n < 65536)
  | .createIoCq n => decide (n < 65536)
  | .deleteIoSq n => decide (n < 65536)
  | .deleteIoSqComplete n => decide (n < 65536)
  | .deleteIoCq n => decide (n < 65536)
  | .getLogPage n => decide (n < 65536)
  | .identify n => decide (n < 65536)
  | .abort n => decide (n < 65536)
  | .setFeatures n => decide (n < 65536)
  | .getFeatures n => decide (n < 65536)
  | .asyncEventRequest n => decide (n < 65536)
  | .namespaceCreate n _ => decide (n < 65536)
  | .namespaceDelete n => decide (n < 65536)
  | .namespaceAttachment n _ => decide (n < 65536)
  | .firmwareImageDownload n _ => decide (n < 65536)
  | .firmwareCommit n _ => decide (n < 65536)
  | .firmwareActivate n _ => decide (n < 65536)
  | .firmwareActivateDrainTimeout => true
  | .firmwareActivateDone => true
  | .directiveSend n => decide (n < 65536)
  | .directiveReceive n => decide (n < 65536)
  | .formatNvm n => decide (n < 65536)
  | .formatComplete _ => true
  | .sanitizeExitFailure n => decide (n < 65536)
  | .sanitizeOverwrite n => decide (n < 65536)
  | .sanitizeCryptoErase n => decide (n < 65536)
  | .sanitizeBandDone _ => true
  | .recorderRead n => decide (n < 65536)
  | .csrReadCmd n => decide (n < 65536)
  | .csrWriteCmd n => decide (n < 65536)
  | .nonceRequest n => decide (n < 65536)
  | .unlockToken n _ => decide (n < 65536)
  | .unlockEnd n => decide (n < 65536)
  | .nonceExpiry => true
  | .unlockExpiry => true
  | .flush n => decide (n < 65536)
  | .write n _ => decide (n < 65536)
  | .read n => decide (n < 65536)
  | .writeZeroes n => decide (n < 65536)
  | .datasetManagement n _ => decide (n < 65536)
  | .verify n => decide (n < 65536)
  | .zoneOpen n => decide (n < 65536)
  | .zoneClose n => decide (n < 65536)
  | .zoneFinish n => decide (n < 65536)
  | .zoneReset n => decide (n < 65536)
  | .zoneResetComplete n => decide (n < 65536)
  | .zoneOffline n => decide (n < 65536)
  | .reportZones n => decide (n < 65536)
  | .zoneAppend n _ => decide (n < 65536)
  | .controllerReset f _ => decide (f < 256)
  | .functionLevelReset f => decide (f < 256)
  | .controllerResetSlotsFree f => decide (f < 256)
  | .controllerEnable f _ _ _ _ _ => decide (f < 256)
  | .hqeClrCnt => true
  | .cloudburstTrigger _ => true
  | .cloudburstEnd _ => true
  | .precautionaryDumpEnd _ => true
  | .bufferRead _ off len _ _ _ => decide (off + len ≤ 4096)
  | .bufferWrite _ bytes _ => bytes.all (fun x => decide (x.1 < 4096))
  | .drizzleRecompute _ _ _ => true
  | .drizzleScrub _ _ _ => true
  | .dqsOscCheck drifted => decide (drifted < 16)
  | .dramRetrain ch _ => decide (ch < 4)
  | .mpcRequest _ _ _ _ => true
  | .evictionWritebackDone _ => true
  | .mpcLock => true
  | .mpcUnlock => true
  | .mpcClean => true
  | .mpcInvalidate => true
  | .mpcCleanInvalidate => true
  | .mpcRangeEnd => true
  | .dmaLoad => true
  | .dmaStop => true
  | .dmaClear => true
  | .dmaDescriptorDone c => decide (c < 64)
  | .dmaReadRequest c _ => decide (c < 64)
  | .dmaReadCompletion c _ _ => decide (c < 64)
  | .orderingReadComplete c _ => decide (c < 64)
  | .bmcClrErr => true
  | .bmcClrCnt => true
  | .mpcClrCnt => true
  | .dmaClrCnt => true
  | .psaRead _ _ => true
  | .psaProgram _ _ => true
  | .psaErase _ => true
  | .psaBlank _ _ => true
  | .psaMarginRead _ _ => true
  | .psaFrontierLoad _ => true
  | .psaPulseEnd _ _ => true
  | .psaDieReady _ => true
  | .psaDieTimeout _ _ => true
  | .brownOutTrip => true
  | .pctSuspend _ => true
  | .pctResume _ => true
  | .pctClrCnt => true
  | .meterSample _ => true
  | .meterBinEnd => true
  | .reserveRecompute => true
  | .mtrLoRead => true
  | .dcostMeasure _ => true
  | .testDump _ => true
  | .governorWindowEnd _ _ => true
  | .vcoreStep _ => true
  | .tmnSchedule => true
  | .tmnRequest n => decide (n < 10)
  | .tmnConversionDone _ _ => true
  | .tmnClrCnt => true
  | .calRun => true
  | .calDue n => decide (n < 14)
  | .calRunEnd n _ _ _ => decide (n < 14)
  | .calStepApply n => decide (n < 14)
  | .hello _ _ => true
  | .tdlHeartbeat _ _ => true
  | .tdlAck _ mseq _ => decide (mseq < 2 ^ 64)
  | .mediaReq _ _ => true
  | .mediaCancel _ _ => true
  | .mediaEnd _ _ _ => true
  | .tdlClaim _ _ _ => true
  | .claimReply _ _ _ => true
  | .handoffReq _ _ _ => true
  | .handoffState _ _ _ => true
  | .handoffDone _ => true
  | .serveXfer _ mseq => decide (mseq < 2 ^ 64)
  | .tdlFault _ => true
  | .tdlSlot _ mseq _ => decide (mseq < 2 ^ 64)
  | .tdlData _ mseq _ _ _ _ => decide (mseq < 2 ^ 64)
  | .tdlJournal _ mseq _ _ _ _ _ => decide (mseq < 2 ^ 64)
  | .commitDone _ mseq _ _ => decide (mseq < 2 ^ 64)
  | .tdlRelease _ mseq _ => decide (mseq < 2 ^ 64)
  | .readData _ _ _ => true
  | .flitReplayTimeout => true
  | .tdlRetrainDone => true
  | .mirrorResendTimeout => true
  | .heartbeatSendTick => true
  | .tdlSilence => true
  | .carillonAbsence => true
  | .handoffArm => true
  | .handoffDisarm => true
  | .handoffJobTimeout => true
  | .serveXferDrainTimeout => true
  | .helloWaitTimeout => true
  | .tdlClrCnt => true
  | .grantRequest _ _ => true
  | .grant _ _ => true
  | .grantQueued _ _ => true
  | .grantDeny _ _ => true
  | .grantRelease _ _ => true
  | .seekSlot _ _ => true
  | .clpPhase _ _ => true
  | .clpHeartbeat _ _ => true
  | .clpDialect _ _ => true
  | .tocsin _ _ => true
  | .neighborSolicitation _ => true
  | .clpTransmit _ => true
  | .plcaFallback => true
  | .plcaBeacon => true
  | .xchgArm n tmo reqid => decide (n < 8 ∧ tmo < 256 ∧ reqid < 65536)
  | .xchgExpiry n => decide (n < 8)
  | .spinStartNeeded => true
  | .spinBackoffEnd => true
  | .grantExpiry subject reqid => decide (subject < 65536 ∧ reqid < 65536)
  | .grantQueueLapse subject reqid => decide (subject < 65536 ∧ reqid < 65536)
  | .seekSlotSilence => true
  | .tocsinRepeat event => decide (event < 2 ^ 32)
  | .clpClrCnt => true
  | .por _ _ => true
  | .ioReady => true
  | .resetN _ _ => true
  | .resetDumpEnd _ => true
  | .watchdogKick key => decide (key < 65536)
  | .watchdogExpiry => true
  | .softReset => true
  | .unitResetMc _ => true
  | .unitResetSce => true
  | .unitResetScu => true
  | .unitResetPct => true
  | .unitResetTdl => true
  | .unitResetClp => true
  | .sysClrWdog => true
  | .bypass => true
  | .idcode => true
  | .samplePreload _ => true
  | .extest => true
  | .clamp => true
  | .highz => true
  | .devrst => true
  | .csracc _ a _ => decide (a < 2 ^ 32)
  | .mckSynPop => true
  | .evrFirmwarePost cls id _ => decide (cls < 8 ∧ id < 65536)
  | .evrRecord => true
  | .evrClrCnt => true
  | .mckClrCnt => true
  | .porAssert => true
  | .lossOfLaneLock => true
  | .tdlNak _ => true
  | .flitDropped _ => true
  | .vfEnableClear pf => decide (pf < 2)
  | .persistentLinkError ch => decide (ch < 4)
  | .rdecodeReport _ _ => true
  | .granterRestartWaitEnd => true

end Sys2Proof
end

