-- ==== Sys2Proof/Certificates/Slice0/Obligations.lean ====
section
/-! DEFINITION. Statements for the provers: what each family of commands completes with and leaves alone, what single commands do,
and what every step keeps. -/

open Sys2Proof Sys2Proof.Machine

/-- A step runs the command at the front of the queue, and an empty queue idles (Control path and data path, R26). -/
def Obligations.StepRunsTheFrontCommand : Prop :=
  (∀ (c : Instr) (rest : List Instr) (s : State), step { s with pending := c :: rest } = exec c { s with pending := rest }) ∧
  ∀ s : State, step { s with pending := [] } = .next { s with pending := [] }

/-- Every step takes exactly one command off the queue, adds none, and never changes the part number (R2, R276). -/
def Obligations.EveryStepTakesOneCommand : Prop :=
  ∀ s t : State, step s = .next t → t.pending = s.pending.tail ∧ t.part = s.part

/-- Every step keeps buffer memory in its canonical form (R303, R306). -/
def Obligations.MemoryKeepsItsCanonicalForm : Prop :=
  ∀ s t : State, Memory.wf s.mem = true → step s = .next t → Memory.wf t.mem = true

/-- Every step keeps the register files of all units canonical tables (R10, R24, R26). -/
def Obligations.RegisterFilesKeepTheirCanonicalForm : Prop :=
  ∀ s t : State, regsWf s = true → step s = .next t → regsWf t = true

/-- The state right after reset has canonical tables, an empty queue and empty buffer memory (R449, R303, R10). -/
def Obligations.ResetLeavesCanonicalTables : Prop :=
  Memory.wf State.reset.mem = true ∧ regsWf State.reset = true ∧ State.reset.pending = [] ∧ State.reset.mck.fifo = [] ∧
  State.reset.sys.dump = .none ∧ ∀ k : Fin 4, (mcOf State.reset k).job = none

/-- The rows of CSR writes, the Pace Monitor and the fabric complete within their footprint (R18, R26, R27, R15). -/
def Obligations.FabricRowsStayInTheirFootprint : Prop :=
  ∀ (c : Instr) (s : State), (footprint c).1 = .fabric → staysIn c s

/-- The rows of media format, read and write channel, assist and Head Interface complete within their footprint (R58, R61, R82,
R91, R104, R106). -/
def Obligations.MediaRowsStayInTheirFootprint : Prop :=
  ∀ (c : Instr) (s : State), (footprint c).1 = .media → staysIn c s

/-- The rows of the Media Sequencer and of Run Sequences complete within their footprint (R107, R118, R128, R130, R141, R143).
-/
def Obligations.SequencerRowsStayInTheirFootprint : Prop :=
  ∀ (c : Instr) (s : State), (footprint c).1 = .sequencer → staysIn c s

/-- The rows of servo control and the Power Stage Link complete within their footprint (R144, R155, R161, R166, R181). -/
def Obligations.MotionRowsStayInTheirFootprint : Prop :=
  ∀ (c : Instr) (s : State), (footprint c).1 = .motion → staysIn c s

/-- The rows of the spindle complete within their footprint (R168, R170, R172, R178, R181). -/
def Obligations.MotorRowsStayInTheirFootprint : Prop :=
  ∀ (c : Instr) (s : State), (footprint c).1 = .motor → staysIn c s

/-- The rows of placement and scheduling complete within their footprint (R207, R212, R217, R225, R230). -/
def Obligations.PlacementRowsStayInTheirFootprint : Prop :=
  ∀ (c : Instr) (s : State), (footprint c).1 = .placement → staysIn c s

/-- The rows of the host queues complete within their footprint (R239, R240, R248, R250, R251). -/
def Obligations.QueueRowsStayInTheirFootprint : Prop :=
  ∀ (c : Instr) (s : State), (footprint c).1 = .queues → staysIn c s

/-- The rows of admin commands complete within their footprint (R238, R252, R259, R261, R266, R267, R269, R270). -/
def Obligations.AdminCommandRowsStayInTheirFootprint : Prop :=
  ∀ (c : Instr) (s : State), (footprint c).1 = .adminCmd → staysIn c s

/-- The rows of I/O commands and of resets of controllers complete within their footprint (R260, R277, R282, R290, R292). -/
def Obligations.IoCommandRowsStayInTheirFootprint : Prop :=
  ∀ (c : Instr) (s : State), (footprint c).1 = .ioCmd → staysIn c s

/-- The rows of dumps, buffer memory, the Map Cache and DMA complete within their footprint (R297, R306, R307, R315, R324,
R332). -/
def Obligations.BufferRowsStayInTheirFootprint : Prop :=
  ∀ (c : Instr) (s : State), (footprint c).1 = .buffers → staysIn c s

/-- The rows of the Persistence Array complete within their footprint (R339, R341, R342, R347, R349, R359). -/
def Obligations.PersistenceArrayRowsStayInTheirFootprint : Prop :=
  ∀ (c : Instr) (s : State), (footprint c).1 = .arrays → staysIn c s

/-- The rows of energy, temperature and calibration complete within their footprint (R360, R374, R380, R382, R390). -/
def Obligations.PowerRowsStayInTheirFootprint : Prop :=
  ∀ (c : Instr) (s : State), (footprint c).1 = .power → staysIn c s

/-- The rows of the Tandem Link complete within their footprint (R398, R400, R402, R407, R412, R415). -/
def Obligations.LinkRowsStayInTheirFootprint : Prop :=
  ∀ (c : Instr) (s : State), (footprint c).1 = .link → staysIn c s

/-- The rows of Carillon complete within their footprint (R429, R433, R434, R437, R442, R447). -/
def Obligations.CarillonRowsStayInTheirFootprint : Prop :=
  ∀ (c : Instr) (s : State), (footprint c).1 = .carillon → staysIn c s

/-- The rows of reset, boot, watchdog and TAP complete within their footprint (R448, R449, R450, R452, R453, R463). -/
def Obligations.ResetRowsStayInTheirFootprint : Prop :=
  ∀ (c : Instr) (s : State), (footprint c).1 = .resets → (∀ v b, c = .por v b → v ≤ 6500 ∨ s.sys.phase ≠ .unpowered) → staysIn c s

/-- The rows of the Event Recorder, of machine checks and of the table's end complete within their footprint (R488, R489, R498,
R502, R474). -/
def Obligations.RecordRowsStayInTheirFootprint : Prop :=
  ∀ (c : Instr) (s : State), (footprint c).1 = .records → staysIn c s

/-- The three clears of SYS_FAB_CLR set their registers and touch nothing else (R26). -/
def Obligations.FabricClearsSetTheirCounters : Prop :=
  ∀ s : State, twf 0 s.sys.csr = true →
    (∃ c, exec .fabClrPacemin s = .next { s with sys := { s.sys with csr := c } } ∧ rdF c SYS_PACE_MIN.MIN = 0xFFFF ∧
      ∀ a, a ≠ SYS_PACE_MIN → rd c a = rd s.sys.csr a) ∧
    (∃ c, exec .fabClrDec s = .next { s with sys := { s.sys with csr := c } } ∧ rdF c SYS_FAB_DECERR.COUNT = 0 ∧
      rd c SYS_FAB_DECADDR = 0 ∧ ∀ a, a ≠ SYS_FAB_DECERR → a ≠ SYS_FAB_DECADDR → rd c a = rd s.sys.csr a) ∧
    ∃ c, exec .fabClrArb s = .next { s with sys := { s.sys with csr := c } } ∧ rdF c SYS_ARB_SLOW.COUNT = 0 ∧
      ∀ a, a ≠ SYS_ARB_SLOW → rd c a = rd s.sys.csr a

/-- A write with a decode error is counted, its address recorded, and nothing else changes (R25). -/
def Obligations.DecodeErrorIsCountedAndChangesNothingElse : Prop :=
  ∀ (bytes a : Nat) (v : Word) (s : State), twf 0 s.sys.csr = true → a < 2 ^ 32 →
    (bytes ≠ 4 ∨ a % 4 ≠ 0 ∨ 0x30000 ≤ a ∧ a ≤ 0x3FFFF ∨ 0x150000 ≤ a) →
    ∃ c, exec (.csrWrite bytes a v) s = .next (afterCsr { s with sys := { s.sys with csr := c } }) ∧
      rdF c SYS_FAB_DECERR.COUNT = min 0xFFFF (rdF s.sys.csr SYS_FAB_DECERR.COUNT + 1) ∧
      rd c SYS_FAB_DECADDR = BitVec.ofNat 32 a ∧
      ∀ b, b ≠ SYS_FAB_DECERR → b ≠ SYS_FAB_DECADDR → rd c b = rd s.sys.csr b

/-- A write of a PLE register takes effect bit by bit as the access codes say (R7, R10). -/
def Obligations.RegisterWritesFollowTheAccessCodes : Prop :=
  ∀ (off : Nat) (v : Word) (s : State), twf 0 s.ple.csr = true → off < 65536 → off % 4 = 0 → off ≠ PLE_CLR →
    ∃ c, exec (.csrWrite 4 (0x20000 + off) v) s = .next (afterCsr { s with ple := { s.ple with csr := c } }) ∧
      (∀ i, i < 32 → wordBit (rd c off) i =
        (let r := rowOf rowsPle off
         if wordBit r.w1s i && wordBit v i then true
         else if wordBit r.w1c i && wordBit v i then false
         else if wordBit r.rw i || wordBit r.rwl i && !rdB s.ple.csr PLE_CTL.LOCK then wordBit v i
         else wordBit (rd s.ple.csr off) i)) ∧
      ∀ a, a ≠ off → rd c a = rd s.ple.csr a

/-- A pace window's end publishes the count whole, tracks the minimum and raises the alarm (R18). "SYS_PACE_NOW is replaced as a
whole at the end of each window." -/
def Obligations.PaceWindowIsPublishedWhole : Prop :=
  ∀ (n : Nat) (s : State), twf 0 s.sys.csr = true → n < 65536 → rdF s.sys.csr SYS_PACE_MIN.MIN < 65536 →
    ∃ t, exec (.paceWindowEnd n) s = .next t ∧ rdF t.sys.csr SYS_PACE_NOW.TOKENS = n ∧
      rdF t.sys.csr SYS_PACE_MIN.MIN = min n (rdF s.sys.csr SYS_PACE_MIN.MIN) ∧
      rdB t.sys.csr SYS_PACE_STAT.ALARM =
        (rdB s.sys.csr SYS_PACE_STAT.ALARM || rdB s.sys.csr SYS_PACE_CTL.EN && decide (n < rdF s.sys.csr SYS_PACE_CTL.ALARM)) ∧
      csrView s SYS_PACE_NOW = rd s.sys.csr SYS_PACE_NOW ∧ csrView t SYS_PACE_NOW = rd t.sys.csr SYS_PACE_NOW ∧
      t.sys.us = s.sys.us + 1 ∧ t.hqe = s.hqe ∧ t.media = s.media ∧
      ∀ k : Fin 4, (mcOf t k).wg = (mcOf s k).wg ∧ (mcOf t k).ag = (mcOf s k).ag ∧ (mcOf t k).job = (mcOf s k).job

/-- A Clock Boundary Port fault sets its bit, and on a Media Timing Island drops that channel's gates (R15). -/
def Obligations.BoundaryPortFaultDropsTheGates : Prop :=
  (∀ (i : Fin 9) (s : State), regsWf s = true → (s.part = .dhk7420 → i.val ≠ 4 ∧ i.val ≠ 5) →
    ∃ u, exec (.cbpFault i) s = .next (settle u) ∧ wordBit (rd u.sys.csr SYS_CBP_STAT) i.val = true ∧
      (rd u.mck.csr MCK_COUNT).toNat = min 0xFFFFFFFF ((rd s.mck.csr MCK_COUNT).toNat + 1) ∧
      (i.val < 2 ∨ 5 < i.val → u.mcs = s.mcs)) ∧
  (∀ (i : Fin 9) (s : State), s.part = .dhk7420 → i.val = 4 ∨ i.val = 5 → exec (.cbpFault i) s = .next (settle s)) ∧
  ∀ (k : Fin 4) (s : State), regsWf s = true → mcAbsent s k = false →
    ∃ u, exec (.cbpFault ⟨2 + k.val, by omega⟩) s = .next (settle u) ∧ (mcOf u k).wg = false ∧ (mcOf u k).ag = false ∧
      (mcOf u k).job = none

/-- A command of one Media Channel leaves the other three channels as they are (R71, R105, R141, R3). -/
def Obligations.ChannelRowsLeaveOtherChannelsAlone : Prop :=
  ∀ (c : Instr) (k : Fin 4) (s : State), channelOf c = some k →
    ∃ t, exec c s = .next t ∧ (∀ j, j ≠ k → mcOf t j = mcOf s j) ∧
      (mcAbsent s k = true → t = { s with sys := { s.sys with rdata := t.sys.rdata } })

/-- The clears of a Media Channel zero the registers they name (R72, R106, R143, R71, R105, R141). -/
def Obligations.MediaClearsZeroTheirCounters : Prop :=
  ∀ (k : Fin 4) (s : State), twf 0 (mcOf s k).csr = true → twf 0 (mcOf s k).onTimeUs = true → twf 0 (mcOf s k).rises = true →
    mcAbsent s k = false →
    (∃ m, exec (.mcFmtClrRec k) s = .next (setMc k m s) ∧ rd m.csr MC_RECOV_LAST = 0 ∧ rd m.csr MC_RECOV_TRACK = 0 ∧
      rd m.csr MC_TAG_DIFF_LO = 0 ∧ rd m.csr MC_TAG_DIFF_HI = 0) ∧
    (∃ m, exec (.mcFmtClrCnt k) s = .next (setMc k m s) ∧ (∀ a, 0x604 ≤ a → a < 0x630 → rd m.csr a = 0) ∧
      ∀ a, a < 0x604 ∨ 0x630 ≤ a → rd m.csr a = rd (mcOf s k).csr a) ∧
    (∃ m, exec (.mcChClrHif k) s = .next (setMc k m s) ∧ rd m.csr MC_HIF_ERR = 0) ∧
    (∃ m, exec (.mcChClrSyn k) s = .next (setMc k m s) ∧ rd m.csr MC_SYN_COAST = 0 ∧ rd m.csr MC_SYN_LATE = 0 ∧
      rd m.csr MC_SYN_UNLOCK = 0) ∧
    (∃ m, exec (.mcChClrLdpc k) s = .next (setMc k m s) ∧ rd m.csr MC_LDPC_CONV = 0 ∧ rd m.csr MC_LDPC_FAIL = 0 ∧
      rdF m.csr MC_WR_FAULT.COUNT = 0) ∧
    (∃ t, exec (.mcChClrAsc k) s = .next t ∧ tget 0 (mcOf t k).onTimeUs (rdF (mcOf s k).csr MC_ASC_IDX.HEAD) = 0 ∧
      tget 0 (mcOf t k).rises (rdF (mcOf s k).csr MC_ASC_IDX.HEAD) = 0) ∧
    (∃ m, exec (.msqClrEvt k) s = .next (setMc k m s) ∧ m.events = [] ∧ m.evtLatch = none) ∧
    (∃ m, exec (.msqClrTrace k) s = .next (setMc k m s) ∧ m.trace = []) ∧
    ∃ m, exec (.msqClrCnt k) s = .next (setMc k m s) ∧ (∀ a, 0x840 ≤ a → a < 0x858 → rd m.csr a = 0) ∧
      ∀ a, a < 0x840 ∨ 0x858 ≤ a → rd m.csr a = rd (mcOf s k).csr a

/-- A candidate is taken as the mark exactly within an open window and the tolerance, and ends the search (R58). -/
def Obligations.SyncMarkCountsWithinWindowAndTolerance : Prop :=
  ∀ (k : Fin 4) (slot : Nat) (pos : Int) (bits : Nat) (s : State), twf 0 (mcOf s k).csr = true → mcAbsent s k = false →
    let win := max 8 (min 48 (rdF (mcOf s k).csr MC_SYNC_CTL.WIN))
    let tol := min 4 (rdF (mcOf s k).csr MC_SYNC_CTL.TOL)
    let mark := searchOpen s k slot = true ∧ pos.natAbs ≤ win ∧ hamming32 bits ((mcOf s k).zone.getD 4 0).toNat ≤ tol
    (mark → ∃ t, exec (.syncMarkFound k slot pos bits) s = .next t ∧
      (rd (mcOf t k).csr MC_SYNC_FOUND).toNat = min 0xFFFFFFFF ((rd (mcOf s k).csr MC_SYNC_FOUND).toNat + 1) ∧
      rd (mcOf t k).csr MC_SYNC_MISS = rd (mcOf s k).csr MC_SYNC_MISS ∧ searchOpen t k slot = false ∧ running t k = true ∧
      ∀ j, j ≠ k → mcOf t j = mcOf s j) ∧
    (¬ mark → exec (.syncMarkFound k slot pos bits) s = .next s)

/-- A window close that wins over the mark counts a miss and a late mark, and the slot finds no mark afterwards (R59). -/
def Obligations.LateMarkIsDiscardedAndCounted : Prop :=
  ∀ (k : Fin 4) (slot : Nat) (late : Bool) (runs : List SampleRun) (s : State), twf 0 (mcOf s k).csr = true →
    mcAbsent s k = false →
    (searchOpen s k slot = true → ∃ t, exec (.syncWindowClose k slot late runs) s = .next t ∧
      (rd (mcOf t k).csr MC_SYNC_MISS).toNat = min 0xFFFFFFFF ((rd (mcOf s k).csr MC_SYNC_MISS).toNat + 1) ∧
      (rd (mcOf t k).csr MC_SYNC_LATE).toNat = min 0xFFFFFFFF ((rd (mcOf s k).csr MC_SYNC_LATE).toNat + b2n late) ∧
      running t k = true ∧ searchOpen t k slot = false ∧
      ∀ (pos : Int) (bits : Nat), exec (.syncMarkFound k slot pos bits) t = .next t) ∧
    (searchOpen s k slot = false → exec (.syncWindowClose k slot late runs) s = .next s)

/-- No decode, search or retry decode succeeds on a slot that does not hold the job's own sector (R506). -/
def Obligations.NoSuccessWithoutTheJobsSector : Prop :=
  ∀ (k : Fin 4) (s : State),
    (∀ d : DecodeIn, tagGood s k d.slot = false → ∃ t, exec (.decodeComplete k d) s = .next t ∧ t.staging = s.staging) ∧
    ((∀ b, (mcOf s k).sbuf = some b → tagGood s k b.slot = false) → ∀ (att : List (Int × Quad Reading)) (q : Quad Reading),
      (∃ u, exec (.timedSyncEnd k att) s = .next (settle u) ∧ u.staging = s.staging) ∧
      (∃ u, exec (.realignEnd k att) s = .next (settle u) ∧ u.staging = s.staging) ∧
      ∃ t, exec (.rdecodeReport k q) s = .next t ∧ t.staging = s.staging)

/-- HFLT_N falling drops WG and AG and is recorded (R100). -/
def Obligations.HeadFaultDropsGatesAndCutsTheWrite : Prop :=
  ∀ (k : Fin 4) (stays : Bool) (s : State), twf 0 (mcOf s k).csr = true → mcAbsent s k = false →
    ∃ u, exec (.hfltFall k stays) s = .next (settle u) ∧ (mcOf u k).wg = false ∧ (mcOf u k).ag = false ∧
      rdB (mcOf u k).csr MC_HIF_STAT.HFLT = true ∧
      ((mcOf s k).wg = true → (mcOf u k).job = none ∧ rdB (mcOf u k).csr MC_WR_FAULT.HFLT = true)

/-- Ownership falls at once, or once the write gate and the frame in progress have ended (R99). -/
def Obligations.OwnershipReleaseWaitsForTheGate : Prop :=
  ∀ (k : Fin 4) (s : State), mcAbsent s k = false →
    let released := fun (t : State) => (mcOf t k).own = false ∧ (mcOf t k).wg = false ∧ (mcOf t k).ag = false ∧
      (mcOf t k).serialZ = true ∧ (mcOf t k).ownRelease = false
    let quiet := (mcOf s k).wg = false ∧ (mcOf s k).busy = none
    (quiet → ∃ t, exec (.hifOwnWrite k false) s = .next t ∧ released t) ∧
    (¬ quiet → ∃ t, exec (.hifOwnWrite k false) s = .next t ∧ (mcOf t k).own = (mcOf s k).own ∧
      (mcOf t k).wg = (mcOf s k).wg ∧ (mcOf t k).ag = (mcOf s k).ag ∧ (mcOf t k).ownRelease = true ∧
      exec (.hifOwnRelease k) t = .next t) ∧
    (quiet → (mcOf s k).ownRelease = true → ∃ t, exec (.hifOwnRelease k) s = .next t ∧ released t) ∧
    ((mcOf s k).ownRelease = false → exec (.hifOwnRelease k) s = .next s) ∧
    ∃ t, exec (.hifOwnWrite k true) s = .next t ∧ (mcOf t k).own = true ∧ (mcOf t k).ownRelease = false

/-- A head is held at the duty limit and released at three quarters of it (R96). -/
def Obligations.DutyHoldFollowsTheLimit : Prop :=
  ∀ (k : Fin 4) (head : Nat) (s : State), twf 0 (mcOf s k).csr = true → mcAbsent s k = false →
    let m := mcOf s k
    let on := onUsIn m s.sys.us head
    (100 * on ≥ dutyLimit m * dutyWinUs m → ∃ u, exec (.assistDutyLimit k head) s = .next (settle u) ∧
      (mcOf u k).dutyHold.contains head = true ∧
      ∀ j, m.job = some j → m.ag = true → jobHead m j.entry = head → j.writing = none →
        (mcOf u k).job = none ∧ (mcOf u k).ag = false ∧ rdB (mcOf u k).csr MC_WR_FAULT.DUTY = true) ∧
    (100 * on < dutyLimit m * dutyWinUs m → exec (.assistDutyLimit k head) s = .next (settle s)) ∧
    (m.dutyHold.contains head = true → m.ag = false → ∀ bit, (mcOf (agateRise k head bit s) k).ag = false ∧
      (mcOf (agateRise k head bit s) k).job = none ∧ rdB (mcOf (agateRise k head bit s) k).csr MC_WR_FAULT.DUTY = true) ∧
    (10000 * on ≤ 75 * dutyLimit m * dutyWinUs m → ∃ n, exec (.assistDutyRelease k head) s = .next (setMc k n s) ∧
      n.dutyHold.contains head = false) ∧
    (75 * dutyLimit m * dutyWinUs m < 10000 * on → exec (.assistDutyRelease k head) s = .next s)

/-- JUMP, BRANCH, DISPATCH and LOOP words continue where SEQ, NEXT and COND say (R118, R117, R122, R124). -/
def Obligations.SequencingModesSetTheNextAddress : Prop :=
  ∀ (k : Fin 4) (x : MsqIn) (s : State) (j0 : Job) (w : Nat), twf 0 (mcOf s k).csr = true → mcAbsent s k = false →
    onlySequences s k j0 w →
    let s1 := comesTo k x s
    ((mcOf s1 k).job = none → ∀ p ∈ [(Instr.seqJump k x, 0), (.seqBranch k x, 1), (.seqDispatch k x, 2), (.seqCall k x, 3),
      (.seqReturn k x, 4), (.seqWait k x, 5), (.seqLoop k x, 6), (.seqHalt k x, 7)],
      mwSeq w = p.2 → exec p.1 s = .next (settle s1)) ∧
    ∀ j : Job, (mcOf s1 k).job = some j →
    let n := mwNext w
    let cond := condVal s1 k j x (mwCond w)
    (mwSeq w = 0 → ∃ u, exec (.seqJump k x) s = .next (settle u) ∧
      continuesAt k j (if cond then n else j.pc + 1) j.stack j.ctrA u) ∧
    (mwSeq w = 1 → ∃ u, exec (.seqBranch k x) s = .next (settle u) ∧
      continuesAt k j (n / 2 * 2 + if cond then 1 else 0) j.stack j.ctrA u) ∧
    (mwSeq w = 2 → mwCond w ≤ 3 → ∃ u, exec (.seqDispatch k x) s = .next (settle u) ∧
      continuesAt k j (n / 16 * 16 + match mwCond w with
        | 0 => j.disp % 16
        | 1 => j.outcome % 16
        | 2 => j.ctrA % 16
        | _ => j.gr0 % 16) j.stack j.ctrA u) ∧
    (mwSeq w = 6 → mwCond w = 0 → ∃ u, exec (.seqLoop k x) s = .next (settle u) ∧
      continuesAt k j (if j.ctrA = 0 then j.pc + 1 else n) j.stack (if j.ctrA = 0 then j.ctrA else j.ctrA - 1) u)

/-- CALL pushes and RETURN pops a stack of four entries; going over or under it stops the job (R120). "A CALL that finds 4
entries stops the job with STACK_OVER. A RETURN that finds the stack empty stops the job with STACK_UNDER." -/
def Obligations.CallStackHoldsFourEntries : Prop :=
  (∀ (k : Fin 4) (x : MsqIn) (s : State) (j0 j : Job) (w : Nat), twf 0 (mcOf s k).csr = true → mcAbsent s k = false →
    onlySequences s k j0 w → (mcOf (comesTo k x s) k).job = some j → j.stack.length ≤ 4 →
    let cond := condVal (comesTo k x s) k j x (mwCond w)
    (mwSeq w = 3 → ∃ u, exec (.seqCall k x) s = .next (settle u) ∧
      if cond = false then continuesAt k j (j.pc + 1) j.stack j.ctrA u
      else if j.stack.length = 4 then stoppedWith k 3 j u
      else continuesAt k j (mwNext w) ((j.pc + 1) :: j.stack) j.ctrA u) ∧
    (mwSeq w = 4 → ∃ u, exec (.seqReturn k x) s = .next (settle u) ∧
      if cond = false then continuesAt k j (j.pc + 1) j.stack j.ctrA u
      else match j.stack with
        | [] => stoppedWith k 4 j u
        | r :: rest => continuesAt k j (r % 2 ^ 14) rest j.ctrA u)) ∧
  ∀ (s : State) (k : Fin 4) (e : Nat), (freshJob s k e).stack = []

/-- A WAIT passes on its condition, falls through on its expired timer, and else holds until one of them or the watchdog (R119,
R118, R130). -/
def Obligations.WaitHoldsUntilItsConditionOrTimer : Prop :=
  ∀ (k : Fin 4) (x : MsqIn) (s : State) (j0 j : Job) (w : Nat), twf 0 (mcOf s k).csr = true → mcAbsent s k = false →
    (onlySequences s k j0 w → (mcOf (comesTo k x s) k).job = some j → mwSeq w = 5 →
      ∃ u, exec (.seqWait k x) s = .next (settle u) ∧
        if condVal (comesTo k x s) k j x (mwCond w) = true then continuesAt k j (mwNext w) j.stack j.ctrA u
        else if j.timer = .expired then continuesAt k j (j.pc + 1) j.stack j.ctrA u
        else ∃ y, (mcOf u k).job = some y ∧ y.mode = .waiting ∧ y.pc = j.pc ∧ y.stack = j.stack) ∧
    ((mcOf s k).job = some j → j.mode = .waiting → j.pc < 2 ^ 14 → j.lastPc = j.pc →
      (j.timer = .running → ∀ race : Option Bool, ∃ u, exec (.msqTimerExpiry k race) s = .next (settle u) ∧
        continuesAt k { j with timer := .expired }
          (if race = some true then mwNext ((fetchWord (mcOf s k) j.pc).getD 0) else j.pc + 1) j.stack j.ctrA u ∧
        (rd (mcOf u k).csr MSQ_WAIT_LATE).toNat =
          if race = some false then min 0xFFFFFFFF ((rd (mcOf s k).csr MSQ_WAIT_LATE).toNat + 1)
          else (rd (mcOf s k).csr MSQ_WAIT_LATE).toNat) ∧
      (j.timer = .off → ∃ u, exec (.waitWatchdog k) s = .next (settle u) ∧ stoppedWith k 5 j u))

/-- A HALT word ends the job, or waits for the pad's end while the write gate is high (R118, R126, R129, R109). -/
def Obligations.HaltEndsTheJob : Prop :=
  ∀ (k : Fin 4) (x : MsqIn) (s : State) (j0 j : Job) (w : Nat), twf 0 (mcOf s k).csr = true → twf 0 (mcOf s k).jt = true →
    mcAbsent s k = false → onlySequences s k j0 w → (mcOf (comesTo k x s) k).job = some j → mwSeq w = 7 →
    j.entry < 64 →
    ∃ u, exec (.seqHalt k x) s = .next (settle u) ∧
      if condVal (comesTo k x s) k j x (mwCond w) = false then continuesAt k j (j.pc + 1) j.stack j.ctrA u
      else if (mcOf (comesTo k x s) k).wg = true then ∃ y, (mcOf u k).job = some y ∧ y.mode = .haltPad ∧ y.pc = j.pc
      else (mcOf u k).job = none ∧ (mcOf u k).wg = false ∧ (mcOf u k).ag = false ∧ jtState (mcOf u k) j.entry = 3 ∧
        jtF (mcOf u k) j.entry 10 31 28 = 0 ∧ jtF (mcOf u k) j.entry 10 23 16 = j.status % 256 ∧
        jtF (mcOf u k) j.entry 10 15 12 = j.flags % 16 ∧ jtF (mcOf u k) j.entry 10 7 0 = 0 ∧
        (j.entry < 32 → wordBit (rd (mcOf u k).csr MSQ_JT_DONE_LO) j.entry = true) ∧
        (32 ≤ j.entry → wordBit (rd (mcOf u k).csr MSQ_JT_DONE_HI) (j.entry - 32) = true)

/-- A word that fails parity stops the job, raises a machine check and is reloaded from its image (R131, R130). -/
def Obligations.ParityFailureStopsAndReloads : Prop :=
  (∀ (k : Fin 4) (x : MsqIn) (s : State) (j : Job) (w : Nat) (c : Instr), regsWf s = true → twf storeUnset (mcOf s k).store = true →
    mcAbsent s k = false → (mcOf s k).job = some j → j.mode = .words → j.entry < 64 → j.pc < 2 ^ 14 →
    fetchWord (mcOf s k) j.pc = some w → parityOk w = false →
    c ∈ [Instr.seqJump k x, .seqBranch k x, .seqDispatch k x, .seqCall k x, .seqReturn k x, .seqWait k x, .seqLoop k x,
      .seqHalt k x] →
    (rd s.mck.csr MCK_COUNT).toNat < 0xFFFFFFF0 → (rd (mcOf s k).csr MSQ_PAR_ERR).toNat < 0xFFFFFFFF →
    let good := !x.imgBad && parityOk (imageWord s k j.pc)
    ∃ u, exec c s = .next (settle u) ∧ stoppedWith k 1 j u ∧
      (rd (mcOf u k).csr MSQ_PAR_ERR).toNat = (rd (mcOf s k).csr MSQ_PAR_ERR).toNat + 1 ∧
      (rd u.mck.csr MCK_COUNT).toNat = (rd s.mck.csr MCK_COUNT).toNat + (if good then 1 else 2) ∧
      (good = true → tget storeUnset (mcOf u k).store j.pc = imageWord s k j.pc) ∧
      (good = false → (mcOf u k).store = (mcOf s k).store ∧ rdB (mcOf u k).csr MSQ_STAT.DEAD = true)) ∧
  ∀ (k : Fin 4) (e : Nat) (s : State), rdB (mcOf s k).csr MSQ_STAT.DEAD = true → armRejected s k e = true

/-- An ARM queues a free entry, or is rejected with END 5; a busy entry stays untouched (R127, R131, R30). -/
def Obligations.ArmIsTakenOrRejected : Prop :=
  ∀ (k : Fin 4) (e : Nat) (s : State), twf 0 (mcOf s k).csr = true → twf 0 (mcOf s k).jt = true → twf 0 (mcOf s k).holds = true →
    mcAbsent s k = false → e < 64 →
    (armRejected s k e = false → ∃ m, exec (.jtArm k e) s = .next (setMc k m s) ∧ jtState m e = 1 ∧
      m.armed = (mcOf s k).armed ++ [e] ∧ tget 0 m.holds e = 0 ∧ rdB m.csr MSQ_JT_CMD.REJ = false) ∧
    (armRejected s k e = true → jtState (mcOf s k) e = 0 → ∃ m, exec (.jtArm k e) s = .next (setMc k m s) ∧
      rdB m.csr MSQ_JT_CMD.REJ = true ∧ jtState m e = 3 ∧ jtF m e 10 31 28 = 5 ∧ jtF m e 10 27 24 = 2 ∧ jtF m e 10 7 0 = 0 ∧
      (e < 32 → wordBit (rd m.csr MSQ_JT_DONE_LO) e = true) ∧ (32 ≤ e → wordBit (rd m.csr MSQ_JT_DONE_HI) (e - 32) = true)) ∧
    (jtState (mcOf s k) e ≠ 0 → ∃ m, exec (.jtArm k e) s = .next (setMc k m s) ∧ rdB m.csr MSQ_JT_CMD.REJ = true ∧
      m.jt = (mcOf s k).jt ∧ m.armed = (mcOf s k).armed ∧ ∀ a, a ≠ MSQ_JT_CMD → rd m.csr a = rd (mcOf s k).csr a) ∧
    ((mcOf s k).own = false ∨ rdB (mcOf s k).csr MSQ_CTL.EN = false ∨ jobCount (mcOf s k) e = 0 ∨
      2046 < jobFirst (mcOf s k) e + jobCount (mcOf s k) e - 1 ∨ 639 < jtF (mcOf s k) e 0 9 0 ∨
      addrMc (jobAddr (mcOf s k) e) ≠ k.val ∨ addrReserved s.part (jobAddr (mcOf s k) e) = true → armRejected s k e = true)

/-- A cancel ends an armed job, marks a running one, and sets LATE for a done and clears it for a free entry (R129). -/
def Obligations.CancelFollowsTheEntrysState : Prop :=
  ∀ (k : Fin 4) (e : Nat) (s : State), twf 0 (mcOf s k).csr = true → twf 0 (mcOf s k).jt = true → mcAbsent s k = false → e < 64 →
    (jtState (mcOf s k) e = 1 → ∃ u, exec (.jtCancel k e) s = .next (settle u) ∧ jtState (mcOf u k) e = 3 ∧
      rdB (mcOf u k).csr MSQ_JT_CMD.LATE = false ∧
      jtF (mcOf u k) e 10 31 28 = 1 ∧ jtF (mcOf u k) e 10 27 24 = 3 ∧ e ∉ (mcOf u k).armed) ∧
    (jtState (mcOf s k) e = 2 → ∀ j, (mcOf s k).job = some j → j.entry = e →
      exec (.jtCancel k e) s = .next (settle (setMc k { mcOf s k with
        csr := wrB (mcOf s k).csr MSQ_JT_CMD.LATE false
        job := some { j with cancel := true } } s))) ∧
    (jtState (mcOf s k) e = 3 → ∃ m, exec (.jtCancel k e) s = .next (settle (setMc k m s)) ∧
      rdB m.csr MSQ_JT_CMD.LATE = true ∧ m.jt = (mcOf s k).jt) ∧
    (jtState (mcOf s k) e = 0 → ∃ m, exec (.jtCancel k e) s = .next (settle (setMc k m s)) ∧
      rdB m.csr MSQ_JT_CMD.LATE = false ∧ m.jt = (mcOf s k).jt) ∧
    (∀ j, (mcOf s k).job = some j → j.cancel = true → j.writing = none → j.entry = e →
      ∃ u, exec (.cancelEffect k) s = .next (settle u) ∧ (mcOf u k).job = none ∧ jtState (mcOf u k) e = 3 ∧
        jtF (mcOf u k) e 10 31 28 = 1 ∧ jtF (mcOf u k) e 10 27 24 = 3)

/-- The event queue holds 16 events, drops what a full queue is posted, and is read oldest first (R142). "An event posted to a
full queue is dropped, MSQ_EVT_LOST is incremented, and the job's EVT_LOST bit is set." -/
def Obligations.EventQueueIsReadInOrder : Prop :=
  ∀ (k : Fin 4) (s : State), twf 0 (mcOf s k).csr = true → mcAbsent s k = false →
    (∀ (code slot : Nat) (j : Job), (mcOf s k).job = some j →
      ((mcOf s k).events.length < 16 → ∃ e, (mcOf (postEvt k code slot j s) k).events = (mcOf s k).events ++ [e] ∧
        (mcOf (postEvt k code slot j s) k).job = some j) ∧
      (16 ≤ (mcOf s k).events.length → (mcOf (postEvt k code slot j s) k).events = (mcOf s k).events ∧
        (mcOf (postEvt k code slot j s) k).job = some { j with evtLost := true } ∧
        (rd (mcOf (postEvt k code slot j s) k).csr MSQ_EVT_LOST).toNat =
          min 0xFFFFFFFF ((rd (mcOf s k).csr MSQ_EVT_LOST).toNat + 1))) ∧
    (∀ (e : Word × Word) (rest : List (Word × Word)), (mcOf s k).events = e :: rest →
      ∃ t, exec (.evtLoRead k) s = .next t ∧ t.sys.rdata = e.1 ∧ (mcOf t k).events = e :: rest ∧
        ∃ u, exec (.evtHiRead k) t = .next u ∧ u.sys.rdata = e.2 ∧ (mcOf u k).events = rest) ∧
    ((mcOf s k).events = [] → ∃ t, exec (.evtLoRead k) s = .next t ∧ t.sys.rdata = 0 ∧ (mcOf t k).events = [])

/-- A GO waits for the actuator's next sample, and is refused there exactly for the reasons of R150 (R150, R155, R149, R144). -/
def Obligations.GoIsTakenOrRefusedAtTheSample : Prop :=
  ∀ (k : Fin 4) (s : State), twf 0 s.sce.csr = true → actExists s k = true →
    (∀ head zone track : Nat, head < 16 → zone < 32 → track < 2 ^ 21 →
      ∀ p ∈ [(Instr.actSeek k head zone track, 1), (.actLoad k head zone track, 2), (.actUnload k head zone track, 3),
          (.actHold k head zone track, 4)],
        ∃ a, exec p.1 s = .next { s with sce := { s.sce with acts := quadSet s.sce.acts k a } } ∧
          a = { actOf s k with cmd := a.cmd, trk := a.trk } ∧ wordBit a.cmd 31 = true ∧ wordField a.cmd 29 27 = p.2 ∧
          wordField a.cmd 23 20 = head ∧ wordField a.cmd 12 8 = zone ∧ a.trk.toNat = track) ∧
    (∀ x : SampleIn, wordBit (actOf s k).cmd 31 = true → (actOf s k).srvPending = none →
      wordBit (rd s.sce.csr SCE_COEF_SWAP) k.val = false →
      let a := actOf s k
      let op := wordField a.cmd 29 27
      let head := wordField a.cmd 23 20
      let z := zoneCopyOf s k head (wordField a.cmd 12 8)
      let track := wordField a.trk 20 0
      ∃ u, exec (.servoSample k x) s = .next (settle (afterServo u)) ∧
        (rdB s.sce.csr SCE_CTL.ZREBUILD = true → (actOf u k).cmd = a.cmd) ∧
        (rdB s.sce.csr SCE_CTL.ZREBUILD = false → wordBit (actOf u k).cmd 31 = false ∧
          (wordBit (actOf u k).cmd 30 = true ↔
            actEnabled s k = false ∨ op = 0 ∨ 4 < op ∨
            ((op = 1 ∨ op = 2) ∧ (12 ≤ head ∨ z = none ∨ ∃ c, z = some c ∧ (track < c.first ∨ c.last < track))) ∨
            (op = 2 ∧ (a.state ≠ 1 ∨ spindleReady s = false)) ∨
            ((op = 1 ∨ op = 4) ∧ a.state ≠ 2 ∧ a.state ≠ 3 ∧ a.state ≠ 4 ∧ a.state ≠ 5))))

/-- A failed load, a lost actuator and a failed catch-spin unload; an unload ends parked (R152, R155, R161, R174). -/
def Obligations.ServoTimeoutsUnload : Prop :=
  ∀ (k : Fin 4) (s : State), twf 0 s.mck.csr = true → twf 0 s.scu.csr = true →
    (rd s.mck.csr MCK_COUNT).toNat < 0xFFFFFFFF →
    let gaveUp := fun (t : State) => (actOf t k).state = 7 ∧ (actOf t k).onTrack = false ∧
      (rd t.mck.csr MCK_COUNT).toNat = (rd s.mck.csr MCK_COUNT).toNat + 1
    let parked := fun (t : State) => (actOf t k).state = (if (actOf s k).stopping then 0 else 1) ∧ (actOf t k).out = ⟨0, 0⟩
    ((actOf s k).state = 2 → ∃ t, exec (.loadTimeout k) s = .next t ∧ gaveUp t) ∧
    ((actOf s k).state ≠ 2 → exec (.loadTimeout k) s = .next s) ∧
    ((actOf s k).state = 6 → 64 ≤ (actOf s k).lostCnt → ∃ t, exec (.lostTimeout k) s = .next t ∧ gaveUp t) ∧
    ((actOf s k).state ≠ 6 → exec (.lostTimeout k) s = .next s) ∧
    ((actOf s k).state = 7 → (actOf s k).pushUntil = none → ∃ u, exec (.unloadTimeout k) s = .next (afterServo u) ∧
      (actOf u k).state = 7 ∧ (actOf u k).pushUntil = some (s.sys.us + 50000) ∧ (actOf u k).out = ⟨fullOutward, 0⟩) ∧
    ((actOf s k).state = 7 → (actOf s k).pushUntil ≠ none → exec (.unloadTimeout k) s = .next (afterServo s)) ∧
    ((actOf s k).state = 7 → outward (actOf s k).imeas = true → (actOf s k).bemf.natAbs < 20 →
      ∃ u, exec (.unloadBemfLow k) s = .next (afterServo u) ∧ parked u) ∧
    ((actOf s k).state = 7 → (outward (actOf s k).imeas = false ∨ 20 ≤ (actOf s k).bemf.natAbs) →
      exec (.unloadBemfLow k) s = .next (afterServo s)) ∧
    ((actOf s k).state ≠ 7 → exec (.unloadTimeout k) s = .next (afterServo s) ∧
      exec (.unloadBemfLow k) s = .next (afterServo s)) ∧
    (scuState s ≠ 5 → exec .catchTimeout s = .next (spinEnded s)) ∧
    (scuState s = 5 → ∃ u, exec .catchTimeout s = .next (spinEnded u) ∧ scuState u = 8 ∧ u.scu.gates = .off ∧
      rdB u.scu.csr SCU_EVT.CATCH_FAIL = true ∧ (actOwned s k = true → loadedState (actOf s k).state = true → (actOf u k).state = 7))

/-- Each SCU command moves the state and the gates as the state table says, and is ignored elsewhere (R172, R174, R176). -/
def Obligations.SpindleCommandsFollowTheStateTable : Prop :=
  ∀ s : State, twf 0 s.scu.csr = true →
    let st := scuState s
    let running := st = 3 ∨ st = 4 ∨ (st = 9 ∧ s.scu.rectCmd = true)
    let enters := fun (c : Instr) (n : Nat) (g : Gates) =>
      ∃ u, exec c s = .next (spinEnded u) ∧ scuState u = n ∧ u.scu.gates = g
    let ignored := fun (c : Instr) => exec c s = .next (spinEnded s)
    (s.sys.dump = .cloudburst → ∀ c ∈ [Instr.scuCmdStart, .scuCmdStop, .scuCmdCoast, .scuCmdCatch, .scuCmdRectify], ignored c) ∧
    (s.sys.dump ≠ .cloudburst →
      (st = 0 → enters .scuCmdStart 1 .vector) ∧ (st ≠ 0 → ignored .scuCmdStart) ∧
      (running → enters .scuCmdStop 6 .pwm) ∧
      (st = 10 → slowerThan s 1 = true → enters .scuCmdStop 0 .off) ∧
      (st = 10 → slowerThan s 1 = false → enters .scuCmdStop 8 .off) ∧
      (¬ running → st ≠ 10 → ignored .scuCmdStop) ∧
      enters .scuCmdCoast 8 .off ∧
      (running → enters .scuCmdCatch 5 .off) ∧
      (st = 8 ∨ st = 10 → slowerThan s 10 = false → enters .scuCmdCatch 5 .off) ∧
      (st = 8 ∨ st = 10 → slowerThan s 10 = true → ∃ u, exec .scuCmdCatch s = .next (spinEnded u) ∧ scuState u = st ∧
        u.scu.gates = s.scu.gates ∧ rdB u.scu.csr SCU_EVT.CATCH_FAIL = true) ∧
      (¬ running → st ≠ 8 → st ≠ 10 → ignored .scuCmdCatch) ∧
      (st = 3 ∨ st = 4 → enters .scuCmdRectify 9 .rectify) ∧
      (st ≠ 3 → st ≠ 4 → ignored .scuCmdRectify))

/-- Heat halves, a journal unit and a snapshot begin where they are due, and the clears clear (R207, R217, R218, R230). -/
def Obligations.PlacementUpkeepRowsDoTheirWork : Prop :=
  ∀ s : State, twf 0 s.ple.heat = true →
    (∃ u, exec .heatDecay s = .next (settleSlots u) ∧ (∀ c, tget 0 u.ple.heat c = tget 0 s.ple.heat c / 2) ∧
      u.ple.map.bands = s.ple.map.bands ∧ u.ple.map.gdl = s.ple.map.gdl ∧ u.media = s.media) ∧
    (let flushes := servesSystem s = true ∧ s.ple.jout = none ∧ s.ple.jflushed < s.ple.jseq ∧ s.ple.jring.length < ringSize s
     ∃ u, exec .journalUnitFlush s = .next (settleSlots u) ∧ (¬ flushes → u = s) ∧
      (u = s ∨ flushes ∧ ∃ last writes, u.ple.jout = some (last, writes) ∧ 0 < writes ∧ writes ≤ 2 ∧ s.ple.jflushed < last ∧
        last ≤ s.ple.jseq ∧ last ≤ s.ple.jflushed + 1024 ∧ u.ple.map = s.ple.map ∧ u.ple.jbuf = s.ple.jbuf ∧
        u.ple.jring = s.ple.jring ∧ u.ple.jseq = s.ple.jseq ∧ u.ple.jflushed = s.ple.jflushed ∧ u.nv = s.nv)) ∧
    (let due := s.ple.snapping = none ∧ snapshotDue s = true ∧ servesSystem s = true ∧ pleServes s = true
     ∃ u, exec .snapshotStart s = .next (settleSlots u) ∧ (¬ due → u = s) ∧
      (u = s ∨ due ∧ ∃ job, u.ple.snapping = some job ∧ job.snap.num = s.ple.snapNum + 1 ∧ job.snap.seq = s.ple.jseq ∧
        0 < job.left ∧ u.ple.snapSeq = s.ple.jseq ∧ s.ple.jseq < u.ple.jseq ∧ u.ple.map.gdl = s.ple.map.gdl)) ∧
    ∀ k : Fin 4, schSelected s = some k → ∃ t1 t2 t3, exec .pleClrClaim s = .next t1 ∧ exec .pleClrDue s = .next t2 ∧
      exec .pleClrMaxw s = .next t3 ∧
      quadGet t1.ple.sched k = { quadGet s.ple.sched k with claimLost := 0 } ∧
      quadGet t2.ple.sched k = { quadGet s.ple.sched k with duepk := 0 } ∧
      quadGet t3.ple.sched k = { quadGet s.ple.sched k with maxw := 0 } ∧
      ∀ j, j ≠ k → quadGet t1.ple.sched j = quadGet s.ple.sched j ∧ quadGet t2.ple.sched j = quadGet s.ple.sched j ∧
        quadGet t3.ple.sched j = quadGet s.ple.sched j

/-- GDL_ADD enters a slot once, keeps every earlier entry and the list's order, and journals the change (R67, R64, R65, R68,
R69). -/
def Obligations.GrownDefectIsEnteredOnceInOrder : Prop :=
  ∀ (addr reason : Nat) (s : State),
    let d : Defect := ⟨1, addrMc addr, addrHead addr, addrTrack addr, addrSlot addr, 1, reason⟩
    let held := gdlHas s (addrMc addr) (addrHead addr) (addrTrack addr) (addrSlot addr)
    (held = true → exec (.gdlAdd addr reason) s = .next (settleSlots s)) ∧
    (held = false → pleServes s = false → exec (.gdlAdd addr reason) s =
      .next (settleSlots { s with ple := { s.ple with relocs := s.ple.relocs ++ [(addr, reason)] } })) ∧
    (held = false → pleServes s = true → ∃ u,
      exec (.gdlAdd addr reason) s = .next (settleSlots
        (if defectWaits u addr then modPle (fun p => { p with lateDefects := p.lateDefects ++ [addr] }) u else handleDefect addr u)) ∧
      (∀ x ∈ s.ple.map.gdl, x ∈ u.ple.map.gdl) ∧
      (s.ple.map.gdl.length < 1048576 → d ∈ u.ple.map.gdl ∧ s.ple.jseq < u.ple.jseq) ∧
      (List.Pairwise (fun x y => defectKey x ≤ defectKey y) s.ple.map.gdl →
        List.Pairwise (fun x y => defectKey x ≤ defectKey y) u.ple.map.gdl))

/-- A doorbell write replaces a tail or a head only after its checks, and a rejected one is counted (R239). -/
def Obligations.DoorbellWritesAreChecked : Prop :=
  ∀ (f q v : Nat) (s : State), twf 0 s.hqe.csr = true → twf none s.hqe.fns = true → twf none (fnOf s f).sqs = true →
    twf none (fnOf s f).cqs = true →
    (fnExists s f = false → ∀ isCq, exec (.doorbellWrite f isCq q v) s = .next s) ∧
    (fnExists s f = true →
    let rejected := fun (c : Instr) => ∃ t, exec c s = .next t ∧
      (rd t.hqe.csr HQE_DBERR).toNat = min 0xFFFFFFFF ((rd s.hqe.csr HQE_DBERR).toNat + 1) ∧
      ∀ p, sqOf t f p = sqOf s f p ∧ (cqOf t f p).map (fun c => c.head) = (cqOf s f p).map (fun c => c.head)
    (sqOf s f q = none → rejected (.doorbellWrite f false q v)) ∧
    (∀ x, sqOf s f q = some x →
      (x.deleting ≠ none ∨ x.size ≤ v → rejected (.doorbellWrite f false q v)) ∧
      (x.deleting = none → v < x.size → ∃ t, exec (.doorbellWrite f false q v) s = .next t ∧
        sqOf t f q = some { x with tail := v } ∧ ∀ p, p ≠ q → sqOf t f p = sqOf s f p)) ∧
    (cqOf s f q = none → rejected (.doorbellWrite f true q v)) ∧
    ∀ c, cqOf s f q = some c →
      let passes := (c.tail + c.size - c.head) % c.size - unposted s f q < (v + c.size - c.head) % c.size
      (c.size ≤ v ∨ passes → rejected (.doorbellWrite f true q v)) ∧
      (v < c.size → ¬ passes → ∃ t, exec (.doorbellWrite f true q v) s = .next t ∧ (cqOf t f q).map (fun c => c.head) = some v ∧
        ∀ p, sqOf t f p = sqOf s f p))

/-- A completion is written only into an empty slot of its queue, with the queue's head, and then frees the command's slot
(R248, R276). -/
def Obligations.CompletionEntryWaitsForRoom : Prop :=
  ∀ (n : Nat) (s : State) (x : Slot) (c : Cq), twf none s.hqe.slots = true → twf none s.hqe.fns = true →
    twf none (fnOf s x.fn).cqs = true → slotAt s n = some x → x.st = .done →
    let q := cqidOf s x.fn x.sqid
    cqOf s x.fn q = some c →
    let ready := s.sys.dump = .none ∧ (fnOf s x.fn).resetting = false ∧ waitsAhead s x.fn q x.cnum = false ∧
      (s.bmc.down = true → x.sqid = 0) ∧ (q = 0 → ∀ e ∈ (fnOf s x.fn).ends, x.cnum ≤ e.cnum) ∧ (c.tail + 1) % c.size ≠ c.head
    (¬ ready → exec (.completionPost n) s = .next (settleSlots s)) ∧
    (ready → ∃ u, exec (.completionPost n) s = .next (settleSlots (deliver x.fn u)) ∧ slotAt u n = none ∧
      cqOf u x.fn q = some { c with tail := (c.tail + 1) % c.size, phase := if c.tail + 1 = c.size then !c.phase else c.phase } ∧
      u.hqe.lastCqe = [x.dw0, x.dw1,
        BitVec.ofNat 32 (((sqOf s x.fn x.sqid).map (fun y => y.head)).getD 0 + x.sqid * 65536),
        BitVec.ofNat 32 (x.cid + (if c.phase then 65536 else 0) + x.status * 131072)])

/-- A write-class command is committed exactly when its data, its map change and its queue position allow it (R277, R280, R281,
R276, R248). -/
def Obligations.AcceptanceNeedsEveryCondition : Prop :=
  ∀ (n : Nat) (s : State) (x : Slot) (c : Cq), twf none s.hqe.slots = true → slotAt s n = some x →
    cqOf s x.fn (cqidOf s x.fn x.sqid) = some c → (∀ f, ∀ e ∈ (fnOf s f).ends, e.slot ≠ n) → n < 64512 →
    let onBoth := x.jseq ≤ s.ple.jflushed
    let acked := mirroring s = true → x.mseq ≤ s.tdl.mseqAck
    let protected_ := if hasSectors s x = true then
        (if writeThrough s = true then x.onMedia = true ∧ onBoth
         else x.onMedia = true ∧ onBoth ∨ x.inDram = true ∧ x.reserved = true ∧ acked ∧ metaCurrent s x = true)
      else if writeThrough s = true then onBoth else acked
    let isReset := x.opc = 0x79 ∧ wordField (x.cdw 13) 7 0 = 4
    let all := commits n x = true ∧ pleServes s = true ∧ s.bmc.down = false ∧ x.st = .active ∧ x.journaled = true ∧ (isReset → x.onMedia = true) ∧ protected_ ∧
      blocked s x = false ∧ (c.tail + 1) % c.size ≠ c.head ∧ doneAhead s x.fn (cqidOf s x.fn x.sqid) = false ∧
      (fnOf s x.fn).resetting = false ∧ s.sys.dump = .none
    (¬ all → exec (.writeAccept n) s = .next (settleSlots s)) ∧
    (all → ∃ u y, exec (.writeAccept n) s = .next (settleSlots u) ∧ slotAt u n = some y ∧ y.st = .committed ∧ y.status = 0 ∧
      y.cid = x.cid ∧ y.phase = c.phase)

/-- Flush completes with success and disturbs nothing else (R290). -/
def Obligations.FlushCompletesAtOnce : Prop :=
  ∀ (n : Nat) (s : State) (x : Slot), twf none s.hqe.slots = true → slotAt s n = some x → x.st = .fetched → x.opc = 0 →
    n < 64512 →
    ∃ u y, exec (.flush n) s = .next (settleSlots u) ∧ slotAt u n = some y ∧ y.st = .done ∧ y.status = 0 ∧ y.cid = x.cid ∧
      (∀ m, m ≠ n → slotAt u m = slotAt s m) ∧
      u = { s with hqe := { s.hqe with slots := u.hqe.slots, commits := s.hqe.commits + 1 } }

/-- A buffer write stores its bytes and marks or clears the page's stale bit; a good read returns them (R306, R307, R303, R313).
-/
def Obligations.BufferHoldsWhatIsWritten : Prop :=
  ∀ (n requester : Nat) (s : State), Memory.wf s.mem = true → bmcServes s = true → n < bufferPages s →
    parityPage s n = false →
    (∀ bytes : List (Nat × Byte), (bytes.map Prod.fst).Nodup → (∀ e ∈ bytes, e.1 < 4096) →
      let whole := ∀ i, i < 4096 → i ∈ bytes.map Prod.fst
      ∃ t, exec (.bufferWrite n bytes requester) s = .next t ∧ (∀ e ∈ bytes, pageByte t n e.1 = e.2) ∧
        (∀ a, (∀ e ∈ bytes, a ≠ 4096 * n + e.1 ∧ ∀ g, groupOf s n = some g → a ≠ 4096 * g.2 + e.1) →
          memByte t.mem a = memByte s.mem a) ∧
        (whole → n ∉ t.bmc.stale) ∧ (¬ whole → n ∈ t.bmc.stale) ∧ t.bmc.csr = s.bmc.csr) ∧
    (∀ off len : Nat, ∀ use : PageUse, ((∃ slot, use = .hostRead slot) ∨ use = .bandMap ∨ use = .other) → off + len ≤ 4096 →
      failedChannel s ≠ some (pageChannel s n) →
      ∃ t, exec (.bufferRead n off len use requester ⟨[], [], []⟩) s = .next t ∧ t.mem = s.mem ∧ t.bmc.poison = false ∧
        t.bmc.out = (List.range len).map (fun i => pageByte s n (off + i)))

/-- A channel takes, refuses, promotes and stops its descriptors as the rules say (R323, R324, R325). -/
def Obligations.DmaRunsDescriptorsInLoadOrder : Prop :=
  ∀ s : State, twf none s.dma.chans = true →
    let c := rdF s.dma.csr DMA_CH_IDX.CH
    let x := chanAt s c
    let d := stagedDesc s
    let refused := d.len = 0 ∨ 4 * 2 ^ 20 < d.saddr + d.len ∨ (d.bucket = true ∧ 32 ≤ c) ∨ x.shadow ≠ none ∨ x.stopped = true
    (refused → ∃ t, exec .dmaLoad s = .next t ∧ chanAt t c = { x with ign := true } ∧ ∀ b, b ≠ c → chanAt t b = chanAt s b) ∧
    (¬ refused → ∃ t, exec .dmaLoad s = .next t ∧ (chanAt t c).ign = false ∧ (∀ b, b ≠ c → chanAt t b = chanAt s b) ∧
      (x.active = none → (chanAt t c).active = some d ∧ (chanAt t c).shadow = none ∧ (chanAt t c).remain = d.len) ∧
      (x.active ≠ none → (chanAt t c).active = x.active ∧ (chanAt t c).shadow = some d)) ∧
    (x.stopped = false → x.active = none → ∃ u, exec .dmaStop s = .next (settleSlots u) ∧ (chanAt u c).stopped = true) ∧
    (x.stopped = true → ∃ u, exec .dmaClear s = .next (settleSlots u) ∧ (chanAt u c).stopped = false ∧ (chanAt u c).err = false ∧
      (chanAt u c).ecode = 0) ∧
    (x.stopped = false → exec .dmaClear s = .next (settleSlots s)) ∧
    ∀ (b : Nat) (e next : Desc), (chanAt s b).active = some e → (chanAt s b).shadow = some next → (chanAt s b).stopping = false →
      engineOn s b = true → (chanAt s b).ordering = false → (chanAt s b).err = false →
      (32 ≤ b → (chanAt s b).remain = 0 ∧ (chanAt s b).reqs = []) →
      (b < 32 → e.last = false) →
      ∃ u, exec (.dmaDescriptorDone b) s = .next (settleSlots u) ∧ (chanAt u b).active = some next ∧
        (chanAt u b).shadow = none ∧ (chanAt u b).remain = next.len

/-- A program starts only on an erased page, and pulses stop at the first pass, at the limit or at a brown-out (R339, R341,
R342, R344, R357). -/
def Obligations.ProgramsNeedErasedPagesAndStopAtTheFirstPass : Prop :=
  (∀ (i : Nat) (f : PsaIn) (s : State), ringReady s i = true → ringOp s i = 2 → ringMp s i = false →
    refuses s 2 (ringAddrOf s i) = none → twf 0 s.pct.csr = true → twf 0 s.pct.blocks = true → twf none s.pct.pages = true →
    let a := ringAddrOf s i
    let blk := psaBlk a
    let p := psaPageIx a
    let erased := blkF s blk ≤ p ∧ (blkKnown s blk = true ∨ f.blank = true)
    (¬ erased → ∃ t, exec (.psaProgram i [f]) s = .next t ∧ t.pct.runs = s.pct.runs ∧ t.pct.pages = s.pct.pages ∧
      (rd t.pct.csr PCT_NOTERASED).toNat = min 0xFFFFFFFF ((rd s.pct.csr PCT_NOTERASED).toNat + 1)) ∧
    (erased → ∃ t r, exec (.psaProgram i [f]) s = .next t ∧ t.pct.runs = s.pct.runs ++ [r] ∧ r.idx = i ∧ r.op = 2 ∧ r.addr = a ∧
      r.pulses = 0 ∧ r.ended = false ∧ tget none t.pct.pages a = none ∧ blkF t blk = p + 1 ∧ blkKnown t blk = blkKnown s blk)) ∧
  ∀ (i : Nat) (pass : Bool) (s : State) (r : PsaRun), s.pct.runs.find? (fun x => decide (x.idx = i)) = some r → r.ended = false →
    (r.op = 2 ∨ r.op = 3) → dieSusp s (psaDie r.addr) = false →
    let limit := if r.op = 2 then 12 else 24
    let brown := rdB s.pct.csr PCT_STAT.BOD = true ∧ isBulk s (psaBlock r.addr) = false
    ∃ t q, exec (.psaPulseEnd i pass) s = .next t ∧ t.pct.runs.find? (fun x => decide (x.idx = i)) = some q ∧
      q.pulses = r.pulses + 1 ∧ (q.ended = true ↔ pass = true ∨ limit ≤ r.pulses + 1 ∨ brown) ∧
      (pass = true → q.status = 0) ∧ (pass = false → limit ≤ r.pulses + 1 → q.status = r.op) ∧
      (pass = false → r.pulses + 1 < limit → brown → q.status = 4)

/-- Meters add up and read whole, the Dump Cost falls slowly, and a rejected calibration changes no value (R360, R361, R367,
R382). -/
def Obligations.MetersCostAndCalibrationsKeepTheirRules : Prop :=
  ∀ s : State, twf 0 s.elg.meters = true → twf 0 s.elg.csr = true → twf none s.cal.items = true →
    (∀ x : MeterIn, ∃ t, exec (.meterSample x) s = .next t ∧
      let add := fun (n : Nat) (v : Int) => meter t n = toBits 64 ((meter s n : Int) + v)
      add 0 x.vin ∧ add 1 x.bus12 ∧ add 2 (x.bus12 - x.vcm.m0 - x.vcm.m1 - x.vcm.m2 - x.vcm.m3) ∧ add 3 x.vcm.m0 ∧ add 4 x.vcm.m1 ∧
      add 5 x.vcm.m2 ∧ add 6 x.vcm.m3 ∧ add 7 x.core ∧ add 8 x.dram ∧ add 9 x.pcie ∧ add 10 x.psa ∧
      add 11 (x.regIn - x.core - x.pcie - x.psa) ∧ add 12 (x.vin - x.regIn - x.dram)) ∧
    (∃ t, exec .mtrLoRead s = .next t ∧ t.sys.rdata.toNat = meterSelected s % 2 ^ 32 ∧
      t.elg.hiLatch.toNat = meterSelected s / 2 ^ 32 % 2 ^ 32 ∧ t.elg.meters = s.elg.meters) ∧
    (∀ v : Nat, 0 < v → v < 2 ^ 32 → ∃ t, exec (.dcostMeasure v) s = .next t ∧
      let old := (rd s.elg.csr ELG_DCOST).toNat
      let new := (rd t.elg.csr ELG_DCOST).toNat
      (old < v → new = v) ∧ (v ≤ old → new ≤ old ∧ old - new ≤ (old - v) / 8)) ∧
    ∀ (n reader result : Nat) (targets : List CalTarget), calOn s n = true → (calItem s n).due ≠ 0 → result ≠ 0 →
      (calUsesMedia n = true → powerState s < 3) →
      ∃ t, exec (.calRunEnd n reader result targets) s = .next t ∧
        (calItem t n).fails = min 0xFFFF ((calItem s n).fails + 1) ∧
        (calItem t n).rejects.toNat = min 0xFFFFFFFF ((calItem s n).rejects.toNat + 1) ∧
        (calItem t n).accepts = (calItem s n).accepts ∧ (calItem t n).targets = (calItem s n).targets ∧
        (let u := if n = 6 then readerRun reader false s else calMeasured n (if n = 13 then profileTargets s else targets) s
         t = { u with cal := { u.cal with items := t.cal.items } }) ∧ ∀ m, m ≠ n → calItem t m = calItem s m

/-- A mirror record is applied exactly when it is the next one, a repeated one is counted, and ACK covers records up to its MSEQ
(R402, R403, R398, R400). -/
def Obligations.MirrorRecordsAreAppliedOnceInOrder : Prop :=
  ∀ (h : FlitHdr) (mseq : Nat) (s : State), twf 0 s.tdl.csr = true →
    let on := linkUp s = true ∧ rdB s.tdl.csr TDL_CTL.EN = true
    let records : List (Instr × (State → State → Prop)) := [
      (.tdlSlot h mseq ⟨5, 1, 2, 3, 1, 1, 64, 7⟩, fun t u => ∃ c, u.tdl.cmds = t.tdl.cmds.filter (fun x => decide (x.rec_.slot ≠ 5)) ++ [c] ∧
        c.rec_ = ⟨5, 1, 2, 3, 1, 1, 64, 7⟩ ∧ c.dataSeen = 0 ∧ c.committed = false ∧ u.tdl.held = t.tdl.held),
      (.tdlRelease h mseq [64, 65], fun t u => u.tdl.held = t.tdl.held.filter (fun e => decide (e.1 ≠ 64 ∧ e.1 ≠ 65)) ∧
        u.tdl.cmds = t.tdl.cmds),
      (.commitDone h mseq 5 3, fun t u => u.tdl.cmds = t.tdl.cmds.map (fun c =>
        if c.rec_.slot = 5 ∧ c.rec_.cid = 3 then { c with committed := true } else c) ∧ u.tdl.held = t.tdl.held),
      (.tdlData h mseq 5 64 9 8, fun t u =>
        let lost := (∀ c ∈ t.tdl.cmds, c.rec_.slot ≠ 5) ∧ 64 ∈ t.ple.map.lost
        (¬ lost → u.tdl.held = t.tdl.held ∧ u.ple.map = t.ple.map ∧ u.tdl.cmds = t.tdl.cmds.map (fun c => if c.rec_.slot = 5 then
          { c with data := c.data.filter (fun e => decide (e.1 ≠ 64)) ++ [(64, 9)], dataSeen := c.dataSeen + 1, dataNeed := 8 }
          else c)) ∧
        (lost → 64 ∉ u.ple.map.lost ∧ 64 ∈ u.ple.map.dram ∧ u.tdl.cmds = t.tdl.cmds))]
    (∀ p ∈ records, ¬ on → exec p.1 s = .next (settle s)) ∧
    (∀ p ∈ records, on → ∃ u, exec p.1 s = .next (settle u) ∧
      (mseq = s.tdl.mseqRx + 1 → u.tdl.mseqRx = mseq ∧ p.2 s u) ∧
      (mseq ≤ s.tdl.mseqRx → u.tdl.mseqRx = s.tdl.mseqRx ∧ u.tdl.cmds = s.tdl.cmds ∧ u.tdl.held = s.tdl.held ∧
        (rd u.tdl.csr TDL_DUP).toNat = min 0xFFFFFFFF ((rd s.tdl.csr TDL_DUP).toNat + 1)) ∧
      (s.tdl.mseqRx + 1 < mseq → u.tdl.mseqRx = s.tdl.mseqRx ∧ u.tdl.cmds = s.tdl.cmds ∧ u.tdl.held = s.tdl.held)) ∧
    (on → s.tdl.mseqAck < mseq → mseq ≤ s.tdl.mseqTx → ∃ u, exec (.tdlAck h mseq false) s = .next (settle u) ∧
      u.tdl.mseqAck = mseq ∧ ∀ e ∈ u.tdl.unacked, mseq < e.1) ∧
    (on → h.ackLate = false → ∃ u, exec (.tdlAck h mseq true) s = .next (settle u) ∧ u.tdl.mseqAck = s.tdl.mseqAck ∧
      u.tdl.unacked = s.tdl.unacked ∧ (rd u.tdl.csr TDL_LATE).toNat = min 0xFFFFFFFF ((rd s.tdl.csr TDL_LATE).toNat + 1))

/-- A datagram that fails a check is dropped with the counter of the first check that fails, and nothing is acted on (R429,
R430, R425). -/
def Obligations.CarillonReceptionChecksInOrder : Prop :=
  ∀ (h : ClpHdr) (s : State) (d : DialectMsg) (p : PhaseMsg) (m : PowerMsg), twf 0 s.clp.csr = true →
    let rows := [(Instr.clpDialect h d, 5, dialectBody d), (.clpPhase h p, 3, phaseBody p), (.grantRequest h m, 1, powerBody 1 m),
      (.grantRelease h m, 1, powerBody 5 m)]
    ∀ r ∈ rows,
    let counts := fun (a : Nat) => ∃ t, exec r.1 s = .next t ∧
      (rd t.clp.csr a).toNat = min 0xFFFFFFFF ((rd s.clp.csr a).toNat + 1) ∧ (∀ b, b ≠ a → rd t.clp.csr b = rd s.clp.csr b) ∧
      t = { s with
        clp := { s.clp with csr := t.clp.csr, strangerAt := t.clp.strangerAt }
        evr := t.evr
        free := t.free } ∧
      (a ≠ CLP_STRANGER → t = { s with clp := { s.clp with csr := t.clp.csr } })
    let body := r.2.2 ++ h.more
    let wire := h.dst = clpGroup ∧ h.dport = rdF s.clp.csr CLP_PORT.PORT ∧ h.cksum ≠ 0 ∧
      udpSum h h.cksum (clpMessage h r.2.1 body ++ h.tag) = 0 ∧ h.ver = 1 ∧ h.tag.length = 16 ∧ h.length = body.length ∧ body.length ≤ 224
    let tagged := h.tag = Cmac.tag s.clp.key (clpMessage { h with hops := 0 } r.2.1 body)
    let known := rdF s.clp.csr CLP_DOM.LO ≤ h.node ∧ h.node ≤ rdF s.clp.csr CLP_DOM.HI ∧ h.node < 16383 ∧ h.node ≠ ownNode s
    let e := replayEntry s h.node
    let replayed := e ≠ (0, 0) ∧ h.counter ≤ e.1 ∧ (64 ≤ e.1 - h.counter ∨ e.2.testBit (63 - (e.1 - h.counter)) = true)
    let dialect := rdF s.clp.csr CLP_PORT.DIALECT
    let near := dialect ≤ h.dialect + 1 ∧ h.dialect ≤ dialect + 1
    (clpOn s = false → exec r.1 s = .next s) ∧
    (clpOn s = true → h.phyOk = false → counts CLP_COLL) ∧
    (clpOn s = true → h.phyOk = true →
      (¬ wire → counts CLP_STRANGER) ∧
      (wire → (¬ known ∧ h.node ≠ ownNode s) ∨ ¬ tagged → counts CLP_STRANGER) ∧
      (wire → known → tagged → replayed → counts CLP_REPLAY) ∧
      (wire → known → tagged → ¬ replayed → ¬ near → counts CLP_STRANGER) ∧
      (wire → known → tagged → ¬ replayed → near → r.1 = .clpDialect h d →
        (rdF s.clp.csr CLP_RXQ.PROD + 1) % 256 ≠ rdF s.clp.csr CLP_RXQ.CONS →
        ∃ t, exec (.clpDialect h d) s = .next t ∧ (rd t.clp.csr CLP_RX).toNat = min 0xFFFFFFFF ((rd s.clp.csr CLP_RX).toNat + 1) ∧
          tget none t.clp.dialects h.node = some d))

/-- Every source of a device reset sets its cause and starts at most one reset dump (R448, R450, R451, R452). -/
def Obligations.ResetSourcesStartOneDump : Prop :=
  ∀ (b : BootIn) (s : State), twf 0 s.sys.csr = true → s.sys.phase = .running →
    let sources : List (Instr × Fld × Bool) := [(.softReset, SYS_RST_CAUSE.SOFT, true),
      (.devrst, SYS_RST_CAUSE.JTAG, rdB s.sys.csr SYS_JTAG.OPEN), (.watchdogExpiry, SYS_RST_CAUSE.WDOG,
        rdB s.sys.csr SYS_WDOG_CTL.EN && !s.sys.wdogOut),
      (.resetN true b, SYS_RST_CAUSE.PIN, !s.pins.resetLow)]
    (∀ p ∈ sources, ∃ t, exec p.1 s = .next t ∧
      (p.2.2 = false → t.sys.phase = .running ∧ t.sys.dump = s.sys.dump ∧ t.sys.csr = s.sys.csr ∧ t.mcs = s.mcs ∧ t.nv = s.nv) ∧
      (p.2.2 = true → rdB t.sys.csr p.2.1 = true ∧
        (s.sys.dump ≠ .none → t.sys.dump = s.sys.dump ∧ t.sys.phase = .running ∧ t.mcs = s.mcs ∧ t.hqe = s.hqe ∧ t.nv = s.nv) ∧
        (s.sys.dump = .none → bmcServes s = true → t.sys.dump = .reset ∧ t.sys.phase = .running) ∧
        (s.sys.dump = .none → bmcServes s = false → t.sys.dump = .none ∧ t.sys.phase = .held ∧
          rdB t.sys.csr SYS_RST_CAUSE.NODUMP = true))) ∧
    (rdB s.sys.csr SYS_WDOG_CTL.EN = true → s.sys.wdogOut = false → ∃ t, exec .watchdogExpiry s = .next t ∧
      rdF t.sys.csr SYS_WDOG_STAT.EXPIRIES = min 65535 (rdF s.sys.csr SYS_WDOG_STAT.EXPIRIES + 1))

/-- A device reset empties the device but keeps the causes, the expiries and the media; a Media Channel's unit reset reaches
that channel alone (R449, R450, R451, R453). -/
def Obligations.ResetsReachWhatTheyName : Prop :=
  (∀ (b : BootIn) (s : State), twf 0 s.sys.csr = true → s.sys.dump = .reset → s.pins.resetLow = true →
    ∃ t, exec (.resetDumpEnd b) s = .next t ∧ t.sys.phase = .held ∧ t.sys.dump = .none ∧
      rd t.sys.csr SYS_RST_CAUSE.DUMPED.off = rd (wrB s.sys.csr SYS_RST_CAUSE.DUMPED true) SYS_RST_CAUSE.DUMPED.off ∧
      rdF t.sys.csr SYS_WDOG_STAT.EXPIRIES = rdF s.sys.csr SYS_WDOG_STAT.EXPIRIES ∧
      (∀ k, (mcOf t k).job = none ∧ (mcOf t k).own = false ∧ (mcOf t k).wg = false ∧ (mcOf t k).jt = []) ∧
      t.hqe.slots = [] ∧ t.mem = [] ∧ t.scu = Scu.reset ∧ t.media = s.media ∧ t.nv.pwrcyc = s.nv.pwrcyc ∧
      (s.pct.runs = [] → t.pct.pages = s.pct.pages)) ∧
  (∀ (k : Fin 4) (s : State), mcAbsent s k = false → s.sys.phase = .running →
    (s.sys.dump = .none → ∃ u, exec (.unitResetMc k) s = .next (settle u) ∧ (mcOf u k).job = none ∧ (mcOf u k).own = false ∧
      (mcOf u k).jt = [] ∧ (mcOf u k).armed = [] ∧ (mcOf u k).shadow = none ∧ (mcOf u k).store = (mcOf s k).store ∧
      (∀ j, j ≠ k → mcOf u j = mcOf s j) ∧ u.sce = s.sce ∧ u.scu = s.scu ∧ u.hqe = s.hqe ∧ u.tdl = s.tdl) ∧
    (s.sys.dump ≠ .none → exec (.unitResetMc k) s = .next (settle s)))

/-- Posts, records and syndromes are first in, first out, and none is lost uncounted (R488, R491, R493, R497, R498). -/
def Obligations.RecordsAndSyndromesKeepTheirOrder : Prop :=
  (∀ (cls id : Nat) (detail : Word) (s : State), twf 0 s.evr.csr = true → cls < 8 → cls ≠ 1 → id < 65536 →
    ∃ t, exec (.evrFirmwarePost cls id detail) s = .next t ∧ t.evr.ring = s.evr.ring ∧ t.mck = s.mck ∧
      (rdB s.evr.csr EVR_CTL.EN = true → s.evr.posts.length < 16 → (rd t.evr.csr EVR_LOST = rd s.evr.csr EVR_LOST) ∧
        ∃ p, t.evr.posts = s.evr.posts ++ [p] ∧ p.cls = cls ∧ p.id = id ∧ p.detail = detail) ∧
      (rdB s.evr.csr EVR_CTL.EN = false ∨ 16 ≤ s.evr.posts.length → t.evr.posts = s.evr.posts ∧
        (rd t.evr.csr EVR_LOST).toNat = min 0xFFFFFFFF ((rd s.evr.csr EVR_LOST).toNat + 1))) ∧
  (∀ (s : State) (p : EvrPost) (rest : List EvrPost), twf 0 s.evr.csr = true → twf [] s.evr.ring = true →
    s.evr.posts = p :: rest → p.cls < 8 → evrNext s + 1 < 2 ^ 64 →
    ∃ t r, exec .evrRecord s = .next t ∧ t.evr.posts = rest ∧ evrNext t = evrNext s + 1 ∧
      tget [] t.evr.ring (evrNext s % 4096) = r ∧ r.length = 32 ∧ r.getD 0 0 = BitVec.ofNat 32 (evrNext s) ∧
      wordField (r.getD 2 0) 7 0 = p.cls ∧ wordField (r.getD 2 0) 31 16 = p.id % 65536 ∧ r.getD 6 0 = p.detail ∧
      ∀ i, i ≠ evrNext s % 4096 → tget [] t.evr.ring i = tget [] s.evr.ring i) ∧
  (∀ (s : State) (y : List Word) (rest : List (List Word)), s.mck.fifo = y :: rest →
    ∃ t, exec .mckSynPop s = .next t ∧ t.mck.fifo = rest ∧ t.sys.rdata = y.getD 3 0 ∧ t.evr = s.evr) ∧
  (∀ (unit code sev : Nat) (addr info : Word) (s : State), twf 0 s.mck.csr = true →
    let t := machineCheck unit code sev addr info s
    (rd t.mck.csr MCK_COUNT).toNat = min 0xFFFFFFFF ((rd s.mck.csr MCK_COUNT).toNat + 1) ∧
    (s.mck.fifo.length < 16 → rd t.mck.csr MCK_LOST = rd s.mck.csr MCK_LOST ∧
      ∃ w0 w3, t.mck.fifo = s.mck.fifo ++ [[w0, addr, info, w3]]) ∧
    (16 ≤ s.mck.fifo.length → t.mck.fifo = s.mck.fifo ∧ rdB t.mck.csr MCK_STAT.OVF = true ∧
      (rd t.mck.csr MCK_LOST).toNat = min 0xFFFFFFFF ((rd s.mck.csr MCK_LOST).toNat + 1)) ∧
    (sev = 3 → rdB t.mck.csr MCK_STAT.FATAL = true))
end

