-- ==== Sys2Proof/Laws/Codes.lean ====
section
/-! SUPPORT. What the sector codes are good for: a codeword has no syndrome, and a sector has its 37,024 bits (R42, R46). -/

namespace Sys2Proof.Machine

theorem bitsMsb_length (n x : Nat) : (bitsMsb n x).length = n := by
  induction n with
  | zero => rfl
  | succ n ih => simp [bitsMsb, ih]

theorem length_flatMap_const (f : Nat → List Bool) (c : Nat) (h : ∀ i, (f i).length = c) (l : List Nat) :
    (l.flatMap f).length = l.length * c := by
  induction l with
  | nil => simp
  | cons a l ih => simp [List.flatMap_cons, h, ih, Nat.succ_mul, Nat.add_comm]

theorem ldpcParity_length (info : List Bool) : (ldpcParity info).length = 3968 := by
  unfold ldpcParity
  rw [length_flatMap_const _ 128 (fun _ => bitsMsb_length _ _)]
  simp

theorem prbs31_length (n r : Nat) : (prbs31 n r).length = n := by
  induction n generalizing r with
  | zero => rfl
  | succ n ih => simp [prbs31, ih]

theorem xorBits_self (l : List Bool) : xorBits l l = List.replicate l.length false := by
  induction l with
  | nil => rfl
  | cons a l ih => simpa [xorBits, List.replicate_succ] using ih

/-- A codeword's syndrome is zero. -/
theorem ldpcSyndrome_codeword (info : List Bool) (h : info.length = 32896) :
    ldpcSyndrome (ldpcEncode info) = List.replicate 3968 false := by
  have ht : (info ++ ldpcParity info).take 32896 = info := by rw [← h]; simp
  have hd : (info ++ ldpcParity info).drop 32896 = ldpcParity info := by rw [← h]; simp
  rw [ldpcSyndrome, ldpcEncode, ht, hd, xorBits_self, ldpcParity_length]

theorem infoBits_length (x : MediaSector) : (infoBits x).length = 32896 := by
  unfold infoBits
  rw [List.length_append, bitsMsb_length, length_flatMap_const _ 8 (fun _ => bitsMsb_length _ _)]
  simp

/-- A sector fills its slot of 37,024 bits. -/
theorem sectorBits_length (x : MediaSector) : (sectorBits x).length = 37024 := by
  have hx : (xorBits (infoBits x) (scrambler x.seed)).length = 32896 := by
    simp [xorBits, scrambler, prbs31_length, infoBits_length]
  have h1 : (pattern1100 24).length = 96 := rfl
  have h2 : (pattern1100 8).length = 32 := rfl
  simp [sectorBits, ldpcEncode, ldpcParity_length, bitsMsb_length, hx, h1, h2]

end Sys2Proof.Machine
end

