-- ==== Sys2Proof/Laws/Tab.lean ====
section
/-! SUPPORT. Laws of tables and of registers: a read after a write, the canonical form, fields of a word. -/

namespace Sys2Proof.Machine

/-- Every key of a canonical table is above a bound that its first key is above. -/
theorem tget_of_lt {α : Type} [DecidableEq α] (d : α) (t : List (Nat × α)) (k : Nat)
    (h : t.all (fun e => decide (k < e.1)) = true) : tget d t k = d := by
  induction t with
  | nil => rfl
  | cons e r ih =>
    simp only [List.all_cons, Bool.and_eq_true, decide_eq_true_eq] at h
    obtain ⟨j, x⟩ := e
    simp only [tget]
    rw [if_neg (by simp at h; omega)]
    exact ih h.2

theorem tget_tput_same {α : Type} [DecidableEq α] (d v : α) (t : List (Nat × α)) (k : Nat) (h : twf d t = true) :
    tget d (tput d t k v) k = v := by
  induction t with
  | nil => simp only [tput]; split <;> simp_all [tget]
  | cons e r ih =>
    obtain ⟨j, x⟩ := e
    simp only [twf, Bool.and_eq_true, decide_eq_true_eq] at h
    simp only [tput]
    split
    · rename_i hk
      split
      · rename_i hv
        subst hv
        exact tget_of_lt v _ k (by
          simp only [List.all_cons, Bool.and_eq_true, decide_eq_true_eq]
          exact ⟨hk, List.all_eq_true.mpr fun e he => by
            have := List.all_eq_true.mp h.1.2 e he
            simp at this ⊢; omega⟩)
      · simp [tget]
    · split
      · rename_i hk
        subst hk
        split
        · rename_i hv; subst hv; exact tget_of_lt v r k h.1.2
        · simp [tget]
      · rename_i h1 h2
        simp only [tget, if_neg h2]
        exact ih h.2

theorem tget_tput_other {α : Type} [DecidableEq α] (d v : α) (t : List (Nat × α)) (k a : Nat) (ne : a ≠ k)
    (h : twf d t = true) : tget d (tput d t k v) a = tget d t a := by
  induction t with
  | nil => simp only [tput]; split <;> simp_all [tget]
  | cons e r ih =>
    obtain ⟨j, x⟩ := e
    simp only [twf, Bool.and_eq_true, decide_eq_true_eq] at h
    simp only [tput]
    split
    · split <;> simp [tget, ne]
    · split
      · rename_i hk; subst hk
        split <;> simp [tget, ne]
      · simp only [tget]; split
        · rfl
        · exact ih h.2

/-- An entry's key is above a bound, if all the keys were and it is. -/
theorem tput_all_lt {α : Type} [DecidableEq α] (d v : α) (t : List (Nat × α)) (k b : Nat) (hb : b < k)
    (h : t.all (fun e => decide (b < e.1)) = true) : (tput d t k v).all (fun e => decide (b < e.1)) = true := by
  induction t with
  | nil => simp only [tput]; split <;> simp [hb]
  | cons e r ih =>
    obtain ⟨j, x⟩ := e
    simp only [List.all_cons, Bool.and_eq_true, decide_eq_true_eq] at h
    simp only [tput]
    split
    · split <;> simp [h, hb]
    · split
      · split <;> simp [hb] <;> simpa using h.2
      · simp only [List.all_cons, Bool.and_eq_true, decide_eq_true_eq]; exact ⟨h.1, ih h.2⟩

/-- A write keeps the canonical form. -/
theorem tput_twf {α : Type} [DecidableEq α] (d v : α) (t : List (Nat × α)) (k : Nat) (h : twf d t = true) :
    twf d (tput d t k v) = true := by
  induction t with
  | nil => simp only [tput]; split <;> simp_all [twf]
  | cons e r ih =>
    obtain ⟨j, x⟩ := e
    simp only [twf, Bool.and_eq_true, decide_eq_true_eq] at h
    simp only [tput]
    split
    · rename_i hk
      split
      · simp only [twf, Bool.and_eq_true, decide_eq_true_eq]; exact h
      · rename_i hv
        have hall : r.all (fun e => decide (k < e.1)) = true :=
          List.all_eq_true.mpr fun e he => by
            have := List.all_eq_true.mp h.1.2 e he
            simp at this ⊢; omega
        simp only [twf, Bool.and_eq_true, decide_eq_true_eq, List.all_cons]
        exact ⟨⟨hv, hk, hall⟩, h⟩
    · split
      · rename_i hk; subst hk
        split
        · exact h.2
        · rename_i hv
          simp only [twf, Bool.and_eq_true, decide_eq_true_eq]
          exact ⟨⟨hv, h.1.2⟩, h.2⟩
      · rename_i h1 h2
        simp only [twf, Bool.and_eq_true, decide_eq_true_eq]
        exact ⟨⟨h.1.1, tput_all_lt d v r k j (by omega) h.1.2⟩, ih h.2⟩

/-- Leaving entries out keeps the canonical form. -/
theorem filter_twf {α : Type} [DecidableEq α] (d : α) (p : Nat × α → Bool) (t : List (Nat × α)) (h : twf d t = true) :
    twf d (t.filter p) = true := by
  induction t with
  | nil => rfl
  | cons e r ih =>
    obtain ⟨j, x⟩ := e
    simp only [twf, Bool.and_eq_true, decide_eq_true_eq] at h
    simp only [List.filter_cons]
    split
    · simp only [twf, Bool.and_eq_true, decide_eq_true_eq]
      exact ⟨⟨h.1.1, List.all_eq_true.mpr fun e he =>
        List.all_eq_true.mp h.1.2 e (List.mem_filter.mp he).1⟩, ih h.2⟩
    · exact ih h.2

/-- A register after its write, and another register. -/
theorem rd_wr_same (t : List (Nat × Word)) (off : Nat) (w : Word) (h : twf 0 t = true) : rd (wr t off w) off = w :=
  tget_tput_same 0 w t off h
theorem rd_wr_other (t : List (Nat × Word)) (off a : Nat) (w : Word) (ne : a ≠ off) (h : twf 0 t = true) :
    rd (wr t off w) a = rd t a := tget_tput_other 0 w t off a ne h
theorem wr_twf (t : List (Nat × Word)) (off : Nat) (w : Word) (h : twf 0 t = true) : twf 0 (wr t off w) = true :=
  tput_twf 0 w t off h
theorem wrF_twf (t : List (Nat × Word)) (f : Fld) (v : Nat) (h : twf 0 t = true) : twf 0 (wrF t f v) = true :=
  wr_twf t _ _ h
theorem rd_wrF_other (t : List (Nat × Word)) (f : Fld) (v a : Nat) (ne : a ≠ f.off) (h : twf 0 t = true) :
    rd (wrF t f v) a = rd t a := rd_wr_other t f.off a _ ne h

/-- A field of a word after it was replaced. -/
theorem wordField_set_same (w : Word) (hi lo v : Nat) (hw : lo ≤ hi) (h32 : hi < 32) :
    wordField (wordSetField w hi lo v) hi lo = v % 2 ^ (hi + 1 - lo) := by
  unfold wordField wordSetField
  simp only [BitVec.toNat_ofNat, Nat.shiftRight_eq_div_pow]
  have hw32 := w.isLt
  have e1 : 2 ^ (hi + 1) = 2 ^ (hi + 1 - lo) * 2 ^ lo := by rw [← pow_add]; congr 1; omega
  have e2 : (2 : Nat) ^ 32 = 2 ^ (31 - hi) * 2 ^ (hi + 1) := by rw [← pow_add]; congr 1; omega
  have hlo : w.toNat % 2 ^ lo < 2 ^ lo := Nat.mod_lt _ (by positivity)
  have hv : v % 2 ^ (hi + 1 - lo) < 2 ^ (hi + 1 - lo) := Nat.mod_lt _ (by positivity)
  have hq : w.toNat / 2 ^ (hi + 1) < 2 ^ (31 - hi) := by
    rw [Nat.div_lt_iff_lt_mul (by positivity), ← e2]; exact hw32
  set A := w.toNat % 2 ^ lo
  set B := v % 2 ^ (hi + 1 - lo)
  set C := w.toNat / 2 ^ (hi + 1)
  have hlt : A + B * 2 ^ lo + C * 2 ^ (hi + 1) < 2 ^ 32 := by
    rw [e2]
    have h1 : A + B * 2 ^ lo < 2 ^ (hi + 1) := by rw [e1]; nlinarith
    have h2 : C + 1 ≤ 2 ^ (31 - hi) := hq
    nlinarith [Nat.mul_le_mul_right (2 ^ (hi + 1)) h2]
  rw [Nat.mod_eq_of_lt hlt, e1]
  have : A + B * 2 ^ lo + C * (2 ^ (hi + 1 - lo) * 2 ^ lo) = A + (B + C * 2 ^ (hi + 1 - lo)) * 2 ^ lo := by ring
  rw [this, Nat.add_mul_div_right _ _ (by positivity), Nat.div_eq_of_lt hlo, Nat.zero_add, Nat.add_mul_mod_self_right,
    Nat.mod_eq_of_lt hv]

/-- A field after its write. -/
theorem rdF_wrF_same (t : List (Nat × Word)) (f : Fld) (v : Nat) (hw : f.lo ≤ f.hi) (h32 : f.hi < 32) (h : twf 0 t = true) :
    rdF (wrF t f v) f = v % 2 ^ (f.hi + 1 - f.lo) := by
  unfold rdF wrF
  rw [rd_wr_same t f.off _ h]
  exact wordField_set_same _ _ _ _ hw h32

/-- A field of another register after a write. -/
theorem rdF_wrF_other (t : List (Nat × Word)) (f g : Fld) (v : Nat) (ne : g.off ≠ f.off) (h : twf 0 t = true) :
    rdF (wrF t f v) g = rdF t g := by
  unfold rdF
  rw [rd_wrF_other t f v g.off ne h]

end Sys2Proof.Machine
end

