-- ==== Sys2Proof/Laws/Memory.lean ====
section
/-! SUPPORT. Every operation on buffer memory keeps its canonical form, and a byte reads as it was last written. -/

namespace Sys2Proof.Machine

/-- A run of writes keeps the canonical form, whatever else each of them does. -/
theorem foldl_mem_wf {α : Type} (f : State → α → State) (l : List α) (s : State)
    (hf : ∀ t x, Memory.wf t.mem = true → Memory.wf (f t x).mem = true) (h : Memory.wf s.mem = true) :
    Memory.wf (l.foldl f s).mem = true := by
  induction l generalizing s with
  | nil => exact h
  | cons x r ih => exact ih (f s x) (hf s x h)

/-- A run of bytes put into a table keeps its canonical form. -/
theorem foldl_tput_wf {α : Type} (l : List α) (key : α → Nat) (val : α → Byte) (m : List (Nat × Byte)) (h : twf 0 m = true) :
    twf 0 (l.foldl (fun m e => tput 0 m (key e) (val e)) m) = true := by
  induction l generalizing m with
  | nil => exact h
  | cons e r ih => exact ih _ (tput_twf 0 _ m _ h)

theorem memPut_wf (a : Nat) (b : Byte) (s : State) (h : Memory.wf s.mem = true) : Memory.wf (memPut a b s).mem = true :=
  tput_twf 0 b s.mem a h

/-- R303: a byte reads as it was last written, and every other byte as before. -/
theorem memPut_same (a : Nat) (b : Byte) (s : State) (h : Memory.wf s.mem = true) : memByte (memPut a b s).mem a = b.toNat :=
  congrArg BitVec.toNat (tget_tput_same 0 b s.mem a h)
theorem memPut_other (a c : Nat) (b : Byte) (s : State) (ne : c ≠ a) (h : Memory.wf s.mem = true) :
    memByte (memPut a b s).mem c = memByte s.mem c :=
  congrArg BitVec.toNat (tget_tput_other 0 b s.mem a c ne h)

theorem putByte_wf (n i : Nat) (b : Byte) (s : State) (h : Memory.wf s.mem = true) : Memory.wf (putByte n i b s).mem = true := by
  unfold putByte
  split
  · exact memPut_wf _ _ _ h
  · exact memPut_wf _ _ _ (memPut_wf _ _ _ h)

theorem evrPost_mem (cls id : Nat) (d : Word) (syn : List Word) (s : State) : (evrPost cls id d syn s).mem = s.mem := by
  simp only [evrPost]
  split <;> rfl

theorem machineCheck_mem (u c sev : Nat) (x y : Word) (s : State) : (machineCheck u c sev x y s).mem = s.mem :=
  evrPost_mem _ _ _ _ _

theorem markStale_mem (n : Nat) (s : State) : (markStale n s).mem = s.mem := by
  unfold markStale
  split <;> rfl

theorem dramPut_wf (l : List (Nat × Byte)) (s : State) (h : Memory.wf s.mem = true) : Memory.wf (dramPut l s).mem = true := by
  refine foldl_mem_wf _ _ s (fun t n ht => ?_) h
  dsimp only
  split
  · rw [machineCheck_mem]; exact ht
  · have hp : ∀ (m : List (Nat × Byte)), Memory.wf (m.foldl (fun s e => putByte n (e.1 % 4096) e.2 s) t).mem = true :=
      fun m => foldl_mem_wf _ m t (fun u e hu => putByte_wf n _ _ u hu) ht
    split
    · exact hp _
    · rw [markStale_mem]; exact hp _

theorem memPutWord_wf (a : Nat) (w : Word) (s : State) (h : Memory.wf s.mem = true) : Memory.wf (memPutWord a w s).mem = true :=
  dramPut_wf _ s h

theorem bufPut_wf (a : Nat) (bs : List Nat) (s : State) (h : Memory.wf s.mem = true) : Memory.wf (bufPut a bs s).mem = true :=
  dramPut_wf _ s h

theorem bodyToBuf_wf (a : Nat) (b : List (Nat × Byte)) (s : State) (h : Memory.wf s.mem = true) :
    Memory.wf (bodyToBuf a b s).mem = true :=
  dramPut_wf _ s h

theorem loadReplayTable_wf (s : State) (h : Memory.wf s.mem = true) : Memory.wf (loadReplayTable s).mem = true :=
  dramPut_wf _ s h

theorem reset_mem_wf : Memory.wf State.reset.mem = true := rfl

end Sys2Proof.Machine
end

