-- ==== Sys2Proof/Laws/State.lean ====
section
/-! SUPPORT. What the updates of one unit leave of the others, field by field, and what they make of their own. -/

namespace Sys2Proof.Machine

variable (s : State)

/-! `setMc` -/
@[simp] theorem setMc_pending (k : Fin 4) (m : Mc) : (setMc k m s).pending = s.pending := rfl
@[simp] theorem setMc_part (k : Fin 4) (m : Mc) : (setMc k m s).part = s.part := rfl
@[simp] theorem setMc_sys (k : Fin 4) (m : Mc) : (setMc k m s).sys = s.sys := rfl
@[simp] theorem setMc_evr (k : Fin 4) (m : Mc) : (setMc k m s).evr = s.evr := rfl
@[simp] theorem setMc_mck (k : Fin 4) (m : Mc) : (setMc k m s).mck = s.mck := rfl
@[simp] theorem setMc_pins (k : Fin 4) (m : Mc) : (setMc k m s).pins = s.pins := rfl
@[simp] theorem setMc_media (k : Fin 4) (m : Mc) : (setMc k m s).media = s.media := rfl
@[simp] theorem setMc_mem (k : Fin 4) (m : Mc) : (setMc k m s).mem = s.mem := rfl
@[simp] theorem setMc_staging (k : Fin 4) (m : Mc) : (setMc k m s).staging = s.staging := rfl
@[simp] theorem setMc_sce (k : Fin 4) (m : Mc) : (setMc k m s).sce = s.sce := rfl
@[simp] theorem setMc_scu (k : Fin 4) (m : Mc) : (setMc k m s).scu = s.scu := rfl
@[simp] theorem setMc_tdl (k : Fin 4) (m : Mc) : (setMc k m s).tdl = s.tdl := rfl
@[simp] theorem setMc_ple (k : Fin 4) (m : Mc) : (setMc k m s).ple = s.ple := rfl
@[simp] theorem setMc_hqe (k : Fin 4) (m : Mc) : (setMc k m s).hqe = s.hqe := rfl
@[simp] theorem setMc_nv (k : Fin 4) (m : Mc) : (setMc k m s).nv = s.nv := rfl
@[simp] theorem setMc_elg (k : Fin 4) (m : Mc) : (setMc k m s).elg = s.elg := rfl
@[simp] theorem setMc_bmc (k : Fin 4) (m : Mc) : (setMc k m s).bmc = s.bmc := rfl
@[simp] theorem setMc_mpc (k : Fin 4) (m : Mc) : (setMc k m s).mpc = s.mpc := rfl
@[simp] theorem setMc_dma (k : Fin 4) (m : Mc) : (setMc k m s).dma = s.dma := rfl
@[simp] theorem setMc_pct (k : Fin 4) (m : Mc) : (setMc k m s).pct = s.pct := rfl
@[simp] theorem setMc_tmn (k : Fin 4) (m : Mc) : (setMc k m s).tmn = s.tmn := rfl
@[simp] theorem setMc_cal (k : Fin 4) (m : Mc) : (setMc k m s).cal = s.cal := rfl
@[simp] theorem setMc_clp (k : Fin 4) (m : Mc) : (setMc k m s).clp = s.clp := rfl
@[simp] theorem setMc_free (k : Fin 4) (m : Mc) : (setMc k m s).free = s.free := rfl
/-! `modMc` -/
@[simp] theorem modMc_pending (k : Fin 4) (f : Mc → Mc) : (modMc k f s).pending = s.pending := rfl
@[simp] theorem modMc_part (k : Fin 4) (f : Mc → Mc) : (modMc k f s).part = s.part := rfl
@[simp] theorem modMc_sys (k : Fin 4) (f : Mc → Mc) : (modMc k f s).sys = s.sys := rfl
@[simp] theorem modMc_evr (k : Fin 4) (f : Mc → Mc) : (modMc k f s).evr = s.evr := rfl
@[simp] theorem modMc_mck (k : Fin 4) (f : Mc → Mc) : (modMc k f s).mck = s.mck := rfl
@[simp] theorem modMc_pins (k : Fin 4) (f : Mc → Mc) : (modMc k f s).pins = s.pins := rfl
@[simp] theorem modMc_media (k : Fin 4) (f : Mc → Mc) : (modMc k f s).media = s.media := rfl
@[simp] theorem modMc_mem (k : Fin 4) (f : Mc → Mc) : (modMc k f s).mem = s.mem := rfl
@[simp] theorem modMc_staging (k : Fin 4) (f : Mc → Mc) : (modMc k f s).staging = s.staging := rfl
@[simp] theorem modMc_sce (k : Fin 4) (f : Mc → Mc) : (modMc k f s).sce = s.sce := rfl
@[simp] theorem modMc_scu (k : Fin 4) (f : Mc → Mc) : (modMc k f s).scu = s.scu := rfl
@[simp] theorem modMc_tdl (k : Fin 4) (f : Mc → Mc) : (modMc k f s).tdl = s.tdl := rfl
@[simp] theorem modMc_ple (k : Fin 4) (f : Mc → Mc) : (modMc k f s).ple = s.ple := rfl
@[simp] theorem modMc_hqe (k : Fin 4) (f : Mc → Mc) : (modMc k f s).hqe = s.hqe := rfl
@[simp] theorem modMc_nv (k : Fin 4) (f : Mc → Mc) : (modMc k f s).nv = s.nv := rfl
@[simp] theorem modMc_elg (k : Fin 4) (f : Mc → Mc) : (modMc k f s).elg = s.elg := rfl
@[simp] theorem modMc_bmc (k : Fin 4) (f : Mc → Mc) : (modMc k f s).bmc = s.bmc := rfl
@[simp] theorem modMc_mpc (k : Fin 4) (f : Mc → Mc) : (modMc k f s).mpc = s.mpc := rfl
@[simp] theorem modMc_dma (k : Fin 4) (f : Mc → Mc) : (modMc k f s).dma = s.dma := rfl
@[simp] theorem modMc_pct (k : Fin 4) (f : Mc → Mc) : (modMc k f s).pct = s.pct := rfl
@[simp] theorem modMc_tmn (k : Fin 4) (f : Mc → Mc) : (modMc k f s).tmn = s.tmn := rfl
@[simp] theorem modMc_cal (k : Fin 4) (f : Mc → Mc) : (modMc k f s).cal = s.cal := rfl
@[simp] theorem modMc_clp (k : Fin 4) (f : Mc → Mc) : (modMc k f s).clp = s.clp := rfl
@[simp] theorem modMc_free (k : Fin 4) (f : Mc → Mc) : (modMc k f s).free = s.free := rfl
/-! `mcReg` -/
@[simp] theorem mcReg_pending (k : Fin 4) (f : List (Nat × Word) → List (Nat × Word)) : (mcReg k f s).pending = s.pending := rfl
@[simp] theorem mcReg_part (k : Fin 4) (f : List (Nat × Word) → List (Nat × Word)) : (mcReg k f s).part = s.part := rfl
@[simp] theorem mcReg_sys (k : Fin 4) (f : List (Nat × Word) → List (Nat × Word)) : (mcReg k f s).sys = s.sys := rfl
@[simp] theorem mcReg_evr (k : Fin 4) (f : List (Nat × Word) → List (Nat × Word)) : (mcReg k f s).evr = s.evr := rfl
@[simp] theorem mcReg_mck (k : Fin 4) (f : List (Nat × Word) → List (Nat × Word)) : (mcReg k f s).mck = s.mck := rfl
@[simp] theorem mcReg_pins (k : Fin 4) (f : List (Nat × Word) → List (Nat × Word)) : (mcReg k f s).pins = s.pins := rfl
@[simp] theorem mcReg_media (k : Fin 4) (f : List (Nat × Word) → List (Nat × Word)) : (mcReg k f s).media = s.media := rfl
@[simp] theorem mcReg_mem (k : Fin 4) (f : List (Nat × Word) → List (Nat × Word)) : (mcReg k f s).mem = s.mem := rfl
@[simp] theorem mcReg_staging (k : Fin 4) (f : List (Nat × Word) → List (Nat × Word)) : (mcReg k f s).staging = s.staging := rfl
@[simp] theorem mcReg_sce (k : Fin 4) (f : List (Nat × Word) → List (Nat × Word)) : (mcReg k f s).sce = s.sce := rfl
@[simp] theorem mcReg_scu (k : Fin 4) (f : List (Nat × Word) → List (Nat × Word)) : (mcReg k f s).scu = s.scu := rfl
@[simp] theorem mcReg_tdl (k : Fin 4) (f : List (Nat × Word) → List (Nat × Word)) : (mcReg k f s).tdl = s.tdl := rfl
@[simp] theorem mcReg_ple (k : Fin 4) (f : List (Nat × Word) → List (Nat × Word)) : (mcReg k f s).ple = s.ple := rfl
@[simp] theorem mcReg_hqe (k : Fin 4) (f : List (Nat × Word) → List (Nat × Word)) : (mcReg k f s).hqe = s.hqe := rfl
@[simp] theorem mcReg_nv (k : Fin 4) (f : List (Nat × Word) → List (Nat × Word)) : (mcReg k f s).nv = s.nv := rfl
@[simp] theorem mcReg_elg (k : Fin 4) (f : List (Nat × Word) → List (Nat × Word)) : (mcReg k f s).elg = s.elg := rfl
@[simp] theorem mcReg_bmc (k : Fin 4) (f : List (Nat × Word) → List (Nat × Word)) : (mcReg k f s).bmc = s.bmc := rfl
@[simp] theorem mcReg_mpc (k : Fin 4) (f : List (Nat × Word) → List (Nat × Word)) : (mcReg k f s).mpc = s.mpc := rfl
@[simp] theorem mcReg_dma (k : Fin 4) (f : List (Nat × Word) → List (Nat × Word)) : (mcReg k f s).dma = s.dma := rfl
@[simp] theorem mcReg_pct (k : Fin 4) (f : List (Nat × Word) → List (Nat × Word)) : (mcReg k f s).pct = s.pct := rfl
@[simp] theorem mcReg_tmn (k : Fin 4) (f : List (Nat × Word) → List (Nat × Word)) : (mcReg k f s).tmn = s.tmn := rfl
@[simp] theorem mcReg_cal (k : Fin 4) (f : List (Nat × Word) → List (Nat × Word)) : (mcReg k f s).cal = s.cal := rfl
@[simp] theorem mcReg_clp (k : Fin 4) (f : List (Nat × Word) → List (Nat × Word)) : (mcReg k f s).clp = s.clp := rfl
@[simp] theorem mcReg_free (k : Fin 4) (f : List (Nat × Word) → List (Nat × Word)) : (mcReg k f s).free = s.free := rfl
/-! `modSce` -/
@[simp] theorem modSce_pending (f : Sce → Sce) : (modSce f s).pending = s.pending := rfl
@[simp] theorem modSce_part (f : Sce → Sce) : (modSce f s).part = s.part := rfl
@[simp] theorem modSce_sys (f : Sce → Sce) : (modSce f s).sys = s.sys := rfl
@[simp] theorem modSce_evr (f : Sce → Sce) : (modSce f s).evr = s.evr := rfl
@[simp] theorem modSce_mck (f : Sce → Sce) : (modSce f s).mck = s.mck := rfl
@[simp] theorem modSce_pins (f : Sce → Sce) : (modSce f s).pins = s.pins := rfl
@[simp] theorem modSce_mcs (f : Sce → Sce) : (modSce f s).mcs = s.mcs := rfl
@[simp] theorem modSce_media (f : Sce → Sce) : (modSce f s).media = s.media := rfl
@[simp] theorem modSce_mem (f : Sce → Sce) : (modSce f s).mem = s.mem := rfl
@[simp] theorem modSce_staging (f : Sce → Sce) : (modSce f s).staging = s.staging := rfl
@[simp] theorem modSce_scu (f : Sce → Sce) : (modSce f s).scu = s.scu := rfl
@[simp] theorem modSce_tdl (f : Sce → Sce) : (modSce f s).tdl = s.tdl := rfl
@[simp] theorem modSce_ple (f : Sce → Sce) : (modSce f s).ple = s.ple := rfl
@[simp] theorem modSce_hqe (f : Sce → Sce) : (modSce f s).hqe = s.hqe := rfl
@[simp] theorem modSce_nv (f : Sce → Sce) : (modSce f s).nv = s.nv := rfl
@[simp] theorem modSce_elg (f : Sce → Sce) : (modSce f s).elg = s.elg := rfl
@[simp] theorem modSce_bmc (f : Sce → Sce) : (modSce f s).bmc = s.bmc := rfl
@[simp] theorem modSce_mpc (f : Sce → Sce) : (modSce f s).mpc = s.mpc := rfl
@[simp] theorem modSce_dma (f : Sce → Sce) : (modSce f s).dma = s.dma := rfl
@[simp] theorem modSce_pct (f : Sce → Sce) : (modSce f s).pct = s.pct := rfl
@[simp] theorem modSce_tmn (f : Sce → Sce) : (modSce f s).tmn = s.tmn := rfl
@[simp] theorem modSce_cal (f : Sce → Sce) : (modSce f s).cal = s.cal := rfl
@[simp] theorem modSce_clp (f : Sce → Sce) : (modSce f s).clp = s.clp := rfl
@[simp] theorem modSce_free (f : Sce → Sce) : (modSce f s).free = s.free := rfl
@[simp] theorem modSce_sce (f : Sce → Sce) : (modSce f s).sce = f s.sce := rfl
/-! `sceReg` -/
@[simp] theorem sceReg_pending (f : List (Nat × Word) → List (Nat × Word)) : (sceReg f s).pending = s.pending := rfl
@[simp] theorem sceReg_part (f : List (Nat × Word) → List (Nat × Word)) : (sceReg f s).part = s.part := rfl
@[simp] theorem sceReg_sys (f : List (Nat × Word) → List (Nat × Word)) : (sceReg f s).sys = s.sys := rfl
@[simp] theorem sceReg_evr (f : List (Nat × Word) → List (Nat × Word)) : (sceReg f s).evr = s.evr := rfl
@[simp] theorem sceReg_mck (f : List (Nat × Word) → List (Nat × Word)) : (sceReg f s).mck = s.mck := rfl
@[simp] theorem sceReg_pins (f : List (Nat × Word) → List (Nat × Word)) : (sceReg f s).pins = s.pins := rfl
@[simp] theorem sceReg_mcs (f : List (Nat × Word) → List (Nat × Word)) : (sceReg f s).mcs = s.mcs := rfl
@[simp] theorem sceReg_media (f : List (Nat × Word) → List (Nat × Word)) : (sceReg f s).media = s.media := rfl
@[simp] theorem sceReg_mem (f : List (Nat × Word) → List (Nat × Word)) : (sceReg f s).mem = s.mem := rfl
@[simp] theorem sceReg_staging (f : List (Nat × Word) → List (Nat × Word)) : (sceReg f s).staging = s.staging := rfl
@[simp] theorem sceReg_scu (f : List (Nat × Word) → List (Nat × Word)) : (sceReg f s).scu = s.scu := rfl
@[simp] theorem sceReg_tdl (f : List (Nat × Word) → List (Nat × Word)) : (sceReg f s).tdl = s.tdl := rfl
@[simp] theorem sceReg_ple (f : List (Nat × Word) → List (Nat × Word)) : (sceReg f s).ple = s.ple := rfl
@[simp] theorem sceReg_hqe (f : List (Nat × Word) → List (Nat × Word)) : (sceReg f s).hqe = s.hqe := rfl
@[simp] theorem sceReg_nv (f : List (Nat × Word) → List (Nat × Word)) : (sceReg f s).nv = s.nv := rfl
@[simp] theorem sceReg_elg (f : List (Nat × Word) → List (Nat × Word)) : (sceReg f s).elg = s.elg := rfl
@[simp] theorem sceReg_bmc (f : List (Nat × Word) → List (Nat × Word)) : (sceReg f s).bmc = s.bmc := rfl
@[simp] theorem sceReg_mpc (f : List (Nat × Word) → List (Nat × Word)) : (sceReg f s).mpc = s.mpc := rfl
@[simp] theorem sceReg_dma (f : List (Nat × Word) → List (Nat × Word)) : (sceReg f s).dma = s.dma := rfl
@[simp] theorem sceReg_pct (f : List (Nat × Word) → List (Nat × Word)) : (sceReg f s).pct = s.pct := rfl
@[simp] theorem sceReg_tmn (f : List (Nat × Word) → List (Nat × Word)) : (sceReg f s).tmn = s.tmn := rfl
@[simp] theorem sceReg_cal (f : List (Nat × Word) → List (Nat × Word)) : (sceReg f s).cal = s.cal := rfl
@[simp] theorem sceReg_clp (f : List (Nat × Word) → List (Nat × Word)) : (sceReg f s).clp = s.clp := rfl
@[simp] theorem sceReg_free (f : List (Nat × Word) → List (Nat × Word)) : (sceReg f s).free = s.free := rfl
@[simp] theorem sceReg_csr (f : List (Nat × Word) → List (Nat × Word)) : (sceReg f s).sce.csr = f s.sce.csr := rfl
/-! `modAct` -/
@[simp] theorem modAct_pending (k : Fin 4) (f : Act → Act) : (modAct k f s).pending = s.pending := rfl
@[simp] theorem modAct_part (k : Fin 4) (f : Act → Act) : (modAct k f s).part = s.part := rfl
@[simp] theorem modAct_sys (k : Fin 4) (f : Act → Act) : (modAct k f s).sys = s.sys := rfl
@[simp] theorem modAct_evr (k : Fin 4) (f : Act → Act) : (modAct k f s).evr = s.evr := rfl
@[simp] theorem modAct_mck (k : Fin 4) (f : Act → Act) : (modAct k f s).mck = s.mck := rfl
@[simp] theorem modAct_pins (k : Fin 4) (f : Act → Act) : (modAct k f s).pins = s.pins := rfl
@[simp] theorem modAct_mcs (k : Fin 4) (f : Act → Act) : (modAct k f s).mcs = s.mcs := rfl
@[simp] theorem modAct_media (k : Fin 4) (f : Act → Act) : (modAct k f s).media = s.media := rfl
@[simp] theorem modAct_mem (k : Fin 4) (f : Act → Act) : (modAct k f s).mem = s.mem := rfl
@[simp] theorem modAct_staging (k : Fin 4) (f : Act → Act) : (modAct k f s).staging = s.staging := rfl
@[simp] theorem modAct_scu (k : Fin 4) (f : Act → Act) : (modAct k f s).scu = s.scu := rfl
@[simp] theorem modAct_tdl (k : Fin 4) (f : Act → Act) : (modAct k f s).tdl = s.tdl := rfl
@[simp] theorem modAct_ple (k : Fin 4) (f : Act → Act) : (modAct k f s).ple = s.ple := rfl
@[simp] theorem modAct_hqe (k : Fin 4) (f : Act → Act) : (modAct k f s).hqe = s.hqe := rfl
@[simp] theorem modAct_nv (k : Fin 4) (f : Act → Act) : (modAct k f s).nv = s.nv := rfl
@[simp] theorem modAct_elg (k : Fin 4) (f : Act → Act) : (modAct k f s).elg = s.elg := rfl
@[simp] theorem modAct_bmc (k : Fin 4) (f : Act → Act) : (modAct k f s).bmc = s.bmc := rfl
@[simp] theorem modAct_mpc (k : Fin 4) (f : Act → Act) : (modAct k f s).mpc = s.mpc := rfl
@[simp] theorem modAct_dma (k : Fin 4) (f : Act → Act) : (modAct k f s).dma = s.dma := rfl
@[simp] theorem modAct_pct (k : Fin 4) (f : Act → Act) : (modAct k f s).pct = s.pct := rfl
@[simp] theorem modAct_tmn (k : Fin 4) (f : Act → Act) : (modAct k f s).tmn = s.tmn := rfl
@[simp] theorem modAct_cal (k : Fin 4) (f : Act → Act) : (modAct k f s).cal = s.cal := rfl
@[simp] theorem modAct_clp (k : Fin 4) (f : Act → Act) : (modAct k f s).clp = s.clp := rfl
@[simp] theorem modAct_free (k : Fin 4) (f : Act → Act) : (modAct k f s).free = s.free := rfl
/-! `modSpn` -/
@[simp] theorem modSpn_pending (f : SpnLoop → SpnLoop) : (modSpn f s).pending = s.pending := rfl
@[simp] theorem modSpn_part (f : SpnLoop → SpnLoop) : (modSpn f s).part = s.part := rfl
@[simp] theorem modSpn_sys (f : SpnLoop → SpnLoop) : (modSpn f s).sys = s.sys := rfl
@[simp] theorem modSpn_evr (f : SpnLoop → SpnLoop) : (modSpn f s).evr = s.evr := rfl
@[simp] theorem modSpn_mck (f : SpnLoop → SpnLoop) : (modSpn f s).mck = s.mck := rfl
@[simp] theorem modSpn_pins (f : SpnLoop → SpnLoop) : (modSpn f s).pins = s.pins := rfl
@[simp] theorem modSpn_mcs (f : SpnLoop → SpnLoop) : (modSpn f s).mcs = s.mcs := rfl
@[simp] theorem modSpn_media (f : SpnLoop → SpnLoop) : (modSpn f s).media = s.media := rfl
@[simp] theorem modSpn_mem (f : SpnLoop → SpnLoop) : (modSpn f s).mem = s.mem := rfl
@[simp] theorem modSpn_staging (f : SpnLoop → SpnLoop) : (modSpn f s).staging = s.staging := rfl
@[simp] theorem modSpn_scu (f : SpnLoop → SpnLoop) : (modSpn f s).scu = s.scu := rfl
@[simp] theorem modSpn_tdl (f : SpnLoop → SpnLoop) : (modSpn f s).tdl = s.tdl := rfl
@[simp] theorem modSpn_ple (f : SpnLoop → SpnLoop) : (modSpn f s).ple = s.ple := rfl
@[simp] theorem modSpn_hqe (f : SpnLoop → SpnLoop) : (modSpn f s).hqe = s.hqe := rfl
@[simp] theorem modSpn_nv (f : SpnLoop → SpnLoop) : (modSpn f s).nv = s.nv := rfl
@[simp] theorem modSpn_elg (f : SpnLoop → SpnLoop) : (modSpn f s).elg = s.elg := rfl
@[simp] theorem modSpn_bmc (f : SpnLoop → SpnLoop) : (modSpn f s).bmc = s.bmc := rfl
@[simp] theorem modSpn_mpc (f : SpnLoop → SpnLoop) : (modSpn f s).mpc = s.mpc := rfl
@[simp] theorem modSpn_dma (f : SpnLoop → SpnLoop) : (modSpn f s).dma = s.dma := rfl
@[simp] theorem modSpn_pct (f : SpnLoop → SpnLoop) : (modSpn f s).pct = s.pct := rfl
@[simp] theorem modSpn_tmn (f : SpnLoop → SpnLoop) : (modSpn f s).tmn = s.tmn := rfl
@[simp] theorem modSpn_cal (f : SpnLoop → SpnLoop) : (modSpn f s).cal = s.cal := rfl
@[simp] theorem modSpn_clp (f : SpnLoop → SpnLoop) : (modSpn f s).clp = s.clp := rfl
@[simp] theorem modSpn_free (f : SpnLoop → SpnLoop) : (modSpn f s).free = s.free := rfl
/-! `modScu` -/
@[simp] theorem modScu_pending (f : Scu → Scu) : (modScu f s).pending = s.pending := rfl
@[simp] theorem modScu_part (f : Scu → Scu) : (modScu f s).part = s.part := rfl
@[simp] theorem modScu_sys (f : Scu → Scu) : (modScu f s).sys = s.sys := rfl
@[simp] theorem modScu_evr (f : Scu → Scu) : (modScu f s).evr = s.evr := rfl
@[simp] theorem modScu_mck (f : Scu → Scu) : (modScu f s).mck = s.mck := rfl
@[simp] theorem modScu_pins (f : Scu → Scu) : (modScu f s).pins = s.pins := rfl
@[simp] theorem modScu_mcs (f : Scu → Scu) : (modScu f s).mcs = s.mcs := rfl
@[simp] theorem modScu_media (f : Scu → Scu) : (modScu f s).media = s.media := rfl
@[simp] theorem modScu_mem (f : Scu → Scu) : (modScu f s).mem = s.mem := rfl
@[simp] theorem modScu_staging (f : Scu → Scu) : (modScu f s).staging = s.staging := rfl
@[simp] theorem modScu_sce (f : Scu → Scu) : (modScu f s).sce = s.sce := rfl
@[simp] theorem modScu_tdl (f : Scu → Scu) : (modScu f s).tdl = s.tdl := rfl
@[simp] theorem modScu_ple (f : Scu → Scu) : (modScu f s).ple = s.ple := rfl
@[simp] theorem modScu_hqe (f : Scu → Scu) : (modScu f s).hqe = s.hqe := rfl
@[simp] theorem modScu_nv (f : Scu → Scu) : (modScu f s).nv = s.nv := rfl
@[simp] theorem modScu_elg (f : Scu → Scu) : (modScu f s).elg = s.elg := rfl
@[simp] theorem modScu_bmc (f : Scu → Scu) : (modScu f s).bmc = s.bmc := rfl
@[simp] theorem modScu_mpc (f : Scu → Scu) : (modScu f s).mpc = s.mpc := rfl
@[simp] theorem modScu_dma (f : Scu → Scu) : (modScu f s).dma = s.dma := rfl
@[simp] theorem modScu_pct (f : Scu → Scu) : (modScu f s).pct = s.pct := rfl
@[simp] theorem modScu_tmn (f : Scu → Scu) : (modScu f s).tmn = s.tmn := rfl
@[simp] theorem modScu_cal (f : Scu → Scu) : (modScu f s).cal = s.cal := rfl
@[simp] theorem modScu_clp (f : Scu → Scu) : (modScu f s).clp = s.clp := rfl
@[simp] theorem modScu_free (f : Scu → Scu) : (modScu f s).free = s.free := rfl
@[simp] theorem modScu_scu (f : Scu → Scu) : (modScu f s).scu = f s.scu := rfl
/-! `scuReg` -/
@[simp] theorem scuReg_pending (f : List (Nat × Word) → List (Nat × Word)) : (scuReg f s).pending = s.pending := rfl
@[simp] theorem scuReg_part (f : List (Nat × Word) → List (Nat × Word)) : (scuReg f s).part = s.part := rfl
@[simp] theorem scuReg_sys (f : List (Nat × Word) → List (Nat × Word)) : (scuReg f s).sys = s.sys := rfl
@[simp] theorem scuReg_evr (f : List (Nat × Word) → List (Nat × Word)) : (scuReg f s).evr = s.evr := rfl
@[simp] theorem scuReg_mck (f : List (Nat × Word) → List (Nat × Word)) : (scuReg f s).mck = s.mck := rfl
@[simp] theorem scuReg_pins (f : List (Nat × Word) → List (Nat × Word)) : (scuReg f s).pins = s.pins := rfl
@[simp] theorem scuReg_mcs (f : List (Nat × Word) → List (Nat × Word)) : (scuReg f s).mcs = s.mcs := rfl
@[simp] theorem scuReg_media (f : List (Nat × Word) → List (Nat × Word)) : (scuReg f s).media = s.media := rfl
@[simp] theorem scuReg_mem (f : List (Nat × Word) → List (Nat × Word)) : (scuReg f s).mem = s.mem := rfl
@[simp] theorem scuReg_staging (f : List (Nat × Word) → List (Nat × Word)) : (scuReg f s).staging = s.staging := rfl
@[simp] theorem scuReg_sce (f : List (Nat × Word) → List (Nat × Word)) : (scuReg f s).sce = s.sce := rfl
@[simp] theorem scuReg_tdl (f : List (Nat × Word) → List (Nat × Word)) : (scuReg f s).tdl = s.tdl := rfl
@[simp] theorem scuReg_ple (f : List (Nat × Word) → List (Nat × Word)) : (scuReg f s).ple = s.ple := rfl
@[simp] theorem scuReg_hqe (f : List (Nat × Word) → List (Nat × Word)) : (scuReg f s).hqe = s.hqe := rfl
@[simp] theorem scuReg_nv (f : List (Nat × Word) → List (Nat × Word)) : (scuReg f s).nv = s.nv := rfl
@[simp] theorem scuReg_elg (f : List (Nat × Word) → List (Nat × Word)) : (scuReg f s).elg = s.elg := rfl
@[simp] theorem scuReg_bmc (f : List (Nat × Word) → List (Nat × Word)) : (scuReg f s).bmc = s.bmc := rfl
@[simp] theorem scuReg_mpc (f : List (Nat × Word) → List (Nat × Word)) : (scuReg f s).mpc = s.mpc := rfl
@[simp] theorem scuReg_dma (f : List (Nat × Word) → List (Nat × Word)) : (scuReg f s).dma = s.dma := rfl
@[simp] theorem scuReg_pct (f : List (Nat × Word) → List (Nat × Word)) : (scuReg f s).pct = s.pct := rfl
@[simp] theorem scuReg_tmn (f : List (Nat × Word) → List (Nat × Word)) : (scuReg f s).tmn = s.tmn := rfl
@[simp] theorem scuReg_cal (f : List (Nat × Word) → List (Nat × Word)) : (scuReg f s).cal = s.cal := rfl
@[simp] theorem scuReg_clp (f : List (Nat × Word) → List (Nat × Word)) : (scuReg f s).clp = s.clp := rfl
@[simp] theorem scuReg_free (f : List (Nat × Word) → List (Nat × Word)) : (scuReg f s).free = s.free := rfl
@[simp] theorem scuReg_csr (f : List (Nat × Word) → List (Nat × Word)) : (scuReg f s).scu.csr = f s.scu.csr := rfl
/-! `modPle` -/
@[simp] theorem modPle_pending (f : Ple → Ple) : (modPle f s).pending = s.pending := rfl
@[simp] theorem modPle_part (f : Ple → Ple) : (modPle f s).part = s.part := rfl
@[simp] theorem modPle_sys (f : Ple → Ple) : (modPle f s).sys = s.sys := rfl
@[simp] theorem modPle_evr (f : Ple → Ple) : (modPle f s).evr = s.evr := rfl
@[simp] theorem modPle_mck (f : Ple → Ple) : (modPle f s).mck = s.mck := rfl
@[simp] theorem modPle_pins (f : Ple → Ple) : (modPle f s).pins = s.pins := rfl
@[simp] theorem modPle_mcs (f : Ple → Ple) : (modPle f s).mcs = s.mcs := rfl
@[simp] theorem modPle_media (f : Ple → Ple) : (modPle f s).media = s.media := rfl
@[simp] theorem modPle_mem (f : Ple → Ple) : (modPle f s).mem = s.mem := rfl
@[simp] theorem modPle_staging (f : Ple → Ple) : (modPle f s).staging = s.staging := rfl
@[simp] theorem modPle_sce (f : Ple → Ple) : (modPle f s).sce = s.sce := rfl
@[simp] theorem modPle_scu (f : Ple → Ple) : (modPle f s).scu = s.scu := rfl
@[simp] theorem modPle_tdl (f : Ple → Ple) : (modPle f s).tdl = s.tdl := rfl
@[simp] theorem modPle_hqe (f : Ple → Ple) : (modPle f s).hqe = s.hqe := rfl
@[simp] theorem modPle_nv (f : Ple → Ple) : (modPle f s).nv = s.nv := rfl
@[simp] theorem modPle_elg (f : Ple → Ple) : (modPle f s).elg = s.elg := rfl
@[simp] theorem modPle_bmc (f : Ple → Ple) : (modPle f s).bmc = s.bmc := rfl
@[simp] theorem modPle_mpc (f : Ple → Ple) : (modPle f s).mpc = s.mpc := rfl
@[simp] theorem modPle_dma (f : Ple → Ple) : (modPle f s).dma = s.dma := rfl
@[simp] theorem modPle_pct (f : Ple → Ple) : (modPle f s).pct = s.pct := rfl
@[simp] theorem modPle_tmn (f : Ple → Ple) : (modPle f s).tmn = s.tmn := rfl
@[simp] theorem modPle_cal (f : Ple → Ple) : (modPle f s).cal = s.cal := rfl
@[simp] theorem modPle_clp (f : Ple → Ple) : (modPle f s).clp = s.clp := rfl
@[simp] theorem modPle_free (f : Ple → Ple) : (modPle f s).free = s.free := rfl
@[simp] theorem modPle_ple (f : Ple → Ple) : (modPle f s).ple = f s.ple := rfl
/-! `pleReg` -/
@[simp] theorem pleReg_pending (f : List (Nat × Word) → List (Nat × Word)) : (pleReg f s).pending = s.pending := rfl
@[simp] theorem pleReg_part (f : List (Nat × Word) → List (Nat × Word)) : (pleReg f s).part = s.part := rfl
@[simp] theorem pleReg_sys (f : List (Nat × Word) → List (Nat × Word)) : (pleReg f s).sys = s.sys := rfl
@[simp] theorem pleReg_evr (f : List (Nat × Word) → List (Nat × Word)) : (pleReg f s).evr = s.evr := rfl
@[simp] theorem pleReg_mck (f : List (Nat × Word) → List (Nat × Word)) : (pleReg f s).mck = s.mck := rfl
@[simp] theorem pleReg_pins (f : List (Nat × Word) → List (Nat × Word)) : (pleReg f s).pins = s.pins := rfl
@[simp] theorem pleReg_mcs (f : List (Nat × Word) → List (Nat × Word)) : (pleReg f s).mcs = s.mcs := rfl
@[simp] theorem pleReg_media (f : List (Nat × Word) → List (Nat × Word)) : (pleReg f s).media = s.media := rfl
@[simp] theorem pleReg_mem (f : List (Nat × Word) → List (Nat × Word)) : (pleReg f s).mem = s.mem := rfl
@[simp] theorem pleReg_staging (f : List (Nat × Word) → List (Nat × Word)) : (pleReg f s).staging = s.staging := rfl
@[simp] theorem pleReg_sce (f : List (Nat × Word) → List (Nat × Word)) : (pleReg f s).sce = s.sce := rfl
@[simp] theorem pleReg_scu (f : List (Nat × Word) → List (Nat × Word)) : (pleReg f s).scu = s.scu := rfl
@[simp] theorem pleReg_tdl (f : List (Nat × Word) → List (Nat × Word)) : (pleReg f s).tdl = s.tdl := rfl
@[simp] theorem pleReg_hqe (f : List (Nat × Word) → List (Nat × Word)) : (pleReg f s).hqe = s.hqe := rfl
@[simp] theorem pleReg_nv (f : List (Nat × Word) → List (Nat × Word)) : (pleReg f s).nv = s.nv := rfl
@[simp] theorem pleReg_elg (f : List (Nat × Word) → List (Nat × Word)) : (pleReg f s).elg = s.elg := rfl
@[simp] theorem pleReg_bmc (f : List (Nat × Word) → List (Nat × Word)) : (pleReg f s).bmc = s.bmc := rfl
@[simp] theorem pleReg_mpc (f : List (Nat × Word) → List (Nat × Word)) : (pleReg f s).mpc = s.mpc := rfl
@[simp] theorem pleReg_dma (f : List (Nat × Word) → List (Nat × Word)) : (pleReg f s).dma = s.dma := rfl
@[simp] theorem pleReg_pct (f : List (Nat × Word) → List (Nat × Word)) : (pleReg f s).pct = s.pct := rfl
@[simp] theorem pleReg_tmn (f : List (Nat × Word) → List (Nat × Word)) : (pleReg f s).tmn = s.tmn := rfl
@[simp] theorem pleReg_cal (f : List (Nat × Word) → List (Nat × Word)) : (pleReg f s).cal = s.cal := rfl
@[simp] theorem pleReg_clp (f : List (Nat × Word) → List (Nat × Word)) : (pleReg f s).clp = s.clp := rfl
@[simp] theorem pleReg_free (f : List (Nat × Word) → List (Nat × Word)) : (pleReg f s).free = s.free := rfl
@[simp] theorem pleReg_csr (f : List (Nat × Word) → List (Nat × Word)) : (pleReg f s).ple.csr = f s.ple.csr := rfl
/-! `modMap` -/
@[simp] theorem modMap_pending (f : MapImage → MapImage) : (modMap f s).pending = s.pending := rfl
@[simp] theorem modMap_part (f : MapImage → MapImage) : (modMap f s).part = s.part := rfl
@[simp] theorem modMap_sys (f : MapImage → MapImage) : (modMap f s).sys = s.sys := rfl
@[simp] theorem modMap_evr (f : MapImage → MapImage) : (modMap f s).evr = s.evr := rfl
@[simp] theorem modMap_mck (f : MapImage → MapImage) : (modMap f s).mck = s.mck := rfl
@[simp] theorem modMap_pins (f : MapImage → MapImage) : (modMap f s).pins = s.pins := rfl
@[simp] theorem modMap_mcs (f : MapImage → MapImage) : (modMap f s).mcs = s.mcs := rfl
@[simp] theorem modMap_media (f : MapImage → MapImage) : (modMap f s).media = s.media := rfl
@[simp] theorem modMap_mem (f : MapImage → MapImage) : (modMap f s).mem = s.mem := rfl
@[simp] theorem modMap_staging (f : MapImage → MapImage) : (modMap f s).staging = s.staging := rfl
@[simp] theorem modMap_sce (f : MapImage → MapImage) : (modMap f s).sce = s.sce := rfl
@[simp] theorem modMap_scu (f : MapImage → MapImage) : (modMap f s).scu = s.scu := rfl
@[simp] theorem modMap_tdl (f : MapImage → MapImage) : (modMap f s).tdl = s.tdl := rfl
@[simp] theorem modMap_hqe (f : MapImage → MapImage) : (modMap f s).hqe = s.hqe := rfl
@[simp] theorem modMap_nv (f : MapImage → MapImage) : (modMap f s).nv = s.nv := rfl
@[simp] theorem modMap_elg (f : MapImage → MapImage) : (modMap f s).elg = s.elg := rfl
@[simp] theorem modMap_bmc (f : MapImage → MapImage) : (modMap f s).bmc = s.bmc := rfl
@[simp] theorem modMap_mpc (f : MapImage → MapImage) : (modMap f s).mpc = s.mpc := rfl
@[simp] theorem modMap_dma (f : MapImage → MapImage) : (modMap f s).dma = s.dma := rfl
@[simp] theorem modMap_pct (f : MapImage → MapImage) : (modMap f s).pct = s.pct := rfl
@[simp] theorem modMap_tmn (f : MapImage → MapImage) : (modMap f s).tmn = s.tmn := rfl
@[simp] theorem modMap_cal (f : MapImage → MapImage) : (modMap f s).cal = s.cal := rfl
@[simp] theorem modMap_clp (f : MapImage → MapImage) : (modMap f s).clp = s.clp := rfl
@[simp] theorem modMap_free (f : MapImage → MapImage) : (modMap f s).free = s.free := rfl
/-! `modSched` -/
@[simp] theorem modSched_pending (k : Fin 4) (f : Sched → Sched) : (modSched k f s).pending = s.pending := rfl
@[simp] theorem modSched_part (k : Fin 4) (f : Sched → Sched) : (modSched k f s).part = s.part := rfl
@[simp] theorem modSched_sys (k : Fin 4) (f : Sched → Sched) : (modSched k f s).sys = s.sys := rfl
@[simp] theorem modSched_evr (k : Fin 4) (f : Sched → Sched) : (modSched k f s).evr = s.evr := rfl
@[simp] theorem modSched_mck (k : Fin 4) (f : Sched → Sched) : (modSched k f s).mck = s.mck := rfl
@[simp] theorem modSched_pins (k : Fin 4) (f : Sched → Sched) : (modSched k f s).pins = s.pins := rfl
@[simp] theorem modSched_mcs (k : Fin 4) (f : Sched → Sched) : (modSched k f s).mcs = s.mcs := rfl
@[simp] theorem modSched_media (k : Fin 4) (f : Sched → Sched) : (modSched k f s).media = s.media := rfl
@[simp] theorem modSched_mem (k : Fin 4) (f : Sched → Sched) : (modSched k f s).mem = s.mem := rfl
@[simp] theorem modSched_staging (k : Fin 4) (f : Sched → Sched) : (modSched k f s).staging = s.staging := rfl
@[simp] theorem modSched_sce (k : Fin 4) (f : Sched → Sched) : (modSched k f s).sce = s.sce := rfl
@[simp] theorem modSched_scu (k : Fin 4) (f : Sched → Sched) : (modSched k f s).scu = s.scu := rfl
@[simp] theorem modSched_tdl (k : Fin 4) (f : Sched → Sched) : (modSched k f s).tdl = s.tdl := rfl
@[simp] theorem modSched_hqe (k : Fin 4) (f : Sched → Sched) : (modSched k f s).hqe = s.hqe := rfl
@[simp] theorem modSched_nv (k : Fin 4) (f : Sched → Sched) : (modSched k f s).nv = s.nv := rfl
@[simp] theorem modSched_elg (k : Fin 4) (f : Sched → Sched) : (modSched k f s).elg = s.elg := rfl
@[simp] theorem modSched_bmc (k : Fin 4) (f : Sched → Sched) : (modSched k f s).bmc = s.bmc := rfl
@[simp] theorem modSched_mpc (k : Fin 4) (f : Sched → Sched) : (modSched k f s).mpc = s.mpc := rfl
@[simp] theorem modSched_dma (k : Fin 4) (f : Sched → Sched) : (modSched k f s).dma = s.dma := rfl
@[simp] theorem modSched_pct (k : Fin 4) (f : Sched → Sched) : (modSched k f s).pct = s.pct := rfl
@[simp] theorem modSched_tmn (k : Fin 4) (f : Sched → Sched) : (modSched k f s).tmn = s.tmn := rfl
@[simp] theorem modSched_cal (k : Fin 4) (f : Sched → Sched) : (modSched k f s).cal = s.cal := rfl
@[simp] theorem modSched_clp (k : Fin 4) (f : Sched → Sched) : (modSched k f s).clp = s.clp := rfl
@[simp] theorem modSched_free (k : Fin 4) (f : Sched → Sched) : (modSched k f s).free = s.free := rfl
/-! `modHqe` -/
@[simp] theorem modHqe_pending (f : Hqe → Hqe) : (modHqe f s).pending = s.pending := rfl
@[simp] theorem modHqe_part (f : Hqe → Hqe) : (modHqe f s).part = s.part := rfl
@[simp] theorem modHqe_sys (f : Hqe → Hqe) : (modHqe f s).sys = s.sys := rfl
@[simp] theorem modHqe_evr (f : Hqe → Hqe) : (modHqe f s).evr = s.evr := rfl
@[simp] theorem modHqe_mck (f : Hqe → Hqe) : (modHqe f s).mck = s.mck := rfl
@[simp] theorem modHqe_pins (f : Hqe → Hqe) : (modHqe f s).pins = s.pins := rfl
@[simp] theorem modHqe_mcs (f : Hqe → Hqe) : (modHqe f s).mcs = s.mcs := rfl
@[simp] theorem modHqe_media (f : Hqe → Hqe) : (modHqe f s).media = s.media := rfl
@[simp] theorem modHqe_mem (f : Hqe → Hqe) : (modHqe f s).mem = s.mem := rfl
@[simp] theorem modHqe_staging (f : Hqe → Hqe) : (modHqe f s).staging = s.staging := rfl
@[simp] theorem modHqe_sce (f : Hqe → Hqe) : (modHqe f s).sce = s.sce := rfl
@[simp] theorem modHqe_scu (f : Hqe → Hqe) : (modHqe f s).scu = s.scu := rfl
@[simp] theorem modHqe_tdl (f : Hqe → Hqe) : (modHqe f s).tdl = s.tdl := rfl
@[simp] theorem modHqe_ple (f : Hqe → Hqe) : (modHqe f s).ple = s.ple := rfl
@[simp] theorem modHqe_nv (f : Hqe → Hqe) : (modHqe f s).nv = s.nv := rfl
@[simp] theorem modHqe_elg (f : Hqe → Hqe) : (modHqe f s).elg = s.elg := rfl
@[simp] theorem modHqe_bmc (f : Hqe → Hqe) : (modHqe f s).bmc = s.bmc := rfl
@[simp] theorem modHqe_mpc (f : Hqe → Hqe) : (modHqe f s).mpc = s.mpc := rfl
@[simp] theorem modHqe_dma (f : Hqe → Hqe) : (modHqe f s).dma = s.dma := rfl
@[simp] theorem modHqe_pct (f : Hqe → Hqe) : (modHqe f s).pct = s.pct := rfl
@[simp] theorem modHqe_tmn (f : Hqe → Hqe) : (modHqe f s).tmn = s.tmn := rfl
@[simp] theorem modHqe_cal (f : Hqe → Hqe) : (modHqe f s).cal = s.cal := rfl
@[simp] theorem modHqe_clp (f : Hqe → Hqe) : (modHqe f s).clp = s.clp := rfl
@[simp] theorem modHqe_free (f : Hqe → Hqe) : (modHqe f s).free = s.free := rfl
@[simp] theorem modHqe_hqe (f : Hqe → Hqe) : (modHqe f s).hqe = f s.hqe := rfl
/-! `hqeReg` -/
@[simp] theorem hqeReg_pending (f : List (Nat × Word) → List (Nat × Word)) : (hqeReg f s).pending = s.pending := rfl
@[simp] theorem hqeReg_part (f : List (Nat × Word) → List (Nat × Word)) : (hqeReg f s).part = s.part := rfl
@[simp] theorem hqeReg_sys (f : List (Nat × Word) → List (Nat × Word)) : (hqeReg f s).sys = s.sys := rfl
@[simp] theorem hqeReg_evr (f : List (Nat × Word) → List (Nat × Word)) : (hqeReg f s).evr = s.evr := rfl
@[simp] theorem hqeReg_mck (f : List (Nat × Word) → List (Nat × Word)) : (hqeReg f s).mck = s.mck := rfl
@[simp] theorem hqeReg_pins (f : List (Nat × Word) → List (Nat × Word)) : (hqeReg f s).pins = s.pins := rfl
@[simp] theorem hqeReg_mcs (f : List (Nat × Word) → List (Nat × Word)) : (hqeReg f s).mcs = s.mcs := rfl
@[simp] theorem hqeReg_media (f : List (Nat × Word) → List (Nat × Word)) : (hqeReg f s).media = s.media := rfl
@[simp] theorem hqeReg_mem (f : List (Nat × Word) → List (Nat × Word)) : (hqeReg f s).mem = s.mem := rfl
@[simp] theorem hqeReg_staging (f : List (Nat × Word) → List (Nat × Word)) : (hqeReg f s).staging = s.staging := rfl
@[simp] theorem hqeReg_sce (f : List (Nat × Word) → List (Nat × Word)) : (hqeReg f s).sce = s.sce := rfl
@[simp] theorem hqeReg_scu (f : List (Nat × Word) → List (Nat × Word)) : (hqeReg f s).scu = s.scu := rfl
@[simp] theorem hqeReg_tdl (f : List (Nat × Word) → List (Nat × Word)) : (hqeReg f s).tdl = s.tdl := rfl
@[simp] theorem hqeReg_ple (f : List (Nat × Word) → List (Nat × Word)) : (hqeReg f s).ple = s.ple := rfl
@[simp] theorem hqeReg_nv (f : List (Nat × Word) → List (Nat × Word)) : (hqeReg f s).nv = s.nv := rfl
@[simp] theorem hqeReg_elg (f : List (Nat × Word) → List (Nat × Word)) : (hqeReg f s).elg = s.elg := rfl
@[simp] theorem hqeReg_bmc (f : List (Nat × Word) → List (Nat × Word)) : (hqeReg f s).bmc = s.bmc := rfl
@[simp] theorem hqeReg_mpc (f : List (Nat × Word) → List (Nat × Word)) : (hqeReg f s).mpc = s.mpc := rfl
@[simp] theorem hqeReg_dma (f : List (Nat × Word) → List (Nat × Word)) : (hqeReg f s).dma = s.dma := rfl
@[simp] theorem hqeReg_pct (f : List (Nat × Word) → List (Nat × Word)) : (hqeReg f s).pct = s.pct := rfl
@[simp] theorem hqeReg_tmn (f : List (Nat × Word) → List (Nat × Word)) : (hqeReg f s).tmn = s.tmn := rfl
@[simp] theorem hqeReg_cal (f : List (Nat × Word) → List (Nat × Word)) : (hqeReg f s).cal = s.cal := rfl
@[simp] theorem hqeReg_clp (f : List (Nat × Word) → List (Nat × Word)) : (hqeReg f s).clp = s.clp := rfl
@[simp] theorem hqeReg_free (f : List (Nat × Word) → List (Nat × Word)) : (hqeReg f s).free = s.free := rfl
@[simp] theorem hqeReg_csr (f : List (Nat × Word) → List (Nat × Word)) : (hqeReg f s).hqe.csr = f s.hqe.csr := rfl
/-! `putFn` -/
@[simp] theorem putFn_pending (n : Nat) (x : Fn) : (putFn n x s).pending = s.pending := rfl
@[simp] theorem putFn_part (n : Nat) (x : Fn) : (putFn n x s).part = s.part := rfl
@[simp] theorem putFn_sys (n : Nat) (x : Fn) : (putFn n x s).sys = s.sys := rfl
@[simp] theorem putFn_evr (n : Nat) (x : Fn) : (putFn n x s).evr = s.evr := rfl
@[simp] theorem putFn_mck (n : Nat) (x : Fn) : (putFn n x s).mck = s.mck := rfl
@[simp] theorem putFn_pins (n : Nat) (x : Fn) : (putFn n x s).pins = s.pins := rfl
@[simp] theorem putFn_mcs (n : Nat) (x : Fn) : (putFn n x s).mcs = s.mcs := rfl
@[simp] theorem putFn_media (n : Nat) (x : Fn) : (putFn n x s).media = s.media := rfl
@[simp] theorem putFn_mem (n : Nat) (x : Fn) : (putFn n x s).mem = s.mem := rfl
@[simp] theorem putFn_staging (n : Nat) (x : Fn) : (putFn n x s).staging = s.staging := rfl
@[simp] theorem putFn_sce (n : Nat) (x : Fn) : (putFn n x s).sce = s.sce := rfl
@[simp] theorem putFn_scu (n : Nat) (x : Fn) : (putFn n x s).scu = s.scu := rfl
@[simp] theorem putFn_tdl (n : Nat) (x : Fn) : (putFn n x s).tdl = s.tdl := rfl
@[simp] theorem putFn_ple (n : Nat) (x : Fn) : (putFn n x s).ple = s.ple := rfl
@[simp] theorem putFn_nv (n : Nat) (x : Fn) : (putFn n x s).nv = s.nv := rfl
@[simp] theorem putFn_elg (n : Nat) (x : Fn) : (putFn n x s).elg = s.elg := rfl
@[simp] theorem putFn_bmc (n : Nat) (x : Fn) : (putFn n x s).bmc = s.bmc := rfl
@[simp] theorem putFn_mpc (n : Nat) (x : Fn) : (putFn n x s).mpc = s.mpc := rfl
@[simp] theorem putFn_dma (n : Nat) (x : Fn) : (putFn n x s).dma = s.dma := rfl
@[simp] theorem putFn_pct (n : Nat) (x : Fn) : (putFn n x s).pct = s.pct := rfl
@[simp] theorem putFn_tmn (n : Nat) (x : Fn) : (putFn n x s).tmn = s.tmn := rfl
@[simp] theorem putFn_cal (n : Nat) (x : Fn) : (putFn n x s).cal = s.cal := rfl
@[simp] theorem putFn_clp (n : Nat) (x : Fn) : (putFn n x s).clp = s.clp := rfl
@[simp] theorem putFn_free (n : Nat) (x : Fn) : (putFn n x s).free = s.free := rfl
/-! `modFn` -/
@[simp] theorem modFn_pending (n : Nat) (f : Fn → Fn) : (modFn n f s).pending = s.pending := rfl
@[simp] theorem modFn_part (n : Nat) (f : Fn → Fn) : (modFn n f s).part = s.part := rfl
@[simp] theorem modFn_sys (n : Nat) (f : Fn → Fn) : (modFn n f s).sys = s.sys := rfl
@[simp] theorem modFn_evr (n : Nat) (f : Fn → Fn) : (modFn n f s).evr = s.evr := rfl
@[simp] theorem modFn_mck (n : Nat) (f : Fn → Fn) : (modFn n f s).mck = s.mck := rfl
@[simp] theorem modFn_pins (n : Nat) (f : Fn → Fn) : (modFn n f s).pins = s.pins := rfl
@[simp] theorem modFn_mcs (n : Nat) (f : Fn → Fn) : (modFn n f s).mcs = s.mcs := rfl
@[simp] theorem modFn_media (n : Nat) (f : Fn → Fn) : (modFn n f s).media = s.media := rfl
@[simp] theorem modFn_mem (n : Nat) (f : Fn → Fn) : (modFn n f s).mem = s.mem := rfl
@[simp] theorem modFn_staging (n : Nat) (f : Fn → Fn) : (modFn n f s).staging = s.staging := rfl
@[simp] theorem modFn_sce (n : Nat) (f : Fn → Fn) : (modFn n f s).sce = s.sce := rfl
@[simp] theorem modFn_scu (n : Nat) (f : Fn → Fn) : (modFn n f s).scu = s.scu := rfl
@[simp] theorem modFn_tdl (n : Nat) (f : Fn → Fn) : (modFn n f s).tdl = s.tdl := rfl
@[simp] theorem modFn_ple (n : Nat) (f : Fn → Fn) : (modFn n f s).ple = s.ple := rfl
@[simp] theorem modFn_nv (n : Nat) (f : Fn → Fn) : (modFn n f s).nv = s.nv := rfl
@[simp] theorem modFn_elg (n : Nat) (f : Fn → Fn) : (modFn n f s).elg = s.elg := rfl
@[simp] theorem modFn_bmc (n : Nat) (f : Fn → Fn) : (modFn n f s).bmc = s.bmc := rfl
@[simp] theorem modFn_mpc (n : Nat) (f : Fn → Fn) : (modFn n f s).mpc = s.mpc := rfl
@[simp] theorem modFn_dma (n : Nat) (f : Fn → Fn) : (modFn n f s).dma = s.dma := rfl
@[simp] theorem modFn_pct (n : Nat) (f : Fn → Fn) : (modFn n f s).pct = s.pct := rfl
@[simp] theorem modFn_tmn (n : Nat) (f : Fn → Fn) : (modFn n f s).tmn = s.tmn := rfl
@[simp] theorem modFn_cal (n : Nat) (f : Fn → Fn) : (modFn n f s).cal = s.cal := rfl
@[simp] theorem modFn_clp (n : Nat) (f : Fn → Fn) : (modFn n f s).clp = s.clp := rfl
@[simp] theorem modFn_free (n : Nat) (f : Fn → Fn) : (modFn n f s).free = s.free := rfl
/-! `modTdl` -/
@[simp] theorem modTdl_pending (f : Tdl → Tdl) : (modTdl f s).pending = s.pending := rfl
@[simp] theorem modTdl_part (f : Tdl → Tdl) : (modTdl f s).part = s.part := rfl
@[simp] theorem modTdl_sys (f : Tdl → Tdl) : (modTdl f s).sys = s.sys := rfl
@[simp] theorem modTdl_evr (f : Tdl → Tdl) : (modTdl f s).evr = s.evr := rfl
@[simp] theorem modTdl_mck (f : Tdl → Tdl) : (modTdl f s).mck = s.mck := rfl
@[simp] theorem modTdl_pins (f : Tdl → Tdl) : (modTdl f s).pins = s.pins := rfl
@[simp] theorem modTdl_mcs (f : Tdl → Tdl) : (modTdl f s).mcs = s.mcs := rfl
@[simp] theorem modTdl_media (f : Tdl → Tdl) : (modTdl f s).media = s.media := rfl
@[simp] theorem modTdl_mem (f : Tdl → Tdl) : (modTdl f s).mem = s.mem := rfl
@[simp] theorem modTdl_staging (f : Tdl → Tdl) : (modTdl f s).staging = s.staging := rfl
@[simp] theorem modTdl_sce (f : Tdl → Tdl) : (modTdl f s).sce = s.sce := rfl
@[simp] theorem modTdl_scu (f : Tdl → Tdl) : (modTdl f s).scu = s.scu := rfl
@[simp] theorem modTdl_ple (f : Tdl → Tdl) : (modTdl f s).ple = s.ple := rfl
@[simp] theorem modTdl_hqe (f : Tdl → Tdl) : (modTdl f s).hqe = s.hqe := rfl
@[simp] theorem modTdl_nv (f : Tdl → Tdl) : (modTdl f s).nv = s.nv := rfl
@[simp] theorem modTdl_elg (f : Tdl → Tdl) : (modTdl f s).elg = s.elg := rfl
@[simp] theorem modTdl_bmc (f : Tdl → Tdl) : (modTdl f s).bmc = s.bmc := rfl
@[simp] theorem modTdl_mpc (f : Tdl → Tdl) : (modTdl f s).mpc = s.mpc := rfl
@[simp] theorem modTdl_dma (f : Tdl → Tdl) : (modTdl f s).dma = s.dma := rfl
@[simp] theorem modTdl_pct (f : Tdl → Tdl) : (modTdl f s).pct = s.pct := rfl
@[simp] theorem modTdl_tmn (f : Tdl → Tdl) : (modTdl f s).tmn = s.tmn := rfl
@[simp] theorem modTdl_cal (f : Tdl → Tdl) : (modTdl f s).cal = s.cal := rfl
@[simp] theorem modTdl_clp (f : Tdl → Tdl) : (modTdl f s).clp = s.clp := rfl
@[simp] theorem modTdl_free (f : Tdl → Tdl) : (modTdl f s).free = s.free := rfl
@[simp] theorem modTdl_tdl (f : Tdl → Tdl) : (modTdl f s).tdl = f s.tdl := rfl
/-! `tdlReg` -/
@[simp] theorem tdlReg_pending (f : List (Nat × Word) → List (Nat × Word)) : (tdlReg f s).pending = s.pending := rfl
@[simp] theorem tdlReg_part (f : List (Nat × Word) → List (Nat × Word)) : (tdlReg f s).part = s.part := rfl
@[simp] theorem tdlReg_sys (f : List (Nat × Word) → List (Nat × Word)) : (tdlReg f s).sys = s.sys := rfl
@[simp] theorem tdlReg_evr (f : List (Nat × Word) → List (Nat × Word)) : (tdlReg f s).evr = s.evr := rfl
@[simp] theorem tdlReg_mck (f : List (Nat × Word) → List (Nat × Word)) : (tdlReg f s).mck = s.mck := rfl
@[simp] theorem tdlReg_pins (f : List (Nat × Word) → List (Nat × Word)) : (tdlReg f s).pins = s.pins := rfl
@[simp] theorem tdlReg_mcs (f : List (Nat × Word) → List (Nat × Word)) : (tdlReg f s).mcs = s.mcs := rfl
@[simp] theorem tdlReg_media (f : List (Nat × Word) → List (Nat × Word)) : (tdlReg f s).media = s.media := rfl
@[simp] theorem tdlReg_mem (f : List (Nat × Word) → List (Nat × Word)) : (tdlReg f s).mem = s.mem := rfl
@[simp] theorem tdlReg_staging (f : List (Nat × Word) → List (Nat × Word)) : (tdlReg f s).staging = s.staging := rfl
@[simp] theorem tdlReg_sce (f : List (Nat × Word) → List (Nat × Word)) : (tdlReg f s).sce = s.sce := rfl
@[simp] theorem tdlReg_scu (f : List (Nat × Word) → List (Nat × Word)) : (tdlReg f s).scu = s.scu := rfl
@[simp] theorem tdlReg_ple (f : List (Nat × Word) → List (Nat × Word)) : (tdlReg f s).ple = s.ple := rfl
@[simp] theorem tdlReg_hqe (f : List (Nat × Word) → List (Nat × Word)) : (tdlReg f s).hqe = s.hqe := rfl
@[simp] theorem tdlReg_nv (f : List (Nat × Word) → List (Nat × Word)) : (tdlReg f s).nv = s.nv := rfl
@[simp] theorem tdlReg_elg (f : List (Nat × Word) → List (Nat × Word)) : (tdlReg f s).elg = s.elg := rfl
@[simp] theorem tdlReg_bmc (f : List (Nat × Word) → List (Nat × Word)) : (tdlReg f s).bmc = s.bmc := rfl
@[simp] theorem tdlReg_mpc (f : List (Nat × Word) → List (Nat × Word)) : (tdlReg f s).mpc = s.mpc := rfl
@[simp] theorem tdlReg_dma (f : List (Nat × Word) → List (Nat × Word)) : (tdlReg f s).dma = s.dma := rfl
@[simp] theorem tdlReg_pct (f : List (Nat × Word) → List (Nat × Word)) : (tdlReg f s).pct = s.pct := rfl
@[simp] theorem tdlReg_tmn (f : List (Nat × Word) → List (Nat × Word)) : (tdlReg f s).tmn = s.tmn := rfl
@[simp] theorem tdlReg_cal (f : List (Nat × Word) → List (Nat × Word)) : (tdlReg f s).cal = s.cal := rfl
@[simp] theorem tdlReg_clp (f : List (Nat × Word) → List (Nat × Word)) : (tdlReg f s).clp = s.clp := rfl
@[simp] theorem tdlReg_free (f : List (Nat × Word) → List (Nat × Word)) : (tdlReg f s).free = s.free := rfl
@[simp] theorem tdlReg_csr (f : List (Nat × Word) → List (Nat × Word)) : (tdlReg f s).tdl.csr = f s.tdl.csr := rfl
/-! `modClp` -/
@[simp] theorem modClp_pending (f : Clp → Clp) : (modClp f s).pending = s.pending := rfl
@[simp] theorem modClp_part (f : Clp → Clp) : (modClp f s).part = s.part := rfl
@[simp] theorem modClp_sys (f : Clp → Clp) : (modClp f s).sys = s.sys := rfl
@[simp] theorem modClp_evr (f : Clp → Clp) : (modClp f s).evr = s.evr := rfl
@[simp] theorem modClp_mck (f : Clp → Clp) : (modClp f s).mck = s.mck := rfl
@[simp] theorem modClp_pins (f : Clp → Clp) : (modClp f s).pins = s.pins := rfl
@[simp] theorem modClp_mcs (f : Clp → Clp) : (modClp f s).mcs = s.mcs := rfl
@[simp] theorem modClp_media (f : Clp → Clp) : (modClp f s).media = s.media := rfl
@[simp] theorem modClp_mem (f : Clp → Clp) : (modClp f s).mem = s.mem := rfl
@[simp] theorem modClp_staging (f : Clp → Clp) : (modClp f s).staging = s.staging := rfl
@[simp] theorem modClp_sce (f : Clp → Clp) : (modClp f s).sce = s.sce := rfl
@[simp] theorem modClp_scu (f : Clp → Clp) : (modClp f s).scu = s.scu := rfl
@[simp] theorem modClp_tdl (f : Clp → Clp) : (modClp f s).tdl = s.tdl := rfl
@[simp] theorem modClp_ple (f : Clp → Clp) : (modClp f s).ple = s.ple := rfl
@[simp] theorem modClp_hqe (f : Clp → Clp) : (modClp f s).hqe = s.hqe := rfl
@[simp] theorem modClp_nv (f : Clp → Clp) : (modClp f s).nv = s.nv := rfl
@[simp] theorem modClp_elg (f : Clp → Clp) : (modClp f s).elg = s.elg := rfl
@[simp] theorem modClp_bmc (f : Clp → Clp) : (modClp f s).bmc = s.bmc := rfl
@[simp] theorem modClp_mpc (f : Clp → Clp) : (modClp f s).mpc = s.mpc := rfl
@[simp] theorem modClp_dma (f : Clp → Clp) : (modClp f s).dma = s.dma := rfl
@[simp] theorem modClp_pct (f : Clp → Clp) : (modClp f s).pct = s.pct := rfl
@[simp] theorem modClp_tmn (f : Clp → Clp) : (modClp f s).tmn = s.tmn := rfl
@[simp] theorem modClp_cal (f : Clp → Clp) : (modClp f s).cal = s.cal := rfl
@[simp] theorem modClp_free (f : Clp → Clp) : (modClp f s).free = s.free := rfl
@[simp] theorem modClp_clp (f : Clp → Clp) : (modClp f s).clp = f s.clp := rfl
/-! `clpReg` -/
@[simp] theorem clpReg_pending (f : List (Nat × Word) → List (Nat × Word)) : (clpReg f s).pending = s.pending := rfl
@[simp] theorem clpReg_part (f : List (Nat × Word) → List (Nat × Word)) : (clpReg f s).part = s.part := rfl
@[simp] theorem clpReg_sys (f : List (Nat × Word) → List (Nat × Word)) : (clpReg f s).sys = s.sys := rfl
@[simp] theorem clpReg_evr (f : List (Nat × Word) → List (Nat × Word)) : (clpReg f s).evr = s.evr := rfl
@[simp] theorem clpReg_mck (f : List (Nat × Word) → List (Nat × Word)) : (clpReg f s).mck = s.mck := rfl
@[simp] theorem clpReg_pins (f : List (Nat × Word) → List (Nat × Word)) : (clpReg f s).pins = s.pins := rfl
@[simp] theorem clpReg_mcs (f : List (Nat × Word) → List (Nat × Word)) : (clpReg f s).mcs = s.mcs := rfl
@[simp] theorem clpReg_media (f : List (Nat × Word) → List (Nat × Word)) : (clpReg f s).media = s.media := rfl
@[simp] theorem clpReg_mem (f : List (Nat × Word) → List (Nat × Word)) : (clpReg f s).mem = s.mem := rfl
@[simp] theorem clpReg_staging (f : List (Nat × Word) → List (Nat × Word)) : (clpReg f s).staging = s.staging := rfl
@[simp] theorem clpReg_sce (f : List (Nat × Word) → List (Nat × Word)) : (clpReg f s).sce = s.sce := rfl
@[simp] theorem clpReg_scu (f : List (Nat × Word) → List (Nat × Word)) : (clpReg f s).scu = s.scu := rfl
@[simp] theorem clpReg_tdl (f : List (Nat × Word) → List (Nat × Word)) : (clpReg f s).tdl = s.tdl := rfl
@[simp] theorem clpReg_ple (f : List (Nat × Word) → List (Nat × Word)) : (clpReg f s).ple = s.ple := rfl
@[simp] theorem clpReg_hqe (f : List (Nat × Word) → List (Nat × Word)) : (clpReg f s).hqe = s.hqe := rfl
@[simp] theorem clpReg_nv (f : List (Nat × Word) → List (Nat × Word)) : (clpReg f s).nv = s.nv := rfl
@[simp] theorem clpReg_elg (f : List (Nat × Word) → List (Nat × Word)) : (clpReg f s).elg = s.elg := rfl
@[simp] theorem clpReg_bmc (f : List (Nat × Word) → List (Nat × Word)) : (clpReg f s).bmc = s.bmc := rfl
@[simp] theorem clpReg_mpc (f : List (Nat × Word) → List (Nat × Word)) : (clpReg f s).mpc = s.mpc := rfl
@[simp] theorem clpReg_dma (f : List (Nat × Word) → List (Nat × Word)) : (clpReg f s).dma = s.dma := rfl
@[simp] theorem clpReg_pct (f : List (Nat × Word) → List (Nat × Word)) : (clpReg f s).pct = s.pct := rfl
@[simp] theorem clpReg_tmn (f : List (Nat × Word) → List (Nat × Word)) : (clpReg f s).tmn = s.tmn := rfl
@[simp] theorem clpReg_cal (f : List (Nat × Word) → List (Nat × Word)) : (clpReg f s).cal = s.cal := rfl
@[simp] theorem clpReg_free (f : List (Nat × Word) → List (Nat × Word)) : (clpReg f s).free = s.free := rfl
@[simp] theorem clpReg_csr (f : List (Nat × Word) → List (Nat × Word)) : (clpReg f s).clp.csr = f s.clp.csr := rfl
/-! `modElg` -/
@[simp] theorem modElg_pending (f : Elg → Elg) : (modElg f s).pending = s.pending := rfl
@[simp] theorem modElg_part (f : Elg → Elg) : (modElg f s).part = s.part := rfl
@[simp] theorem modElg_sys (f : Elg → Elg) : (modElg f s).sys = s.sys := rfl
@[simp] theorem modElg_evr (f : Elg → Elg) : (modElg f s).evr = s.evr := rfl
@[simp] theorem modElg_mck (f : Elg → Elg) : (modElg f s).mck = s.mck := rfl
@[simp] theorem modElg_pins (f : Elg → Elg) : (modElg f s).pins = s.pins := rfl
@[simp] theorem modElg_mcs (f : Elg → Elg) : (modElg f s).mcs = s.mcs := rfl
@[simp] theorem modElg_media (f : Elg → Elg) : (modElg f s).media = s.media := rfl
@[simp] theorem modElg_mem (f : Elg → Elg) : (modElg f s).mem = s.mem := rfl
@[simp] theorem modElg_staging (f : Elg → Elg) : (modElg f s).staging = s.staging := rfl
@[simp] theorem modElg_sce (f : Elg → Elg) : (modElg f s).sce = s.sce := rfl
@[simp] theorem modElg_scu (f : Elg → Elg) : (modElg f s).scu = s.scu := rfl
@[simp] theorem modElg_tdl (f : Elg → Elg) : (modElg f s).tdl = s.tdl := rfl
@[simp] theorem modElg_ple (f : Elg → Elg) : (modElg f s).ple = s.ple := rfl
@[simp] theorem modElg_hqe (f : Elg → Elg) : (modElg f s).hqe = s.hqe := rfl
@[simp] theorem modElg_nv (f : Elg → Elg) : (modElg f s).nv = s.nv := rfl
@[simp] theorem modElg_bmc (f : Elg → Elg) : (modElg f s).bmc = s.bmc := rfl
@[simp] theorem modElg_mpc (f : Elg → Elg) : (modElg f s).mpc = s.mpc := rfl
@[simp] theorem modElg_dma (f : Elg → Elg) : (modElg f s).dma = s.dma := rfl
@[simp] theorem modElg_pct (f : Elg → Elg) : (modElg f s).pct = s.pct := rfl
@[simp] theorem modElg_tmn (f : Elg → Elg) : (modElg f s).tmn = s.tmn := rfl
@[simp] theorem modElg_cal (f : Elg → Elg) : (modElg f s).cal = s.cal := rfl
@[simp] theorem modElg_clp (f : Elg → Elg) : (modElg f s).clp = s.clp := rfl
@[simp] theorem modElg_free (f : Elg → Elg) : (modElg f s).free = s.free := rfl
@[simp] theorem modElg_elg (f : Elg → Elg) : (modElg f s).elg = f s.elg := rfl
/-! `elgReg` -/
@[simp] theorem elgReg_pending (f : List (Nat × Word) → List (Nat × Word)) : (elgReg f s).pending = s.pending := rfl
@[simp] theorem elgReg_part (f : List (Nat × Word) → List (Nat × Word)) : (elgReg f s).part = s.part := rfl
@[simp] theorem elgReg_sys (f : List (Nat × Word) → List (Nat × Word)) : (elgReg f s).sys = s.sys := rfl
@[simp] theorem elgReg_evr (f : List (Nat × Word) → List (Nat × Word)) : (elgReg f s).evr = s.evr := rfl
@[simp] theorem elgReg_mck (f : List (Nat × Word) → List (Nat × Word)) : (elgReg f s).mck = s.mck := rfl
@[simp] theorem elgReg_pins (f : List (Nat × Word) → List (Nat × Word)) : (elgReg f s).pins = s.pins := rfl
@[simp] theorem elgReg_mcs (f : List (Nat × Word) → List (Nat × Word)) : (elgReg f s).mcs = s.mcs := rfl
@[simp] theorem elgReg_media (f : List (Nat × Word) → List (Nat × Word)) : (elgReg f s).media = s.media := rfl
@[simp] theorem elgReg_mem (f : List (Nat × Word) → List (Nat × Word)) : (elgReg f s).mem = s.mem := rfl
@[simp] theorem elgReg_staging (f : List (Nat × Word) → List (Nat × Word)) : (elgReg f s).staging = s.staging := rfl
@[simp] theorem elgReg_sce (f : List (Nat × Word) → List (Nat × Word)) : (elgReg f s).sce = s.sce := rfl
@[simp] theorem elgReg_scu (f : List (Nat × Word) → List (Nat × Word)) : (elgReg f s).scu = s.scu := rfl
@[simp] theorem elgReg_tdl (f : List (Nat × Word) → List (Nat × Word)) : (elgReg f s).tdl = s.tdl := rfl
@[simp] theorem elgReg_ple (f : List (Nat × Word) → List (Nat × Word)) : (elgReg f s).ple = s.ple := rfl
@[simp] theorem elgReg_hqe (f : List (Nat × Word) → List (Nat × Word)) : (elgReg f s).hqe = s.hqe := rfl
@[simp] theorem elgReg_nv (f : List (Nat × Word) → List (Nat × Word)) : (elgReg f s).nv = s.nv := rfl
@[simp] theorem elgReg_bmc (f : List (Nat × Word) → List (Nat × Word)) : (elgReg f s).bmc = s.bmc := rfl
@[simp] theorem elgReg_mpc (f : List (Nat × Word) → List (Nat × Word)) : (elgReg f s).mpc = s.mpc := rfl
@[simp] theorem elgReg_dma (f : List (Nat × Word) → List (Nat × Word)) : (elgReg f s).dma = s.dma := rfl
@[simp] theorem elgReg_pct (f : List (Nat × Word) → List (Nat × Word)) : (elgReg f s).pct = s.pct := rfl
@[simp] theorem elgReg_tmn (f : List (Nat × Word) → List (Nat × Word)) : (elgReg f s).tmn = s.tmn := rfl
@[simp] theorem elgReg_cal (f : List (Nat × Word) → List (Nat × Word)) : (elgReg f s).cal = s.cal := rfl
@[simp] theorem elgReg_clp (f : List (Nat × Word) → List (Nat × Word)) : (elgReg f s).clp = s.clp := rfl
@[simp] theorem elgReg_free (f : List (Nat × Word) → List (Nat × Word)) : (elgReg f s).free = s.free := rfl
@[simp] theorem elgReg_csr (f : List (Nat × Word) → List (Nat × Word)) : (elgReg f s).elg.csr = f s.elg.csr := rfl
/-! `bmcReg` -/
@[simp] theorem bmcReg_pending (f : List (Nat × Word) → List (Nat × Word)) : (bmcReg f s).pending = s.pending := rfl
@[simp] theorem bmcReg_part (f : List (Nat × Word) → List (Nat × Word)) : (bmcReg f s).part = s.part := rfl
@[simp] theorem bmcReg_sys (f : List (Nat × Word) → List (Nat × Word)) : (bmcReg f s).sys = s.sys := rfl
@[simp] theorem bmcReg_evr (f : List (Nat × Word) → List (Nat × Word)) : (bmcReg f s).evr = s.evr := rfl
@[simp] theorem bmcReg_mck (f : List (Nat × Word) → List (Nat × Word)) : (bmcReg f s).mck = s.mck := rfl
@[simp] theorem bmcReg_pins (f : List (Nat × Word) → List (Nat × Word)) : (bmcReg f s).pins = s.pins := rfl
@[simp] theorem bmcReg_mcs (f : List (Nat × Word) → List (Nat × Word)) : (bmcReg f s).mcs = s.mcs := rfl
@[simp] theorem bmcReg_media (f : List (Nat × Word) → List (Nat × Word)) : (bmcReg f s).media = s.media := rfl
@[simp] theorem bmcReg_mem (f : List (Nat × Word) → List (Nat × Word)) : (bmcReg f s).mem = s.mem := rfl
@[simp] theorem bmcReg_staging (f : List (Nat × Word) → List (Nat × Word)) : (bmcReg f s).staging = s.staging := rfl
@[simp] theorem bmcReg_sce (f : List (Nat × Word) → List (Nat × Word)) : (bmcReg f s).sce = s.sce := rfl
@[simp] theorem bmcReg_scu (f : List (Nat × Word) → List (Nat × Word)) : (bmcReg f s).scu = s.scu := rfl
@[simp] theorem bmcReg_tdl (f : List (Nat × Word) → List (Nat × Word)) : (bmcReg f s).tdl = s.tdl := rfl
@[simp] theorem bmcReg_ple (f : List (Nat × Word) → List (Nat × Word)) : (bmcReg f s).ple = s.ple := rfl
@[simp] theorem bmcReg_hqe (f : List (Nat × Word) → List (Nat × Word)) : (bmcReg f s).hqe = s.hqe := rfl
@[simp] theorem bmcReg_nv (f : List (Nat × Word) → List (Nat × Word)) : (bmcReg f s).nv = s.nv := rfl
@[simp] theorem bmcReg_elg (f : List (Nat × Word) → List (Nat × Word)) : (bmcReg f s).elg = s.elg := rfl
@[simp] theorem bmcReg_mpc (f : List (Nat × Word) → List (Nat × Word)) : (bmcReg f s).mpc = s.mpc := rfl
@[simp] theorem bmcReg_dma (f : List (Nat × Word) → List (Nat × Word)) : (bmcReg f s).dma = s.dma := rfl
@[simp] theorem bmcReg_pct (f : List (Nat × Word) → List (Nat × Word)) : (bmcReg f s).pct = s.pct := rfl
@[simp] theorem bmcReg_tmn (f : List (Nat × Word) → List (Nat × Word)) : (bmcReg f s).tmn = s.tmn := rfl
@[simp] theorem bmcReg_cal (f : List (Nat × Word) → List (Nat × Word)) : (bmcReg f s).cal = s.cal := rfl
@[simp] theorem bmcReg_clp (f : List (Nat × Word) → List (Nat × Word)) : (bmcReg f s).clp = s.clp := rfl
@[simp] theorem bmcReg_free (f : List (Nat × Word) → List (Nat × Word)) : (bmcReg f s).free = s.free := rfl
@[simp] theorem bmcReg_csr (f : List (Nat × Word) → List (Nat × Word)) : (bmcReg f s).bmc.csr = f s.bmc.csr := rfl
/-! `modMpc` -/
@[simp] theorem modMpc_pending (f : Mpc → Mpc) : (modMpc f s).pending = s.pending := rfl
@[simp] theorem modMpc_part (f : Mpc → Mpc) : (modMpc f s).part = s.part := rfl
@[simp] theorem modMpc_sys (f : Mpc → Mpc) : (modMpc f s).sys = s.sys := rfl
@[simp] theorem modMpc_evr (f : Mpc → Mpc) : (modMpc f s).evr = s.evr := rfl
@[simp] theorem modMpc_mck (f : Mpc → Mpc) : (modMpc f s).mck = s.mck := rfl
@[simp] theorem modMpc_pins (f : Mpc → Mpc) : (modMpc f s).pins = s.pins := rfl
@[simp] theorem modMpc_mcs (f : Mpc → Mpc) : (modMpc f s).mcs = s.mcs := rfl
@[simp] theorem modMpc_media (f : Mpc → Mpc) : (modMpc f s).media = s.media := rfl
@[simp] theorem modMpc_mem (f : Mpc → Mpc) : (modMpc f s).mem = s.mem := rfl
@[simp] theorem modMpc_staging (f : Mpc → Mpc) : (modMpc f s).staging = s.staging := rfl
@[simp] theorem modMpc_sce (f : Mpc → Mpc) : (modMpc f s).sce = s.sce := rfl
@[simp] theorem modMpc_scu (f : Mpc → Mpc) : (modMpc f s).scu = s.scu := rfl
@[simp] theorem modMpc_tdl (f : Mpc → Mpc) : (modMpc f s).tdl = s.tdl := rfl
@[simp] theorem modMpc_ple (f : Mpc → Mpc) : (modMpc f s).ple = s.ple := rfl
@[simp] theorem modMpc_hqe (f : Mpc → Mpc) : (modMpc f s).hqe = s.hqe := rfl
@[simp] theorem modMpc_nv (f : Mpc → Mpc) : (modMpc f s).nv = s.nv := rfl
@[simp] theorem modMpc_elg (f : Mpc → Mpc) : (modMpc f s).elg = s.elg := rfl
@[simp] theorem modMpc_bmc (f : Mpc → Mpc) : (modMpc f s).bmc = s.bmc := rfl
@[simp] theorem modMpc_dma (f : Mpc → Mpc) : (modMpc f s).dma = s.dma := rfl
@[simp] theorem modMpc_pct (f : Mpc → Mpc) : (modMpc f s).pct = s.pct := rfl
@[simp] theorem modMpc_tmn (f : Mpc → Mpc) : (modMpc f s).tmn = s.tmn := rfl
@[simp] theorem modMpc_cal (f : Mpc → Mpc) : (modMpc f s).cal = s.cal := rfl
@[simp] theorem modMpc_clp (f : Mpc → Mpc) : (modMpc f s).clp = s.clp := rfl
@[simp] theorem modMpc_free (f : Mpc → Mpc) : (modMpc f s).free = s.free := rfl
@[simp] theorem modMpc_mpc (f : Mpc → Mpc) : (modMpc f s).mpc = f s.mpc := rfl
/-! `mpcReg` -/
@[simp] theorem mpcReg_pending (f : List (Nat × Word) → List (Nat × Word)) : (mpcReg f s).pending = s.pending := rfl
@[simp] theorem mpcReg_part (f : List (Nat × Word) → List (Nat × Word)) : (mpcReg f s).part = s.part := rfl
@[simp] theorem mpcReg_sys (f : List (Nat × Word) → List (Nat × Word)) : (mpcReg f s).sys = s.sys := rfl
@[simp] theorem mpcReg_evr (f : List (Nat × Word) → List (Nat × Word)) : (mpcReg f s).evr = s.evr := rfl
@[simp] theorem mpcReg_mck (f : List (Nat × Word) → List (Nat × Word)) : (mpcReg f s).mck = s.mck := rfl
@[simp] theorem mpcReg_pins (f : List (Nat × Word) → List (Nat × Word)) : (mpcReg f s).pins = s.pins := rfl
@[simp] theorem mpcReg_mcs (f : List (Nat × Word) → List (Nat × Word)) : (mpcReg f s).mcs = s.mcs := rfl
@[simp] theorem mpcReg_media (f : List (Nat × Word) → List (Nat × Word)) : (mpcReg f s).media = s.media := rfl
@[simp] theorem mpcReg_mem (f : List (Nat × Word) → List (Nat × Word)) : (mpcReg f s).mem = s.mem := rfl
@[simp] theorem mpcReg_staging (f : List (Nat × Word) → List (Nat × Word)) : (mpcReg f s).staging = s.staging := rfl
@[simp] theorem mpcReg_sce (f : List (Nat × Word) → List (Nat × Word)) : (mpcReg f s).sce = s.sce := rfl
@[simp] theorem mpcReg_scu (f : List (Nat × Word) → List (Nat × Word)) : (mpcReg f s).scu = s.scu := rfl
@[simp] theorem mpcReg_tdl (f : List (Nat × Word) → List (Nat × Word)) : (mpcReg f s).tdl = s.tdl := rfl
@[simp] theorem mpcReg_ple (f : List (Nat × Word) → List (Nat × Word)) : (mpcReg f s).ple = s.ple := rfl
@[simp] theorem mpcReg_hqe (f : List (Nat × Word) → List (Nat × Word)) : (mpcReg f s).hqe = s.hqe := rfl
@[simp] theorem mpcReg_nv (f : List (Nat × Word) → List (Nat × Word)) : (mpcReg f s).nv = s.nv := rfl
@[simp] theorem mpcReg_elg (f : List (Nat × Word) → List (Nat × Word)) : (mpcReg f s).elg = s.elg := rfl
@[simp] theorem mpcReg_bmc (f : List (Nat × Word) → List (Nat × Word)) : (mpcReg f s).bmc = s.bmc := rfl
@[simp] theorem mpcReg_dma (f : List (Nat × Word) → List (Nat × Word)) : (mpcReg f s).dma = s.dma := rfl
@[simp] theorem mpcReg_pct (f : List (Nat × Word) → List (Nat × Word)) : (mpcReg f s).pct = s.pct := rfl
@[simp] theorem mpcReg_tmn (f : List (Nat × Word) → List (Nat × Word)) : (mpcReg f s).tmn = s.tmn := rfl
@[simp] theorem mpcReg_cal (f : List (Nat × Word) → List (Nat × Word)) : (mpcReg f s).cal = s.cal := rfl
@[simp] theorem mpcReg_clp (f : List (Nat × Word) → List (Nat × Word)) : (mpcReg f s).clp = s.clp := rfl
@[simp] theorem mpcReg_free (f : List (Nat × Word) → List (Nat × Word)) : (mpcReg f s).free = s.free := rfl
@[simp] theorem mpcReg_csr (f : List (Nat × Word) → List (Nat × Word)) : (mpcReg f s).mpc.csr = f s.mpc.csr := rfl
/-! `dmaReg` -/
@[simp] theorem dmaReg_pending (f : List (Nat × Word) → List (Nat × Word)) : (dmaReg f s).pending = s.pending := rfl
@[simp] theorem dmaReg_part (f : List (Nat × Word) → List (Nat × Word)) : (dmaReg f s).part = s.part := rfl
@[simp] theorem dmaReg_sys (f : List (Nat × Word) → List (Nat × Word)) : (dmaReg f s).sys = s.sys := rfl
@[simp] theorem dmaReg_evr (f : List (Nat × Word) → List (Nat × Word)) : (dmaReg f s).evr = s.evr := rfl
@[simp] theorem dmaReg_mck (f : List (Nat × Word) → List (Nat × Word)) : (dmaReg f s).mck = s.mck := rfl
@[simp] theorem dmaReg_pins (f : List (Nat × Word) → List (Nat × Word)) : (dmaReg f s).pins = s.pins := rfl
@[simp] theorem dmaReg_mcs (f : List (Nat × Word) → List (Nat × Word)) : (dmaReg f s).mcs = s.mcs := rfl
@[simp] theorem dmaReg_media (f : List (Nat × Word) → List (Nat × Word)) : (dmaReg f s).media = s.media := rfl
@[simp] theorem dmaReg_mem (f : List (Nat × Word) → List (Nat × Word)) : (dmaReg f s).mem = s.mem := rfl
@[simp] theorem dmaReg_staging (f : List (Nat × Word) → List (Nat × Word)) : (dmaReg f s).staging = s.staging := rfl
@[simp] theorem dmaReg_sce (f : List (Nat × Word) → List (Nat × Word)) : (dmaReg f s).sce = s.sce := rfl
@[simp] theorem dmaReg_scu (f : List (Nat × Word) → List (Nat × Word)) : (dmaReg f s).scu = s.scu := rfl
@[simp] theorem dmaReg_tdl (f : List (Nat × Word) → List (Nat × Word)) : (dmaReg f s).tdl = s.tdl := rfl
@[simp] theorem dmaReg_ple (f : List (Nat × Word) → List (Nat × Word)) : (dmaReg f s).ple = s.ple := rfl
@[simp] theorem dmaReg_hqe (f : List (Nat × Word) → List (Nat × Word)) : (dmaReg f s).hqe = s.hqe := rfl
@[simp] theorem dmaReg_nv (f : List (Nat × Word) → List (Nat × Word)) : (dmaReg f s).nv = s.nv := rfl
@[simp] theorem dmaReg_elg (f : List (Nat × Word) → List (Nat × Word)) : (dmaReg f s).elg = s.elg := rfl
@[simp] theorem dmaReg_bmc (f : List (Nat × Word) → List (Nat × Word)) : (dmaReg f s).bmc = s.bmc := rfl
@[simp] theorem dmaReg_mpc (f : List (Nat × Word) → List (Nat × Word)) : (dmaReg f s).mpc = s.mpc := rfl
@[simp] theorem dmaReg_pct (f : List (Nat × Word) → List (Nat × Word)) : (dmaReg f s).pct = s.pct := rfl
@[simp] theorem dmaReg_tmn (f : List (Nat × Word) → List (Nat × Word)) : (dmaReg f s).tmn = s.tmn := rfl
@[simp] theorem dmaReg_cal (f : List (Nat × Word) → List (Nat × Word)) : (dmaReg f s).cal = s.cal := rfl
@[simp] theorem dmaReg_clp (f : List (Nat × Word) → List (Nat × Word)) : (dmaReg f s).clp = s.clp := rfl
@[simp] theorem dmaReg_free (f : List (Nat × Word) → List (Nat × Word)) : (dmaReg f s).free = s.free := rfl
@[simp] theorem dmaReg_csr (f : List (Nat × Word) → List (Nat × Word)) : (dmaReg f s).dma.csr = f s.dma.csr := rfl
/-! `modPct` -/
@[simp] theorem modPct_pending (f : Pct → Pct) : (modPct f s).pending = s.pending := rfl
@[simp] theorem modPct_part (f : Pct → Pct) : (modPct f s).part = s.part := rfl
@[simp] theorem modPct_sys (f : Pct → Pct) : (modPct f s).sys = s.sys := rfl
@[simp] theorem modPct_evr (f : Pct → Pct) : (modPct f s).evr = s.evr := rfl
@[simp] theorem modPct_mck (f : Pct → Pct) : (modPct f s).mck = s.mck := rfl
@[simp] theorem modPct_pins (f : Pct → Pct) : (modPct f s).pins = s.pins := rfl
@[simp] theorem modPct_mcs (f : Pct → Pct) : (modPct f s).mcs = s.mcs := rfl
@[simp] theorem modPct_media (f : Pct → Pct) : (modPct f s).media = s.media := rfl
@[simp] theorem modPct_mem (f : Pct → Pct) : (modPct f s).mem = s.mem := rfl
@[simp] theorem modPct_staging (f : Pct → Pct) : (modPct f s).staging = s.staging := rfl
@[simp] theorem modPct_sce (f : Pct → Pct) : (modPct f s).sce = s.sce := rfl
@[simp] theorem modPct_scu (f : Pct → Pct) : (modPct f s).scu = s.scu := rfl
@[simp] theorem modPct_tdl (f : Pct → Pct) : (modPct f s).tdl = s.tdl := rfl
@[simp] theorem modPct_ple (f : Pct → Pct) : (modPct f s).ple = s.ple := rfl
@[simp] theorem modPct_hqe (f : Pct → Pct) : (modPct f s).hqe = s.hqe := rfl
@[simp] theorem modPct_nv (f : Pct → Pct) : (modPct f s).nv = s.nv := rfl
@[simp] theorem modPct_elg (f : Pct → Pct) : (modPct f s).elg = s.elg := rfl
@[simp] theorem modPct_bmc (f : Pct → Pct) : (modPct f s).bmc = s.bmc := rfl
@[simp] theorem modPct_mpc (f : Pct → Pct) : (modPct f s).mpc = s.mpc := rfl
@[simp] theorem modPct_dma (f : Pct → Pct) : (modPct f s).dma = s.dma := rfl
@[simp] theorem modPct_tmn (f : Pct → Pct) : (modPct f s).tmn = s.tmn := rfl
@[simp] theorem modPct_cal (f : Pct → Pct) : (modPct f s).cal = s.cal := rfl
@[simp] theorem modPct_clp (f : Pct → Pct) : (modPct f s).clp = s.clp := rfl
@[simp] theorem modPct_free (f : Pct → Pct) : (modPct f s).free = s.free := rfl
@[simp] theorem modPct_pct (f : Pct → Pct) : (modPct f s).pct = f s.pct := rfl
/-! `pctReg` -/
@[simp] theorem pctReg_pending (f : List (Nat × Word) → List (Nat × Word)) : (pctReg f s).pending = s.pending := rfl
@[simp] theorem pctReg_part (f : List (Nat × Word) → List (Nat × Word)) : (pctReg f s).part = s.part := rfl
@[simp] theorem pctReg_sys (f : List (Nat × Word) → List (Nat × Word)) : (pctReg f s).sys = s.sys := rfl
@[simp] theorem pctReg_evr (f : List (Nat × Word) → List (Nat × Word)) : (pctReg f s).evr = s.evr := rfl
@[simp] theorem pctReg_mck (f : List (Nat × Word) → List (Nat × Word)) : (pctReg f s).mck = s.mck := rfl
@[simp] theorem pctReg_pins (f : List (Nat × Word) → List (Nat × Word)) : (pctReg f s).pins = s.pins := rfl
@[simp] theorem pctReg_mcs (f : List (Nat × Word) → List (Nat × Word)) : (pctReg f s).mcs = s.mcs := rfl
@[simp] theorem pctReg_media (f : List (Nat × Word) → List (Nat × Word)) : (pctReg f s).media = s.media := rfl
@[simp] theorem pctReg_mem (f : List (Nat × Word) → List (Nat × Word)) : (pctReg f s).mem = s.mem := rfl
@[simp] theorem pctReg_staging (f : List (Nat × Word) → List (Nat × Word)) : (pctReg f s).staging = s.staging := rfl
@[simp] theorem pctReg_sce (f : List (Nat × Word) → List (Nat × Word)) : (pctReg f s).sce = s.sce := rfl
@[simp] theorem pctReg_scu (f : List (Nat × Word) → List (Nat × Word)) : (pctReg f s).scu = s.scu := rfl
@[simp] theorem pctReg_tdl (f : List (Nat × Word) → List (Nat × Word)) : (pctReg f s).tdl = s.tdl := rfl
@[simp] theorem pctReg_ple (f : List (Nat × Word) → List (Nat × Word)) : (pctReg f s).ple = s.ple := rfl
@[simp] theorem pctReg_hqe (f : List (Nat × Word) → List (Nat × Word)) : (pctReg f s).hqe = s.hqe := rfl
@[simp] theorem pctReg_nv (f : List (Nat × Word) → List (Nat × Word)) : (pctReg f s).nv = s.nv := rfl
@[simp] theorem pctReg_elg (f : List (Nat × Word) → List (Nat × Word)) : (pctReg f s).elg = s.elg := rfl
@[simp] theorem pctReg_bmc (f : List (Nat × Word) → List (Nat × Word)) : (pctReg f s).bmc = s.bmc := rfl
@[simp] theorem pctReg_mpc (f : List (Nat × Word) → List (Nat × Word)) : (pctReg f s).mpc = s.mpc := rfl
@[simp] theorem pctReg_dma (f : List (Nat × Word) → List (Nat × Word)) : (pctReg f s).dma = s.dma := rfl
@[simp] theorem pctReg_tmn (f : List (Nat × Word) → List (Nat × Word)) : (pctReg f s).tmn = s.tmn := rfl
@[simp] theorem pctReg_cal (f : List (Nat × Word) → List (Nat × Word)) : (pctReg f s).cal = s.cal := rfl
@[simp] theorem pctReg_clp (f : List (Nat × Word) → List (Nat × Word)) : (pctReg f s).clp = s.clp := rfl
@[simp] theorem pctReg_free (f : List (Nat × Word) → List (Nat × Word)) : (pctReg f s).free = s.free := rfl
@[simp] theorem pctReg_csr (f : List (Nat × Word) → List (Nat × Word)) : (pctReg f s).pct.csr = f s.pct.csr := rfl
/-! `modTmn` -/
@[simp] theorem modTmn_pending (f : Tmn → Tmn) : (modTmn f s).pending = s.pending := rfl
@[simp] theorem modTmn_part (f : Tmn → Tmn) : (modTmn f s).part = s.part := rfl
@[simp] theorem modTmn_sys (f : Tmn → Tmn) : (modTmn f s).sys = s.sys := rfl
@[simp] theorem modTmn_evr (f : Tmn → Tmn) : (modTmn f s).evr = s.evr := rfl
@[simp] theorem modTmn_mck (f : Tmn → Tmn) : (modTmn f s).mck = s.mck := rfl
@[simp] theorem modTmn_pins (f : Tmn → Tmn) : (modTmn f s).pins = s.pins := rfl
@[simp] theorem modTmn_mcs (f : Tmn → Tmn) : (modTmn f s).mcs = s.mcs := rfl
@[simp] theorem modTmn_media (f : Tmn → Tmn) : (modTmn f s).media = s.media := rfl
@[simp] theorem modTmn_mem (f : Tmn → Tmn) : (modTmn f s).mem = s.mem := rfl
@[simp] theorem modTmn_staging (f : Tmn → Tmn) : (modTmn f s).staging = s.staging := rfl
@[simp] theorem modTmn_sce (f : Tmn → Tmn) : (modTmn f s).sce = s.sce := rfl
@[simp] theorem modTmn_scu (f : Tmn → Tmn) : (modTmn f s).scu = s.scu := rfl
@[simp] theorem modTmn_tdl (f : Tmn → Tmn) : (modTmn f s).tdl = s.tdl := rfl
@[simp] theorem modTmn_ple (f : Tmn → Tmn) : (modTmn f s).ple = s.ple := rfl
@[simp] theorem modTmn_hqe (f : Tmn → Tmn) : (modTmn f s).hqe = s.hqe := rfl
@[simp] theorem modTmn_nv (f : Tmn → Tmn) : (modTmn f s).nv = s.nv := rfl
@[simp] theorem modTmn_elg (f : Tmn → Tmn) : (modTmn f s).elg = s.elg := rfl
@[simp] theorem modTmn_bmc (f : Tmn → Tmn) : (modTmn f s).bmc = s.bmc := rfl
@[simp] theorem modTmn_mpc (f : Tmn → Tmn) : (modTmn f s).mpc = s.mpc := rfl
@[simp] theorem modTmn_dma (f : Tmn → Tmn) : (modTmn f s).dma = s.dma := rfl
@[simp] theorem modTmn_pct (f : Tmn → Tmn) : (modTmn f s).pct = s.pct := rfl
@[simp] theorem modTmn_cal (f : Tmn → Tmn) : (modTmn f s).cal = s.cal := rfl
@[simp] theorem modTmn_clp (f : Tmn → Tmn) : (modTmn f s).clp = s.clp := rfl
@[simp] theorem modTmn_free (f : Tmn → Tmn) : (modTmn f s).free = s.free := rfl
@[simp] theorem modTmn_tmn (f : Tmn → Tmn) : (modTmn f s).tmn = f s.tmn := rfl
/-! `tmnReg` -/
@[simp] theorem tmnReg_pending (f : List (Nat × Word) → List (Nat × Word)) : (tmnReg f s).pending = s.pending := rfl
@[simp] theorem tmnReg_part (f : List (Nat × Word) → List (Nat × Word)) : (tmnReg f s).part = s.part := rfl
@[simp] theorem tmnReg_sys (f : List (Nat × Word) → List (Nat × Word)) : (tmnReg f s).sys = s.sys := rfl
@[simp] theorem tmnReg_evr (f : List (Nat × Word) → List (Nat × Word)) : (tmnReg f s).evr = s.evr := rfl
@[simp] theorem tmnReg_mck (f : List (Nat × Word) → List (Nat × Word)) : (tmnReg f s).mck = s.mck := rfl
@[simp] theorem tmnReg_pins (f : List (Nat × Word) → List (Nat × Word)) : (tmnReg f s).pins = s.pins := rfl
@[simp] theorem tmnReg_mcs (f : List (Nat × Word) → List (Nat × Word)) : (tmnReg f s).mcs = s.mcs := rfl
@[simp] theorem tmnReg_media (f : List (Nat × Word) → List (Nat × Word)) : (tmnReg f s).media = s.media := rfl
@[simp] theorem tmnReg_mem (f : List (Nat × Word) → List (Nat × Word)) : (tmnReg f s).mem = s.mem := rfl
@[simp] theorem tmnReg_staging (f : List (Nat × Word) → List (Nat × Word)) : (tmnReg f s).staging = s.staging := rfl
@[simp] theorem tmnReg_sce (f : List (Nat × Word) → List (Nat × Word)) : (tmnReg f s).sce = s.sce := rfl
@[simp] theorem tmnReg_scu (f : List (Nat × Word) → List (Nat × Word)) : (tmnReg f s).scu = s.scu := rfl
@[simp] theorem tmnReg_tdl (f : List (Nat × Word) → List (Nat × Word)) : (tmnReg f s).tdl = s.tdl := rfl
@[simp] theorem tmnReg_ple (f : List (Nat × Word) → List (Nat × Word)) : (tmnReg f s).ple = s.ple := rfl
@[simp] theorem tmnReg_hqe (f : List (Nat × Word) → List (Nat × Word)) : (tmnReg f s).hqe = s.hqe := rfl
@[simp] theorem tmnReg_nv (f : List (Nat × Word) → List (Nat × Word)) : (tmnReg f s).nv = s.nv := rfl
@[simp] theorem tmnReg_elg (f : List (Nat × Word) → List (Nat × Word)) : (tmnReg f s).elg = s.elg := rfl
@[simp] theorem tmnReg_bmc (f : List (Nat × Word) → List (Nat × Word)) : (tmnReg f s).bmc = s.bmc := rfl
@[simp] theorem tmnReg_mpc (f : List (Nat × Word) → List (Nat × Word)) : (tmnReg f s).mpc = s.mpc := rfl
@[simp] theorem tmnReg_dma (f : List (Nat × Word) → List (Nat × Word)) : (tmnReg f s).dma = s.dma := rfl
@[simp] theorem tmnReg_pct (f : List (Nat × Word) → List (Nat × Word)) : (tmnReg f s).pct = s.pct := rfl
@[simp] theorem tmnReg_cal (f : List (Nat × Word) → List (Nat × Word)) : (tmnReg f s).cal = s.cal := rfl
@[simp] theorem tmnReg_clp (f : List (Nat × Word) → List (Nat × Word)) : (tmnReg f s).clp = s.clp := rfl
@[simp] theorem tmnReg_free (f : List (Nat × Word) → List (Nat × Word)) : (tmnReg f s).free = s.free := rfl
@[simp] theorem tmnReg_csr (f : List (Nat × Word) → List (Nat × Word)) : (tmnReg f s).tmn.csr = f s.tmn.csr := rfl
/-! `modCal` -/
@[simp] theorem modCal_pending (f : Cal → Cal) : (modCal f s).pending = s.pending := rfl
@[simp] theorem modCal_part (f : Cal → Cal) : (modCal f s).part = s.part := rfl
@[simp] theorem modCal_sys (f : Cal → Cal) : (modCal f s).sys = s.sys := rfl
@[simp] theorem modCal_evr (f : Cal → Cal) : (modCal f s).evr = s.evr := rfl
@[simp] theorem modCal_mck (f : Cal → Cal) : (modCal f s).mck = s.mck := rfl
@[simp] theorem modCal_pins (f : Cal → Cal) : (modCal f s).pins = s.pins := rfl
@[simp] theorem modCal_mcs (f : Cal → Cal) : (modCal f s).mcs = s.mcs := rfl
@[simp] theorem modCal_media (f : Cal → Cal) : (modCal f s).media = s.media := rfl
@[simp] theorem modCal_mem (f : Cal → Cal) : (modCal f s).mem = s.mem := rfl
@[simp] theorem modCal_staging (f : Cal → Cal) : (modCal f s).staging = s.staging := rfl
@[simp] theorem modCal_sce (f : Cal → Cal) : (modCal f s).sce = s.sce := rfl
@[simp] theorem modCal_scu (f : Cal → Cal) : (modCal f s).scu = s.scu := rfl
@[simp] theorem modCal_tdl (f : Cal → Cal) : (modCal f s).tdl = s.tdl := rfl
@[simp] theorem modCal_ple (f : Cal → Cal) : (modCal f s).ple = s.ple := rfl
@[simp] theorem modCal_hqe (f : Cal → Cal) : (modCal f s).hqe = s.hqe := rfl
@[simp] theorem modCal_nv (f : Cal → Cal) : (modCal f s).nv = s.nv := rfl
@[simp] theorem modCal_elg (f : Cal → Cal) : (modCal f s).elg = s.elg := rfl
@[simp] theorem modCal_bmc (f : Cal → Cal) : (modCal f s).bmc = s.bmc := rfl
@[simp] theorem modCal_mpc (f : Cal → Cal) : (modCal f s).mpc = s.mpc := rfl
@[simp] theorem modCal_dma (f : Cal → Cal) : (modCal f s).dma = s.dma := rfl
@[simp] theorem modCal_pct (f : Cal → Cal) : (modCal f s).pct = s.pct := rfl
@[simp] theorem modCal_tmn (f : Cal → Cal) : (modCal f s).tmn = s.tmn := rfl
@[simp] theorem modCal_clp (f : Cal → Cal) : (modCal f s).clp = s.clp := rfl
@[simp] theorem modCal_free (f : Cal → Cal) : (modCal f s).free = s.free := rfl
@[simp] theorem modCal_cal (f : Cal → Cal) : (modCal f s).cal = f s.cal := rfl
/-! `modEvr` -/
@[simp] theorem modEvr_pending (f : Evr → Evr) : (modEvr f s).pending = s.pending := rfl
@[simp] theorem modEvr_part (f : Evr → Evr) : (modEvr f s).part = s.part := rfl
@[simp] theorem modEvr_sys (f : Evr → Evr) : (modEvr f s).sys = s.sys := rfl
@[simp] theorem modEvr_mck (f : Evr → Evr) : (modEvr f s).mck = s.mck := rfl
@[simp] theorem modEvr_pins (f : Evr → Evr) : (modEvr f s).pins = s.pins := rfl
@[simp] theorem modEvr_mcs (f : Evr → Evr) : (modEvr f s).mcs = s.mcs := rfl
@[simp] theorem modEvr_media (f : Evr → Evr) : (modEvr f s).media = s.media := rfl
@[simp] theorem modEvr_mem (f : Evr → Evr) : (modEvr f s).mem = s.mem := rfl
@[simp] theorem modEvr_staging (f : Evr → Evr) : (modEvr f s).staging = s.staging := rfl
@[simp] theorem modEvr_sce (f : Evr → Evr) : (modEvr f s).sce = s.sce := rfl
@[simp] theorem modEvr_scu (f : Evr → Evr) : (modEvr f s).scu = s.scu := rfl
@[simp] theorem modEvr_tdl (f : Evr → Evr) : (modEvr f s).tdl = s.tdl := rfl
@[simp] theorem modEvr_ple (f : Evr → Evr) : (modEvr f s).ple = s.ple := rfl
@[simp] theorem modEvr_hqe (f : Evr → Evr) : (modEvr f s).hqe = s.hqe := rfl
@[simp] theorem modEvr_nv (f : Evr → Evr) : (modEvr f s).nv = s.nv := rfl
@[simp] theorem modEvr_elg (f : Evr → Evr) : (modEvr f s).elg = s.elg := rfl
@[simp] theorem modEvr_bmc (f : Evr → Evr) : (modEvr f s).bmc = s.bmc := rfl
@[simp] theorem modEvr_mpc (f : Evr → Evr) : (modEvr f s).mpc = s.mpc := rfl
@[simp] theorem modEvr_dma (f : Evr → Evr) : (modEvr f s).dma = s.dma := rfl
@[simp] theorem modEvr_pct (f : Evr → Evr) : (modEvr f s).pct = s.pct := rfl
@[simp] theorem modEvr_tmn (f : Evr → Evr) : (modEvr f s).tmn = s.tmn := rfl
@[simp] theorem modEvr_cal (f : Evr → Evr) : (modEvr f s).cal = s.cal := rfl
@[simp] theorem modEvr_clp (f : Evr → Evr) : (modEvr f s).clp = s.clp := rfl
@[simp] theorem modEvr_free (f : Evr → Evr) : (modEvr f s).free = s.free := rfl
@[simp] theorem modEvr_evr (f : Evr → Evr) : (modEvr f s).evr = f s.evr := rfl
/-! `evrReg` -/
@[simp] theorem evrReg_pending (f : List (Nat × Word) → List (Nat × Word)) : (evrReg f s).pending = s.pending := rfl
@[simp] theorem evrReg_part (f : List (Nat × Word) → List (Nat × Word)) : (evrReg f s).part = s.part := rfl
@[simp] theorem evrReg_sys (f : List (Nat × Word) → List (Nat × Word)) : (evrReg f s).sys = s.sys := rfl
@[simp] theorem evrReg_mck (f : List (Nat × Word) → List (Nat × Word)) : (evrReg f s).mck = s.mck := rfl
@[simp] theorem evrReg_pins (f : List (Nat × Word) → List (Nat × Word)) : (evrReg f s).pins = s.pins := rfl
@[simp] theorem evrReg_mcs (f : List (Nat × Word) → List (Nat × Word)) : (evrReg f s).mcs = s.mcs := rfl
@[simp] theorem evrReg_media (f : List (Nat × Word) → List (Nat × Word)) : (evrReg f s).media = s.media := rfl
@[simp] theorem evrReg_mem (f : List (Nat × Word) → List (Nat × Word)) : (evrReg f s).mem = s.mem := rfl
@[simp] theorem evrReg_staging (f : List (Nat × Word) → List (Nat × Word)) : (evrReg f s).staging = s.staging := rfl
@[simp] theorem evrReg_sce (f : List (Nat × Word) → List (Nat × Word)) : (evrReg f s).sce = s.sce := rfl
@[simp] theorem evrReg_scu (f : List (Nat × Word) → List (Nat × Word)) : (evrReg f s).scu = s.scu := rfl
@[simp] theorem evrReg_tdl (f : List (Nat × Word) → List (Nat × Word)) : (evrReg f s).tdl = s.tdl := rfl
@[simp] theorem evrReg_ple (f : List (Nat × Word) → List (Nat × Word)) : (evrReg f s).ple = s.ple := rfl
@[simp] theorem evrReg_hqe (f : List (Nat × Word) → List (Nat × Word)) : (evrReg f s).hqe = s.hqe := rfl
@[simp] theorem evrReg_nv (f : List (Nat × Word) → List (Nat × Word)) : (evrReg f s).nv = s.nv := rfl
@[simp] theorem evrReg_elg (f : List (Nat × Word) → List (Nat × Word)) : (evrReg f s).elg = s.elg := rfl
@[simp] theorem evrReg_bmc (f : List (Nat × Word) → List (Nat × Word)) : (evrReg f s).bmc = s.bmc := rfl
@[simp] theorem evrReg_mpc (f : List (Nat × Word) → List (Nat × Word)) : (evrReg f s).mpc = s.mpc := rfl
@[simp] theorem evrReg_dma (f : List (Nat × Word) → List (Nat × Word)) : (evrReg f s).dma = s.dma := rfl
@[simp] theorem evrReg_pct (f : List (Nat × Word) → List (Nat × Word)) : (evrReg f s).pct = s.pct := rfl
@[simp] theorem evrReg_tmn (f : List (Nat × Word) → List (Nat × Word)) : (evrReg f s).tmn = s.tmn := rfl
@[simp] theorem evrReg_cal (f : List (Nat × Word) → List (Nat × Word)) : (evrReg f s).cal = s.cal := rfl
@[simp] theorem evrReg_clp (f : List (Nat × Word) → List (Nat × Word)) : (evrReg f s).clp = s.clp := rfl
@[simp] theorem evrReg_free (f : List (Nat × Word) → List (Nat × Word)) : (evrReg f s).free = s.free := rfl
@[simp] theorem evrReg_csr (f : List (Nat × Word) → List (Nat × Word)) : (evrReg f s).evr.csr = f s.evr.csr := rfl
/-! `sysReg` -/
@[simp] theorem sysReg_pending (f : List (Nat × Word) → List (Nat × Word)) : (sysReg f s).pending = s.pending := rfl
@[simp] theorem sysReg_part (f : List (Nat × Word) → List (Nat × Word)) : (sysReg f s).part = s.part := rfl
@[simp] theorem sysReg_evr (f : List (Nat × Word) → List (Nat × Word)) : (sysReg f s).evr = s.evr := rfl
@[simp] theorem sysReg_mck (f : List (Nat × Word) → List (Nat × Word)) : (sysReg f s).mck = s.mck := rfl
@[simp] theorem sysReg_pins (f : List (Nat × Word) → List (Nat × Word)) : (sysReg f s).pins = s.pins := rfl
@[simp] theorem sysReg_mcs (f : List (Nat × Word) → List (Nat × Word)) : (sysReg f s).mcs = s.mcs := rfl
@[simp] theorem sysReg_media (f : List (Nat × Word) → List (Nat × Word)) : (sysReg f s).media = s.media := rfl
@[simp] theorem sysReg_mem (f : List (Nat × Word) → List (Nat × Word)) : (sysReg f s).mem = s.mem := rfl
@[simp] theorem sysReg_staging (f : List (Nat × Word) → List (Nat × Word)) : (sysReg f s).staging = s.staging := rfl
@[simp] theorem sysReg_sce (f : List (Nat × Word) → List (Nat × Word)) : (sysReg f s).sce = s.sce := rfl
@[simp] theorem sysReg_scu (f : List (Nat × Word) → List (Nat × Word)) : (sysReg f s).scu = s.scu := rfl
@[simp] theorem sysReg_tdl (f : List (Nat × Word) → List (Nat × Word)) : (sysReg f s).tdl = s.tdl := rfl
@[simp] theorem sysReg_ple (f : List (Nat × Word) → List (Nat × Word)) : (sysReg f s).ple = s.ple := rfl
@[simp] theorem sysReg_hqe (f : List (Nat × Word) → List (Nat × Word)) : (sysReg f s).hqe = s.hqe := rfl
@[simp] theorem sysReg_nv (f : List (Nat × Word) → List (Nat × Word)) : (sysReg f s).nv = s.nv := rfl
@[simp] theorem sysReg_elg (f : List (Nat × Word) → List (Nat × Word)) : (sysReg f s).elg = s.elg := rfl
@[simp] theorem sysReg_bmc (f : List (Nat × Word) → List (Nat × Word)) : (sysReg f s).bmc = s.bmc := rfl
@[simp] theorem sysReg_mpc (f : List (Nat × Word) → List (Nat × Word)) : (sysReg f s).mpc = s.mpc := rfl
@[simp] theorem sysReg_dma (f : List (Nat × Word) → List (Nat × Word)) : (sysReg f s).dma = s.dma := rfl
@[simp] theorem sysReg_pct (f : List (Nat × Word) → List (Nat × Word)) : (sysReg f s).pct = s.pct := rfl
@[simp] theorem sysReg_tmn (f : List (Nat × Word) → List (Nat × Word)) : (sysReg f s).tmn = s.tmn := rfl
@[simp] theorem sysReg_cal (f : List (Nat × Word) → List (Nat × Word)) : (sysReg f s).cal = s.cal := rfl
@[simp] theorem sysReg_clp (f : List (Nat × Word) → List (Nat × Word)) : (sysReg f s).clp = s.clp := rfl
@[simp] theorem sysReg_free (f : List (Nat × Word) → List (Nat × Word)) : (sysReg f s).free = s.free := rfl
@[simp] theorem sysReg_csr (f : List (Nat × Word) → List (Nat × Word)) : (sysReg f s).sys.csr = f s.sys.csr := rfl

/-! The four Media Channels -/
theorem quadGet_set_same {α : Type} (q : Quad α) (k : Fin 4) (x : α) : quadGet (quadSet q k x) k = x := by
  fin_cases k <;> rfl
theorem quadGet_set_other {α : Type} (q : Quad α) (k j : Fin 4) (x : α) (h : j ≠ k) : quadGet (quadSet q k x) j = quadGet q j := by
  fin_cases k <;> fin_cases j <;> first | rfl | exact absurd rfl h
@[simp] theorem mcOf_modMc_same (k : Fin 4) (f : Mc → Mc) : mcOf (modMc k f s) k = f (mcOf s k) := quadGet_set_same _ _ _
theorem mcOf_modMc_other (k j : Fin 4) (f : Mc → Mc) (h : j ≠ k) : mcOf (modMc k f s) j = mcOf s j := quadGet_set_other _ _ _ _ h
@[simp] theorem mcOf_setMc_same (k : Fin 4) (m : Mc) : mcOf (setMc k m s) k = m := quadGet_set_same _ _ _
theorem mcOf_setMc_other (k j : Fin 4) (m : Mc) (h : j ≠ k) : mcOf (setMc k m s) j = mcOf s j := quadGet_set_other _ _ _ _ h

end Sys2Proof.Machine
end

