-- ==== Sys2Proof/Laws/Shared.lean ====
section
/-! SUPPORT. What the operations that many rows share do and what they leave alone: counters, posts to the recorder, machine checks,
the slots, a job's end, a unit reset. -/

namespace Sys2Proof.Machine

/-! ### Counters and flags -/

/-- A saturating counter register counts up to all ones. -/
theorem incR_toNat (t : List (Nat × Word)) (off n : Nat) (h : twf 0 t = true) :
    (rd (incR t off n) off).toNat = min 0xFFFFFFFF ((rd t off).toNat + n) := by
  unfold incR
  rw [rd_wr_same t off _ h, BitVec.toNat_ofNat, satAdd]
  have := (rd t off).isLt
  omega

theorem incR_other (t : List (Nat × Word)) (off n a : Nat) (ne : a ≠ off) (h : twf 0 t = true) :
    rd (incR t off n) a = rd t a := rd_wr_other t off a _ ne h

theorem incR_twf (t : List (Nat × Word)) (off n : Nat) (h : twf 0 t = true) : twf 0 (incR t off n) = true := wr_twf t _ _ h

/-- A one-bit field after its write. -/
theorem rdB_wrB_same (t : List (Nat × Word)) (f : Fld) (b : Bool) (hw : f.lo = f.hi) (h32 : f.hi < 32) (h : twf 0 t = true) :
    rdB (wrB t f b) f = b := by
  unfold rdB wrB
  rw [rdF_wrF_same t f _ (by omega) h32 h, hw]
  have e : f.hi + 1 - f.hi = 1 := by omega
  rw [e]
  cases b <;> decide

theorem wrB_twf (t : List (Nat × Word)) (f : Fld) (b : Bool) (h : twf 0 t = true) : twf 0 (wrB t f b) = true := wrF_twf t f _ h

/-- A field of another register after a bit is written. -/
theorem rdB_wrB_other (t : List (Nat × Word)) (f g : Fld) (b : Bool) (ne : g.off ≠ f.off) (h : twf 0 t = true) :
    rdB (wrB t f b) g = rdB t g := by
  unfold rdB wrB
  rw [rdF_wrF_other t f g _ ne h]

/-! ### The recorder and machine checks (R488, R495 to R498) -/

/-- A post changes the recorder alone. -/
theorem evrPost_changes (cls id : Nat) (detail : Word) (syn : List Word) (s : State) :
    evrPost cls id detail syn s = { s with evr := (evrPost cls id detail syn s).evr } := by
  unfold evrPost
  simp only
  split <;> rfl

/-- A post that finds room waits behind the others; one that does not is counted. -/
theorem evrPost_posts (cls id : Nat) (detail : Word) (syn : List Word) (s : State) :
    (evrPost cls id detail syn s).evr.posts =
      if rdB s.evr.csr EVR_CTL.EN = true ∧ s.evr.posts.length < 16 then
        s.evr.posts ++ [⟨cls, id, detail, BitVec.ofNat 32 s.nv.pwrcyc, BitVec.ofNat 32 (nowSec s / 3600), nowSec s % 3600, syn⟩]
      else s.evr.posts := by
  unfold evrPost
  simp only
  split
  · rename_i h
    rw [if_neg]
    simp only [Bool.or_eq_true, Bool.not_eq_true', decide_eq_true_eq] at h
    rintro ⟨h1, h2⟩
    rcases h with h | h
    · simp [h1] at h
    · omega
  · rename_i h
    rw [if_pos]
    simp only [Bool.or_eq_true, Bool.not_eq_true', decide_eq_true_eq, not_or, Bool.not_eq_false] at h
    exact ⟨h.1, by omega⟩

/-- A machine check changes the recorder, the machine check unit, the cores' interrupt count and the count of open values. -/
theorem machineCheck_changes (unit code sev : Nat) (addr info : Word) (s : State) :
    let t := machineCheck unit code sev addr info s
    t = { s with
      evr := t.evr
      mck := t.mck
      sys := { s.sys with coreIrqs := t.sys.coreIrqs }
      free := s.free + 1 } := by
  intro t
  obtain ⟨p, q, d, y, u, ht, hu⟩ : ∃ p q d y u, t = evrPost p q d y u ∧
      u = { s with
        mck := u.mck
        sys := { s.sys with coreIrqs := u.sys.coreIrqs }
        free := s.free + 1 } := ⟨_, _, _, _, _, rfl, rfl⟩
  have h := evrPost_changes p q d y u
  rw [← ht] at h
  rw [h, hu]

/-- A syndrome waits behind the others while the FIFO has room, and is left out otherwise. -/
theorem machineCheck_fifo (unit code sev : Nat) (addr info : Word) (s : State) :
    (machineCheck unit code sev addr info s).mck.fifo =
      if s.mck.fifo.length < 16 then
        s.mck.fifo ++ [[BitVec.ofNat 32 (code + 256 * unit + 65536 * sev), addr, info, BitVec.ofNat 32 s.sys.us]]
      else s.mck.fifo := by
  unfold machineCheck
  simp only
  rw [evrPost_changes]
  by_cases h : s.mck.fifo.length < 16 <;> simp [h, takeFree]

/-! ### The command slots (R243, R248) -/

/-- Updating a slot updates it alone. -/
theorem slotAt_modSlot_same (n : Nat) (f : Slot → Slot) (s : State) (h : twf none s.hqe.slots = true) :
    slotAt (modSlot n f s) n = (slotAt s n).map f := by
  unfold modSlot
  split
  · rename_i e; simp [e]
  · rename_i x e
    simp only [slotAt] at e ⊢
    rw [tget_tput_same none _ _ n h, e]
    rfl

theorem slotAt_modSlot_other (n m : Nat) (f : Slot → Slot) (s : State) (ne : m ≠ n) (h : twf none s.hqe.slots = true) :
    slotAt (modSlot n f s) m = slotAt s m := by
  unfold modSlot
  split
  · rfl
  · exact tget_tput_other none _ _ n m ne h

theorem modSlot_changes (n : Nat) (f : Slot → Slot) (s : State) :
    modSlot n f s = { s with hqe := { s.hqe with slots := (modSlot n f s).hqe.slots } } := by
  unfold modSlot
  split <;> rfl

/-- A finished command is ready in its slot, with its status, and takes the next place in the order of completions. -/
theorem slotAt_finish_same (n status : Nat) (d0 d1 : Word) (s : State) (h : twf none s.hqe.slots = true) :
    slotAt (finish n status d0 d1 s) n = (slotAt s n).map (fun x => { x with
      st := .done
      status := status
      dw0 := d0
      dw1 := d1
      cnum := s.hqe.commits + 1 }) := by
  unfold finish
  exact slotAt_modSlot_same n _ { s with hqe := { s.hqe with commits := s.hqe.commits + 1 } } h

theorem slotAt_finish_other (n m status : Nat) (d0 d1 : Word) (s : State) (ne : m ≠ n) (h : twf none s.hqe.slots = true) :
    slotAt (finish n status d0 d1 s) m = slotAt s m := by
  unfold finish
  exact slotAt_modSlot_other n m _ { s with hqe := { s.hqe with commits := s.hqe.commits + 1 } } ne h

theorem finish_changes (n status : Nat) (d0 d1 : Word) (s : State) :
    finish n status d0 d1 s = { s with hqe := { s.hqe with
      slots := (finish n status d0 d1 s).hqe.slots
      commits := s.hqe.commits + 1 } } := by
  unfold finish
  rw [modSlot_changes]

/-! ### A job's end (R109, R130) -/

/-- With no job nothing ends. -/
theorem endJob_idle (k : Fin 4) (fin cls stop : Nat) (s : State) (h : (mcOf s k).job = none) : endJob k fin cls stop s = s := by
  unfold endJob; rw [h]

/-- A job's end changes its channel and the scheduler's list of ended jobs. -/
theorem endJob_changes (k : Fin 4) (fin cls stop : Nat) (s : State) :
    let t := endJob k fin cls stop s
    t = { s with
      mcs := t.mcs
      ple := { s.ple with sched := t.ple.sched } } := by
  unfold endJob
  simp only
  split <;> rfl

/-- A cut write changes one sector of the media. -/
theorem cutWrite_changes (k : Fin 4) (s : State) : cutWrite k s = { s with media := (cutWrite k s).media } := by
  unfold cutWrite
  split
  · rfl
  · split <;> rfl

theorem stopJob_idle (k : Fin 4) (code : Nat) (s : State) (h : (mcOf s k).job = none) : stopJob k code s = s := by
  unfold stopJob; rw [h]

/-- A stop changes the channel, the sector being written and the scheduler's list of ended jobs. -/
theorem stopJob_changes (k : Fin 4) (code : Nat) (s : State) :
    let t := stopJob k code s
    t = { s with
      mcs := t.mcs
      media := t.media
      ple := { s.ple with sched := t.ple.sched } } := by
  unfold stopJob
  simp only
  split
  · rfl
  · rw [endJob_changes, cutWrite_changes]
    rfl

/-! ### Rows of a channel that the part lacks, and resets (R3, R451) -/

theorem onMc_absent (k : Fin 4) (f : State → State) (s : State) (h : mcAbsent s k = true) : onMc k f s = s := if_pos h
theorem onMc_present (k : Fin 4) (f : State → State) (s : State) (h : mcAbsent s k = false) : onMc k f s = f s := by
  unfold onMc; rw [h]; rfl

/-- A unit reset runs while the device does and no dump; else it is discarded. -/
theorem unitReset_runs (f : State → State) (s : State) (h : s.sys.phase = .running) (hd : s.sys.dump = .none) :
    unitReset f s = f s := if_pos ⟨h, hd⟩
theorem unitReset_discarded (f : State → State) (s : State) (h : s.sys.phase ≠ .running ∨ s.sys.dump ≠ .none) :
    unitReset f s = s := if_neg (by rintro ⟨h1, h2⟩; rcases h with h | h <;> contradiction)

/-- During a dump a source of a device reset sets its cause and no more. -/
theorem resetTrigger_in_dump (f : Fld) (s : State) (h : s.sys.phase = .running) (hd : s.sys.dump ≠ .none) :
    resetTrigger f s = setCause f s := by
  unfold resetTrigger
  rw [if_neg (by rw [h]; decide)]
  exact if_pos (Or.inr hd)

end Sys2Proof.Machine
end

