-- ==== Sys2Proof/Tests/Slice0.lean ====
section
/-! SUPPORT. Small states, a witness for the hypotheses of every statement of the certificate, an ill-formed command for every check
of `Instr.wf`, and one-step tests whose results are worked out from the spec. -/

namespace Sys2Proof.Tests
open Sys2Proof Sys2Proof.Machine

/-! ### Small states -/

/-- Media Channel 0 runs a job in entry 0. -/
def busyState : State :=
  setMc 0 (jtSetState 0 2 { Mc.reset with job := some (freshJob State.reset 0 0) }) State.reset

/-- What a microword samples when nothing happens outside. -/
def plainIn : MsqIn where
  wedge := 0
  beat := 1156
  revs := 0
  leadNs := 0
  imgBad := false

/-- The running job stands in the customer region at a word that only sequences. -/
def wordState (seq cond : Nat) : State :=
  modMc 0 (fun m => { m with
    job := m.job.map (fun j => { j with pc := 0x3900 })
    store := tput storeUnset m.store 0x3900 (withParity (0x3A00 * 2 ^ 122 + seq * 2 ^ 119 + cond * 2 ^ 114)) }) busyState

/-- Slot 0 is being written, of tracks of one slot, at a word that only jumps, with nothing queued behind it. -/
def underrunState : State :=
  modMc 0 (fun m => { m with
    zone := [0, 0, 0, 0x10000]
    job := m.job.map (fun j => { j with writing := some 0, passed := 0 }) }) (wordState 0 0)

/-- The running job has an open search for a sync mark in slot 3, in a zone of pattern 0. -/
def searchState : State :=
  modMc 0 (fun m => { m with job := m.job.map (fun j => { j with window := some 3 }) }) busyState

/-- Head 2 of channel 0 has been on for a whole second and is held back. -/
def hotState : State :=
  let s := modMc 0 (fun m => { m with agHist := [(2, 0, 1000000)], dutyHold := [2] }) busyState
  { s with sys := { s.sys with us := 1000000 } }

/-- Whether channel 0 stands at a legal word of a sequencing code that only sequences. -/
def meetsWord (s : State) (seq : Nat) : Bool :=
  match (mcOf s 0).job with
  | none => false
  | some j => decide (j.mode = .words) && decide (j.pc < 2 ^ 14) && match fetchWord (mcOf s 0) j.pc with
    | none => false
    | some w => parityOk w && decide (w % 2 ^ 114 = 0) && decide (mwSeq w = seq)

/-- The running job holds in a WAIT word. -/
def waitState (timer : MsqTimer) : State :=
  modMc 0 (fun m => { m with job := m.job.map (fun j => { j with mode := .waiting, timer := timer, pc := 0x100, lastPc := 0x100 }) }) busyState

/-- The running job stands at a word of zeros, whose parity is wrong. -/
def badWordState : State := busyState

/-- Entry 0 of Media Channel 0 can be armed: the sequencer is enabled and owned, the job has one sector and DRAM is there. -/
def armableState : State :=
  let s := setMc 0 (jtPut 0 2 0x100 { Mc.reset with
    own := true
    csr := wrB Mc.reset.csr MSQ_CTL.EN true }) State.reset
  { s with bmc := { s.bmc with csr := wrF s.bmc.csr BMC_CFG.DENS 1 } }

/-- Function 0 has one queue pair of four entries, and slot 0 holds a fetched Flush. -/
def queueState : State :=
  let s := putCq 0 1 (some ⟨4, 0, 0, true, false, 0⟩) (putSq 0 1 (some ⟨4, 0, 0, 1, 0, none⟩) State.reset)
  { s with hqe := { s.hqe with slots := [(0, some (newSlot s 0 1 ⟨[0, 1], [], [], []⟩))] } }

/-- Slot 0 holds a Write that waits for its acceptance alone. -/
def acceptState : State :=
  let s := queueState
  { s with ple := { s.ple with csr := wrB s.ple.csr PLE_CTL.EN true }, hqe := { s.hqe with slots := [(0, some { newSlot s 0 1 ⟨[1, 1], [], [], []⟩ with
      st := .active
      inDram := true
      journaled := true
      reserved := true
      onMedia := true })] } }

/-- DRAM of 4 GiB is in service, unprotected. -/
def dramState : State :=
  { State.reset with bmc := { State.reset.bmc with csr := wrB (wrF State.reset.bmc.csr BMC_CFG.DENS 1) BMC_CTL.EN true } }

/-- Channel 33 is selected, the downstream engine is on and a descriptor of 4,096 bytes is staged. -/
def dmaState : State :=
  let c := State.reset.dma.csr
  { State.reset with dma := { State.reset.dma with
      csr := wr (wrF (wrB c DMA_CTL.DN_EN true) DMA_CH_IDX.CH 33) (DMA_DESC0 + 12) 4096 } }

/-- Entry 0 of the ring programs a page outside the option area. -/
def ringState : State :=
  let s := { dramState with pct := { dramState.pct with
    csr := wrF (wrB (wrB dramState.pct.csr PCT_CTL.EN true) PCT_CTL.RING_EN true) PCT_RING_TAIL.IDX 1 } }
  { s with mem := (memPutWord (ringAddr s 0 0) (BitVec.ofNat 32 (2 * 2 ^ 24 + 0x4000)) s).mem }

/-- Calibration item 5 is enabled and due. -/
def calState : State :=
  modItem 5 (fun x => { x with due := 1 }) (modCal (fun c => { c with csr := wrF c.csr CAL_CTL.EN 32 }) State.reset)

/-- The Tandem Link is up, with mirror records 3 sent, 2 acknowledged and 4 received. -/
def linkState : State :=
  modTdl (fun t => { t with
    csr := wrB (wrB t.csr TDL_CTL.EN true) TDL_STAT.LINK true
    mseqRx := 4
    mseqAck := 2
    mseqTx := 3 }) State.reset

/-- The Carillon port is on as node 7 in a domain of nodes 0 to 100. -/
def carillonState : State :=
  modClp (fun c => { c with
    csr := wrF (wrF (wrF (wrB c.csr CLP_CTL.EN true) CLP_NODE.NODE 7) CLP_DOM.LO 0) CLP_DOM.HI 100 }) State.reset

/-- A Carillon header from node 9 for a message that passes every check, with its tag and its checksum. -/
def goodHdr (s : State) (type : Nat) (body : List Nat) (counter : Nat) : ClpHdr :=
  let h : ClpHdr := {
    phyOk := true
    src := 0
    dst := clpGroup
    sport := 0
    dport := rdF s.clp.csr CLP_PORT.PORT
    cksum := 0
    ver := 1
    scope := 0
    hops := 0
    node := 9
    dialect := 1
    counter := counter
    length := body.length
    more := []
    tag := []
    us := 0 }
  let h := { h with tag := clpTag s h type body }
  { h with cksum := udpCheck h (clpMessage h type body ++ h.tag) }

/-! ### Witnesses for the statements -/

theorem test_EveryStepTakesOneCommand_meets :
    (match step { State.reset with pending := [.fabClrDec] } with | .next t => t.pending | _ => [.fabClrDec]) = [] := rfl

theorem test_MemoryKeepsItsCanonicalForm_meets : Memory.wf State.reset.mem = true := rfl

theorem test_RegisterFilesKeepTheirCanonicalForm_meets : regsWf State.reset = true := by decide

theorem test_FabricRowsStayInTheirFootprint_meets : (footprint (.fabClrDec)).1 = .fabric := rfl

theorem test_MediaRowsStayInTheirFootprint_meets : (footprint (.mcChClrHif 1)).1 = .media := rfl

theorem test_SequencerRowsStayInTheirFootprint_meets : (footprint (.msqClrEvt 1)).1 = .sequencer := rfl

theorem test_MotionRowsStayInTheirFootprint_meets : (footprint (.zrebuild)).1 = .motion := rfl

theorem test_MotorRowsStayInTheirFootprint_meets : (footprint (.scuClrCnt)).1 = .motor := rfl

theorem test_PlacementRowsStayInTheirFootprint_meets : (footprint (.heatDecay)).1 = .placement := rfl

theorem test_QueueRowsStayInTheirFootprint_meets : (footprint (.fetchTurn)).1 = .queues := rfl

theorem test_AdminCommandRowsStayInTheirFootprint_meets : (footprint (.identify 64512)).1 = .adminCmd := rfl

theorem test_IoCommandRowsStayInTheirFootprint_meets : (footprint (.read 3)).1 = .ioCmd := rfl

theorem test_BufferRowsStayInTheirFootprint_meets : (footprint (.mpcLock)).1 = .buffers := rfl

theorem test_PersistenceArrayRowsStayInTheirFootprint_meets : (footprint (.brownOutTrip)).1 = .arrays := rfl

theorem test_PowerRowsStayInTheirFootprint_meets : (footprint (.tmnSchedule)).1 = .power := rfl

theorem test_LinkRowsStayInTheirFootprint_meets : (footprint (.tdlSilence)).1 = .link := rfl

theorem test_CarillonRowsStayInTheirFootprint_meets : (footprint (.plcaBeacon)).1 = .carillon := rfl

theorem test_ResetRowsStayInTheirFootprint_meets : (footprint (.watchdogKick 0)).1 = .resets ∧
    (∀ v b, (Instr.watchdogKick 0) = .por v b → v ≤ 6500 ∨ State.reset.sys.phase ≠ .unpowered) :=
  ⟨rfl, fun _ _ h => by cases h⟩

theorem test_RecordRowsStayInTheirFootprint_meets : (footprint (.evrRecord)).1 = .records := rfl

theorem test_canonical_registers_at_reset : regsWf State.reset = true ∧ twf 0 State.reset.sys.csr = true := by decide

theorem test_decode_errors_meet : twf 0 State.reset.sys.csr = true ∧ (2 : Nat) ≠ 4 ∧ ((2 : Nat) % 4 ≠ 0) ∧ (0x30000 ≤ 0x3FFFF ∧ 0x3FFFF ≤ 0x3FFFF) ∧
    (0x150000 ≤ 0x150000) := by decide

theorem test_register_writes_meet : twf 0 State.reset.ple.csr = true ∧ (0 : Nat) % 4 = 0 ∧ (0 : Nat) ≠ PLE_CLR := by decide

theorem test_pace_window_meets : twf 0 State.reset.sys.csr = true ∧ (960 : Nat) < 65536 ∧
    rdF State.reset.sys.csr SYS_PACE_MIN.MIN < 65536 := by decide

theorem test_cbp_fault_meets : (State.reset.part = .dhk7440) ∧ regsWf State.reset = true ∧ mcAbsent State.reset 0 = false ∧ mcAbsent State.reset 3 = false := by decide

theorem test_channel_rows_meet : channelOf (.mcChClrHif 2) = some 2 ∧ mcAbsent { State.reset with part := .dhk7420 } 2 = true := by
  decide

theorem test_media_clears_meet : twf 0 (mcOf State.reset 1).csr = true ∧ twf 0 (mcOf State.reset 1).onTimeUs = true ∧
    twf 0 (mcOf State.reset 1).rises = true ∧ mcAbsent State.reset 1 = false := by decide

theorem test_sync_mark_meets : twf 0 (mcOf searchState 0).csr = true ∧ mcAbsent searchState 0 = false ∧
    searchOpen searchState 0 3 = true ∧ (48 : Int).natAbs ≤ max 8 (min 48 (rdF (mcOf searchState 0).csr MC_SYNC_CTL.WIN)) ∧
    hamming32 3 ((mcOf searchState 0).zone.getD 4 0).toNat ≤ min 4 (rdF (mcOf searchState 0).csr MC_SYNC_CTL.TOL) ∧
    max 8 (min 48 (rdF (mcOf searchState 0).csr MC_SYNC_CTL.WIN)) < (-49 : Int).natAbs ∧
    min 4 (rdF (mcOf searchState 0).csr MC_SYNC_CTL.TOL) < hamming32 7 ((mcOf searchState 0).zone.getD 4 0).toNat ∧
    searchOpen searchState 0 4 = false := by decide

theorem test_window_close_meets : twf 0 (mcOf searchState 0).csr = true ∧ mcAbsent searchState 0 = false ∧
    searchOpen searchState 0 3 = true ∧ searchOpen searchState 0 4 = false := by decide

theorem test_no_success_meets : tagGood busyState 0 7 = false ∧ (mcOf busyState 0).sbuf = none := by decide

theorem test_head_fault_meets : twf 0 (mcOf busyState 0).csr = true ∧ mcAbsent busyState 0 = false := by decide

theorem test_ownership_meets : mcAbsent busyState 0 = false ∧ (mcOf busyState 0).wg = false ∧ (mcOf busyState 0).busy = none ∧
    (mcOf busyState 0).ownRelease = false ∧ (mcOf (modMc 0 (fun m => { m with wg := true }) busyState) 0).wg = true ∧
    (mcOf (modMc 0 (fun m => { m with ownRelease := true }) busyState) 0).ownRelease = true := by decide

theorem test_duty_meets : twf 0 (mcOf hotState 0).csr = true ∧ mcAbsent hotState 0 = false ∧
    100 * onUsIn (mcOf hotState 0) hotState.sys.us 2 ≥ dutyLimit (mcOf hotState 0) * dutyWinUs (mcOf hotState 0) ∧
    75 * dutyLimit (mcOf hotState 0) * dutyWinUs (mcOf hotState 0) < 10000 * onUsIn (mcOf hotState 0) hotState.sys.us 2 ∧
    100 * onUsIn (mcOf hotState 0) hotState.sys.us 3 < dutyLimit (mcOf hotState 0) * dutyWinUs (mcOf hotState 0) ∧
    10000 * onUsIn (mcOf hotState 0) hotState.sys.us 3 ≤ 75 * dutyLimit (mcOf hotState 0) * dutyWinUs (mcOf hotState 0) ∧
    (mcOf hotState 0).dutyHold.contains 2 = true ∧ (mcOf hotState 0).ag = false := by decide

theorem test_sequencing_meets : twf 0 (mcOf (wordState 0 0) 0).csr = true ∧ mcAbsent (wordState 0 0) 0 = false ∧
    (mcOf (comesTo 0 plainIn (wordState 0 0)) 0).job.isSome = true ∧
    (mcOf (comesTo 0 plainIn underrunState) 0).job = none ∧ meetsWord underrunState 0 = true ∧ meetsWord (wordState 0 0) 0 = true ∧ meetsWord (wordState 1 0) 1 = true ∧
    meetsWord (wordState 2 3) 2 = true ∧ meetsWord (wordState 6 0) 6 = true := by decide

theorem test_call_stack_meets : meetsWord (wordState 3 0) 3 = true ∧ meetsWord (wordState 4 0) 4 = true ∧
    ((mcOf (comesTo 0 plainIn (wordState 3 0)) 0).job.map (fun j => decide (j.stack.length ≤ 4))) = some true := by decide

theorem test_wait_meets : meetsWord (wordState 5 0) 5 = true ∧
    ((mcOf (waitState .running) 0).job.map (fun j => (j.mode, j.timer, decide (j.pc < 0x3800 ∧ j.lastPc = j.pc)))) = some (.waiting, .running, true) ∧
    ((mcOf (waitState .off) 0).job.map (fun j => (j.mode, j.timer, decide (j.pc < 0x3FFF ∧ j.lastPc = j.pc)))) = some (.waiting, .off, true) := by
  decide

theorem test_halt_meets : meetsWord (wordState 7 0) 7 = true ∧ twf 0 (mcOf (wordState 7 0) 0).jt = true ∧
    ((mcOf (wordState 7 0) 0).job.map (fun j => decide (j.entry < 64))) = some true := by decide

theorem test_parity_stop_meets : regsWf (badWordState) = true ∧ twf storeUnset (mcOf badWordState 0).store = true ∧
    mcAbsent badWordState 0 = false ∧
    ((mcOf badWordState 0).job.map (fun j => (j.mode, decide (j.entry < 64 ∧ j.pc < 2 ^ 14),
      (fetchWord (mcOf badWordState 0) j.pc).map parityOk))) = some (.words, true, some false) ∧
    (rd badWordState.mck.csr MCK_COUNT).toNat < 0xFFFFFFF0 ∧ (rd (mcOf badWordState 0).csr MSQ_PAR_ERR).toNat < 0xFFFFFFFF := by
  decide

theorem test_arm_meets : twf 0 (mcOf State.reset 0).csr = true ∧ twf 0 (mcOf State.reset 0).jt = true ∧
    twf 0 (mcOf State.reset 0).holds = true ∧ armRejected State.reset 0 63 = true ∧ jtState (mcOf State.reset 0) 63 = 0 ∧
    armRejected armableState 0 0 = false ∧ jtState (mcOf busyState 0) 0 ≠ 0 := by decide

theorem test_cancel_meets : twf 0 (mcOf busyState 0).jt = true ∧ jtState (mcOf busyState 0) 0 = 2 ∧
    jtState (mcOf (modMc 0 (jtSetState 9 1) busyState) 0) 9 = 1 ∧ jtState (mcOf (modMc 0 (jtSetState 9 3) busyState) 0) 9 = 3 ∧
    jtState (mcOf busyState 0) 9 = 0 ∧ ((mcOf busyState 0).job.map (fun j => (j.entry, j.writing))) = some (0, none) := by decide

theorem test_event_queue_meets : (mcOf busyState 0).job.isSome = true ∧ (mcOf busyState 0).events = [] ∧
    (mcOf (modMc 0 (fun m => { m with events := List.replicate 16 (0x80000000, 0) }) busyState) 0).events.length = 16 := by decide

theorem test_go_meets : twf 0 State.reset.sce.csr = true ∧ actExists State.reset 0 = true ∧
    (let s := actCommand 0 1 2 3 4 State.reset
     wordBit (actOf s 0).cmd 31 = true ∧ (actOf s 0).srvPending = none ∧ wordBit (rd s.sce.csr SCE_COEF_SWAP) 0 = false ∧
     rdB s.sce.csr SCE_CTL.ZREBUILD = false ∧ rdB (zrebuild s).sce.csr SCE_CTL.ZREBUILD = true) := by decide

theorem test_servo_timeouts_meet : twf 0 State.reset.mck.csr = true ∧ twf 0 State.reset.scu.csr = true ∧
    (rd State.reset.mck.csr MCK_COUNT).toNat < 0xFFFFFFFF ∧
    (actOf (modAct 1 (fun a => { a with state := 2 }) State.reset) 1).state = 2 ∧
    (let s := modAct 1 (fun a => { a with state := 6, lostCnt := 64 }) State.reset
     (actOf s 1).state = 6 ∧ 64 ≤ (actOf s 1).lostCnt) ∧
    (let s := modAct 1 (fun a => { a with state := 7, bemf := -19 }) State.reset
     (actOf s 1).state = 7 ∧ (actOf s 1).bemf.natAbs < 20 ∧ (actOf s 1).pushUntil = none) ∧
    (let s := modAct 1 (fun a => { a with state := 7, pushUntil := some 1 }) State.reset
     (actOf s 1).pushUntil ≠ none) ∧ scuState (scuEnter 5 .off State.reset) = 5 := by decide
theorem test_unload_end_meets : outward 0 = false ∧ (outward 1 = true ∨ outward (-1) = true) := by
  unfold outward
  cases Config.outwardPositive <;> decide

theorem test_spindle_commands_meet : twf 0 State.reset.scu.csr = true ∧ scuState State.reset = 0 ∧ State.reset.sys.dump ≠ .cloudburst ∧
    scuState (scuEnter 10 .off State.reset) = 10 ∧ scuState (scuEnter 3 .pwm State.reset) = 3 ∧
    slowerThan (scuEnter 8 .off State.reset) 10 = true ∧ slowerThan (scuEnter 10 .off State.reset) 1 = true ∧
    (let s := scuReg (fun c => wrF c SCU_STAT.SPEED 4096) (scuEnter 10 .off State.reset)
     slowerThan s 10 = false ∧ slowerThan s 1 = false) ∧
    { State.reset with sys := { State.reset.sys with dump := .cloudburst } }.sys.dump = .cloudburst := by decide

theorem test_placement_upkeep_meets : twf 0 State.reset.ple.heat = true ∧ schSelected State.reset = some 0 ∧
    (journalFlush State.reset).ple.jout = none ∧ (snapshotStart State.reset).ple.snapping = none := by decide

theorem test_gdl_add_meets : pleServes acceptState = true ∧ gdlHas acceptState 0 0 0 0 = false ∧
    pleServes State.reset = false ∧ gdlHas State.reset 0 0 0 0 = false ∧ State.reset.ple.map.gdl.length < 1048576 ∧
    List.Pairwise (fun x y => defectKey x ≤ defectKey y) State.reset.ple.map.gdl ∧
    gdlHas (putDefect ⟨1, 0, 0, 0, 0, 1, 0⟩ State.reset) 0 0 0 0 = true := by decide

theorem test_doorbells_meet : fnExists queueState 0 = true ∧ fnExists queueState 300 = false ∧
    twf 0 queueState.hqe.csr = true ∧ twf none queueState.hqe.fns = true ∧ twf none (fnOf queueState 0).sqs = true ∧ twf none (fnOf queueState 0).cqs = true ∧ sqOf queueState 0 5 = none ∧
    cqOf queueState 0 5 = none ∧ (sqOf queueState 0 1).map (fun x => (x.size, x.deleting)) = some (4, none) ∧
    (cqOf queueState 0 1).map (fun c => (c.size, c.head, c.tail)) = some (4, 0, 0) ∧ unposted queueState 0 1 = 0 ∧
    ¬ ((0 + 4 - 0) % 4 - 0 < (0 + 4 - 0) % 4) ∧ ((0 + 4 - 0) % 4 - 0 < (3 + 4 - 0) % 4) := by decide

theorem test_completion_post_meets :
    (let s := finish 0 0 7 0 queueState
     twf none s.hqe.slots = true ∧ twf none s.hqe.fns = true ∧ (slotAt s 0).map (fun x => (x.st, x.fn, x.sqid)) = some (.done, 0, 1) ∧
     cqidOf s 0 1 = 1 ∧ (cqOf s 0 1).map (fun c => decide ((c.tail + 1) % c.size ≠ c.head)) = some true ∧
     waitsAhead s 0 1 1 = false ∧ (fnOf s 0).resetting = false ∧ (fnOf s 0).ends = [] ∧ s.bmc.down = false ∧ s.sys.dump = .none) ∧
    (let s := finish 0 0 7 0 (putCq 0 1 (some ⟨4, 0, 3, true, false, 0⟩) queueState)
     (cqOf s 0 1).map (fun c => decide ((c.tail + 1) % c.size ≠ c.head)) = some false) := by decide

theorem test_acceptance_meets : twf none acceptState.hqe.slots = true ∧
    (slotAt acceptState 0).map (fun x => (commits 0 x, acceptable acceptState x, blocked acceptState x, x.fn, x.sqid)) =
      some (true, true, false, 0, 1) ∧ (cqOf acceptState 0 1).isSome = true ∧
    doneAhead acceptState 0 (cqidOf acceptState 0 1) = false ∧ acceptState.sys.dump = .none ∧ (fnOf acceptState 0).ends = [] ∧
    pleServes acceptState = true ∧ acceptState.bmc.down = false ∧
    (slotAt queueState 0).map (fun x => (commits 0 x, acceptable queueState x)) = some (false, false) := by decide

theorem test_flush_meets : twf none queueState.hqe.slots = true ∧
    (slotAt queueState 0).map (fun x => (x.st, x.opc)) = some (.fetched, 0) := by decide

theorem test_buffer_meets : Memory.wf dramState.mem = true ∧ bmcServes dramState = true ∧ 7 < bufferPages dramState ∧
    parityPage dramState 7 = false ∧ (([(0, 1), (4095, 2)] : List (Nat × Byte)).map Prod.fst).Nodup ∧
    failedChannel dramState ≠ some (pageChannel dramState 7) := by decide

theorem test_dma_meets : twf none State.reset.dma.chans = true ∧ (stagedDesc State.reset).len = 0 ∧
    (chanAt State.reset 0).stopped = false ∧ (chanAt State.reset 0).active = none ∧ (stagedDesc dmaState).len = 4096 ∧
    rdF dmaState.dma.csr DMA_CH_IDX.CH = 33 ∧ (chanAt (dmaStop State.reset) 0).stopped = true ∧
    (let s := dmaLoad (dmaLoad dmaState)
     (chanAt s 33).active.isSome = true ∧ (chanAt s 33).shadow.isSome = true ∧
     (chanAt s 33).err = false ∧ (chanAt (putChan 33 { chanAt s 33 with remain := 0 } s) 33).reqs = [] ∧ engineOn s 33 = true) := by decide

theorem test_array_program_meets : ringReady ringState 0 = true ∧ ringOp ringState 0 = 2 ∧ ringMp ringState 0 = false ∧
    refuses ringState 2 (ringAddrOf ringState 0) = none := by decide
theorem test_array_pulse_meets : (let s := addRun ⟨3, 3, 3, 0x4000, 23, false, 0, ⟨0, true, true, true, true⟩, none⟩ State.reset
    (s.pct.runs.find? (fun x => decide (x.idx = 3))).map (fun r => (r.op, r.ended, decide (24 ≤ r.pulses + 1))) =
      some (3, false, true) ∧ dieSusp s (psaDie 0x4000) = false ∧ isBulk s (psaBlock 0x4000) = false) := by decide

theorem test_meters_meet : twf 0 State.reset.elg.meters = true ∧ twf 0 State.reset.elg.csr = true ∧
    twf none State.reset.cal.items = true ∧ calOn calState 5 = true ∧ powerState calState < 3 ∧ (calItem calState 5).due ≠ 0 := by decide

theorem test_mirror_meets : twf 0 linkState.tdl.csr = true ∧ linkUp linkState = true ∧ rdB linkState.tdl.csr TDL_CTL.EN = true ∧
    linkState.tdl.mseqRx = 4 ∧ linkState.tdl.mseqAck = 2 ∧ linkState.tdl.mseqTx = 3 ∧ linkUp State.reset = false := by decide

theorem test_carillon_meets : twf 0 carillonState.clp.csr = true ∧ clpOn carillonState = true ∧ clpOn State.reset = false ∧
    ownNode carillonState = 7 ∧ rdF carillonState.clp.csr CLP_DOM.LO = 0 ∧ rdF carillonState.clp.csr CLP_DOM.HI = 100 ∧
    replayEntry carillonState 9 = (0, 0) ∧
    (rdF carillonState.clp.csr CLP_RXQ.PROD + 1) % 256 ≠ rdF carillonState.clp.csr CLP_RXQ.CONS := by decide
theorem test_carillon_message_meets :
    let d : DialectMsg := ⟨1, 1, 1, 0, 0⟩
    let h := goodHdr carillonState 5 (dialectBody d) 5
    clpWireOk carillonState h 5 (dialectBody d) = true ∧ h.tag = clpTag carillonState h 5 (dialectBody d) := by decide +kernel

theorem test_reset_sources_meet :
    (let s := { State.reset with sys := { State.reset.sys with phase := .running } }
     twf 0 s.sys.csr = true ∧ s.sys.dump = .none ∧ bmcServes s = false ∧ s.pins.resetLow = false ∧
     rdB s.sys.csr SYS_WDOG_CTL.EN = true ∧ s.sys.wdogOut = false ∧ rdB s.sys.csr SYS_JTAG.OPEN = false ∧
     (let u := sysReg (fun c => wrB (wrB c SYS_WDOG_CTL.EN false) SYS_JTAG.OPEN true)
        { s with sys := { s.sys with dump := .reset }, bmc := { s.bmc with csr := wrB s.bmc.csr BMC_CTL.EN true } }
      twf 0 u.sys.csr = true ∧ u.sys.phase = .running ∧ bmcServes u = true ∧ rdB u.sys.csr SYS_WDOG_CTL.EN = false ∧
      rdB u.sys.csr SYS_JTAG.OPEN = true)) := by decide

theorem test_resets_meet :
    (let s := { State.reset with
       sys := { State.reset.sys with phase := .running, dump := .reset }
       pins := { State.reset.pins with resetLow := true } }
     twf 0 s.sys.csr = true ∧ s.sys.dump = .reset ∧ s.pins.resetLow = true ∧ s.pct.runs = [] ∧ mcAbsent s 0 = false ∧
     (let u := { s with sys := { s.sys with dump := .none } }
      mcAbsent u 0 = false ∧ u.sys.phase = .running ∧ u.sys.dump = .none)) := by decide

theorem test_records_meet :
    (let e := evrPost 2 7 9 [] { State.reset with evr := { State.reset.evr with csr := wrB State.reset.evr.csr EVR_CTL.EN true } }
     twf 0 e.evr.csr = true ∧ twf [] e.evr.ring = true ∧ rdB e.evr.csr EVR_CTL.EN = true ∧ e.evr.posts.map (fun p => p.cls) = [2] ∧
     evrNext e + 1 < 2 ^ 64 ∧ twf 0 State.reset.mck.csr = true ∧ State.reset.mck.fifo = [] ∧
     (machineCheck 1 2 3 4 5 State.reset).mck.fifo.length = 1 ∧
     ({ State.reset.mck with fifo := List.replicate 16 [0, 0, 0, 0] } : Mck).fifo.length = 16) := by decide

/-! ### Ill-formed commands, one for each check -/

theorem test_ill_formed_1 :
    (∀ a b, (Instr.csrWrite a (2 ^ 32) b).wellFormed = false) ∧
    ((Instr.paceWindowEnd 65536).wellFormed = false) ∧
    (∀ a b c, (Instr.syncMarkFound a b c (2 ^ 32)).wellFormed = false) ∧
    (∀ a, (Instr.assistDutyNear a 12).wellFormed = false) ∧
    (∀ a, (Instr.assistDutyLimit a 12).wellFormed = false) ∧
    (∀ a, (Instr.assistDutyRelease a 12).wellFormed = false) ∧
    (∀ a b, (Instr.storeScrub a 16384 b).wellFormed = false) ∧
    (∀ a, (Instr.jtArm a 64).wellFormed = false) ∧
    (∀ a, (Instr.jtCancel a 64).wellFormed = false) ∧
    (∀ a b, (Instr.jobBegin a 64 b).wellFormed = false) ∧
    (∀ a, (Instr.jtDoneClear a 64).wellFormed = false) ∧
    (∀ a, (Instr.microprogramLoad 65536 a).wellFormed = false) ∧
    ((Instr.microprogramLoad 0 ⟨[256]⟩).wellFormed = false) := by
  refine ⟨?_, ?_, ?_, ?_, ?_, ?_, ?_, ?_, ?_, ?_, ?_, ?_, ?_⟩ <;> intros <;> rfl

theorem test_ill_formed_2 :
    ((Instr.microprogramLoadQuiesced 65536).wellFormed = false) ∧
    ((Instr.microprogramLoadTimeout 65536).wellFormed = false) ∧
    (∀ a, (Instr.runSequenceWrite 65536 a).wellFormed = false) ∧
    ((Instr.runSequenceRead 65536).wellFormed = false) ∧
    (∀ a b c, (Instr.runSequenceComplete a 64 b c 0).wellFormed = false) ∧
    (∀ a b c, (Instr.runSequenceComplete a 0 b c 65536).wellFormed = false) ∧
    (∀ a, (Instr.actSeek a 16 0 0).wellFormed = false) ∧
    (∀ a, (Instr.actSeek a 0 32 0).wellFormed = false) ∧
    (∀ a, (Instr.actSeek a 0 0 (2 ^ 21)).wellFormed = false) ∧
    (∀ a, (Instr.actLoad a 16 0 0).wellFormed = false) ∧
    (∀ a, (Instr.actLoad a 0 32 0).wellFormed = false) ∧
    (∀ a, (Instr.actLoad a 0 0 (2 ^ 21)).wellFormed = false) ∧
    (∀ a, (Instr.actUnload a 16 0 0).wellFormed = false) := by
  refine ⟨?_, ?_, ?_, ?_, ?_, ?_, ?_, ?_, ?_, ?_, ?_, ?_, ?_⟩ <;> intros <;> rfl

theorem test_ill_formed_3 :
    (∀ a, (Instr.actUnload a 0 32 0).wellFormed = false) ∧
    (∀ a, (Instr.actUnload a 0 0 (2 ^ 21)).wellFormed = false) ∧
    (∀ a, (Instr.actHold a 16 0 0).wellFormed = false) ∧
    (∀ a, (Instr.actHold a 0 32 0).wellFormed = false) ∧
    (∀ a, (Instr.actHold a 0 0 (2 ^ 21)).wellFormed = false) ∧
    ((Instr.pslRegWrite 128 0).wellFormed = false) ∧
    ((Instr.pslRegWrite 0 65536).wellFormed = false) ∧
    ((Instr.pslRegRead 128).wellFormed = false) ∧
    ((Instr.mapWaitRelease 65536).wellFormed = false) ∧
    ((Instr.mapWaitExpiry 65536).wellFormed = false) ∧
    ((Instr.portReset 2).wellFormed = false) ∧
    ((Instr.linkDown 2).wellFormed = false) ∧
    (∀ a, (Instr.doorbellWrite 256 a 0 0).wellFormed = false) := by
  refine ⟨?_, ?_, ?_, ?_, ?_, ?_, ?_, ?_, ?_, ?_, ?_, ?_, ?_⟩ <;> intros <;> rfl

theorem test_ill_formed_4 :
    (∀ a, (Instr.doorbellWrite 0 a 65536 0).wellFormed = false) ∧
    (∀ a, (Instr.doorbellWrite 0 a 0 (2 ^ 32)).wellFormed = false) ∧
    (∀ a, (Instr.sqEntryArrive 256 0 a).wellFormed = false) ∧
    (∀ a, (Instr.sqEntryArrive 0 65536 a).wellFormed = false) ∧
    ((Instr.heldWriteAdmit 65536).wellFormed = false) ∧
    ((Instr.writeAccept 65536).wellFormed = false) ∧
    ((Instr.completionPost 65536).wellFormed = false) ∧
    ((Instr.coalesceTimerExpiry 256 0).wellFormed = false) ∧
    ((Instr.coalesceTimerExpiry 0 65536).wellFormed = false) ∧
    ((Instr.createIoSq 65536).wellFormed = false) ∧
    ((Instr.createIoCq 65536).wellFormed = false) ∧
    ((Instr.deleteIoSq 65536).wellFormed = false) ∧
    ((Instr.deleteIoSqComplete 65536).wellFormed = false) := by
  refine ⟨?_, ?_, ?_, ?_, ?_, ?_, ?_, ?_, ?_, ?_, ?_, ?_, ?_⟩ <;> intros <;> rfl

theorem test_ill_formed_5 :
    ((Instr.deleteIoCq 65536).wellFormed = false) ∧
    ((Instr.getLogPage 65536).wellFormed = false) ∧
    ((Instr.identify 65536).wellFormed = false) ∧
    ((Instr.abort 65536).wellFormed = false) ∧
    ((Instr.setFeatures 65536).wellFormed = false) ∧
    ((Instr.getFeatures 65536).wellFormed = false) ∧
    ((Instr.asyncEventRequest 65536).wellFormed = false) ∧
    (∀ a, (Instr.namespaceCreate 65536 a).wellFormed = false) ∧
    ((Instr.namespaceDelete 65536).wellFormed = false) ∧
    (∀ a, (Instr.namespaceAttachment 65536 a).wellFormed = false) ∧
    (∀ a, (Instr.firmwareImageDownload 65536 a).wellFormed = false) ∧
    (∀ a, (Instr.firmwareCommit 65536 a).wellFormed = false) ∧
    (∀ a, (Instr.firmwareActivate 65536 a).wellFormed = false) := by
  refine ⟨?_, ?_, ?_, ?_, ?_, ?_, ?_, ?_, ?_, ?_, ?_, ?_, ?_⟩ <;> intros <;> rfl

theorem test_ill_formed_6 :
    ((Instr.directiveSend 65536).wellFormed = false) ∧
    ((Instr.directiveReceive 65536).wellFormed = false) ∧
    ((Instr.formatNvm 65536).wellFormed = false) ∧
    ((Instr.sanitizeExitFailure 65536).wellFormed = false) ∧
    ((Instr.sanitizeOverwrite 65536).wellFormed = false) ∧
    ((Instr.sanitizeCryptoErase 65536).wellFormed = false) ∧
    ((Instr.recorderRead 65536).wellFormed = false) ∧
    ((Instr.csrReadCmd 65536).wellFormed = false) ∧
    ((Instr.csrWriteCmd 65536).wellFormed = false) ∧
    ((Instr.nonceRequest 65536).wellFormed = false) ∧
    (∀ a, (Instr.unlockToken 65536 a).wellFormed = false) ∧
    ((Instr.unlockEnd 65536).wellFormed = false) ∧
    ((Instr.flush 65536).wellFormed = false) := by
  refine ⟨?_, ?_, ?_, ?_, ?_, ?_, ?_, ?_, ?_, ?_, ?_, ?_, ?_⟩ <;> intros <;> rfl

theorem test_ill_formed_7 :
    (∀ a, (Instr.write 65536 a).wellFormed = false) ∧
    ((Instr.read 65536).wellFormed = false) ∧
    ((Instr.writeZeroes 65536).wellFormed = false) ∧
    (∀ a, (Instr.datasetManagement 65536 a).wellFormed = false) ∧
    ((Instr.verify 65536).wellFormed = false) ∧
    ((Instr.zoneOpen 65536).wellFormed = false) ∧
    ((Instr.zoneClose 65536).wellFormed = false) ∧
    ((Instr.zoneFinish 65536).wellFormed = false) ∧
    ((Instr.zoneReset 65536).wellFormed = false) ∧
    ((Instr.zoneResetComplete 65536).wellFormed = false) ∧
    ((Instr.zoneOffline 65536).wellFormed = false) ∧
    ((Instr.reportZones 65536).wellFormed = false) ∧
    (∀ a, (Instr.zoneAppend 65536 a).wellFormed = false) := by
  refine ⟨?_, ?_, ?_, ?_, ?_, ?_, ?_, ?_, ?_, ?_, ?_, ?_, ?_⟩ <;> intros <;> rfl

theorem test_ill_formed_8 :
    (∀ a, (Instr.controllerReset 256 a).wellFormed = false) ∧
    ((Instr.functionLevelReset 256).wellFormed = false) ∧
    ((Instr.controllerResetSlotsFree 256).wellFormed = false) ∧
    (∀ a b c d e, (Instr.controllerEnable 256 a b c d e).wellFormed = false) ∧
    (∀ p c, (Instr.bufferWrite p [(4096, 0)] c).wellFormed = false) ∧
    ((Instr.dqsOscCheck 16).wellFormed = false) ∧
    (∀ a, (Instr.dramRetrain 4 a).wellFormed = false) ∧
    ((Instr.dmaDescriptorDone 64).wellFormed = false) ∧
    (∀ a, (Instr.dmaReadRequest 64 a).wellFormed = false) ∧
    (∀ a b, (Instr.dmaReadCompletion 64 a b).wellFormed = false) ∧
    (∀ a, (Instr.orderingReadComplete 64 a).wellFormed = false) ∧
    ((Instr.tmnRequest 10).wellFormed = false) ∧
    ((Instr.calDue 14).wellFormed = false) := by
  refine ⟨?_, ?_, ?_, ?_, ?_, ?_, ?_, ?_, ?_, ?_, ?_, ?_, ?_⟩ <;> intros <;> rfl

theorem test_ill_formed_9 :
    (∀ a b c, (Instr.calRunEnd 14 a b c).wellFormed = false) ∧
    ((Instr.calStepApply 14).wellFormed = false) ∧
    (∀ a b, (Instr.tdlAck a (2 ^ 64) b).wellFormed = false) ∧
    (∀ a, (Instr.serveXfer a (2 ^ 64)).wellFormed = false) ∧
    (∀ a b, (Instr.tdlSlot a (2 ^ 64) b).wellFormed = false) ∧
    (∀ a b c d e, (Instr.tdlData a (2 ^ 64) b c d e).wellFormed = false) ∧
    (∀ a b c d e f, (Instr.tdlJournal a (2 ^ 64) b c d e f).wellFormed = false) ∧
    (∀ a b c, (Instr.commitDone a (2 ^ 64) b c).wellFormed = false) ∧
    (∀ a b, (Instr.tdlRelease a (2 ^ 64) b).wellFormed = false) ∧
    ((Instr.xchgArm 8 0 0).wellFormed = false) ∧
    ((Instr.xchgArm 0 256 0).wellFormed = false) ∧
    ((Instr.xchgArm 0 0 65536).wellFormed = false) ∧
    ((Instr.xchgExpiry 8).wellFormed = false) := by
  refine ⟨?_, ?_, ?_, ?_, ?_, ?_, ?_, ?_, ?_, ?_, ?_, ?_, ?_⟩ <;> intros <;> rfl

theorem test_ill_formed_10 :
    ((Instr.grantExpiry 65536 0).wellFormed = false) ∧
    ((Instr.grantExpiry 0 65536).wellFormed = false) ∧
    ((Instr.grantQueueLapse 65536 0).wellFormed = false) ∧
    ((Instr.grantQueueLapse 0 65536).wellFormed = false) ∧
    ((Instr.tocsinRepeat (2 ^ 32)).wellFormed = false) ∧
    ((Instr.watchdogKick 65536).wellFormed = false) ∧
    (∀ a b, (Instr.csracc a (2 ^ 32) b).wellFormed = false) ∧
    (∀ a, (Instr.evrFirmwarePost 8 0 a).wellFormed = false) ∧
    (∀ a, (Instr.evrFirmwarePost 0 65536 a).wellFormed = false) ∧
    ((Instr.vfEnableClear 2).wellFormed = false) ∧
    ((Instr.persistentLinkError 4).wellFormed = false) := by
  refine ⟨?_, ?_, ?_, ?_, ?_, ?_, ?_, ?_, ?_, ?_, ?_⟩ <;> intros <;> rfl

theorem test_ill_formed_span : ∀ n c d e, (Instr.bufferRead n 4095 2 c d e).wellFormed = false := by
  intros; rfl

/-! ### One step each, and the spec's worked examples -/

/-- What a step leaves of a command, or the machine at reset where it stops. -/
def after (c : Instr) (s : State) : State := match exec c s with
  | .next t => t
  | _ => State.reset

/-- The second example of RFC 4493, for the tag of R428. -/
theorem test_cmac :
    Cmac.tag [0x2b, 0x7e, 0x15, 0x16, 0x28, 0xae, 0xd2, 0xa6, 0xab, 0xf7, 0x15, 0x88, 0x09, 0xcf, 0x4f, 0x3c]
      [0x6b, 0xc1, 0xbe, 0xe2, 0x2e, 0x40, 0x9f, 0x96, 0xe9, 0x3d, 0x7e, 0x11, 0x73, 0x93, 0x17, 0x2a] =
      [0x07, 0x0a, 0x16, 0xb4, 0x6b, 0x4d, 0x41, 0x44, 0xf7, 0x9b, 0xdd, 0x9d, 0xd0, 0x4a, 0x28, 0x7c] := by decide +kernel

/-- R52's zone 1 example: 18 Stripes, ten of 63 + 4 and then eight of 62 + 4; Stripe 1 begins at slot 67. -/
theorem test_fixed_plan :
    (fixedPlan 4 (List.range 1198)).map (fun x => (x.1.length, x.2.length)) =
      List.replicate 10 (63, 4) ++ List.replicate 8 (62, 4) ∧
    ((fixedPlan 4 (List.range 1198)).getD 1 ([], [])).1.head? = some 67 := by decide +kernel

/-- R40's zone 1 example: where slots 0, 1 and 2 of track 1 begin. -/
theorem test_slot_starts : (List.range 3).map (slotStart 2278 112 (startWedge 50 0 0 9999 1)) = [(50, 112), (50, 1269), (51, 260)] := by decide

/-- R101's example: at 5.598 Gb/s the Head Interface divisor is 56. -/
theorem test_hif_divisor :
    hifDivisor (modMc 0 (fun m => { m with markSeen := true, syn := { m.syn with beats := 2278 } })
      { State.reset with sce := { State.reset.sce with csr := wrF State.reset.sce.csr SCE_SPN_SET.SPEED 28800 } }) 0 = 56 := by decide

/-- R303's example: with 8 GiB, page 1,193,046 lies on channel 2 and its check block on channel 3. -/
theorem test_page_channels :
    let s := { State.reset with bmc := { State.reset.bmc with csr := wrF State.reset.bmc.csr BMC_CFG.DENS 2 } }
    pageChannel s (0x123456000 / 4096) = 2 ∧ checkChannel s (0x123456000 / 4096) = 3 := by decide

set_option maxRecDepth 4000 in
/-- R235: a host reads VS 2.0, 65,536 entries and 2.0 s at every function; R234: reserved BAR0 space reads as zero. -/
theorem test_bar0 :
    bar0View State.reset 3 0 = some 0x0403FFFF ∧ bar0View State.reset 3 8 = some 0x00020000 ∧
    bar0View State.reset 3 0x3008 = some 0 := by decide

set_option maxRecDepth 4000 in
/-- The worked example of R457: A holds SEQ 41 at index 40; B's index 40 does not read, so its SEQ 40 at index 39 counts, and A is used. -/
theorem test_option_example :
    let v := fun (n : Nat) => (⟨n, []⟩ : OptVersion)
    let b : BootIn := ⟨true, true, false, false, 0, true, 0, 0, 1, [], true, true, true, [], 0, 0, [], [], [], [], 0, none⟩
    let s := { State.reset with nv := { State.reset.nv with
      optA := ⟨[(40, v 41), (39, v 40)], 41⟩
      optB := ⟨[(40, v 41), (39, v 40)], 41⟩ } }
    rd (bootOptions b s).1.sys.csr SYS_OPT_STAT = 0xC0282700 ∧ (bootOptions b s).1.nv.optB.top = 41 := by decide

set_option maxRecDepth 4000 in
/-- R25: a write outside the map is counted and changes no unit. -/
theorem test_decode_error :
    rdF (after (.csrWrite 4 0x30000 5) State.reset).sys.csr SYS_FAB_DECERR.COUNT = 1 ∧
    (after (.csrWrite 4 0x30000 5) State.reset).ple = State.reset.ple := by
  constructor <;> rfl

/-- R452: only the key 0xD00D restarts the watchdog. -/
theorem test_watchdog_key :
    rdF (after (.watchdogKick 0xD00D) State.reset).sys.csr SYS_WDOG_STAT.REMAIN = 1000 ∧
    after (.watchdogKick 0xD00E) State.reset = State.reset := by decide

/-- R498: the older syndrome leaves first. -/
theorem test_syndrome_order :
    ((after .mckSynPop (machineCheck 2 9 0 0 0 (machineCheck 1 7 0 0 0 State.reset))).mck.fifo.map (fun y => y.getD 0 0)) =
      [0x209] := by decide

/-- R239: a doorbell of submission queue 1 moves its tail; one of a queue that does not exist moves none. -/
theorem test_doorbell :
    (sqOf (after (.doorbellWrite 0 false 1 3) queueState) 0 1).map (fun x => x.tail) = some 3 ∧
    (sqOf (after (.doorbellWrite 0 false 2 3) queueState) 0 1).map (fun x => x.tail) = some 0 := by decide

/-- R290: a Flush is done with success. -/
theorem test_flush :
    (slotAt (after (.flush 0) queueState) 0).map (fun x => (x.st, x.status)) = some (.done, 0) := by decide

/-- R430: a counter that was accepted once is a replay the second time. -/
theorem test_carillon_replay :
    let d : DialectMsg := ⟨1, 1, 1, 0, 0⟩
    let h := goodHdr carillonState 5 (dialectBody d) 5
    let s := after (.clpDialect h d) carillonState
    let t := after (.clpDialect h d) s
    rd s.clp.csr CLP_RX = 1 ∧ rd t.clp.csr CLP_REPLAY = 1 ∧ rd t.clp.csr CLP_RX = 1 := by decide +kernel

set_option maxRecDepth 2000 in
/-- R120: the fifth CALL stops the job with STACK_OVER. -/
theorem test_stack_over :
    let s := modMc 0 (fun m => { m with job := m.job.map (fun j => { j with stack := [1, 2, 3, 4] }) }) (wordState 3 0)
    rdF (mcOf (after (.seqCall 0 plainIn) s) 0).csr MSQ_STOP.CODE = 3 ∧ running (after (.seqCall 0 plainIn) s) 0 = false := by decide

/-- R398: a loss of lane lock takes the link down and is counted. -/
theorem test_lane_lock :
    linkUp (after .lossOfLaneLock linkState) = false ∧ rd (after .lossOfLaneLock linkState).tdl.csr TDL_DOWN = 1 := by decide

/-- R470: VIN above its absolute maximum is outside what the spec describes. -/
theorem test_outside_ratings : ∀ b, exec (.por 6501 b) State.reset = .fault .outsideRatings := fun _ => rfl

/-- The default sync mark keeps its distance from the preamble (R43). -/
theorem test_sync_default : 13 ≤ syncDistance syncDefault := by decide

end Sys2Proof.Tests
end

section
namespace Sys2Proof.Machine

/-! ## The access codes, bit by bit (R7, R10) -/

/-- Where one bit goes that is W1S, W1C or writable when `v` is written to it. -/
theorem bit_by_access_code (old v writable w1c w1s : Bool) :
    ((old && !writable || v && writable) && !(v && w1c) || v && w1s) =
      (if w1s && v then true else if w1c && v then false else if writable then v else old) := by
  decide +revert

/-- Where each bit of a register goes when the register is written. -/
theorem wordBit_maskWrite (r : RegRow) (locked : Bool) (old v : Word) (i : Nat) (hi : i < 32) :
    wordBit (maskWrite r locked old v) i =
      (if wordBit r.w1s i && wordBit v i then true
       else if wordBit r.w1c i && wordBit v i then false
       else if wordBit r.rw i || wordBit r.rwl i && !locked then wordBit v i
       else wordBit old i) := by
  have writable : (if locked then r.rw else r.rw ||| r.rwl).getLsbD i = (r.rw.getLsbD i || r.rwl.getLsbD i && !locked) := by
    cases locked <;> simp
  refine .trans ?_ (bit_by_access_code (old.getLsbD i) (v.getLsbD i) (r.rw.getLsbD i || r.rwl.getLsbD i && !locked)
    (r.w1c.getLsbD i) (r.w1s.getLsbD i))
  rw [← writable, wordBit, ← BitVec.getLsbD]
  simp only [maskWrite, BitVec.getLsbD_or, BitVec.getLsbD_and, BitVec.getLsbD_not, hi, decide_true, Bool.true_and]

/-- A write that leaves no bit out follows the row of the register alone. -/
theorem putMasked_zero (rows : List RegRow) (lock : Fld) (off : Nat) (v : Word) (c : List (Nat × Word)) :
    putMasked rows lock off 0 v c = wr c off (maskWrite (rowOf rows off) (rdB c lock) (rd c off) v) := by
  have all (w : Word) : w &&& ~~~0 = w := BitVec.and_allOnes
  simp only [putMasked, maskWrite, all]

/-- An access to the PLE's window of CSR space reaches the PLE's register at that offset (R25). -/
theorem csrAccess_ple (off : Nat) (v : Word) (s : State) (h : off < 65536) (aligned : off % 4 = 0) :
    csrAccess 4 (0x20000 + off) v s = writePle off v s := by
  have offset : (0x20000 + off) % 65536 = off := by omega
  have window : (0x20000 + off) / 65536 = 2 := by omega
  have decodes : decodeError (0x20000 + off) = false := by
    rw [decodeError, window, Bool.or_eq_false_iff, Bool.or_eq_false_iff, decide_eq_false_iff_not, decide_eq_false_iff_not,
      decide_eq_false_iff_not]
    omega
  simp only [csrAccess, csrWrite, decodes, offset, window, if_pos, Bool.false_eq_true, if_false]

/-- Settles O24: the write enters one masked word into the register file, whose bits the access codes give. -/
theorem registerWritesFollowTheAccessCodes : Obligations.RegisterWritesFollowTheAccessCodes := by
  unfold Obligations.RegisterWritesFollowTheAccessCodes
  intro off v s canonical range aligned notClear
  refine ⟨putMasked rowsPle PLE_CTL.LOCK off 0 v s.ple.csr, ?_, ?_, ?_⟩
  · calc exec (.csrWrite 4 (0x20000 + off) v) s
        = .next (afterCsr (csrAccess 4 (0x20000 + off) v s)) := rfl
      _ = .next (afterCsr (writePle off v s)) := by rw [csrAccess_ple off v s range aligned]
      _ = _ := by rw [writePle, if_neg notClear]; rfl
  · intro i hi
    rw [putMasked_zero, rd_wr_same _ _ _ canonical, wordBit_maskWrite _ _ _ _ _ hi]
  · intro a ne
    rw [putMasked_zero, rd_wr_other _ _ _ _ ne canonical]

end Sys2Proof.Machine
end

section
-- the proofs are checked one after another: the threads that would check them at once do not fit the memory limit
set_option Elab.async false
namespace Sys2Proof.Machine

/-! ## What an operation may touch

`Within F s t` says how far `t` may be from `s`: only the parts listed in `F` differ, no command enters or leaves the
queue, the part number stays, and the tables in canonical form stay so. Every operation of the model gets one lemma of
this form, `<operation>_within`. Its proof follows the operation's own text, the outermost call first: `.after` for a call
on the result of another, `.ite` and `split` for the branches, and `<operation>_canon` or `<operation>_twf` for what it
does to a unit or to a register file. -/

/-- A register file of a unit is a canonical table. -/
abbrev Canon {U : Type} (regs : U → List (Nat × Word)) (u : U) : Prop := twf 0 (regs u) = true

/-- The register files of all units are canonical tables. -/
structure Registers (s : State) : Prop where
  sys : Canon Sys.csr s.sys
  evr : Canon Evr.csr s.evr
  mck : Canon Mck.csr s.mck
  mcs : ∀ k, Canon Mc.csr (mcOf s k)
  sce : Canon Sce.csr s.sce
  scu : Canon Scu.csr s.scu
  tdl : Canon Tdl.csr s.tdl
  ple : Canon Ple.csr s.ple
  hqe : Canon Hqe.csr s.hqe
  elg : Canon Elg.csr s.elg
  bmc : Canon Bmc.csr s.bmc
  mpc : Canon Mpc.csr s.mpc
  dma : Canon Dma.csr s.dma
  pct : Canon Pct.csr s.pct
  tmn : Canon Tmn.csr s.tmn
  cal : Canon Cal.csr s.cal
  clp : Canon Clp.csr s.clp

theorem regsWf_iff (s : State) : regsWf s = true ↔ Registers s := by
  have hq : (∀ k, Canon Mc.csr (mcOf s k)) ↔ Canon Mc.csr s.mcs.m0 ∧ Canon Mc.csr s.mcs.m1 ∧ Canon Mc.csr s.mcs.m2 ∧
      Canon Mc.csr s.mcs.m3 := by
    simp [Fin.forall_fin_succ, mcOf, quadGet]
  simp only [regsWf, Bool.and_eq_true, and_assoc]
  constructor
  · rintro ⟨h1, h2, h3, m0, m1, m2, m3, h4, h5, h6, h7, h8, h9, h10, h11, h12, h13, h14, h15, h16⟩
    exact ⟨h1, h2, h3, hq.mpr ⟨m0, m1, m2, m3⟩, h4, h5, h6, h7, h8, h9, h10, h11, h12, h13, h14, h15, h16⟩
  · rintro ⟨h1, h2, h3, hm, h4, h5, h6, h7, h8, h9, h10, h11, h12, h13, h14, h15, h16⟩
    obtain ⟨m0, m1, m2, m3⟩ := hq.mp hm
    exact ⟨h1, h2, h3, m0, m1, m2, m3, h4, h5, h6, h7, h8, h9, h10, h11, h12, h13, h14, h15, h16⟩

/-- The place of a part in a set of parts that is written as a number. -/
def Piece.bit : Piece → Nat
  | .sys => 0
  | .evr => 1
  | .mck => 2
  | .pins => 3
  | .mcs => 4
  | .media => 5
  | .mem => 6
  | .staging => 7
  | .sce => 8
  | .scu => 9
  | .tdl => 10
  | .ple => 11
  | .hqe => 12
  | .nv => 13
  | .elg => 14
  | .bmc => 15
  | .mpc => 16
  | .dma => 17
  | .pct => 18
  | .tmn => 19
  | .cal => 20
  | .clp => 21
  | .free => 22

theorem Piece.bit_inj {p q : Piece} (h : p.bit = q.bit) : p = q := by
  cases p <;> cases q <;> simp_all [Piece.bit]

/-- A list of parts as a set that is written as a number, in which comparing two lists takes one pass of each. -/
def partsMask : List Piece → Nat
  | [] => 0
  | p :: l => 2 ^ p.bit ||| partsMask l

theorem testBit_partsMask (l : List Piece) (p : Piece) : (partsMask l).testBit p.bit = true ↔ p ∈ l := by
  induction l with
  | nil => simp [partsMask]
  | cons q l ih =>
    simp only [partsMask, Nat.testBit_or, Nat.testBit_two_pow, Bool.or_eq_true, decide_eq_true_eq, ih, List.mem_cons]
    exact or_congr_left ⟨fun h => (Piece.bit_inj h).symm, fun h => h ▸ rfl⟩

/-- Every part of `G` is one of `F`. -/
def inside (G F : List Piece) : Bool := decide (partsMask G &&& partsMask F = partsMask G)

theorem mem_of_inside {G F : List Piece} (h : inside G F = true) {p : Piece} (hp : p ∈ G) : p ∈ F := by
  rw [← testBit_partsMask] at hp ⊢
  rw [← of_decide_eq_true h, Nat.testBit_and, Bool.and_eq_true] at hp
  exact hp.2

theorem inside_trans {G H F : List Piece} (h : inside G H = true) (g : inside H F = true) : inside G F = true := by
  rw [inside, decide_eq_true_eq] at *
  rw [← h, Nat.and_assoc, g, h]

/-- `t` differs from `s` in the parts of `F` alone, with the same queue and part number,
    and with the tables canonical that were. -/
structure Within (F : List Piece) (s t : State) : Prop where
  queue : t.pending = s.pending
  part : t.part = s.part
  regs : Registers s → Registers t
  memory : Memory.wf s.mem = true → Memory.wf t.mem = true
  frame : ∀ p, p ∉ F → same p s t

/-- The same for an operation that may not answer. -/
def WithinSome (F : List Piece) (s : State) (o : Option State) : Prop := ∀ t, o = some t → Within F s t

theorem same_refl (p : Piece) (s : State) : same p s s := by cases p <;> rfl

theorem same_trans {p : Piece} {s t u : State} (h : same p s t) (g : same p t u) : same p s u := by
  cases p <;> exact Eq.trans g h

namespace Within
variable {F G : List Piece} {s t u : State}

protected theorem refl : Within F s s := ⟨rfl, rfl, id, id, fun p _ => same_refl p s⟩

/-- A second operation, named first as in the model's text, after a first one. -/
theorem comp (g : Within F t u) (h : Within F s t) : Within F s u where
  queue := g.queue.trans h.queue
  part := g.part.trans h.part
  regs := g.regs ∘ h.regs
  memory := g.memory ∘ h.memory
  frame p hp := same_trans (h.frame p hp) (g.frame p hp)

theorem mono (h : Within G s t) (hG : inside G F = true := by decide) : Within F s t :=
  { h with frame := fun p hp => h.frame p fun hg => hp (mem_of_inside hG hg) }

theorem after (g : Within G t u) (h : Within F s t) (hG : inside G F = true := by decide) : Within F s u := (g.mono hG).comp h

theorem ite {c : Prop} [Decidable c] (h : Within F s t) (g : Within F s u) : Within F s (if c then t else u) := by
  split <;> assumption

theorem ite_fst {α : Type} {c : Prop} [Decidable c] {a b : State × α} (h : Within F s a.1) (g : Within F s b.1) :
    Within F s (if c then a else b).1 := by
  split <;> assumption

theorem ite_snd {α : Type} {c : Prop} [Decidable c] {a b : α × State} (h : Within F s a.2) (g : Within F s b.2) :
    Within F s (if c then a else b).2 := by
  split <;> assumption

/-- One of two operations on a state. -/
theorem ite_app {c : Prop} [Decidable c] {f g : State → State} (hf : Within F s (f t)) (hg : Within F s (g t)) :
    Within F s ((if c then f else g) t) := by
  split <;> assumption

theorem dite {c : Prop} [Decidable c] {f : c → State} {f' : ¬ c → State} (h : ∀ hc, Within F s (f hc)) (g :
    ∀ hc, Within F s (f' hc)) : Within F s (if hc : c then f hc else f' hc) := by
  split
  · exact h _
  · exact g _

/-- An operation that is done only if a condition holds, after a first one. -/
theorem whenTrue {c : Prop} [Decidable c] (g : Within F t u) (h : Within F s t) : Within F s (if c then u else t) :=
  .ite (.comp g h) h
theorem whenFalse {c : Prop} [Decidable c] (g : Within F t u) (h : Within F s t) : Within F s (if c then t else u) :=
  .ite h (.comp g h)

/-- What an operation answers, or else another state. -/
theorem getD {o : Option State} (h : WithinSome F s o) (g : Within F s u) : Within F s (o.getD u) := by
  cases o with
  | none => exact g
  | some t => exact h t rfl

/-- Operations for the elements of a list, one after another. -/
theorem foldl {α : Type} {f : State → α → State} {l : List α} (hf : ∀ s x, Within F s (f s x)) : Within F s (l.foldl f s) := by
  induction l generalizing s with
  | nil => exact .refl
  | cons x l ih => exact .comp ih (hf s x)

/-- The same where each operation answers more than the state. -/
theorem foldl_fst {α β : Type} {f : State × β → α → State × β} {l : List α} {r : State × β}
    (hf : ∀ r x, Within F r.1 (f r x).1) : Within F r.1 (l.foldl f r).1 := by
  induction l generalizing r with
  | nil => exact .refl
  | cons x l ih => exact .comp ih (hf r x)

/-! ### Replacing one part -/

theorem setSys {x : Sys} (h : Canon Sys.csr s.sys → Canon Sys.csr x) : Within [.sys] s { s with sys := x } :=
  ⟨rfl, rfl, fun r => { r with sys := h r.sys }, id, fun p hp => by cases p <;> simp_all [same]⟩
theorem setEvr {x : Evr} (h : Canon Evr.csr s.evr → Canon Evr.csr x) : Within [.evr] s { s with evr := x } :=
  ⟨rfl, rfl, fun r => { r with evr := h r.evr }, id, fun p hp => by cases p <;> simp_all [same]⟩
theorem setMck {x : Mck} (h : Canon Mck.csr s.mck → Canon Mck.csr x) : Within [.mck] s { s with mck := x } :=
  ⟨rfl, rfl, fun r => { r with mck := h r.mck }, id, fun p hp => by cases p <;> simp_all [same]⟩
theorem setSce {x : Sce} (h : Canon Sce.csr s.sce → Canon Sce.csr x) : Within [.sce] s { s with sce := x } :=
  ⟨rfl, rfl, fun r => { r with sce := h r.sce }, id, fun p hp => by cases p <;> simp_all [same]⟩
theorem setScu {x : Scu} (h : Canon Scu.csr s.scu → Canon Scu.csr x) : Within [.scu] s { s with scu := x } :=
  ⟨rfl, rfl, fun r => { r with scu := h r.scu }, id, fun p hp => by cases p <;> simp_all [same]⟩
theorem setTdl {x : Tdl} (h : Canon Tdl.csr s.tdl → Canon Tdl.csr x) : Within [.tdl] s { s with tdl := x } :=
  ⟨rfl, rfl, fun r => { r with tdl := h r.tdl }, id, fun p hp => by cases p <;> simp_all [same]⟩
theorem setPle {x : Ple} (h : Canon Ple.csr s.ple → Canon Ple.csr x) : Within [.ple] s { s with ple := x } :=
  ⟨rfl, rfl, fun r => { r with ple := h r.ple }, id, fun p hp => by cases p <;> simp_all [same]⟩
theorem setHqe {x : Hqe} (h : Canon Hqe.csr s.hqe → Canon Hqe.csr x) : Within [.hqe] s { s with hqe := x } :=
  ⟨rfl, rfl, fun r => { r with hqe := h r.hqe }, id, fun p hp => by cases p <;> simp_all [same]⟩
theorem setElg {x : Elg} (h : Canon Elg.csr s.elg → Canon Elg.csr x) : Within [.elg] s { s with elg := x } :=
  ⟨rfl, rfl, fun r => { r with elg := h r.elg }, id, fun p hp => by cases p <;> simp_all [same]⟩
theorem setBmc {x : Bmc} (h : Canon Bmc.csr s.bmc → Canon Bmc.csr x) : Within [.bmc] s { s with bmc := x } :=
  ⟨rfl, rfl, fun r => { r with bmc := h r.bmc }, id, fun p hp => by cases p <;> simp_all [same]⟩
theorem setMpc {x : Mpc} (h : Canon Mpc.csr s.mpc → Canon Mpc.csr x) : Within [.mpc] s { s with mpc := x } :=
  ⟨rfl, rfl, fun r => { r with mpc := h r.mpc }, id, fun p hp => by cases p <;> simp_all [same]⟩
theorem setDma {x : Dma} (h : Canon Dma.csr s.dma → Canon Dma.csr x) : Within [.dma] s { s with dma := x } :=
  ⟨rfl, rfl, fun r => { r with dma := h r.dma }, id, fun p hp => by cases p <;> simp_all [same]⟩
theorem setPct {x : Pct} (h : Canon Pct.csr s.pct → Canon Pct.csr x) : Within [.pct] s { s with pct := x } :=
  ⟨rfl, rfl, fun r => { r with pct := h r.pct }, id, fun p hp => by cases p <;> simp_all [same]⟩
theorem setTmn {x : Tmn} (h : Canon Tmn.csr s.tmn → Canon Tmn.csr x) : Within [.tmn] s { s with tmn := x } :=
  ⟨rfl, rfl, fun r => { r with tmn := h r.tmn }, id, fun p hp => by cases p <;> simp_all [same]⟩
theorem setCal {x : Cal} (h : Canon Cal.csr s.cal → Canon Cal.csr x) : Within [.cal] s { s with cal := x } :=
  ⟨rfl, rfl, fun r => { r with cal := h r.cal }, id, fun p hp => by cases p <;> simp_all [same]⟩
theorem setClp {x : Clp} (h : Canon Clp.csr s.clp → Canon Clp.csr x) : Within [.clp] s { s with clp := x } :=
  ⟨rfl, rfl, fun r => { r with clp := h r.clp }, id, fun p hp => by cases p <;> simp_all [same]⟩
theorem setPins {x : Pins} : Within [.pins] s { s with pins := x } :=
  ⟨rfl, rfl, fun r => { r with }, id, fun p hp => by cases p <;> simp_all [same]⟩
theorem setMedia {x : List (Nat × MediaSector)} : Within [.media] s { s with media := x } :=
  ⟨rfl, rfl, fun r => { r with }, id, fun p hp => by cases p <;> simp_all [same]⟩
theorem setStaging {x : List (Nat × Nat)} : Within [.staging] s { s with staging := x } :=
  ⟨rfl, rfl, fun r => { r with }, id, fun p hp => by cases p <;> simp_all [same]⟩
theorem setNv {x : Nv} : Within [.nv] s { s with nv := x } :=
  ⟨rfl, rfl, fun r => { r with }, id, fun p hp => by cases p <;> simp_all [same]⟩
theorem setFree {x : Nat} : Within [.free] s { s with free := x } :=
  ⟨rfl, rfl, fun r => { r with }, id, fun p hp => by cases p <;> simp_all [same]⟩

end Within

theorem Canon.ite {U : Type} {regs : U → List (Nat × Word)} {c : Prop} [Decidable c] {a b : U} (h : Canon regs a)
    (g : Canon regs b) : Canon regs (if c then a else b) := by
  split <;> assumption

theorem twf_ite {c : Prop} [Decidable c] {a b : List (Nat × Word)} (h : twf 0 a = true) (g : twf 0 b = true) :
    twf 0 (if c then a else b) = true := by
  split <;> assumption

theorem incF_twf {t : List (Nat × Word)} {f : Fld} {n : Nat} (h : twf 0 t = true) : twf 0 (incF t f n) = true :=
  wrF_twf _ _ _ h

theorem wrapF_twf {t : List (Nat × Word)} {f : Fld} {n : Nat} (h : twf 0 t = true) : twf 0 (wrapF t f n) = true :=
  wrF_twf _ _ _ h

theorem tdrop_twf {t : List (Nat × Word)} {lo hi : Nat} (h : twf 0 t = true) : twf 0 (tdrop t lo hi) = true :=
  filter_twf _ _ _ h

theorem initSys_twf : twf 0 initSys = true := by decide

theorem initTdl_twf : twf 0 initTdl = true := by decide

theorem initPct_twf : twf 0 initPct = true := by decide

theorem initClp_twf : twf 0 initClp = true := by decide

theorem Mc.reset_canon : Canon Mc.csr Mc.reset := show twf 0 initMc = true by decide

theorem Sce.reset_canon : Canon Sce.csr Sce.reset := show twf 0 initSce = true by decide

theorem Scu.reset_canon : Canon Scu.csr Scu.reset := show twf 0 initScu = true by decide

/-! ### The operations of Sys2Proof/Machine/Ops.lean -/

theorem setMc_within {k m s} (h : Canon Mc.csr (mcOf s k) → Canon Mc.csr m) : Within [.mcs] s (setMc k m s) := by
  refine ⟨rfl, rfl, fun r => { r with mcs := fun j => ?_ }, id, fun p hp => by cases p <;> simp_all [same]⟩
  by_cases hj : j = k
  · rw [hj, mcOf_setMc_same]
    exact h (r.mcs k)
  · rw [mcOf_setMc_other _ _ _ _ hj]
    exact r.mcs j

theorem modMc_within {k f s} (h : ∀ m, Canon Mc.csr m → Canon Mc.csr (f m)) : Within [.mcs] s (modMc k f s) :=
  setMc_within (h _)

theorem takeFree_within {s} : Within [.free] s (takeFree s).2 := .setFree

theorem evrPost_within {cls id detail syn s} : Within [.evr] s (evrPost cls id detail syn s) :=
  .ite (.mono (.setEvr fun h => incR_twf _ _ _ h)) <| .mono (.setEvr fun h => h)

theorem when_within {F b f s} (h : ∀ s, Within F s (f s)) : Within F s (when_ b f s) := .ite (h s) .refl

theorem postEvent_within {cls s} : Within [.evr, .free] s (postEvent cls s) := .after evrPost_within <| takeFree_within.mono

theorem mediaEvent_within {s} : Within [.evr, .free] s (mediaEvent s) := postEvent_within.mono

theorem motionEvent_within {s} : Within [.evr, .free] s (motionEvent s) := postEvent_within.mono

theorem energyEvent_within {s} : Within [.evr, .free] s (energyEvent s) := postEvent_within.mono

theorem pairEvent_within {s} : Within [.evr, .free] s (pairEvent s) := postEvent_within.mono

theorem coordEvent_within {s} : Within [.evr, .free] s (coordEvent s) := postEvent_within.mono

theorem firmwareEvent_within {s} : Within [.evr, .free] s (firmwareEvent s) := postEvent_within.mono

theorem machineCheck_within {unit code sev addr info s} :
    Within [.sys, .evr, .mck, .free] s (machineCheck unit code sev addr info s) :=
  .after evrPost_within <| .after takeFree_within <| ⟨rfl, rfl, fun r =>
    { r with mck :=
        have h := wrF_twf _ _ _ (incR_twf _ _ _ r.mck)
        have h := twf_ite (wrB_twf _ _ _ h) h
        have h := twf_ite (wrB_twf _ _ _ h) h
        twf_ite h (incR_twf _ _ _ (wrB_twf _ _ _ h)) },
    id, fun p hp => by cases p <;> simp_all [same]⟩

theorem jobEndHook_within {k entry cls s} : Within [.ple] s (jobEndHook k entry cls s) := .setPle fun h => h

theorem memPut_within {a b s} : Within [.mem] s (memPut a b s) :=
  ⟨rfl, rfl, fun r => { r with }, memPut_wf a b s, fun p hp => by cases p <;> simp_all [same, memPut]⟩

theorem putByte_within {n i b s} : Within [.mem] s (putByte n i b s) := by
  unfold putByte
  split
  · exact memPut_within.mono
  · exact .after memPut_within <| memPut_within.mono

theorem unstale_within {n s} : Within [.bmc] s (unstale n s) := .setBmc fun h => h

theorem markStale_within {n s} : Within [.bmc] s (markStale n s) := .ite .refl <| .mono (.setBmc fun h => h)

theorem dramPut_within {bytes s} : Within [.sys, .evr, .mck, .mem, .bmc, .free] s (dramPut bytes s) :=
  .foldl fun _ _ => .ite machineCheck_within.mono <| .ite (.after unstale_within <| .foldl fun _ _ => putByte_within.mono) <|
      .after markStale_within <| .foldl fun _ _ => putByte_within.mono

theorem bufPut_within {a bs s} : Within [.sys, .evr, .mck, .mem, .bmc, .free] s (bufPut a bs s) := dramPut_within.mono

theorem sysReg_within {f s} (h : ∀ c, twf 0 c = true → twf 0 (f c) = true) : Within [.sys] s (sysReg f s) := .setSys (h _)

theorem bootStage_within {n s} : Within [.sys, .pins] s (bootStage n s) :=
  .after .setPins <| .mono (sysReg_within fun _ h => wrF_twf _ _ _ h)

theorem modClp_within {f s} (h : ∀ u, Canon Clp.csr u → Canon Clp.csr (f u)) : Within [.clp] s (modClp f s) := .setClp (h _)

theorem clpReg_within {f s} (h : ∀ c, twf 0 c = true → twf 0 (f c) = true) : Within [.clp] s (clpReg f s) :=
  modClp_within fun _ => h _

theorem clpSend_within {alarm type scope body s} :
    Within [.sys, .evr, .mck, .mem, .bmc, .clp, .free] s (clpSend alarm type scope body s) :=
  .ite .refl <| .after (clpReg_within fun _ h => wrF_twf _ _ _ h) <| bufPut_within.mono

theorem tocsin_within {code s} : Within [.sys, .evr, .mck, .mem, .bmc, .clp, .free] s (tocsin code s) :=
  .ite .refl <| .after clpSend_within <| .after (modClp_within fun _ h => h) <| takeFree_within.mono

theorem mcEvent_within {k s} : Within [.mcs] s (mcEvent k s) := modMc_within fun _ h => h

theorem noteDefect_within {addr reason s} : Within [.ple] s (noteDefect addr reason s) := .setPle fun h => h

theorem gdlWriteFault_within {_k addr s} : Within [.ple] s (gdlWriteFault _k addr s) := noteDefect_within

theorem deepRecovery_within {addr s} : Within [.ple] s (deepRecovery addr s) :=
  .whenTrue noteDefect_within.mono <| .mono (.setPle fun h => h)

theorem setReliability_within {s} : Within [.hqe] s (setReliability s) := .setHqe fun h => h

/-! ### The operations of Sys2Proof/Machine/McOps.lean -/

theorem mcReg_within {k f s} (h : ∀ c, twf 0 c = true → twf 0 (f c) = true) : Within [.mcs] s (mcReg k f s) :=
  modMc_within fun _ => h _

theorem mcCount_within {k off n s} : Within [.mcs] s (mcCount k off n s) := mcReg_within fun _ h => incR_twf _ _ _ h

theorem modJob_within {k f s} : Within [.mcs] s (modJob k f s) := modMc_within fun _ h => h

theorem jtPut_canon {e dw w m} (hc : Canon Mc.csr m) : Canon Mc.csr (jtPut e dw w m) := hc

theorem jtWrite_canon {e dw w m} (hc : Canon Mc.csr m) : Canon Mc.csr (jtWrite e dw w m) := jtPut_canon hc

theorem jtSetState_canon {e st m} (hc : Canon Mc.csr m) : Canon Mc.csr (jtSetState e st m) := jtPut_canon hc

theorem postEvt_within {k code slot j s} : Within [.mcs] s (postEvt k code slot j s) :=
  .ite (.mono (modMc_within fun _ h => h)) <| .after modJob_within <| mcCount_within.mono

theorem traceWord_canon {entry sp pc m} (hc : Canon Mc.csr m) : Canon Mc.csr (traceWord entry sp pc m) := hc

theorem jtDone_canon {e b m} (hc : Canon Mc.csr m) : Canon Mc.csr (jtDone e b m) := wrF_twf _ _ _ hc

theorem endDwords_canon {e fin cls stop j m} (hc : Canon Mc.csr m) : Canon Mc.csr (endDwords e fin cls stop j m) :=
  jtPut_canon (jtPut_canon (jtPut_canon (jtPut_canon (jtPut_canon (jtPut_canon hc)))))

theorem endUnrun_canon {e fin cls m} (hc : Canon Mc.csr m) : Canon Mc.csr (endUnrun e fin cls m) :=
  jtDone_canon (jtSetState_canon (jtPut_canon (jtPut_canon (jtPut_canon (jtPut_canon (jtPut_canon (jtPut_canon hc)))))))

theorem applyDisable_canon {m} (hc : Canon Mc.csr m) : Canon Mc.csr (applyDisable m) := Canon.ite (wrB_twf _ _ _ hc) hc

theorem endJob_within {k fin cls stop s} : Within [.mcs, .ple] s (endJob k fin cls stop s) := by
  unfold endJob
  split
  · exact .refl
  · exact .after jobEndHook_within <| .mono (modMc_within fun _ h =>
        applyDisable_canon (jtDone_canon (jtSetState_canon (endDwords_canon (wrF_twf _ _ _ (wrF_twf _ _ _ h))))))

theorem cutWrite_within {k s} : Within [.media] s (cutWrite k s) := by
  unfold cutWrite
  split
  · exact .refl
  · split
    · exact .refl
    · exact .mono .setMedia

theorem stopJob_within {k code s} : Within [.mcs, .media, .ple] s (stopJob k code s) := by
  unfold stopJob
  split
  · exact .refl
  · exact .after endJob_within <| .after (mcReg_within fun _ h =>
        wrB_twf _ _ _ (wrF_twf _ _ _ (wrF_twf _ _ _ (wrF_twf _ _ _ h)))) <| cutWrite_within.mono

theorem gatesLow_canon {m} (hc : Canon Mc.csr m) : Canon Mc.csr (gatesLow m) := hc

theorem dropGates_within {k s} : Within [.mcs] s (dropGates k s) := modMc_within fun _ h => gatesLow_canon h

theorem wgFall_canon {m} (hc : Canon Mc.csr m) : Canon Mc.csr (wgFall m) := hc

theorem writeAbort_within {k fault code s} : Within [.mcs, .media, .ple] s (writeAbort k fault code s) :=
  .after dropGates_within <| .after stopJob_within <| .mono (mcReg_within fun _ h => incF_twf (wrB_twf _ _ _ h))

theorem ldpcLast_twf {retryPath conv iter corr c} (hc : twf 0 c = true) : twf 0 (ldpcLast retryPath conv iter corr c) = true :=
  wrF_twf _ _ _ (wrF_twf _ _ _ (wrB_twf _ _ _ (wrB_twf _ _ _ hc)))

theorem commitSector_within {k slot bp data s} : Within [.mcs, .staging] s (commitSector k slot bp data s) := by
  unfold commitSector
  split
  · exact .refl
  · split
    · exact .refl
    · exact .after modJob_within <| .mono .setStaging

theorem report_within {k x bp data s} : Within [.mcs, .staging] s (report k x bp data s) := by
  unfold report
  extract_lets +onlyGivenNames u
  have dropped : Within [.mcs, .staging] s u := .mono (modMc_within fun _ h => h)
  clear_value u
  split
  · exact dropped
  · extract_lets slot ok ordered vendorRead late v w y
    have noted : Within [.mcs, .staging] s w := .whenTrue modJob_within.mono <| .after modJob_within dropped
    have committed : Within [.mcs, .staging] s y := .whenTrue commitSector_within.mono noted
    clear_value y
    refine .ite ?_ committed
    split
    · exact .after postEvt_within committed
    · exact committed

theorem recovRecord_twf {kind ofs head slot track c} (hc : twf 0 c = true) :
    twf 0 (recovRecord kind ofs head slot track c) = true :=
  wrF_twf _ _ _ (wrF_twf _ _ _ (wrF_twf _ _ _ (wrF_twf _ _ _ (wrF_twf _ _ _ hc))))

theorem noteRecovery_within {k kind ofs slot s} : Within [.mcs] s (noteRecovery k kind ofs slot s) := by
  unfold noteRecovery
  split
  · exact .refl
  · exact .mono (mcReg_within fun _ h => recovRecord_twf h)

theorem tagFailure_within {k slot s} : Within [.mcs] s (tagFailure k slot s) := by
  unfold tagFailure
  split
  · exact .refl
  · exact .after noteRecovery_within <| .after (mcReg_within fun _ h => wr_twf _ _ _ (wr_twf _ _ _ h)) <| mcCount_within.mono

theorem enterRecovery_within {k slot use enabled failCode iter erased s} :
    Within [.mcs, .staging] s (enterRecovery k slot use enabled failCode iter erased s) :=
  .ite (.after report_within <| mcCount_within.mono) <| .ite (.mono (modMc_within fun _ h => h)) <| .after report_within <|
      .mono (modMc_within fun _ h => h)

theorem searchEnds_within {k ok s} : Within [.mcs] s (searchEnds k ok s) := modMc_within fun _ h => h

theorem afePut_canon {zae d m} (hc : Canon Mc.csr m) : Canon Mc.csr (afePut zae d m) :=
  wrF_twf _ _ _ (wrF_twf _ _ _ (wrF_twf _ _ _ (wrF_twf _ _ _ hc)))

theorem trackLoops_within {k s} : Within [.mcs, .free] s (trackLoops k s) := by
  unfold trackLoops
  exact .after (modMc_within fun _ h => wrF_twf _ _ _ (wrF_twf _ _ _ h)) <| takeFree_within.mono

theorem acquire_within {k s} : Within [.mcs, .free] s (acquire k s) :=
  .after trackLoops_within <| .mono (setMc_within fun h => afePut_canon h)

theorem adaptTaps_within {k s} : Within [.mcs, .free] s (adaptTaps k s) :=
  .ite (.after (modMc_within fun _ h => h) <| takeFree_within.mono) .refl

theorem startFrame_within {k s} : Within [.mcs] s (startFrame k s) := .ite .refl <| by
  split
  · exact .mono (setMc_within fun h => wrF_twf _ _ _ h)
  · exact .mono (setMc_within fun h => wrF_twf _ _ _ h)
  · exact .mono (setMc_within fun h => wrF_twf _ _ _ h)
  · exact .refl

theorem ascFrame_within {k addr code index s} : Within [.mcs] s (ascFrame k addr code index s) :=
  .after startFrame_within <| .mono (modMc_within fun _ h => h)

theorem preloadFrame_within {k n s} : Within [.mcs, .media, .ple] s (preloadFrame k n s) :=
  .ite (.after startFrame_within <| .mono (setMc_within fun h => h)) <| .after stopJob_within <|
      .mono (mcReg_within fun _ h => wrB_twf _ _ _ h)

theorem putAscAge_canon {h w m} (hc : Canon Mc.csr m) : Canon Mc.csr (putAscAge h w m) :=
  twf_ite (wrF_twf _ _ _ (wrB_twf _ _ _ hc)) hc

theorem agRise_canon {head m} (hc : Canon Mc.csr m) : Canon Mc.csr (agRise head m) := Canon.ite hc hc

/-! ### The operations of Sys2Proof/Machine/Control.lean -/

theorem coefPut_canon {loop addr w c} (hc : Canon Sce.csr c) : Canon Sce.csr (coefPut loop addr w c) := Canon.ite hc hc

theorem bankSwap_canon {loop c} (hc : Canon Sce.csr c) : Canon Sce.csr (bankSwap loop c) := hc

/-! ### The operations of Sys2Proof/Machine/Servo.lean -/

theorem modSce_within {f s} (h : ∀ u, Canon Sce.csr u → Canon Sce.csr (f u)) : Within [.sce] s (modSce f s) := .setSce (h _)

theorem modAct_within {k f s} : Within [.sce] s (modAct k f s) := modSce_within fun _ h => h

theorem sceReg_within {f s} (h : ∀ c, twf 0 c = true → twf 0 (f c) = true) : Within [.sce] s (sceReg f s) :=
  modSce_within fun _ => h _

theorem modSpn_within {f s} : Within [.sce] s (modSpn f s) := modSce_within fun _ h => h

theorem winhBit_twf {g k c} (hc : twf 0 c = true) : twf 0 (winhBit g k c) = true := wr_twf _ _ _ hc

theorem inhibitActs_within {k s} : Within [.mcs, .media, .ple] s (inhibitActs k s) := .ite writeAbort_within.mono .refl

theorem raiseTrack_within {k s} : Within [.mcs, .media, .sce, .ple] s (raiseTrack k s) :=
  .after inhibitActs_within <| .after (sceReg_within fun _ h => winhBit_twf h) <| modAct_within.mono

theorem raisePsl_within {k s} : Within [.mcs, .media, .sce, .ple] s (raisePsl k s) :=
  .after inhibitActs_within <| .mono (sceReg_within fun _ h => winhBit_twf h)

theorem forMcs_within {F f s} (h : ∀ k s, Within F s (f k s)) : Within F s (forMcs f s) :=
  .comp (h 3 _) <| .comp (h 2 _) <| .comp (h 1 _) (h 0 s)

theorem raiseSpindle_within {s} : Within [.mcs, .media, .sce, .scu, .ple] s (raiseSpindle s) :=
  .comp (forMcs_within fun _ _ => .after inhibitActs_within <| .mono (sceReg_within fun _ h => winhBit_twf h)) <|
      .mono (.setScu fun h => h)

theorem queueAct_within {k o s} : Within [.sce] s (queueAct k o s) := modSce_within fun _ h => h

theorem moveNext_within {k s} : Within [.sce] s (moveNext k s) := .ite (.after queueAct_within <| modAct_within.mono) .refl

theorem unload_within {k s} : Within [.sce] s (unload k s) := .ite (.after moveNext_within <| modAct_within.mono) .refl

theorem unloadOwned_within {s} : Within [.sce] s (unloadOwned s) := forMcs_within fun _ _ => .ite unload_within.mono .refl

theorem stopLoop_within {k s} : Within [.sce] s (stopLoop k s) := by
  unfold stopLoop
  exact .after modAct_within <| .after (modSce_within fun _ h => h) <| .mono (sceReg_within fun _ h => wr_twf _ _ _ h)

theorem parkNow_within {k s} : Within [.sce] s (parkNow k s) :=
  .ite (.after stopLoop_within <| modAct_within.mono) <| .after queueAct_within <| modAct_within.mono

theorem dropSync_within {s} : Within [.sce] s (dropSync s) := .ite .refl <| modSpn_within.mono

theorem goTaken_within {k s} : Within [.sce] s (goTaken k s) :=
  .ite modAct_within.mono <| .ite modAct_within.mono <| .ite unload_within.mono <| modAct_within.mono

theorem takeGo_within {k s} : Within [.sce] s (takeGo k s) :=
  .ite (.after modAct_within <| .ite .refl <| goTaken_within.mono) .refl

theorem takeOffset_within {k s} : Within [.sce] s (takeOffset k s) := by
  unfold takeOffset
  split
  · exact .refl
  · exact modAct_within.mono

theorem takeSwap_within {k s} : Within [.sce] s (takeSwap k s) :=
  .ite (.whenTrue modAct_within.mono <| .after (modSce_within fun _ h => bankSwap_canon h) <|
      .mono (sceReg_within fun _ h => wr_twf _ _ _ h)) .refl

theorem sceOffset_within {k ofs s} : Within [.sce] s (sceOffset k ofs s) := modAct_within

theorem sceReaderOfs_within {k ofs s} : Within [.sce] s (sceReaderOfs k ofs s) := modAct_within

theorem noteSeek_within {k s} : Within [.cal] s (noteSeek k s) := by
  unfold noteSeek
  split
  · exact .mono (.setCal fun h => h)
  · exact .refl

theorem judge_within {k e s} : Within [.mcs, .media, .sce, .ple, .cal] s (judge k e s) :=
  .whenTrue (.after modAct_within <| noteSeek_within.mono) <| .after modAct_within <|
      .whenTrue (.after raiseTrack_within <| modAct_within.mono) <| modAct_within.mono

theorem atestState_within {k s} : Within [.sce] s (atestState k s) := .ite modAct_within.mono <| .ite modAct_within.mono .refl

theorem enterLost_within {k s} : Within [.evr, .mcs, .media, .sce, .ple, .free] s (enterLost k s) :=
  .after motionEvent_within <| .after raiseTrack_within <| modAct_within.mono

theorem takeSample_within {k pos s} : Within [.sce] s (takeSample k pos s) := by
  unfold takeSample
  exact modAct_within.mono

theorem computeLoop_within {k y atest s} : Within [.mcs, .media, .sce, .ple, .cal] s (computeLoop k y atest s) :=
  .ite modAct_within.mono <| .ite (.after judge_within <| modAct_within.mono) <| .ite modAct_within.mono <|
      .ite modAct_within.mono <| modAct_within.mono

theorem afterSample_within {k s} : Within [.evr, .mcs, .media, .sce, .ple, .free] s (afterSample k s) :=
  .ite modAct_within.mono <| .ite (.whenTrue modAct_within.mono <| modAct_within.mono) <| .ite enterLost_within.mono .refl

theorem runActuator_within {k pos atest s} :
    Within [.evr, .mcs, .media, .sce, .ple, .cal, .free] s (runActuator k pos atest s) :=
  .ite .refl <| .ite takeGo_within.mono <| .after afterSample_within <| .after computeLoop_within <| .after modAct_within <|
      .after atestState_within <| .after takeSample_within <| .whenTrue unload_within.mono <| .after takeGo_within <|
      .after takeOffset_within <| .after takeSwap_within <| modAct_within.mono

theorem runSpindle_within {speed phase idx s} : Within [.sce] s (runSpindle speed phase idx s) :=
  .ite .refl <| .after (sceReg_within fun _ h => wrF_twf _ _ _ (wrF_twf _ _ _ h)) <| .after modSpn_within <|
      .ite (.whenTrue modSpn_within.mono <| .after (modSce_within fun _ h => bankSwap_canon h) <|
      .mono (sceReg_within fun _ h => wr_twf _ _ _ h)) .refl

theorem noteAtest_within {k code s} : Within [.sce] s (noteAtest k code s) :=
  .ite (.mono (sceReg_within fun _ h => wrF_twf _ _ _ h)) .refl

theorem noteRev_within {wedge s} : Within [.sce] s (noteRev wedge s) := .ite modSpn_within.mono .refl

theorem newWedge_within {k s} : Within [.sce] s (newWedge k s) := modAct_within

theorem servoSample_within {k i s} : Within [.evr, .mcs, .media, .sce, .ple, .cal, .free] s (servoSample k i s) :=
  .whenTrue (.after runSpindle_within <| .after noteRev_within <| modSpn_within.mono) <| .after runActuator_within <|
      .after (modSce_within fun _ h => h) <| .after noteAtest_within <| newWedge_within.mono

theorem sceSampleMissing_within {k atest s} :
    Within [.evr, .mcs, .media, .sce, .ple, .cal, .free] s (sceSampleMissing k atest s) :=
  .whenTrue (.after runSpindle_within <| noteRev_within.mono) <| .after runActuator_within <| .after noteAtest_within <|
      newWedge_within.mono

theorem spindleLoopTick_within {s} : Within [.sce] s (spindleLoopTick s) :=
  .ite .refl <| .after runSpindle_within <| forMcs_within fun _ _ => newWedge_within.mono

theorem recordSlack_within {slack s} : Within [.sce] s (recordSlack slack s) :=
  sceReg_within fun _ h => wrF_twf _ _ _ (wrF_twf _ _ _ h)

theorem loopResultReady_within {loop slack s} : Within [.sce] s (loopResultReady loop slack s) := .dite (fun _ => by
    dsimp only
    split
    · exact .refl
    · exact .after recordSlack_within <| .after queueAct_within <| modAct_within.mono
    · exact .after recordSlack_within <| modAct_within.mono) fun _ => by
  split
  · exact .refl
  · exact .after recordSlack_within <| modSpn_within.mono
  · exact .after recordSlack_within <| modSpn_within.mono

theorem loopDeadline_within {loop slack s} : Within [.sys, .evr, .mck, .sce, .free] s (loopDeadline loop slack s) :=
  .dite (fun _ => .ite (.after machineCheck_within <| .after (sceReg_within fun _ h => incR_twf _ _ _ (incR_twf _ _ _ h)) <|
      .after queueAct_within <| modAct_within.mono) .refl) fun _ =>
  .ite (.after machineCheck_within <| .after (sceReg_within fun _ h => incR_twf _ _ _ (incR_twf _ _ _ h)) <|
      modSpn_within.mono) .refl

theorem outputRelease_within {loop s} : Within [.sce, .scu] s (outputRelease loop s) :=
  .dite (fun _ => modAct_within.mono) fun _ =>
  .mono (.setScu fun h => h)

theorem pslPut_within {top o s} : Within [.sce] s (pslPut top o s) := modSce_within fun _ h => h

theorem pslSeqNext_within {s} : Within [.sce] s (pslSeqNext s) := modSce_within fun _ h => h

theorem pslSend_within {req delay s} : Within [.sce] s (pslSend req delay s) := by
  unfold pslSend
  dsimp only
  split
  · exact .after modAct_within <| .after pslSeqNext_within <| pslPut_within.mono
  · exact .after pslSeqNext_within <| pslPut_within.mono

theorem pslFrameSend_within {delay s} : Within [.sce] s (pslFrameSend delay s) := .ite .refl <| by
  split
  · exact .after pslSend_within <| .mono (modSce_within fun _ h => h)
  · exact .ite .refl <| .after pslSeqNext_within <| pslPut_within.mono

theorem channelResult_within {k ok s} : Within [.sys, .evr, .mck, .mcs, .media, .sce, .ple, .free] s (channelResult k ok s) :=
  .ite modAct_within.mono <| .ite modAct_within.mono <|
      .whenTrue (.after machineCheck_within <| .after raisePsl_within <| .mono (sceReg_within fun _ h => wrB_twf _ _ _ h)) <|
      modAct_within.mono

theorem regDone_within {data s} : Within [.sce] s (regDone data s) :=
  sceReg_within fun _ h => by split; exacts [wrB_twf _ _ _ h, wrB_twf _ _ _ (wrF_twf _ _ _ (wrB_twf _ _ _ h))]

theorem pslBit_twf {g ch b c} (hc : twf 0 c = true) : twf 0 (pslBit g ch b c) = true := wr_twf _ _ _ hc

theorem channelReport_within {isRead r s} : Within [.sce] s (channelReport isRead r s) :=
  .whenTrue parkNow_within.mono <| .after modAct_within <| .ite (.mono (sceReg_within fun _ h => wrB_twf _ _ _ h)) .refl

theorem frameLost_within {o s} : Within [.sys, .evr, .mck, .mcs, .media, .sce, .ple, .free] s (frameLost o s) := by
  unfold frameLost
  split
  · exact channelResult_within.mono
  · exact regDone_within.mono

theorem pslRetry_within {o fits delay s} :
    Within [.sys, .evr, .mck, .mcs, .media, .sce, .ple, .free] s (pslRetry o fits delay s) :=
  .ite .refl <| .ite (.after pslPut_within <| .mono (sceReg_within fun _ h => incR_twf _ _ _ h)) <| frameLost_within.mono

theorem actAnswer_within {k out r s} :
    Within [.sys, .evr, .mck, .mcs, .media, .sce, .tdl, .ple, .free] s (actAnswer k out r s) :=
  .whenTrue moveNext_within.mono <| .after channelResult_within <| .after channelReport_within <|
      .after (sceReg_within fun _ h => pslBit_twf h) <| .whenTrue modAct_within.mono <|
      .whenTrue (.mono (.setTdl fun h => h)) <| .ite stopLoop_within.mono .refl

theorem pslAnswer_within {o r s} : Within [.sys, .evr, .mck, .mcs, .media, .sce, .tdl, .ple, .free] s (pslAnswer o r s) := by
  unfold pslAnswer
  dsimp only
  split
  · exact .after actAnswer_within <| .after (sceReg_within fun _ h => pslBit_twf h) <|
        .ite (.mono (sceReg_within fun _ h => wrB_twf _ _ _ h)) .refl
  · exact .after regDone_within <| .after channelReport_within <| .after (sceReg_within fun _ h => pslBit_twf h) <|
        .ite (.mono (sceReg_within fun _ h => wrB_twf _ _ _ h)) .refl

theorem pslReply_within {r fits delay s} :
    Within [.sys, .evr, .mck, .mcs, .media, .sce, .tdl, .ple, .free] s (pslReply r fits delay s) := by
  unfold pslReply
  split
  · exact .refl
  · dsimp only
    split
    · exact .after pslRetry_within <| .mono (modSce_within fun _ h => h)
    · exact .ite (.after pslRetry_within <| .mono (modSce_within fun _ h => h)) <|
          .ite (.after pslRetry_within <| .after (sceReg_within fun _ h => wrB_twf _ _ _ h) <|
          .mono (modSce_within fun _ h => h)) <| .ite (.after pslRetry_within <| .mono (modSce_within fun _ h => h)) <|
          .after pslAnswer_within <| .mono (modSce_within fun _ h => h)

theorem pslReg_within {isRead addr data s} : Within [.sce] s (pslReg isRead addr data s) :=
  .ite .refl <| .after (modSce_within fun _ h => h) <|
      .mono (sceReg_within fun _ h => wrB_twf _ _ _ (wrF_twf _ _ _ (wrF_twf _ _ _ (wrB_twf _ _ _ (wrB_twf _ _ _ h)))))

theorem actCommand_within {k op head zone track s} : Within [.sce] s (actCommand k op head zone track s) :=
  .ite modAct_within.mono .refl

theorem zrebuild_within {s} : Within [.sce] s (zrebuild s) := sceReg_within fun _ h => wrB_twf _ _ _ h

theorem zrebuildEnd_within {s} : Within [.sce] s (zrebuildEnd s) :=
  .ite (.mono (modSce_within fun _ h => wrB_twf _ _ _ h)) .refl

theorem coefSwap_within {loop s} : Within [.sce] s (coefSwap loop s) := sceReg_within fun _ h => wr_twf _ _ _ h

theorem giveUp_within {k s} : Within [.sys, .evr, .mck, .sce, .free] s (giveUp k s) :=
  .after unload_within <| machineCheck_within.mono

theorem lostTimeout_within {k s} : Within [.sys, .evr, .mck, .sce, .free] s (lostTimeout k s) := .ite giveUp_within.mono .refl

theorem loadTimeout_within {k s} : Within [.sys, .evr, .mck, .sce, .free] s (loadTimeout k s) := .ite giveUp_within.mono .refl

theorem unloadBemfLow_within {k s} : Within [.sce] s (unloadBemfLow k s) := .ite parkNow_within.mono .refl

theorem unloadTimeout_within {k s} : Within [.sce] s (unloadTimeout k s) :=
  .ite (.after moveNext_within <| modAct_within.mono) .refl

theorem pushEnd_within {k s} : Within [.sce] s (pushEnd k s) := by
  unfold pushEnd
  split
  · exact .refl
  · exact .ite parkNow_within.mono .refl

theorem actEnWrite_within {k on s} : Within [.sce] s (actEnWrite k on s) := .ite .refl <| .ite (.whenFalse (.ite
         (.after modAct_within <| .mono (sceReg_within fun _ h => wr_twf _ _ _ h)) <| .after moveNext_within <|
             .after modAct_within <| .mono (sceReg_within fun _ h => wr_twf _ _ _ h)) <| modAct_within.mono) <| .ite .refl <|
             .ite stopLoop_within.mono <| .after unload_within <| modAct_within.mono

theorem spsyncBad_within {s} : Within [.sce] s (spsyncBad s) := .whenTrue modSpn_within.mono <| modSpn_within.mono

theorem spsyncEdge_within {speed late s} : Within [.sce] s (spsyncEdge speed late s) :=
  .ite (.mono (sceReg_within fun _ h => incR_twf _ _ _ h)) <| .ite .refl <|
      .ite (.whenTrue modSpn_within.mono <| modSpn_within.mono) <| spsyncBad_within.mono

theorem spsyncMissing_within {s} : Within [.sce] s (spsyncMissing s) := .ite spsyncBad_within.mono .refl

theorem sceClrPsl_within {s} : Within [.sce] s (sceClrPsl s) := sceReg_within fun _ h => wr_twf _ _ _ h

theorem sceClrAct_within {s} : Within [.sce] s (sceClrAct s) := .ite modAct_within.mono .refl

theorem sceClrFin_within {s} : Within [.sce] s (sceClrFin s) := sceReg_within fun _ h => wr_twf _ _ _ h

theorem sceClrLate_within {s} : Within [.sce] s (sceClrLate s) := sceReg_within fun _ h => wr_twf _ _ _ h

theorem sceClrOvr_within {s} : Within [.sce] s (sceClrOvr s) := sceReg_within fun _ h => wr_twf _ _ _ h

/-! ### The operations of Sys2Proof/Machine/Buffer.lean -/

theorem bmcReg_within {f s} (h : ∀ c, twf 0 c = true → twf 0 (f c) = true) : Within [.bmc] s (bmcReg f s) := .setBmc (h _)

theorem noteErr_within {n kind rowA rowB s} : Within [.bmc] s (noteErr n kind rowA rowB s) :=
  bmcReg_within fun _ h => wr_twf _ _ _ (wrF_twf _ _ _ (wrF_twf _ _ _ (wrF_twf _ _ _ (wrF_twf _ _ _ h))))

theorem bmcAnswer_within {out poison s} : Within [.bmc] s (bmcAnswer out poison s) := .setBmc fun h => h

theorem channelFail_within {ch s} : Within [.sys, .evr, .mck, .hqe, .nv, .elg, .bmc, .free] s (channelFail ch s) := by
  unfold channelFail
  have down {t : State} : Within [.bmc, .hqe] t { t with bmc := { t.bmc with down := true }, hqe := { t.hqe with
      csr := wrB t.hqe.csr HQE_CTL.EN false
      fns := t.hqe.fns.map (fun e => (e.1, e.2.map (fun f => { f with cfs := true }))) } } :=
    .after (.setHqe (s := { t with bmc := { t.bmc with down := true } }) fun h => wrB_twf _ _ _ h) <| .mono <|
        .setBmc fun h => h
  have degraded {t : State} : Within [.elg, .nv] t { t with
      elg := { t.elg with predumping := true }
      nv := { t.nv with predump := t.ple.dirty } } :=
    .after (.setNv (s := { t with elg := { t.elg with predumping := true } })) <| .mono <| .setElg fun h => h
  exact .ite .refl <| .ite (.after machineCheck_within down.mono) <| .after machineCheck_within <|
      .after energyEvent_within <| .after degraded <| .mono <| bmcReg_within fun _ h => wrF_twf _ _ _ <| wrB_twf _ _ _ h

theorem countBad_within {n s} : Within [.sys, .evr, .mck, .hqe, .nv, .elg, .bmc, .free] s (countBad n s) :=
  .whenTrue channelFail_within.mono <| .mono (.setBmc fun h => h)

theorem pageRebuild_within {n off len s} : Within [.sys, .evr, .mck, .bmc, .free] s (pageRebuild n off len s) :=
  .ite (.after bmcAnswer_within <| .whenFalse unstale_within.mono <| .after noteErr_within <|
      .mono (bmcReg_within fun _ h => incR_twf _ _ _ h)) <| .after bmcAnswer_within <| machineCheck_within.mono

theorem uncorrectable_within {n off len kind rowA rowB use s} :
    Within [.sys, .evr, .mck, .hqe, .nv, .elg, .bmc, .free] s (uncorrectable n off len kind rowA rowB use s) :=
  .ite (.after pageRebuild_within <| .after countBad_within <| .after noteErr_within <|
      .mono (bmcReg_within fun _ h => incR_twf _ _ _ h)) <| by
  split
  · exact .after bmcAnswer_within <| .after countBad_within <| .after noteErr_within <|
        .mono (bmcReg_within fun _ h => incR_twf _ _ _ h)
  · exact .after bmcAnswer_within <| .after unstale_within <| .after machineCheck_within <| .after countBad_within <|
        .after noteErr_within <| .mono (bmcReg_within fun _ h => incR_twf _ _ _ h)
  · exact .after bmcAnswer_within <| .after machineCheck_within <| .after countBad_within <| .after noteErr_within <|
        .mono (bmcReg_within fun _ h => incR_twf _ _ _ h)

theorem writeBack_within {n e fix s} : Within [.mem, .bmc] s (writeBack n e fix s) :=
  .after unstale_within <| .foldl fun _ _ => putByte_within.mono

theorem stagingRead_within {n e write whole s} : Within [.sys, .evr, .mck, .bmc, .free] s (stagingRead n e write whole s) := by
  unfold stagingRead
  split
  · exact bmcAnswer_within.mono
  · exact bmcAnswer_within.mono
  · exact .after bmcAnswer_within <| machineCheck_within.mono

theorem tableParity_within {unit off n e s} : Within [.sys, .evr, .mck, .free] s (tableParity unit off n e s) :=
  .ite .refl <| .ite machineCheck_within.mono <| machineCheck_within.mono

theorem contextParity_within {n e s} : Within [.hqe] s (contextParity n e s) := .ite (.mono (.setHqe fun h => h)) .refl

theorem bufferRead_within {n off len use requester e s} :
    Within [.sys, .evr, .mck, .mem, .hqe, .nv, .elg, .bmc, .free] s (bufferRead n off len use requester e s) := by
  unfold bufferRead
  split
  · exact stagingRead_within.mono
  · exact stagingRead_within.mono
  · exact contextParity_within.mono
  · exact tableParity_within.mono
  · exact machineCheck_within.mono
  · exact .ite .refl <| .ite (.after bmcAnswer_within <| machineCheck_within.mono) <|
        .ite (.ite pageRebuild_within.mono <| uncorrectable_within.mono) <| .ite bmcAnswer_within.mono <| by
      split
      · exact bmcAnswer_within.mono
      · exact .after bmcAnswer_within <| .after writeBack_within <| .after noteErr_within <|
            .mono (bmcReg_within fun _ h => incR_twf _ _ _ h)
      · exact uncorrectable_within.mono

theorem bufferWrite_within {n bytes requester s} :
    Within [.sys, .evr, .mck, .mem, .bmc, .free] s (bufferWrite n bytes requester s) :=
  .ite .refl <| .ite (.after bmcAnswer_within <| machineCheck_within.mono) <|
      .ite (.after unstale_within <| .foldl fun _ _ => putByte_within.mono) <| .after markStale_within <| .foldl fun _ _ =>
      putByte_within.mono

theorem drizzleRecompute_within {now raced e s} :
    Within [.sys, .evr, .mck, .mem, .hqe, .nv, .elg, .bmc, .free] s (drizzleRecompute now raced e s) := by
  unfold drizzleRecompute
  dsimp only
  split
  · exact .refl
  · exact .ite .refl <| .ite (.mono (.setBmc fun h => h)) <| by
      split
      · exact uncorrectable_within.mono
      · exact writeBack_within.mono

theorem drizzleScrub_within {use raced e s} :
    Within [.sys, .evr, .mck, .mem, .hqe, .nv, .elg, .bmc, .free] s (drizzleScrub use raced e s) := by
  unfold drizzleScrub
  exact .ite .refl <| .ite (.mono (bmcReg_within fun _ h => wr_twf _ _ _ h)) <| by
    split
    · exact .mono (bmcReg_within fun _ h => wr_twf _ _ _ h)
    · exact .ite .refl <| .after (bmcReg_within fun _ h => wr_twf _ _ _ h) <| .after writeBack_within <|
          .after noteErr_within <| .mono (bmcReg_within fun _ h => incR_twf _ _ _ h)
    · exact .ite .refl <| .after (bmcReg_within fun _ h => wr_twf _ _ _ h) <| uncorrectable_within.mono

theorem dqsOscCheck_within {drifted s} : Within [.bmc] s (dqsOscCheck drifted s) := .setBmc fun h => h

theorem dramRetrain_within {ch ok s} : Within [.sys, .evr, .mck, .hqe, .nv, .elg, .bmc, .free] s (dramRetrain ch ok s) :=
  .ite (.whenFalse channelFail_within.mono <| .mono (.setBmc fun h => h)) .refl

theorem persistentLinkError_within {ch s} :
    Within [.sys, .evr, .mck, .hqe, .nv, .elg, .bmc, .free] s (persistentLinkError ch s) :=
  .ite channelFail_within.mono .refl

theorem bmcClrErr_within {s} : Within [.bmc] s (bmcClrErr s) := bmcReg_within fun _ h => wr_twf _ _ _ (wr_twf _ _ _ h)

theorem bmcClrCnt_within {s} : Within [.bmc] s (bmcClrCnt s) :=
  bmcReg_within fun _ h => wr_twf _ _ _ (wr_twf _ _ _ (wr_twf _ _ _ h))

/-! ### The operations of Sys2Proof/Machine/Dma.lean -/

theorem dmaReg_within {f s} (h : ∀ c, twf 0 c = true → twf 0 (f c) = true) : Within [.dma] s (dmaReg f s) := .setDma (h _)

theorem putChan_within {c x s} : Within [.dma] s (putChan c x s) := .setDma fun h => h

theorem setInUse_within {port n s} : Within [.dma] s (setInUse port n s) := .setDma fun h => Canon.ite h h

theorem setDone_within {c s} : Within [.dma] s (setDone c s) := by
  unfold setDone
  exact .mono (dmaReg_within fun _ h => wr_twf _ _ _ h)

theorem loadDesc_within {c d s} : Within [.dma] s (loadDesc c d s) := putChan_within

theorem dmaLoad_within {s} : Within [.dma] s (dmaLoad s) := .ite putChan_within.mono <| loadDesc_within.mono

theorem stopChan_within {c s} : Within [.dma] s (stopChan c s) :=
  .ite .refl <| .ite putChan_within.mono <| .after setDone_within <| putChan_within.mono

theorem dmaStop_within {s} : Within [.dma] s (dmaStop s) := stopChan_within

theorem dmaClear_within {s} : Within [.dma] s (dmaClear s) := .ite putChan_within.mono .refl

theorem promote_within {c s} : Within [.dma] s (promote c s) := .ite (.after setDone_within <| putChan_within.mono) <| by
  split
  · exact putChan_within.mono
  · exact putChan_within.mono

theorem dmaDescriptorDone_within {c s} : Within [.dma] s (dmaDescriptorDone c s) := by
  unfold dmaDescriptorDone
  dsimp only
  split
  · exact .refl
  · exact .ite .refl <| .ite (.after (dmaReg_within fun _ h => incR_twf _ _ _ h) <| putChan_within.mono) <|
        .after promote_within <| .ite setDone_within.mono .refl

theorem giveBack_within {fn rs s} : Within [.dma] s (giveBack fn rs s) := setInUse_within

theorem endErr_within {c s} : Within [.dma] s (endErr c s) :=
  .after setDone_within <| .after (dmaReg_within fun _ h => incR_twf _ _ _ h) <| putChan_within.mono

theorem dmaFail_within {c code s} : Within [.dma] s (dmaFail c code s) := by
  unfold dmaFail
  dsimp only
  split
  · exact .refl
  · exact .whenTrue endErr_within.mono <| .after putChan_within <| giveBack_within.mono

theorem cutChan_within {c s} : Within [.dma] s (cutChan c s) := by
  unfold cutChan
  dsimp only
  split
  · exact .refl
  · exact .after setDone_within <| .after putChan_within <| .ite giveBack_within.mono .refl

theorem cutTransfers_within {p s} : Within [.dma] s (cutTransfers p s) := .foldl fun _ _ => cutChan_within.mono

theorem dmaReadRequest_within {c mrrs s} : Within [.dma] s (dmaReadRequest c mrrs s) := by
  unfold dmaReadRequest
  dsimp only
  split
  · exact .refl
  · exact .ite .refl <| .after setInUse_within <| putChan_within.mono

theorem stagingPut_within {a l s} : Within [.staging] s (stagingPut a l s) := by
  induction l generalizing a s with
  | nil => exact .refl
  | cons b l ih => exact .comp ih .setStaging

theorem dmaReadCompletion_within {c at0 bytes s} : Within [.staging, .dma] s (dmaReadCompletion c at0 bytes s) := by
  unfold dmaReadCompletion
  dsimp only
  split
  · exact .refl
  · split
    · exact .refl
    · exact .ite (.whenTrue endErr_within.mono <| .after setInUse_within <| .after putChan_within <|
          stagingPut_within.mono) <| .after putChan_within <| stagingPut_within.mono

theorem stopEngine_within {down s} : Within [.dma] s (stopEngine down s) := .foldl fun _ _ => stopChan_within.mono

theorem dmaClrCnt_within {s} : Within [.dma] s (dmaClrCnt s) := dmaReg_within fun _ h => wr_twf _ _ _ (wr_twf _ _ _ h)

/-! ### The operations of Sys2Proof/Machine/Channel.lean -/

theorem toDecoder_canon {slot m} (hc : Canon Mc.csr m) : Canon Mc.csr (toDecoder slot m) := hc

theorem syncMarkFound_within {k slot pos bits s} : Within [.mcs, .free] s (syncMarkFound k slot pos bits s) :=
  .ite (.whenTrue (.mono (modMc_within fun _ h => toDecoder_canon h)) <| .after acquire_within <| .after modJob_within <|
      mcCount_within.mono) .refl

theorem syncWindowClose_within {k slot lateMark runs s} :
    Within [.mcs, .staging, .free] s (syncWindowClose k slot lateMark runs s) :=
  .ite (.whenTrue enterRecovery_within.mono <| .after acquire_within <| .after modJob_within <|
      .whenTrue (.after noteRecovery_within <| mcCount_within.mono) <| mcCount_within.mono) .refl

theorem searchEnd_within {k timed att s} : Within [.mcs, .staging, .ple, .free] s (searchEnd k timed att s) := by
  unfold searchEnd
  split
  · exact .refl
  · exact .ite (by
         dsimp only
         split
         · exact .after searchEnds_within <| .after report_within <| .after (mcReg_within fun _ h => ldpcLast_twf h) <|
               .after noteRecovery_within <| .after deepRecovery_within <| .after mcCount_within <| takeFree_within.mono
         · exact .after searchEnds_within <| .after report_within <| .after (mcReg_within fun _ h => ldpcLast_twf h) <|
               .after noteRecovery_within <| .after mcCount_within <| takeFree_within.mono) .refl

theorem decodeComplete_within {k d s} : Within [.mcs, .staging, .free] s (decodeComplete k d s) := .ite (.ite
       (.ite
          (.after report_within <| .after (mcReg_within fun _ h => ldpcLast_twf h) <| .after mcCount_within <|
              .whenFalse adaptTaps_within.mono <| takeFree_within.mono) <| .after report_within <|
              .after tagFailure_within <| .after (mcReg_within fun _ h => ldpcLast_twf h) <| .after mcCount_within <|
              .whenFalse adaptTaps_within.mono <| takeFree_within.mono) <| .after enterRecovery_within <|
              .after (modMc_within fun _ h => h) <| .after (mcReg_within fun _ h => ldpcLast_twf h) <|
              .after mcCount_within <| .whenFalse adaptTaps_within.mono <| takeFree_within.mono) .refl

theorem rdecodeReport_within {k q s} : Within [.mcs, .staging, .free] s (rdecodeReport k q s) := by
  unfold rdecodeReport
  split
  · exact .refl
  · exact .ite (.after (modMc_within fun _ h => h) <| .ite (.ite
              (.after report_within <| .after (mcReg_within fun _ h => ldpcLast_twf h) <| takeFree_within.mono) <|
                  .after report_within <| .after tagFailure_within <| .after (mcReg_within fun _ h => ldpcLast_twf h) <|
                  takeFree_within.mono) <| .after report_within <| .after (mcReg_within fun _ h => ldpcLast_twf h) <|
                  takeFree_within.mono) .refl

theorem commitRebuilt_within {k l s} : Within [.mcs, .staging, .ple] s (commitRebuilt k l s) := by
  induction l generalizing s with
  | nil => exact .refl
  | cons x l ih => exact .comp ih <| .ite (.after noteDefect_within <| commitSector_within.mono) .refl

theorem stripeSolveEnd_within {k s} : Within [.mcs, .staging, .ple] s (stripeSolveEnd k s) := by
  unfold stripeSolveEnd
  split
  · exact .refl
  · split
    · exact .refl
    · dsimp only
      split
      · exact .after mcCount_within <| modJob_within.mono
      · split
        · exact .whenTrue postEvt_within.mono <| .after commitRebuilt_within <| .after modJob_within <|
              .after mcCount_within <| modJob_within.mono
        · exact .after commitRebuilt_within <| .after modJob_within <| .after mcCount_within <| modJob_within.mono

theorem clrFmtRec_within {k s} : Within [.mcs] s (clrFmtRec k s) :=
  mcReg_within fun _ h => wr_twf _ _ _ (wr_twf _ _ _ (wr_twf _ _ _ (wr_twf _ _ _ h)))

theorem clrFmtCnt_within {k s} : Within [.mcs] s (clrFmtCnt k s) := mcReg_within fun _ h => tdrop_twf h

theorem adcMaskApply_within {k s} : Within [.mcs] s (adcMaskApply k s) :=
  modMc_within fun _ h => twf_ite (wrF_twf _ _ _ (wrB_twf _ _ _ h)) (wrB_twf _ _ _ (wrF_twf _ _ _ (wrB_twf _ _ _ h)))

theorem adcExchange_canon {m} (hc : Canon Mc.csr m) : Canon Mc.csr (adcExchange m) :=
  Canon.ite hc (wrB_twf _ _ _ (wrF_twf _ _ _ hc))

theorem wedgeBegins_canon {wedge m} (hc : Canon Mc.csr m) : Canon Mc.csr (wedgeBegins wedge m) := hc

theorem synLoop_canon {perr m} (hc : Canon Mc.csr m) : Canon Mc.csr (synLoop perr m) := hc

theorem wedgeMark_within {k x s} : Within [.mcs] s (wedgeMark k x s) := by
  unfold wedgeMark
  refine .ite (modMc_within fun m h => ?_) .refl
  extract_lets +onlyGivenNames lock relock locked c low n
  have begun : Canon Mc.csr n := synLoop_canon <| wedgeBegins_canon <| wrB_twf _ _ _ <| wrB_twf _ _ _ <| wrF_twf _ _ _ <|
      wrF_twf _ _ _ <| wrB_twf _ _ _ h
  clear_value n
  exact .ite (.ite begun begun) <| adcExchange_canon (.ite begun begun)

theorem markWindowClose_within {k late atest s} :
    Within [.evr, .mcs, .media, .sce, .ple, .cal, .free] s (markWindowClose k late atest s) :=
  .whenTrue (.after stopJob_within <| .after mcCount_within <| .mono (modMc_within fun _ h => wrB_twf _ _ _ h)) <|
      .whenTrue writeAbort_within.mono <| .after sceSampleMissing_within <|
      .after (modMc_within fun _ h => wedgeBegins_canon (incF_twf (wrB_twf _ _ _ h))) <| .after mcCount_within <|
      .ite mcCount_within.mono .refl

theorem hfltFall_within {k stays s} : Within [.mcs, .media, .ple] s (hfltFall k stays s) := by
  unfold hfltFall
  exact .ite (.after writeAbort_within <| by
       split
       · exact .mono (modMc_within fun _ h => wrB_twf _ _ _ (wrB_twf _ _ _ h))
       · split
         · exact .mono (modMc_within fun _ h => wrB_twf _ _ _ (wrB_twf _ _ _ h))
         · exact .after gdlWriteFault_within <| .mono (modMc_within fun _ h => wrB_twf _ _ _ (wrB_twf _ _ _ h))) <|
               .after dropGates_within <| by
    split
    · exact .mono (modMc_within fun _ h => wrB_twf _ _ _ (wrB_twf _ _ _ h))
    · split
      · exact .mono (modMc_within fun _ h => wrB_twf _ _ _ (wrB_twf _ _ _ h))
      · exact .after gdlWriteFault_within <| .mono (modMc_within fun _ h => wrB_twf _ _ _ (wrB_twf _ _ _ h))

theorem frameDone_within {k s} : Within [.mcs] s (frameDone k s) :=
  .after startFrame_within <| .mono (modMc_within fun _ h => h)

theorem ackLevel_within {k s} : Within [.mcs] s (ackLevel k s) := modMc_within fun _ h => Canon.ite (agRise_canon h) h

theorem levelTaken_canon {b m} (hc : Canon Mc.csr m) : Canon Mc.csr (levelTaken b m) := Canon.ite hc (Canon.ite hc hc)

theorem hifFrameEnd_within {k r s} : Within [.sys, .evr, .mck, .mcs, .media, .ple, .free] s (hifFrameEnd k r s) := by
  unfold hifFrameEnd
  split
  · exact .refl
  · split
    · exact .refl
    · exact .ite (.after ackLevel_within <| .after frameDone_within <|
          .whenTrue (.mono (mcReg_within fun _ h => wrB_twf _ _ _ h)) <|
          .after (modMc_within fun _ h => levelTaken_canon h) <| by
           split
           · exact .ite (.mono (mcReg_within fun _ h => wrB_twf _ _ _ (wrF_twf _ _ _ h))) .refl
           · exact .refl) <| .ite (.after mcCount_within <| .after (modMc_within fun _ h => h) <| .ite .refl <|
                 .mono (mcReg_within fun _ h => wrB_twf _ _ _ h)) <| .whenFalse stopJob_within.mono <|
                 .after frameDone_within <| .whenTrue (.mono (mcReg_within fun _ h => wrB_twf _ _ _ h)) <|
                 .after machineCheck_within <| .after (mcReg_within fun _ h => wrB_twf _ _ _ h) <| .ite .refl <|
                 .mono (mcReg_within fun _ h => wrB_twf _ _ _ h)

theorem hifFirmwareFrame_within {k w s} : Within [.mcs] s (hifFirmwareFrame k w s) :=
  .ite .refl <| .after startFrame_within <| .mono (setMc_within fun h => wrB_twf _ _ _ (wr_twf _ _ _ h))

theorem takeOwn_within {k s} : Within [.mcs] s (takeOwn k s) :=
  .after startFrame_within <| .mono (modMc_within fun _ h => wrB_twf _ _ _ h)

theorem dropOwn_within {k s} : Within [.mcs] s (dropOwn k s) := modMc_within fun _ h => wrB_twf _ _ _ h

theorem hifOwnWrite_within {k b s} : Within [.mcs] s (hifOwnWrite k b s) :=
  .ite takeOwn_within.mono <| .ite (.mono (modMc_within fun _ h => h)) <| dropOwn_within.mono

theorem hifOwnRelease_within {k s} : Within [.mcs] s (hifOwnRelease k s) := .ite dropOwn_within.mono .refl

theorem ascEvent_canon {now head m} (hc : Canon Mc.csr m) : Canon Mc.csr (ascEvent now head m) :=
  wrF_twf _ _ _ (wrF_twf _ _ _ hc)

theorem assistLeadLong_within {k s} : Within [.mcs] s (assistLeadLong k s) :=
  .ite (.mono (setMc_within fun h => ascEvent_canon (wrB_twf _ _ _ h))) .refl

theorem assistDutyNear_within {k head s} : Within [.mcs] s (assistDutyNear k head s) :=
  .ite (.after mcEvent_within <| .mono (modMc_within fun _ h => ascEvent_canon (wrB_twf _ _ _ h))) .refl

theorem dutyRefuse_within {k s} : Within [.mcs, .media, .ple] s (dutyRefuse k s) :=
  .after stopJob_within <| .mono (mcReg_within fun _ h => wrB_twf _ _ _ h)

theorem assistDutyLimit_within {k head s} : Within [.mcs, .media, .ple] s (assistDutyLimit k head s) := .ite (by
     dsimp only
     split
     · exact .mono (modMc_within fun _ h => ascEvent_canon h)
     · exact .whenTrue dutyRefuse_within.mono <| .mono (modMc_within fun _ h => ascEvent_canon h)) .refl

theorem assistDutyRelease_within {k head s} : Within [.mcs] s (assistDutyRelease k head s) :=
  .ite (.mono (modMc_within fun _ h => Canon.ite (ascEvent_canon h) h)) .refl

theorem agateRise_within {k head bit s} : Within [.mcs, .media, .ple] s (agateRise k head bit s) :=
  .ite dutyRefuse_within.mono <| .ite (.mono (setMc_within fun h => h)) <|
      .mono (setMc_within fun h => Canon.ite h (agRise_canon h))

theorem keepAssist_within {k h s} : Within [.nv] s (keepAssist k h s) := .mono .setNv

theorem clrAsc_within {k s} : Within [.mcs, .nv] s (clrAsc k s) := by
  unfold clrAsc
  exact .after (modMc_within fun _ h => h) <| keepAssist_within.mono

theorem clrHif_within {k s} : Within [.mcs] s (clrHif k s) := mcReg_within fun _ h => wr_twf _ _ _ h

theorem clrSyn_within {k s} : Within [.mcs] s (clrSyn k s) :=
  mcReg_within fun _ h => wr_twf _ _ _ (wr_twf _ _ _ (wr_twf _ _ _ h))

theorem clrLdpc_within {k s} : Within [.mcs] s (clrLdpc k s) :=
  mcReg_within fun _ h => wrF_twf _ _ _ (wr_twf _ _ _ (wr_twf _ _ _ h))

/-! ### The operations of Sys2Proof/Machine/Msq.lean -/

theorem putSector_within {k e slot data s} : Within [.mcs, .media] s (putSector k e slot data s) :=
  .ite .refl <| .after (modMc_within fun _ h => h) <| .mono .setMedia

theorem slotEnd_within {k cont s} : Within [.mcs, .media, .ple] s (slotEnd k cont s) := by
  unfold slotEnd
  split
  · exact .refl
  · split
    · exact .refl
    · exact .ite (.after dropGates_within <| .after modJob_within <| by
           split
           · exact putSector_within.mono
           · exact .refl) <| .ite (.after (modMc_within fun _ h => wgFall_canon h) <| .after modJob_within <| by
           split
           · exact putSector_within.mono
           · exact .refl) <| .ite (.after dutyRefuse_within <| .after modJob_within <| by
           split
           · exact putSector_within.mono
           · exact .refl) <| .ite (.after modJob_within <| by
           split
           · exact putSector_within.mono
           · exact .refl) <| .ite (.after dropGates_within <| .after modJob_within <| by
           split
           · exact putSector_within.mono
           · exact .refl) <| .whenTrue stopJob_within.mono <| .after (modMc_within fun _ h => wgFall_canon h) <|
                 .after modJob_within <| by
        split
        · exact putSector_within.mono
        · exact .refl

theorem slotEnds_within {k off n s} : Within [.mcs, .media, .ple] s (slotEnds k off n s) := by
  induction n generalizing s with
  | zero => exact .refl
  | succ n ih => exact .comp ih slotEnd_within

theorem footprintPassed_within {k e i s} : Within [.mcs, .free] s (footprintPassed k e i s) :=
  .whenFalse (.ite trackLoops_within.mono <| .mono (modMc_within fun _ h => h)) <| .mono (modMc_within fun _ h => h)

theorem headMoves_within {k off i s} : Within [.mcs, .media, .ple, .free] s (headMoves k off i s) := by
  unfold headMoves
  split
  · exact .refl
  · exact .after slotEnds_within <| .after footprintPassed_within <| modJob_within.mono

theorem wgateRise_within {k slot leadNs j s} : Within [.mcs, .media, .ple] s (wgateRise k slot leadNs j s) :=
  .ite .refl <| .ite stopJob_within.mono <| .ite (.after stopJob_within <|
      .mono (mcReg_within fun _ h => wrF_twf _ _ _ (wrB_twf _ _ _ (wrB_twf _ _ _ h)))) <| .ite writeAbort_within.mono <|
      .ite writeAbort_within.mono <| .ite .refl <| .after modJob_within <| .mono (setMc_within fun h => h)

theorem actGates_within {k w i j s} : Within [.mcs, .media, .ple] s (actGates k w i j s) :=
  .whenTrue wgateRise_within.mono <| .ite (.after (modMc_within fun _ h => h) <|
      .whenTrue (.after (modMc_within fun _ h => wgFall_canon h) <| .after modJob_within <| cutWrite_within.mono) <|
      modJob_within.mono) <| .whenTrue agateRise_within.mono <|
      .whenTrue (.after (modMc_within fun _ h => wgFall_canon h) <| .after modJob_within <| cutWrite_within.mono) <|
      modJob_within.mono

theorem actSync_within {k w i j s} : Within [.mcs] s (actSync k w i j s) := by
  unfold actSync
  split
  · exact modJob_within.mono
  · exact .mono (modMc_within fun _ h => h)
  · exact modJob_within.mono
  · exact modJob_within.mono
  · exact .refl

theorem orderRdecode_within {k j s} : Within [.mcs, .staging] s (orderRdecode k j s) := by
  unfold orderRdecode
  split
  · exact .ite (.after modJob_within <| .mono (modMc_within fun _ h => h)) <| .after report_within <| modJob_within.mono
  · exact .after report_within <| modJob_within.mono

theorem actEcc_within {k w i j s} : Within [.mcs, .staging] s (actEcc k w i j s) := by
  unfold actEcc
  split
  · exact .whenTrue report_within.mono <| modJob_within.mono
  · exact modJob_within.mono
  · exact modJob_within.mono
  · exact modJob_within.mono
  · exact orderRdecode_within.mono
  · exact .after report_within <| modJob_within.mono
  · exact .refl

theorem actStripe_within {k w j s} : Within [.mcs] s (actStripe k w j s) := by
  unfold actStripe
  split
  · exact modJob_within.mono
  · split
    · exact modJob_within.mono
    · exact .refl
  · exact modJob_within.mono
  · exact modJob_within.mono
  · exact modJob_within.mono
  · exact .refl

theorem zoneFail_within {k analog code empty s} : Within [.mcs, .ple] s (zoneFail k analog code empty s) := by
  unfold zoneFail
  split
  · exact .refl
  · exact .after endJob_within <| .whenTrue (.mono (modMc_within fun _ h => h)) <|
        .mono (mcReg_within fun _ h => twf_ite (wrF_twf _ _ _ (wrF_twf _ _ _ (wrB_twf _ _ _ h)))
        (wrF_twf _ _ _ (wrF_twf _ _ _ (wrB_twf _ _ _ h))))

theorem zoneLoad_within {k e s} : Within [.mcs, .ple] s (zoneLoad k e s) :=
  .ite zoneFail_within.mono <| .ite zoneFail_within.mono <| .mono (modMc_within fun _ h => h)

theorem takeBeats_canon {n m} (hc : Canon Mc.csr m) : Canon Mc.csr (takeBeats n m) := Canon.ite hc hc

theorem zoneApply_within {k e s} : Within [.mcs, .media, .ple] s (zoneApply k e s) := by
  unfold zoneApply
  dsimp only
  split
  · exact zoneFail_within.mono
  · exact .ite zoneFail_within.mono <| .whenTrue (.after ascFrame_within <| ascFrame_within.mono) <|
        .whenTrue preloadFrame_within.mono <| .after preloadFrame_within <|
        .mono (setMc_within fun h => afePut_canon (takeBeats_canon h))

theorem offsetIfNew_within {k ofs s} : Within [.sce] s (offsetIfNew k ofs s) := .ite .refl <| sceOffset_within.mono

theorem putKnobs_within {k n s} : Within [.mcs, .media, .sce, .ple] s (putKnobs k n s) :=
  .ite (.whenTrue offsetIfNew_within.mono <| .after preloadFrame_within <| modJob_within.mono) <| .ite stopJob_within.mono <|
      .whenTrue offsetIfNew_within.mono <| .after preloadFrame_within <| modJob_within.mono

theorem actRetry_within {k w s} : Within [.mcs, .media, .sce, .ple] s (actRetry k w s) := .ite .refl <| putKnobs_within.mono

theorem actFrames_within {k w j s} : Within [.mcs, .media, .ple] s (actFrames k w j s) := by
  unfold actFrames
  extract_lets zae u v code
  have loaded : Within [.mcs, .media, .ple] s u := .ite .refl preloadFrame_within.mono
  have heated : Within [.mcs, .media, .ple] s v := by
    refine .ite loaded ?_
    split
    · exact .after preloadFrame_within loaded
    · exact .after preloadFrame_within loaded
    · exact .after preloadFrame_within loaded
    · exact loaded
  exact .ite heated <| .after ascFrame_within heated

theorem actSrv_within {k w j s} : Within [.sce] s (actSrv k w j s) := by
  unfold actSrv
  split
  · exact sceOffset_within.mono
  · exact sceOffset_within.mono
  · exact .refl

theorem actEvents_within {k w j s} : Within [.mcs] s (actEvents k w j s) :=
  .after modJob_within <| .whenTrue (.mono (modMc_within fun _ h => traceWord_canon h)) <| .ite .refl <| postEvt_within.mono

theorem actWord_within {k w i j s} : Within [.mcs, .media, .staging, .sce, .ple] s (actWord k w i j s) :=
  .whenTrue actSrv_within.mono <| .whenTrue actRetry_within.mono <| .whenTrue actFrames_within.mono <|
      .whenTrue zoneApply_within.mono <| .whenTrue zoneLoad_within.mono <| .after actGates_within <| .after modJob_within <|
      .after actStripe_within <| .after actEcc_within <| .after actSync_within <| actEvents_within.mono

theorem reloadWord_within {k a imgBad s} : Within [.sys, .evr, .mck, .mcs, .free] s (reloadWord k a imgBad s) :=
  .ite (.after machineCheck_within <| .mono (mcReg_within fun _ h => wrB_twf _ _ _ h)) <| .mono (modMc_within fun _ h => h)

theorem parityStop_within {k j imgBad s} : Within [.sys, .evr, .mck, .mcs, .media, .ple, .free] s (parityStop k j imgBad s) :=
  .after reloadWord_within <| .after mcCount_within <| .after machineCheck_within <| .after stopJob_within <|
      .ite (.mono (mcReg_within fun _ h => incF_twf (wrB_twf _ _ _ h))) .refl

theorem goTo_within {k a n s} : Within [.mcs, .media, .ple] s (goTo k a n s) := .ite stopJob_within.mono <| modJob_within.mono

theorem haltJob_within {k s} : Within [.mcs, .ple] s (haltJob k s) := .ite modJob_within.mono <| endJob_within.mono

theorem sequence_within {k w cond j s} : Within [.mcs, .media, .ple] s (sequence k w cond j s) := by
  unfold sequence
  dsimp only
  split
  · exact goTo_within.mono
  · exact goTo_within.mono
  · exact goTo_within.mono
  · exact .ite goTo_within.mono <| .ite stopJob_within.mono <| .after goTo_within <| modJob_within.mono
  · exact .ite goTo_within.mono <| by
      split
      · exact stopJob_within.mono
      · exact .after goTo_within <| modJob_within.mono
  · exact .ite goTo_within.mono <| by
      split
      · exact .refl
      · exact .ite (.ite stopJob_within.mono <| goTo_within.mono) <| modJob_within.mono
  · exact .ite goTo_within.mono <| .after goTo_within <| modJob_within.mono
  · exact .ite goTo_within.mono <| haltJob_within.mono

theorem runWord_within {k w i s} : Within [.mcs, .media, .staging, .sce, .ple, .free] s (runWord k w i s) := by
  unfold runWord
  dsimp only
  split
  · exact headMoves_within.mono
  · exact .ite (.after stopJob_within <| headMoves_within.mono) <| .whenTrue sequence_within.mono <| .after actWord_within <|
        headMoves_within.mono

theorem postUnrecovered_within {k l s} : Within [.mcs] s (postUnrecovered k l s) := by
  induction l generalizing s with
  | nil => exact .refl
  | cons x l ih =>
    refine .comp ih ?_
    split
    · exact postEvt_within
    · exact .refl

theorem zoneSetup_within {k e writes s} : Within [.mcs, .media, .ple] s (zoneSetup k e writes s) :=
  .whenTrue preloadFrame_within.mono <| .whenTrue zoneApply_within.mono <| zoneLoad_within.mono

theorem vendorEnter_within {k n s} : Within [.mcs, .media, .staging, .ple] s (vendorEnter k n s) := by
  unfold vendorEnter
  extract_lets +onlyGivenNames enter
  have modified {f t} (h : Within [.mcs, .media, .staging, .ple] s t) :
      Within [.mcs, .media, .staging, .ple] s (modJob k f t) :=
    .after modJob_within h
  have set_up {e w t} (h : Within [.mcs, .media, .staging, .ple] s t) :
      Within [.mcs, .media, .staging, .ple] s (zoneSetup k e w t) :=
    .after zoneSetup_within h
  have stopped {n t} (h : Within [.mcs, .media, .staging, .ple] s t) :
      Within [.mcs, .media, .staging, .ple] s (stopJob k n t) :=
    .after stopJob_within h
  split
  · exact .refl
  · dsimp only
    refine .ite (stopped .refl) ?_
    split
    · exact .whenTrue stopJob_within.mono <| set_up <| modified <| modified .refl
    · exact .ite (modified <| modified .refl) <| .ite (stopped <| modified .refl) <| modified <| set_up <| modified .refl
    · split
      · exact modified <| modified .refl
      · exact .ite (stopped <| modified .refl) <| set_up <| modified <| modified .refl
    · exact set_up <| modified .refl
    · exact .whenTrue stopJob_within.mono <| modified <| modified .refl
    · exact .after orderRdecode_within <| modified .refl
    · exact modified <| modified .refl
    · exact .ite (stopped .refl) <| modified <| modified .refl
    · exact modified .refl

theorem ladderNext_rebuildStep_within {k j s} : Within [.mcs, .media, .sce, .ple] s (ladderNext.rebuildStep k j s) :=
  .after putKnobs_within <| modJob_within.mono

theorem ladderNext_within {k s} : Within [.mcs, .media, .sce, .ple] s (ladderNext k s) := by
  unfold ladderNext
  split
  · exact .refl
  · exact .ite .refl <| by
      dsimp only
      split
      · exact .ite (.after ladderNext_rebuildStep_within <| modJob_within.mono) <| .after putKnobs_within <|
            .after modJob_within <| modJob_within.mono
      · exact .after ladderNext_rebuildStep_within <| modJob_within.mono

theorem ladderRdecode_within {k s} : Within [.mcs, .staging] s (ladderRdecode k s) := by
  unfold ladderRdecode
  split
  · exact .ite orderRdecode_within.mono .refl
  · exact .refl

theorem closeReadBack_within {k c s} : Within [.mcs] s (closeReadBack k c s) := by
  unfold closeReadBack
  split
  · exact .refl
  · dsimp only
    split
    · exact .after modJob_within <| modJob_within.mono
    · split
      · exact modJob_within.mono
      · exact .after modJob_within <| modJob_within.mono

theorem vendorWait_within {k i s} : Within [.mcs, .media, .ple, .free] s (vendorWait k i s) := by
  unfold vendorWait
  dsimp only
  split
  · exact headMoves_within.mono
  · split
    · exact .whenTrue (.after agateRise_within <| modJob_within.mono) <| headMoves_within.mono
    · exact .whenTrue (.after wgateRise_within <| modJob_within.mono) <| headMoves_within.mono
    · exact .whenTrue modJob_within.mono <| headMoves_within.mono
    · split
      · exact headMoves_within.mono
      · exact .whenTrue closeReadBack_within.mono <| headMoves_within.mono
    · exact headMoves_within.mono

theorem vendorReturn_within {k n s} : Within [.mcs, .media, .ple] s (vendorReturn k n s) := by
  unfold vendorReturn
  split
  · exact .refl
  · exact .ite .refl <| by
      split
      · exact stopJob_within.mono
      · exact modJob_within.mono

theorem vendorHalt_within {k n s} : Within [.mcs, .ple] s (vendorHalt k n s) := by
  unfold vendorHalt
  split
  · exact .refl
  · exact .ite (.ite
           (.after endJob_within <| .after modJob_within <| postUnrecovered_within.mono) .refl) <|
               .ite haltJob_within.mono <| .ite (.after endJob_within <| modJob_within.mono) .refl

theorem stepWord_within {k seq i s} :
    Within [.sys, .evr, .mck, .mcs, .media, .staging, .sce, .ple, .free] s (stepWord k seq i s) := by
  unfold stepWord
  split
  · exact .refl
  · split
    · dsimp only
      split
      · exact .ite (.after parityStop_within <| modJob_within.mono) <| .whenTrue runWord_within.mono <| modJob_within.mono
      · exact .ite (.whenTrue (.after vendorEnter_within <| headMoves_within.mono) <| modJob_within.mono) <|
            .ite (.after stopJob_within <| modJob_within.mono) <| .whenTrue (.ite
              (.after haltJob_within <| headMoves_within.mono) .refl) <| modJob_within.mono
    · exact .ite (.after ladderNext_within <| headMoves_within.mono) <|
          .ite (.after ladderRdecode_within <| headMoves_within.mono) <|
          .ite (.after vendorReturn_within <| headMoves_within.mono) <| .whenTrue vendorHalt_within.mono <|
          headMoves_within.mono
    · exact .refl

theorem waitPass_within {k i s} : Within [.mcs, .media, .ple, .free] s (waitPass k i s) := by
  unfold waitPass
  split
  · exact .refl
  · split
    · exact .whenTrue goTo_within.mono <| headMoves_within.mono
    · exact vendorWait_within.mono
    · exact .refl

theorem timerExpiry_within {k race s} : Within [.mcs, .media, .ple] s (timerExpiry k race s) := by
  unfold timerExpiry
  split
  · exact .refl
  · exact .ite (.whenTrue (by
           dsimp only
           split
           · exact goTo_within.mono
           · exact .ite (.after stopJob_within <| mcCount_within.mono) <| .after goTo_within <| mcCount_within.mono
           · exact .ite stopJob_within.mono <| goTo_within.mono) <| modJob_within.mono) .refl

theorem waitWatchdog_within {k s} : Within [.mcs, .media, .ple] s (waitWatchdog k s) := by
  unfold waitWatchdog
  split
  · exact .refl
  · exact .ite stopJob_within.mono .refl

theorem haltPadEnd_within {k s} : Within [.mcs, .media, .ple] s (haltPadEnd k s) := by
  unfold haltPadEnd
  split
  · exact .refl
  · exact .ite (.after endJob_within <| slotEnd_within.mono) .refl

/-! ### The operations of Sys2Proof/Machine/Psa.lean -/

theorem modPct_within {f s} (h : ∀ u, Canon Pct.csr u → Canon Pct.csr (f u)) : Within [.pct] s (modPct f s) := .setPct (h _)

theorem pctReg_within {f s} (h : ∀ c, twf 0 c = true → twf 0 (f c) = true) : Within [.pct] s (pctReg f s) :=
  modPct_within fun _ => h _

theorem setBlk_within {blk known f s} : Within [.pct] s (setBlk blk known f s) := modPct_within fun _ h => h

theorem putWear_within {blk byte n v s} : Within [.sys, .evr, .mck, .mem, .bmc, .free] s (putWear blk byte n v s) :=
  dramPut_within.mono

theorem memPutWord_within {a w s} : Within [.sys, .evr, .mck, .mem, .bmc, .free] s (memPutWord a w s) := dramPut_within.mono

theorem advanceHead_within {n s} : Within [.pct] s (advanceHead n s) := by
  induction n generalizing s with
  | zero => exact .refl
  | succ n ih => exact .ite (.comp ih <| pctReg_within fun _ h => wrF_twf _ _ _ h) .refl

theorem ringEnd_within {i status pulses susps bits s} :
    Within [.sys, .evr, .mck, .mem, .bmc, .pct, .free] s (ringEnd i status pulses susps bits s) :=
  .after advanceHead_within <| .after memPutWord_within <| memPutWord_within.mono

theorem setSusp_within {d b s} : Within [.pct] s (setSusp d b s) := modPct_within fun _ h => h

theorem setWaitSusp_within {d b s} : Within [.pct] s (setWaitSusp d b s) := modPct_within fun _ h => h

theorem bodyToBuf_within {a b s} : Within [.sys, .evr, .mck, .mem, .bmc, .free] s (bodyToBuf a b s) := dramPut_within.mono

theorem psaContent_within {a s} : Within [.free] s (psaContent a s).2 := by
  unfold psaContent
  split
  · exact .refl
  · exact takeFree_within

theorem putPage_within {a p s} : Within [.pct] s (putPage a p s) := modPct_within fun _ h => h

theorem dropPages_within {blk s} : Within [.pct] s (dropPages blk s) := modPct_within fun _ h => h

theorem setSuspCount_within {d n s} : Within [.pct] s (setSuspCount d n s) := pctReg_within fun _ h => wrF_twf _ _ _ h

theorem addRun_within {r s} : Within [.pct] s (addRun r s) :=
  .whenTrue setSuspCount_within.mono <| .mono (modPct_within fun _ h => h)

theorem startProgram_within {i grp found s} :
    Within [.sys, .evr, .mck, .mem, .bmc, .pct, .free] s (startProgram i grp found s) :=
  .ite (.after ringEnd_within <| .mono (pctReg_within fun _ h => incR_twf _ _ _ h)) <|
      .ite (.after ringEnd_within <| .after (pctReg_within fun _ h => incR_twf _ _ _ h) <| .after setBlk_within <|
      .ite .refl <| .mono (pctReg_within fun _ h => incR_twf _ _ _ h)) <| .after addRun_within <| .after putPage_within <|
      .after setBlk_within <| .ite .refl <| .mono (pctReg_within fun _ h => incR_twf _ _ _ h)

theorem startOne_within {op i grp found s} :
    Within [.sys, .evr, .mck, .mem, .bmc, .pct, .free] s (startOne op i grp found s) := by
  -- unfolded as a function: of `startOne` applied to its arguments, the kernel would evaluate the refusal
  obtain ⟨f, hf⟩ : ∃ f, f = startOne := ⟨_, rfl⟩
  rw [← hf]
  delta startOne at hf
  subst hf
  beta_reduce
  extract_lets +onlyGivenNames a
  split
  · exact ringEnd_within.mono
  · exact .ite startProgram_within.mono <| .after addRun_within <|
        .ite (.mono <| pctReg_within fun _ h => incR_twf _ _ _ h) .refl

theorem psaStart_within {op i found s} : Within [.sys, .evr, .mck, .mem, .bmc, .pct, .free] s (psaStart op i found s) :=
  .ite .refl <| .ite (.foldl fun _ _ => ringEnd_within.mono) <| .ite .refl <| .foldl fun _ _ => startOne_within.mono

theorem psaRead_within {i found s} : Within [.sys, .evr, .mck, .mem, .bmc, .pct, .free] s (psaRead i found s) :=
  psaStart_within.mono

theorem psaProgram_within {i found s} : Within [.sys, .evr, .mck, .mem, .bmc, .pct, .free] s (psaProgram i found s) :=
  psaStart_within.mono

theorem psaErase_within {i s} : Within [.sys, .evr, .mck, .mem, .bmc, .pct, .free] s (psaErase i s) := psaStart_within.mono

theorem psaBlank_within {i found s} : Within [.sys, .evr, .mck, .mem, .bmc, .pct, .free] s (psaBlank i found s) :=
  psaStart_within.mono

theorem psaMarginRead_within {i found s} : Within [.sys, .evr, .mck, .mem, .bmc, .pct, .free] s (psaMarginRead i found s) :=
  psaStart_within.mono

theorem psaFrontierLoad_within {i s} : Within [.sys, .evr, .mck, .mem, .bmc, .pct, .free] s (psaFrontierLoad i s) := by
  unfold psaFrontierLoad
  refine .ite .refl <| .ite ringEnd_within.mono ?_
  extract_lets base ent all
  clear_value all
  exact .after ringEnd_within <| .mono <| modPct_within fun _ h => h

theorem wearProgram_within {blk pulses fails s} :
    Within [.sys, .evr, .mck, .mem, .bmc, .free] s (wearProgram blk pulses fails s) :=
  .after putWear_within <| .after putWear_within <| putWear_within.mono

theorem wearErase_within {blk pulses fails cut s} :
    Within [.sys, .evr, .mck, .mem, .bmc, .free] s (wearErase blk pulses fails cut s) :=
  .after putWear_within <| .after putWear_within <| .whenFalse putWear_within.mono <| .whenFalse putWear_within.mono <|
      .ite .refl <| putWear_within.mono

theorem modElg_within {f s} (h : ∀ u, Canon Elg.csr u → Canon Elg.csr (f u)) : Within [.elg] s (modElg f s) := .setElg (h _)

theorem elgReg_within {f s} (h : ∀ c, twf 0 c = true → twf 0 (f c) = true) : Within [.elg] s (elgReg f s) :=
  modElg_within fun _ => h _

theorem dcostMeasure_within {v s} : Within [.elg, .free] s (dcostMeasure v s) :=
  .ite .refl <| .ite (.mono (elgReg_within fun _ h => wr_twf _ _ _ h)) <| .after (elgReg_within fun _ h => wr_twf _ _ _ h) <|
      takeFree_within.mono

theorem failDie_within {d s} : Within [.sys, .evr, .mck, .elg, .pct, .free] s (failDie d s) :=
  .ite .refl <| .after machineCheck_within <| .after takeFree_within <| .after dcostMeasure_within <|
      .mono (pctReg_within fun _ h => wrF_twf _ _ _ h)

theorem noteEraseFail_within {blk s} : Within [.sys, .evr, .mck, .elg, .pct, .free] s (noteEraseFail blk s) :=
  .whenTrue failDie_within.mono <| .mono (modPct_within fun _ h => h)

theorem retireBlock_within {blk s} : Within [.sys, .evr, .mck, .mem, .hqe, .nv, .bmc, .pct, .free] s (retireBlock blk s) := by
  unfold retireBlock
  extract_lets +onlyGivenNames old moved
  have moves : WithinSome [.pct] s moved := by
    intro t ht
    unfold moved at ht
    split at ht
    · cases ht
      exact .refl
    · cases ht
    · cases ht
      exact modPct_within fun _ h => h
  clear_value moved
  cases moved with
  | none => exact .refl
  | some t =>
    exact .whenTrue setReliability_within.mono <| .after firmwareEvent_within <| .after .setNv <| .after putWear_within <|
        .after (modPct_within fun _ h => h) <| .after dropPages_within (moves t rfl).mono

theorem retireWorn_within {blk s} : Within [.sys, .evr, .mck, .mem, .hqe, .nv, .bmc, .pct, .free] s (retireWorn blk s) :=
  .comp (.foldl fun _ _ => .ite .refl <| retireBlock_within.mono) <| .ite (.mono (modPct_within fun _ h => h)) .refl

theorem putRecord_within {d id c s} : Within [.nv] s (putRecord d id c s) := .ite .refl <| .ite (.mono .setNv) <| .mono .setNv

theorem secondCopies_within {s} : Within [.nv] s (secondCopies s) := .foldl fun _ _ => .ite putRecord_within.mono .refl

theorem writeRecord_within {id r s} : Within [.nv] s (writeRecord id r s) := putRecord_within

theorem putOption_within {b x s} : Within [.nv] s (putOption b x s) :=
  .ite .refl <| .ite (.mono .setNv) <| .ite (.mono .setNv) .refl

theorem optionSecond_within {s} : Within [.nv, .pct] s (optionSecond s) := by
  unfold optionSecond
  split
  · exact .refl
  · exact .after (pctReg_within fun _ h => wrB_twf _ _ _ h) <| .after .setNv <| by
      split
      · exact .ite putOption_within.mono .refl
      · exact .refl

theorem openOptions_within {s} : Within [.pct] s (openOptions s) :=
  .ite .refl <| .mono (pctReg_within fun _ h => wrB_twf _ _ _ h)

theorem optUpdate_within {words s} : Within [.nv, .pct] s (optUpdate words s) :=
  .after .setNv <| .after putOption_within <| .after openOptions_within <| optionSecond_within.mono

theorem saveRecords_within {s} : Within [.nv, .pct] s (saveRecords s) :=
  .ite .refl <| .comp (.foldl fun _ _ => writeRecord_within.mono) <| .after optionSecond_within <| secondCopies_within.mono

theorem saveFrontier_within {s} : Within [.nv, .pct] s (saveFrontier s) :=
  .ite (.after (modPct_within fun _ h => h) <| .mono .setNv) .refl

theorem saveReplayTable_within {s} : Within [.nv] s (saveReplayTable s) := .ite (.mono .setNv) .refl

theorem orderlyShutdown_within {s} : Within [.nv, .pct] s (orderlyShutdown s) :=
  .after saveFrontier_within <| .after (modPct_within fun _ h => h) <| saveReplayTable_within.mono

theorem bootFrontier_within {s} : Within [.pct] s (bootFrontier s) := by
  unfold bootFrontier
  split
  · exact .ite (.mono (modPct_within fun _ h => h)) .refl
  · exact .refl

theorem readRecords_within {bad s} : Within [.nv] s (readRecords bad s) := .comp (.foldl fun _ _ => by
    dsimp only
    split
    · exact .mono .setNv
    · exact .refl) <| .mono .setNv

theorem rewriteRecords_within {s} : Within [.nv] s (rewriteRecords s) := .foldl fun _ _ => by
    split
    · exact .ite .refl <| .after putRecord_within <| putRecord_within.mono
    · exact .refl

theorem endRun_within {r s} : Within [.sys, .evr, .mck, .mem, .hqe, .nv, .elg, .bmc, .pct, .free] s (endRun r s) := by
  unfold endRun
  dsimp only
  split
  · exact .after retireWorn_within <| .after ringEnd_within <| .after wearProgram_within <|
        .whenTrue (.mono (pctReg_within fun _ h => incR_twf _ _ _ h)) <| .whenTrue putPage_within.mono <|
        .mono (modPct_within fun _ h => h)
  · exact .after retireWorn_within <| .after ringEnd_within <|
        .whenTrue (.after noteEraseFail_within <| .mono (pctReg_within fun _ h => incR_twf _ _ _ h)) <|
        .after wearErase_within <| .ite (.after setBlk_within <| .after dropPages_within <|
        .mono (modPct_within fun _ h => h)) <| .after setBlk_within <| .after dropPages_within <|
        .mono (modPct_within fun _ h => h)
  · exact .after ringEnd_within <| .mono (modPct_within fun _ h => h)
  · exact .after ringEnd_within <| .whenTrue (.comp (.foldl fun _ _ => memPutWord_within.mono) <| .after bodyToBuf_within <|
        psaContent_within.mono) <| .ite (.after (pctReg_within fun _ h => incR_twf _ _ _ h) <|
        .mono (modPct_within fun _ h => h)) <| .whenTrue (.mono (pctReg_within fun _ h => incR_twf _ _ _ h)) <|
        .mono (modPct_within fun _ h => h)

theorem modRun_within {i f s} : Within [.pct] s (modRun i f s) := modPct_within fun _ h => h

theorem settleSuspend_within {d s} : Within [.pct] s (settleSuspend d s) :=
  .ite .refl <| .ite (.after setSuspCount_within <| .after setSusp_within <| setWaitSusp_within.mono) <|
      .after (pctReg_within fun _ h => wrB_twf _ _ _ h) <| setWaitSusp_within.mono

theorem psaPulseEnd_within {i pass s} : Within [.pct] s (psaPulseEnd i pass s) := by
  unfold psaPulseEnd
  split
  · exact .refl
  · exact .ite .refl <| .after settleSuspend_within <| modRun_within.mono

theorem endGroup_within {grp s} : Within [.sys, .evr, .mck, .mem, .hqe, .nv, .elg, .bmc, .pct, .free] s (endGroup grp s) :=
  .after saveRecords_within <| .after saveFrontier_within <| .after (modPct_within fun _ h => h) <| .foldl fun _ _ =>
      endRun_within.mono

theorem psaDieReady_within {grp s} :
    Within [.sys, .evr, .mck, .mem, .hqe, .nv, .elg, .bmc, .pct, .free] s (psaDieReady grp s) := by
  unfold psaDieReady
  dsimp only
  split
  · exact .ite (.after (pctReg_within fun _ h => incR_twf _ _ _ h) <| .mono (modPct_within fun _ h => h)) .refl
  · exact .ite endGroup_within.mono .refl

theorem psaDieTimeout_within {grp done s} :
    Within [.sys, .evr, .mck, .mem, .hqe, .nv, .elg, .bmc, .pct, .free] s (psaDieTimeout grp done s) := by
  unfold psaDieTimeout
  dsimp only
  split
  · exact .refl
  · exact .ite .refl <| .ite (.after (pctReg_within fun _ h => incR_twf _ _ _ h) <| endGroup_within.mono) <|
        .ite (.mono (modPct_within fun _ h => h)) <| .after failDie_within <| .after (modPct_within fun _ h => h) <|
        .foldl fun _ _ => endRun_within.mono

theorem brownOutTrip_within {s} : Within [.sys, .evr, .mck, .mem, .bmc, .pct, .free] s (brownOutTrip s) :=
  .comp (.foldl fun _ _ => ringEnd_within.mono) <| .mono (pctReg_within fun _ h => incR_twf _ _ _ (wrB_twf _ _ _ h))

theorem pctSuspend_within {d s} : Within [.pct] s (pctSuspend d s) :=
  .ite .refl <| .ite (.mono (pctReg_within fun _ h => wrB_twf _ _ _ h)) <| .ite setWaitSusp_within.mono <|
      .after setSuspCount_within <| setSusp_within.mono

theorem pctResume_within {d s} : Within [.pct] s (pctResume d s) := .after setSusp_within <| setWaitSusp_within.mono

theorem pctCloudburst_within {s} : Within [.sys, .evr, .mck, .mem, .hqe, .nv, .elg, .bmc, .pct, .free] s (pctCloudburst s) :=
  .after (pctReg_within fun _ h => wrB_twf _ _ _ h) <| .after pctResume_within <| .after pctResume_within <|
      .comp (.foldl fun _ _ => ringEnd_within.mono) <| .foldl fun _ _ => endRun_within.mono

theorem pctStop_within {s} : Within [.pct] s (pctStop s) := by
  unfold pctStop
  exact .after (modPct_within fun _ h => h) <| .foldl fun _ _ => dropPages_within.mono

theorem pctClrCnt_within {s} : Within [.pct] s (pctClrCnt s) := pctReg_within fun _ h => tdrop_twf h

/-! ### The operations of Sys2Proof/Machine/Spindle.lean -/

theorem ctabPut_canon {n v u} (hc : Canon Scu.csr u) : Canon Scu.csr (ctabPut n v u) := hc

theorem modScu_within {f s} (h : ∀ u, Canon Scu.csr u → Canon Scu.csr (f u)) : Within [.scu] s (modScu f s) := .setScu (h _)

theorem scuReg_within {f s} (h : ∀ c, twf 0 c = true → twf 0 (f c) = true) : Within [.scu] s (scuReg f s) :=
  modScu_within fun _ => h _

theorem scuEnter_within {st g s} : Within [.scu] s (scuEnter st g s) := modScu_within fun _ h => wrF_twf _ _ _ h

theorem scuEvt_within {f s} : Within [.evr, .scu, .free] s (scuEvt f s) :=
  .after motionEvent_within <| .mono (scuReg_within fun _ h => wrB_twf _ _ _ h)

theorem enterAlign_within {s} : Within [.scu] s (enterAlign s) := .after (modScu_within fun _ h => h) <| scuEnter_within.mono

theorem enterCatch_within {s} : Within [.evr, .mcs, .media, .sce, .scu, .ple, .free] s (enterCatch s) :=
  .after motionEvent_within <| .after (modScu_within fun _ h => h) <| .after scuEnter_within <| raiseSpindle_within.mono

theorem loseSync_within {s} : Within [.evr, .mcs, .media, .sce, .scu, .ple, .free] s (loseSync s) :=
  .after enterCatch_within <| .whenTrue (.mono (scuReg_within fun _ h => wrB_twf _ _ _ h)) <| .after scuEvt_within <|
      .mono (scuReg_within fun _ h => incR_twf _ _ _ h)

theorem enterBemf_within {limit s} : Within [.scu] s (enterBemf limit s) :=
  .after (modScu_within fun _ h => h) <| scuEnter_within.mono

theorem enterRectify_within {byCommand s} : Within [.scu] s (enterRectify byCommand s) := by
  unfold enterRectify
  exact .after (modScu_within fun _ h => h) <| .after (scuReg_within fun _ h => wrB_twf _ _ _ h) <| scuEnter_within.mono

theorem enterCoast_within {s} : Within [.scu] s (enterCoast s) := .after (modScu_within fun _ h => h) <| scuEnter_within.mono

theorem enterStop_within {s} : Within [.scu] s (enterStop s) := .after (modScu_within fun _ h => h) <| scuEnter_within.mono

theorem enterFault_within {s} : Within [.sys, .evr, .mck, .mem, .scu, .bmc, .clp, .free] s (enterFault s) :=
  .after tocsin_within <| .after (modScu_within fun _ h => h) <| scuEnter_within.mono

theorem scuCloudburst_within {s} : Within [.scu] s (scuCloudburst s) :=
  .ite (.mono (scuReg_within fun _ h => wrB_twf _ _ _ h)) <| .ite enterRectify_within.mono .refl

theorem scuCommand_within {F f s} (h : ∀ s, Within F s (f s)) : Within F s (scuCommand f s) := .ite .refl (h s)

theorem scuCmdStart_within {s} : Within [.scu] s (scuCmdStart s) :=
  scuCommand_within fun _ => .ite (.after enterAlign_within <| .mono (scuReg_within fun _ h => wrF_twf _ _ _ h)) .refl

theorem freeBrake_within {s} : Within [.scu, .free] s (freeBrake s) := by
  unfold freeBrake
  exact .after (modScu_within fun _ h => h) <| takeFree_within.mono

theorem rectifyStep_within {s} : Within [.scu, .free] s (rectifyStep s) :=
  .ite (.after (modScu_within fun _ h => h) <| takeFree_within.mono) <|
      .ite (.after (modScu_within fun _ h => h) <| takeFree_within.mono) <| .mono (modScu_within fun _ h => h)

theorem scuCmdStop_within {s} : Within [.scu, .free] s (scuCmdStop s) :=
  scuCommand_within fun _ => .ite (.after freeBrake_within <| scuEnter_within.mono) <| .ite (.ite
         (.after enterStop_within <| .mono (scuReg_within fun _ h => wrF_twf _ _ _ h)) <| enterCoast_within.mono) .refl

theorem scuCmdCoast_within {s} : Within [.scu] s (scuCmdCoast s) := scuCommand_within fun _ => enterCoast_within.mono

theorem scuCmdCatch_within {s} :
    Within [.sys, .evr, .mck, .mcs, .media, .mem, .sce, .scu, .ple, .bmc, .clp, .free] s (scuCmdCatch s) :=
  scuCommand_within fun _ => .ite enterCatch_within.mono <| .ite (.ite
         (.after tocsin_within <| scuEvt_within.mono) <| enterCatch_within.mono) .refl

theorem scuCmdRectify_within {s} : Within [.scu] s (scuCmdRectify s) :=
  scuCommand_within fun _ => .ite enterRectify_within.mono .refl

theorem pinsFollow_within {s} : Within [.scu] s (pinsFollow s) := by
  unfold pinsFollow
  exact .mono (modScu_within fun _ h => h)

theorem scuDriveWrite_within {b s} : Within [.evr, .mcs, .media, .sce, .scu, .ple, .free] s (scuDriveWrite b s) :=
  .whenTrue enterCatch_within.mono <| .after pinsFollow_within <| .mono (scuReg_within fun _ h => wrB_twf _ _ _ h)

theorem alignTimeout_within {s} : Within [.scu] s (alignTimeout s) :=
  .ite (.after (modScu_within fun _ h => h) <| scuEnter_within.mono) .refl

theorem lockedRotor_within {s} : Within [.sys, .evr, .mck, .mem, .scu, .bmc, .clp, .free] s (lockedRotor s) := by
  unfold lockedRotor
  exact .ite (.ite
         (.after (modScu_within fun _ h => h) <| .after enterStop_within <| .mono (scuReg_within fun _ h => incF_twf h)) <|
             .after enterFault_within <| .after machineCheck_within <| .after scuEvt_within <|
             .mono (scuReg_within fun _ h => incF_twf h)) .refl

theorem lockedRotorRetry_within {s} : Within [.scu] s (lockedRotorRetry s) := .ite enterAlign_within.mono .refl

theorem catchTimeout_within {s} : Within [.sys, .evr, .mck, .mem, .sce, .scu, .bmc, .clp, .free] s (catchTimeout s) :=
  .ite (.after tocsin_within <| .after enterCoast_within <| .after unloadOwned_within <| .after scuEvt_within <|
      .mono (scuReg_within fun _ h => incR_twf _ _ _ h)) .refl

theorem brakeHoldEnd_within {s} : Within [.scu] s (brakeHoldEnd s) := .ite enterStop_within.mono .refl

theorem coastTimeout_within {s} : Within [.scu] s (coastTimeout s) := .ite (.ite
       (.after enterAlign_within <| .mono (scuReg_within fun _ h => wrF_twf _ _ _ h)) <| enterStop_within.mono) .refl

theorem catchCross_within {i s} : Within [.evr, .scu, .free] s (catchCross i s) := .whenTrue (.ite
      (.after enterRectify_within <| .after (modScu_within fun _ h => h) <| scuEvt_within.mono) <| .after enterBemf_within <|
          .after (modScu_within fun _ h => h) <| scuEvt_within.mono) <| .mono (modScu_within fun _ h => h)

theorem checkFloat_within {i s} : Within [.evr, .mcs, .media, .sce, .scu, .ple, .free] s (checkFloat i s) := by
  unfold checkFloat
  split
  · exact .refl
  · exact .whenTrue loseSync_within.mono <| .mono (modScu_within fun _ h => h)

theorem bandCheck_within {s} : Within [.evr, .mcs, .media, .sce, .scu, .ple, .free] s (bandCheck s) :=
  .ite (.ite (.mono (modScu_within fun _ h => h)) <| .ite loseSync_within.mono .refl) .refl

theorem endFloat_within {f s} : Within [.scu] s (endFloat f s) := modScu_within fun _ h => h

theorem bemfZeroCrossing_within {i s} : Within [.evr, .mcs, .media, .sce, .scu, .ple, .free] s (bemfZeroCrossing i s) :=
  .ite .refl <| .after bandCheck_within <| .after endFloat_within <|
      .ite (.whenTrue enterBemf_within.mono <| .after (modScu_within fun _ h => h) <| .mono (modScu_within fun _ h => h)) <|
      .ite (.after catchCross_within <| .mono (modScu_within fun _ h => h)) <| .whenTrue checkFloat_within.mono <|
      .mono (modScu_within fun _ h => h)

theorem floatWindowClose_within {late s} : Within [.scu] s (floatWindowClose late s) :=
  .ite .refl <| .after endFloat_within <| .after (modScu_within fun _ h => h) <|
      .ite (.mono (scuReg_within fun _ h => incR_twf _ _ _ h)) .refl

theorem pickSource_within {s} : Within [.scu] s (pickSource s) :=
  .ite (.whenTrue (.mono (modScu_within fun _ h => h)) <| .after (modScu_within fun _ h => h) <| scuEnter_within.mono) <|
      .ite (.after (modScu_within fun _ h => h) <| scuEnter_within.mono) <| .mono (modScu_within fun _ h => h)

theorem rampStep_within {s} : Within [.scu] s (rampStep s) := .ite (.mono (modScu_within fun _ h => h)) .refl

theorem observerStep_canon {u} (hc : Canon Scu.csr u) : Canon Scu.csr (observerStep u) := hc

theorem countTurn_canon {was now u} (hc : Canon Scu.csr u) : Canon Scu.csr (countTurn was now u) :=
  Canon.ite (Canon.ite hc hc) hc

theorem computeDuties_within {i s} : Within [.scu] s (computeDuties i s) := by
  unfold computeDuties
  exact .after (modScu_within fun _ h => h) <| .mono (modScu_within fun _ h => countTurn_canon h)

theorem chopper_within {s} : Within [.scu] s (chopper s) :=
  .ite (.mono (scuReg_within fun _ h => wrB_twf _ _ _ h)) <| .ite (.mono (scuReg_within fun _ h => wrB_twf _ _ _ h)) .refl

theorem brakeThresholds_within {s} : Within [.sys, .evr, .mck, .mem, .scu, .bmc, .clp, .free] s (brakeThresholds s) :=
  .ite (.ite (.mono (modScu_within fun _ h => h)) <| .after scuEnter_within <| scuEvt_within.mono) <|
      .ite (.after enterFault_within <| .after machineCheck_within <| scuEvt_within.mono) .refl

theorem speedThresholds_within {s} : Within [.sce, .scu] s (speedThresholds s) :=
  .ite (.after (modScu_within fun _ h => h) <| .ite (forMcs_within fun _ _ => unload_within.mono) .refl) <|
      .whenTrue enterCoast_within.mono <| .ite (forMcs_within fun _ _ => unload_within.mono) .refl

theorem pwmHalf_within {i s} : Within [.sys, .evr, .mck, .mem, .sce, .scu, .bmc, .clp, .free] s (pwmHalf i s) := by
  unfold pwmHalf
  exact .after (modScu_within fun _ h => h) <| .after computeDuties_within <| .after pinsFollow_within <|
      .after rampStep_within <| .after (scuReg_within fun _ h => wrB_twf _ _ _ h) <| .after (modScu_within fun _ h => h) <|
      .whenTrue rectifyStep_within.mono <| .whenFalse (.after speedThresholds_within <| .after brakeThresholds_within <|
      chopper_within.mono) <| .after (scuReg_within fun _ h => wrF_twf _ _ _ h) <| .after pickSource_within <|
      .after (modScu_within fun _ h => observerStep_canon h) <| .mono (scuReg_within fun _ h => wrB_twf _ _ _ (wrF_twf _ _ _ h))

theorem scuClrCnt_within {s} : Within [.scu] s (scuClrCnt s) :=
  scuReg_within fun _ h => wr_twf _ _ _ (wr_twf _ _ _ (wr_twf _ _ _ h))

/-- What the fold does to the ledger's registers: nothing. -/
theorem addMeters_canon {g : Elg → Nat × Int → Elg} {l : List (Nat × Int)} {e : Elg} (hg : ∀ e a, (g e a).csr = e.csr)
    (h : Canon Elg.csr e) : Canon Elg.csr (l.foldl g e) := by
  induction l generalizing e with
  | nil => exact h
  | cons a l ih => exact ih (by rw [Canon, hg]; exact h)

/-! ### The operations of Sys2Proof/Machine/Energy.lean -/

theorem meterSample_within {i s} : Within [.pins, .elg] s (meterSample i s) := by
  unfold meterSample
  exact .after (modElg_within fun _ => addMeters_canon fun _ _ => rfl) <| .mono .setPins

theorem meterBinEnd_within {s} : Within [.elg] s (meterBinEnd s) := modElg_within fun _ h => h

theorem mtrLoRead_within {s} : Within [.sys, .elg] s (mtrLoRead s) :=
  .after (.setSys fun h => h) <| .mono (modElg_within fun _ h => h)

theorem noteSpeed_within {s} : Within [.elg] s (noteSpeed s) := modElg_within fun _ h => Canon.ite h (Canon.ite h h)

theorem testDump_within {v s} : Within [.elg, .free] s (testDump v s) := .ite dcostMeasure_within.mono .refl

theorem settleWt_within {s} : Within [.evr, .elg, .free] s (settleWt s) :=
  .ite (.after (modElg_within fun _ h => h) <| .ite .refl <| .after energyEvent_within <|
      .after (elgReg_within fun _ h => incF_twf (wrB_twf _ _ _ h)) <| .mono (modElg_within fun _ h => h)) <|
      .ite (.after energyEvent_within <| .mono (modElg_within fun _ h => h)) <| .mono (modElg_within fun _ h => h)

theorem startPredump_within {s} : Within [.evr, .nv, .elg, .free] s (startPredump s) :=
  .ite .refl <| .after energyEvent_within <| .after .setNv <| .mono (modElg_within fun _ h => h)

theorem reserveRecompute_within {s} : Within [.evr, .nv, .elg, .free] s (reserveRecompute s) :=
  .whenTrue startPredump_within.mono <| .after settleWt_within <|
      .whenTrue (.mono (elgReg_within fun _ h => wr_twf _ _ _ (wr_twf _ _ _ h))) <|
      .after (elgReg_within fun _ h => wr_twf _ _ _ h) <| noteSpeed_within.mono

theorem capSettle_within {s} : Within [.elg] s (capSettle s) := by
  unfold capSettle
  exact .mono (modElg_within fun _ h => h)

theorem stepDown_within {s} : Within [.elg] s (stepDown s) := modElg_within fun _ h => h

theorem govWeights_within {s} : Within [.ple] s (govWeights s) := .setPle fun h => wrB_twf _ _ _ (wrF_twf _ _ _ h)

theorem governorWindowEnd_within {pIdle pMc s} : Within [.ple, .elg] s (governorWindowEnd pIdle pMc s) :=
  .after govWeights_within <| .ite (.whenTrue (.mono (modElg_within fun _ h => h)) <| .after stepDown_within <|
      .after capSettle_within <| .mono (modElg_within fun _ h => h)) <| by
  split
  · exact .after capSettle_within <| .mono (modElg_within fun _ h => h)
  · exact .ite (.ite
           (.after (modElg_within fun _ h => h) <| .after capSettle_within <| .mono (modElg_within fun _ h => h)) <|
               .after (modElg_within fun _ h => h) <| .after capSettle_within <| .mono (modElg_within fun _ h => h)) <|
               .after (modElg_within fun _ h => h) <| .after capSettle_within <| .mono (modElg_within fun _ h => h)

theorem vcoreStep_within {lower s} : Within [.elg] s (vcoreStep lower s) :=
  .ite (.mono (elgReg_within fun _ h => wrF_twf _ _ _ h)) <| .ite (.mono (elgReg_within fun _ h => wrF_twf _ _ _ h)) <|
      .ite (.mono (elgReg_within fun _ h => wrF_twf _ _ _ h)) <| .ite (.mono (elgReg_within fun _ h => wrF_twf _ _ _ h)) <|
      .ite (.mono (elgReg_within fun _ h => wrF_twf _ _ _ h)) <| .ite (.mono (elgReg_within fun _ h => wrF_twf _ _ _ h)) .refl

/-! ### The operations of Sys2Proof/Machine/TdlLink.lean -/

theorem modTdl_within {f s} (h : ∀ u, Canon Tdl.csr u → Canon Tdl.csr (f u)) : Within [.tdl] s (modTdl f s) := .setTdl (h _)

theorem tdlReg_within {f s} (h : ∀ c, twf 0 c = true → twf 0 (f c) = true) : Within [.tdl] s (tdlReg f s) :=
  modTdl_within fun _ => h _

theorem sendFlit_within {mirror s} : Within [.tdl] s (sendFlit mirror s) :=
  .ite (.after (tdlReg_within fun _ h => wrF_twf _ _ _ h) <| .mono (modTdl_within fun _ h => h)) <|
      .after (tdlReg_within fun _ h => wrF_twf _ _ _ h) <| .mono (modTdl_within fun _ h => h)

theorem pump_within {n s} : Within [.tdl] s (pump n s) := by
  induction n generalizing s with
  | zero => exact .refl
  | succ n ih => exact .ite .refl <| .ite (.comp ih sendFlit_within) <| .ite (.comp ih sendFlit_within) .refl

theorem sendCtrl_within {m s} : Within [.tdl] s (sendCtrl m s) := .after pump_within <| .mono (modTdl_within fun _ h => h)

theorem sendRead_within {tag vals s} : Within [.tdl] s (sendRead tag vals s) :=
  .after pump_within <| .mono (modTdl_within fun _ h => h)

theorem sendMirror_within {r s} : Within [.tdl] s (sendMirror r s) := .after pump_within <| .mono (modTdl_within fun _ h => h)

theorem resendFrom_within {mseq s} : Within [.tdl] s (resendFrom mseq s) :=
  .after pump_within <| .mono (modTdl_within fun _ h => h)

theorem linkDown_within {s} : Within [.evr, .tdl, .free] s (linkDown s) :=
  .ite (.after pairEvent_within <| .mono (tdlReg_within fun _ h => incR_twf _ _ _ (wrB_twf _ _ _ h))) .refl

theorem resendFlits_within {s} : Within [.evr, .tdl, .free] s (resendFlits s) :=
  .whenTrue linkDown_within.mono <| .after (modTdl_within fun _ h => h) <| .mono (tdlReg_within fun _ h => incR_twf _ _ _ h)

theorem ackFlits_within {a s} : Within [.tdl] s (ackFlits a s) := modTdl_within fun _ h => h

theorem takeHeader_within {h s} : Within [.tdl] s (takeHeader h s) :=
  .after pump_within <| .after (modTdl_within fun _ h => h) <|
      .after (tdlReg_within fun _ h => wrB_twf _ _ _ (wrF_twf _ _ _ (wrF_twf _ _ _ h))) <|
      .ite (.mono (tdlReg_within fun _ h => incR_twf _ _ _ h)) <| ackFlits_within.mono

theorem pairLost_within {s} : Within [.elg] s (pairLost s) := elgReg_within fun _ h => wrB_twf _ _ _ h

/-! ### The operations of Sys2Proof/Machine/MsqJobs.lean -/

theorem storeScrub_within {k a imgBad s} : Within [.sys, .evr, .mck, .mcs, .free] s (storeScrub k a imgBad s) := by
  unfold storeScrub
  split
  · exact .ite .refl <| .after reloadWord_within <| mcCount_within.mono
  · exact .refl

theorem stAdvance_canon {m} (hc : Canon Mc.csr m) : Canon Mc.csr (stAdvance m) :=
  Canon.ite (Canon.ite (wrF_twf _ _ _ (wrF_twf _ _ _ hc)) (wrF_twf _ _ _ hc)) hc

theorem stRead_canon {m} (h : Canon Mc.csr m) : Canon Mc.csr (stRead m).2 := stAdvance_canon (.ite h h)

theorem readsZero_within {s} : Within [.sys] s (readsZero s) := .setSys fun h => h

theorem storeLane0Read_within {k s} : Within [.sys, .mcs] s (storeLane0Read k s) :=
  .ite readsZero_within.mono <| .ite (.after (.setSys fun h => h) <| .mono (setMc_within fun h => stRead_canon h)) .refl

theorem stWrite_canon {w m} (hc : Canon Mc.csr m) : Canon Mc.csr (stWrite w m) :=
  stAdvance_canon (Canon.ite hc (Canon.ite hc hc))

theorem storeWordCommit_within {k w s} : Within [.mcs] s (storeWordCommit k w s) :=
  modMc_within fun _ h => Canon.ite (stWrite_canon h) h

theorem jtArm_within {k e s} : Within [.mcs] s (jtArm k e s) :=
  .ite (.whenTrue (.mono (modMc_within fun _ h => endUnrun_canon h)) <| .mono (mcReg_within fun _ h => wrB_twf _ _ _ h)) <|
      .mono (modMc_within fun _ h => jtSetState_canon (wrB_twf _ _ _ h))

theorem jtCancel_within {k e s} : Within [.mcs, .ple] s (jtCancel k e s) := by
  unfold jtCancel
  dsimp only
  split
  · exact .after jobEndHook_within <| .after (modMc_within fun _ h => endUnrun_canon h) <|
        .mono (mcReg_within fun _ h => wrB_twf _ _ _ h)
  · exact .after modJob_within <| .mono (mcReg_within fun _ h => wrB_twf _ _ _ h)
  · exact .mono (mcReg_within fun _ h => wrB_twf _ _ _ h)
  · exact .mono (mcReg_within fun _ h => wrB_twf _ _ _ h)

theorem cancelEffect_within {k s} : Within [.mcs, .media, .ple] s (cancelEffect k s) := by
  unfold cancelEffect
  split
  · exact .refl
  · exact .ite (.after endJob_within <| slotEnd_within.mono) .refl

theorem startJob_within {k e s} : Within [.mcs, .sce, .ple] s (startJob k e s) :=
  .ite (.after jobEndHook_within <| .after (modMc_within fun _ h => endUnrun_canon h) <|
      .mono (mcReg_within fun _ h => wrF_twf _ _ _ (wrF_twf _ _ _ (wrB_twf _ _ _ h)))) <|
      .ite (.after jobEndHook_within <| .mono (modMc_within fun _ h => endUnrun_canon h)) <| .after sceReaderOfs_within <|
      .mono (modMc_within fun _ h => jtSetState_canon (afePut_canon h))

theorem jobBegin_within {k e lateArm s} : Within [.mcs, .sce, .ple] s (jobBegin k e lateArm s) :=
  .ite .refl <| .ite (.after mcCount_within <| .mono (modMc_within fun _ h => h)) <| .ite (.ite
       (.after jobEndHook_within <| .mono (modMc_within fun _ h => endUnrun_canon h)) <| .after mcCount_within <|
           .mono (modMc_within fun _ h => h)) <| startJob_within.mono

theorem msqEnWrite_within {k b s} : Within [.mcs] s (msqEnWrite k b s) :=
  modMc_within fun _ h => Canon.ite (wrB_twf _ _ _ h) (Canon.ite h (wrB_twf _ _ _ h))

theorem jtDoneClear_within {k e s} : Within [.mcs] s (jtDoneClear k e s) :=
  modMc_within fun _ h => Canon.ite (jtDone_canon (jtSetState_canon h)) h

theorem evtLo_canon {m} (h : Canon Mc.csr m) : Canon Mc.csr (evtLo m).2 := by
  unfold evtLo
  split <;> exact h

theorem evtHi_canon {m} (h : Canon Mc.csr m) : Canon Mc.csr (evtHi m).2 := by
  unfold evtHi
  split <;> exact h

theorem traceOut_canon {m} (hc : Canon Mc.csr m) : Canon Mc.csr (traceOut m).2 := hc

theorem mcReadOut_within {k f s} (h : ∀ m, Canon Mc.csr m → Canon Mc.csr (f m).2) : Within [.sys, .mcs] s (mcReadOut k f s) :=
  .after (.setSys fun h => h) <| .mono (setMc_within (h _))

theorem clrEvt_within {k s} : Within [.mcs] s (clrEvt k s) := modMc_within fun _ h => h

theorem clrTrace_within {k s} : Within [.mcs] s (clrTrace k s) := modMc_within fun _ h => h

theorem clrMsqCnt_within {k s} : Within [.mcs] s (clrMsqCnt k s) := mcReg_within fun _ h => tdrop_twf h

theorem loadRegion_canon {img m} (hc : Canon Mc.csr m) : Canon Mc.csr (loadRegion img m) := hc

/-! ### The operations of Sys2Proof/Machine/PlaceMap.lean -/

theorem modPle_within {f s} (h : ∀ u, Canon Ple.csr u → Canon Ple.csr (f u)) : Within [.ple] s (modPle f s) := .setPle (h _)

theorem modMap_within {f s} : Within [.ple] s (modMap f s) := modPle_within fun _ h => h

theorem pleReg_within {f s} (h : ∀ c, twf 0 c = true → twf 0 (f c) = true) : Within [.ple] s (pleReg f s) :=
  modPle_within fun _ => h _

theorem modSched_within {k f s} : Within [.ple] s (modSched k f s) := modPle_within fun _ h => h

theorem putBand_within {b x s} : Within [.ple] s (putBand b x s) := modMap_within

theorem modBand_within {b f s} : Within [.ple] s (modBand b f s) := by
  unfold modBand
  split
  · exact .refl
  · exact putBand_within.mono

theorem trimExtents_within {nsx lo n s} : Within [.ple] s (trimExtents nsx lo n s) := modMap_within

theorem putExtent_within {e s} : Within [.ple] s (putExtent e s) := modMap_within

theorem putZone_within {nsx z x s} : Within [.ple] s (putZone nsx z x s) := modMap_within

theorem journalFor_within {slot ops assigned s} : Within [.tdl, .ple] s (journalFor slot ops assigned s) :=
  .whenTrue sendMirror_within.mono <| .mono (modPle_within fun _ h => h)

theorem journal_within {ops s} : Within [.tdl, .ple] s (journal ops s) := journalFor_within.mono

theorem freePools_within {s} : Within [.ple] s (freePools s) := modMap_within

theorem putBands_within {f s} : Within [.tdl, .ple] s (putBands f s) :=
  .ite .refl <| .after journal_within <| modMap_within.mono

theorem freeBands_within {s} : Within [.tdl, .ple] s (freeBands s) := .after putBands_within <| freePools_within.mono

theorem echoJobsEnd_within {p s} : Within [.tdl, .ple] s (echoJobsEnd p s) :=
  .comp (.foldl fun _ _ => modSched_within.mono) <| .after (.setTdl fun h => h) <| .mono (modPle_within fun _ h => h)

theorem echoAbandon_within {idx copy s} : Within [.tdl, .ple] s (echoAbandon idx copy s) := by
  unfold echoAbandon
  split
  · exact .refl
  · exact .ite .refl <| .after modMap_within <| echoJobsEnd_within.mono

theorem echoDropMark_within {idx copy s} : Within [.tdl, .ple] s (echoDropMark idx copy s) := by
  unfold echoDropMark
  split
  · exact .refl
  · exact .ite echoAbandon_within.mono <| .ite .refl <| modMap_within.mono

theorem dropCopies_within {p s} : Within [.tdl, .ple] s (dropCopies p s) :=
  .foldl fun _ _ => .after echoDropMark_within <| echoDropMark_within.mono

theorem dropCopiesIn_within {p s} : Within [.tdl, .ple] s (dropCopiesIn p s) := .foldl fun _ _ => by
    split
    · exact .whenTrue echoDropMark_within.mono <| .ite echoDropMark_within.mono .refl
    · exact .refl

theorem dropColdest_within {s} : Within [.tdl, .ple] s (dropColdest s) := by
  unfold dropColdest
  dsimp only
  split
  · exact .refl
  · exact dropCopies_within.mono

theorem updateMapState_within {s} : Within [.evr, .tdl, .ple, .free] s (updateMapState s) :=
  .whenTrue dropColdest_within.mono <| .whenTrue mediaEvent_within.mono <| .mono (modPle_within fun _ h => h)

theorem dropEchoes_within {nsx lo n s} : Within [.tdl, .ple] s (dropEchoes nsx lo n s) :=
  .ite .refl <| .after modMap_within <| echoJobsEnd_within.mono

theorem putDirty_within {l key s} : Within [.ple] s (putDirty l key s) := by
  induction l generalizing key s with
  | nil => exact .refl
  | cons v l ih => exact .comp ih <| .comp modMap_within <| modPle_within fun _ h => h

theorem dropDirty_within {lo n s} : Within [.ple] s (dropDirty lo n s) := by
  unfold dropDirty
  exact .after modMap_within <| .mono (modPle_within fun _ h => h)

/-! ### The operations of Sys2Proof/Machine/Homes.lean -/

theorem takeBand_within {use cls role peer b s} : Within [.tdl, .ple] s (takeBand use cls role peer b s) := by
  unfold takeBand
  split
  · exact .refl
  · exact .after journal_within <| .after putBand_within <| modMap_within.mono

theorem takeMembers_within {use cls ms s} : Within [.tdl, .ple] s (takeMembers use cls ms s) :=
  .foldl fun _ _ => takeBand_within.mono

theorem noteBinding_within {b s} : Within [.ple] s (noteBinding b s) := modPle_within fun _ h => h

theorem noteStream_within {stream nsx ms s} : Within [.ple] s (noteStream stream nsx ms s) := by
  unfold noteStream
  split
  · split
    · exact .mono (modPle_within fun _ h => h)
    · exact .refl
  · exact .refl

theorem takeHome_within {w n lba temp reason stream s} r (hr : takeHome w n lba temp reason stream s = some r) :
    Within [.tdl, .ple] s r.2 := by
  obtain ⟨ms, -, rfl⟩ := Option.map_eq_some_iff.mp hr
  exact .after noteStream_within <| .after noteBinding_within <| takeMembers_within.mono

theorem bindZone_within {n z stream s} : WithinSome [.tdl, .ple] s (bindZone n z stream s) := by
  intro t ht
  unfold bindZone at ht
  dsimp only at ht
  split at ht
  · cases ht
    exact .refl
  · obtain ⟨r, hr, rfl⟩ := Option.map_eq_some_iff.mp ht
    exact .after journal_within <| .after putZone_within <| .mono (takeHome_within _ hr)

theorem streamHome_fresh_within {n lba stream s key} r (hr : streamHome.fresh n lba stream s key = some r) :
    Within [.tdl, .ple] s r.2 := by
  unfold streamHome.fresh at hr
  obtain ⟨⟨l, t⟩, home, rfl⟩ := Option.map_eq_some_iff.mp hr
  dsimp only
  exact .after (modPle_within fun _ h => h) (takeHome_within _ home)

theorem streamHome_within {n id lba stream s} r (hr : streamHome n id lba stream s = some r) : Within [.tdl, .ple] s r.2 := by
  unfold streamHome at hr
  dsimp only at hr
  split at hr
  · split at hr
    · cases hr
      exact .refl
    · exact streamHome_fresh_within _ hr
  · exact streamHome_fresh_within _ hr

theorem recordPlan_within {mc head track data par s} : Within [.tdl, .ple] s (recordPlan mc head track data par s) :=
  .after journal_within <| modMap_within.mono

theorem replan_within {addr s} : Within [.tdl, .ple] s (replan addr s) := by
  unfold replan
  split
  · exact .refl
  · exact .after journal_within <| modMap_within.mono

theorem stagingHome_within {n stream lba d s} r (hr : stagingHome n stream lba d s = some r) : Within [.tdl, .ple] s r.2 := by
  unfold stagingHome at hr
  dsimp only at hr
  split at hr
  · cases hr
    exact .refl
  · split at hr
    · cases hr
    · split at hr
      · cases hr
        exact .after noteStream_within <| .after noteBinding_within <| takeMembers_within.mono
      · cases hr

/-! ### The operations of Sys2Proof/Machine/MapOps.lean -/

theorem addParity_within {n z o v s} : Within [.ple] s (addParity n z o v s) := .ite modMap_within.mono .refl

theorem zoneTo_within {key wp s} : Within [.ple] s (zoneTo key wp s) := by
  unfold zoneTo
  split
  · exact .after putZone_within <| .foldl fun _ _ => addParity_within.mono
  · exact .refl

theorem zoneBack_within {key y s} : Within [.ple] s (zoneBack key y s) := by
  unfold zoneBack
  split
  · exact .ite modMap_within.mono <| .foldl fun _ _ => addParity_within.mono
  · exact .refl

theorem setBand_within {b f s} : Within [.tdl, .ple] s (setBand b f s) := putBands_within.mono

theorem keepKeys_within {s} : Within [.nv] s (keepKeys s) := .mono .setNv

theorem applyOp_within {s a} : Within [.tdl, .ple] s (applyOp s a) := by
  unfold applyOp
  split
  · exact modMap_within.mono
  · exact modMap_within.mono
  · exact .after modMap_within <| .after trimExtents_within <| dropEchoes_within.mono
  · dsimp only
    split
    · exact .whenTrue putZone_within.mono <| .after putExtent_within <| trimExtents_within.mono
    · exact .after putExtent_within <| trimExtents_within.mono
  · exact .after modMap_within <| zoneBack_within.mono
  · exact zoneTo_within.mono
  · exact .after modMap_within <| .after modMap_within <| by
      split
      · exact .ite .refl <| modMap_within.mono
      · exact .refl
  · exact modMap_within.mono
  · exact modMap_within.mono
  · exact modMap_within.mono
  · exact modMap_within.mono
  · exact .after modMap_within <| dropEchoes_within.mono
  · exact modMap_within.mono
  · exact modMap_within.mono
  · exact modMap_within.mono
  · exact modMap_within.mono
  · exact modMap_within.mono
  · exact .refl

/-! ### The operations of Sys2Proof/Machine/Sched.lean -/

theorem modSlot_within {n f s} : Within [.hqe] s (modSlot n f s) := by
  unfold modSlot
  split
  · exact .refl
  · exact .mono (.setHqe fun h => h)

theorem noteHost_within {k cls s} : Within [.ple] s (noteHost k cls s) := .ite modSched_within.mono .refl

theorem writeBegun_within {c s} : Within [.hqe] s (writeBegun c s) := by
  unfold writeBegun
  split
  · exact modSlot_within.mono
  · exact .refl

theorem queueCand_within {c s} : Within [.tdl, .ple, .hqe] s (queueCand c s) :=
  .ite (.after modSched_within <| noteHost_within.mono) <|
      .ite (.after writeBegun_within <| .after sendCtrl_within <| .after (modTdl_within fun _ h => h) <|
      noteHost_within.mono) <| by
  split
  · exact .after modSched_within <| noteHost_within.mono
  · exact .after sendCtrl_within <| .after (modTdl_within fun _ h => h) <| .after (modPle_within fun _ h => h) <|
        noteHost_within.mono

theorem enterCand_within {c s} : Within [.tdl, .ple, .hqe] s (enterCand c s) :=
  .after queueCand_within <| .mono (modPle_within fun _ h => h)

theorem reenter_within {c s} : Within [.tdl, .ple, .hqe] s (reenter c s) := queueCand_within.mono

theorem enterReads_within {cls kind claim echo es s} : Within [.tdl, .ple, .hqe] s (enterReads cls kind claim echo es s) :=
  .foldl fun _ _ => by
    split
    · exact .refl
    · exact enterCand_within.mono

theorem withdraw_within {p s} : Within [.mcs, .tdl, .ple] s (withdraw p s) := by
  unfold withdraw
  exact .comp (forMcs_within fun _ _ => .comp (.foldl fun _ _ => jtCancel_within.mono) <| .after modSched_within <|
      .ite noteHost_within.mono .refl) <| .foldl fun _ _ => .after sendCtrl_within <| .mono (modTdl_within fun _ h => h)

theorem reclass_within {k s} : Within [.ple] s (reclass k s) := by
  unfold reclass
  exact modSched_within.mono

theorem fillReady_within {k s} : Within [.ple] s (fillReady k s) := by
  unfold fillReady
  exact modSched_within.mono

theorem pinEcho_within {c up s} : Within [.ple] s (pinEcho c up s) := .ite .refl <| modMap_within.mono

theorem decide_within {k n s} : Within [.ple] s (decide_ k n s).2 := by
  induction n generalizing s with
  | zero => exact .refl
  | succ n ih =>
    unfold decide_
    split
    · exact .refl
    · dsimp only
      split
      · split
        · exact .comp ih modSched_within
        · exact .refl
      · split
        · exact .comp ih modSched_within
        · exact .refl

theorem countDecision_within {k r c s} : Within [.ple] s (countDecision k r c s) := by
  unfold countDecision
  exact modSched_within.mono

/-- What the fold does to a channel's registers: nothing. -/
theorem foldl_jtPut_canon {e : Nat} {words : List Word} {l : List Nat} {m : Mc} (h : Canon Mc.csr m) :
    Canon Mc.csr (l.foldl (fun m d => jtPut e d (words.getD d 0) m) m) := by
  induction l generalizing m with
  | nil => exact h
  | cons d l ih => exact ih (jtPut_canon h)

theorem buildJob_within {k i c page s} :
    Within [.sys, .evr, .mck, .mcs, .mem, .staging, .ple, .bmc, .free] s (buildJob k i c page s) := by
  unfold buildJob
  extract_lets n words block data put staged u v
  clear_value words block staged
  exact .after (modMc_within fun _ h => foldl_jtPut_canon h) <| .after bufPut_within <|
      .after (modPle_within fun _ h => h) <| .mono .setStaging

theorem freeJob_within {k e s} : Within [.ple] s (freeJob k e s) := modPle_within fun _ h => h

theorem armCand_within {k i c s} :
    Within [.sys, .evr, .mck, .mcs, .mem, .staging, .tdl, .ple, .bmc, .free] s (armCand k i c s) := by
  unfold armCand
  extract_lets ask early
  refine .ite (.after sendCtrl_within <| .mono <| modTdl_within fun _ h => h) <| .ite .refl ?_
  split
  · exact .refl
  · extract_lets t
    have armed : Within [.sys, .evr, .mck, .mcs, .mem, .staging, .tdl, .ple, .bmc, .free] s t :=
        .after jtArm_within buildJob_within.mono
    clear_value t
    exact .ite (.after pinEcho_within <| .after modSched_within <|
        .ite (.after withdraw_within <| .after (modPle_within fun _ h => h) armed) armed) <| .after freeJob_within armed

/-! ### The operations of Sys2Proof/Machine/Destage.lean -/

theorem putStripe_within {band kind cls est track slots es holes s} :
    Within [.tdl, .ple, .hqe] s (putStripe band kind cls est track slots es holes s) := by
  unfold putStripe
  split
  · exact .refl
  · exact .after enterCand_within <| modBand_within.mono

theorem enterStripe_within {band est s} : Within [.tdl, .ple, .hqe] s (enterStripe band est s) := by
  unfold enterStripe
  split
  · exact .refl
  · exact .ite .refl <| by
      split
      · exact .refl
      · exact .ite .refl <| putStripe_within.mono

theorem stageStripe_within {n kind cls est es s} r (hr : stageStripe n kind cls est es s = some r) :
    Within [.tdl, .ple, .hqe] s r.1 := by
  have put {t q k c e i d l z b h u par} : Within [.tdl, .ple, .hqe] t (putStripe q k c e i d l z (recordPlan b h u d par t)) :=
    .comp putStripe_within recordPlan_within.mono
  unfold stageStripe at hr
  dsimp only at hr
  split at hr
  · cases hr
  · rename_i home
    cases hr
    refine .comp (.foldl fun t q => ?_) (.mono <| stagingHome_within _ home)
    split
    · exact .refl
    · split
      · exact .refl
      · exact .ite put <| .after setBand_within put

theorem stageStripe_map_within {n kind cls est es s} :
    WithinSome [.tdl, .ple, .hqe] s ((stageStripe n kind cls est es s).map Prod.fst) := by
  intro t ht
  obtain ⟨r, hr, rfl⟩ := Option.map_eq_some_iff.mp ht
  exact stageStripe_within r hr

theorem enterLoose_within {keys est s} : Within [.tdl, .ple, .hqe] s (enterLoose keys est s) := by
  have staged {n kind cls es} : Within [.tdl, .ple, .hqe] s (((stageStripe n kind cls est es s).map Prod.fst).getD s) :=
    .getD stageStripe_map_within .refl
  unfold enterLoose
  dsimp only
  split
  · exact .refl
  · refine .ite .refl <| .ite (.ite staged .refl) <| .ite staged ?_
    split
    · exact .refl
    · rename_i home
      split
      · exact .refl
      · exact .ite .refl <| .after putStripe_within <| .mono <| streamHome_within _ home

theorem enterDestage_within {r s} : Within [.tdl, .ple, .hqe] s (enterDestage r s) := by
  unfold enterDestage
  split
  · exact enterStripe_within.mono
  · exact enterLoose_within.mono

/-- Operations for the elements of a list, each of which may stop the rest, and which count. -/
theorem foldl_count_within {F} {α : Type} {f : α → State → Option (State × Nat)} {l : List α} {p : State × Nat}
    (hf : ∀ x s r, f x s = some r → Within F s r.1) r
    (hr : l.foldl (fun (r : Option (State × Nat)) x => match r with
      | none => none
      | some (s, k) => (f x s).map (fun y => (y.1, k + y.2))) (some p) = some r) : Within F p.1 r.1 := by
  induction l generalizing p with
  | nil =>
    cases hr
    exact .refl
  | cons x l ih =>
    rw [List.foldl_cons] at hr
    dsimp only at hr
    cases hx : f x p.1 with
    | none =>
      have none_stays (l : List α) : l.foldl (fun (r : Option (State × Nat)) x => match r with
          | none => none
          | some (s, k) => (f x s).map (fun y => (y.1, k + y.2))) none = none := by
        induction l with
        | nil => rfl
        | cons y l ih => exact ih
      rw [hx, Option.map_none, none_stays] at hr
      cases hr
    | some y =>
      rw [hx] at hr
      exact .comp (ih hr) (hf x p.1 y hx)

theorem stageOut_within {slot n es s} r (hr : stageOut slot n es s = some r) : Within [.tdl, .ple, .hqe] s r.1 :=
  foldl_count_within (f := fun l s => stageStripe n (fun q => .destage q (some slot)) (wtClass s slot) 0 l s)
    (p := (s, 0)) (fun _ _ _ h => stageStripe_within _ h) r hr

theorem coverStripes_within {slot band at_ top n s} : Within [.tdl, .ple, .hqe] s (coverStripes slot band at_ top n s).1 := by
  induction n generalizing s with
  | zero => exact .refl
  | succ n ih =>
    unfold coverStripes
    split
    · exact .refl
    · split
      · exact .refl
      · exact .comp ih putStripe_within

theorem passStripe_within {band d s} : Within [.ple] s (passStripe band d s) := modBand_within

theorem passEmpty_within {band d s} : Within [.ple] s (passEmpty band d s) := .after passStripe_within <| modBand_within.mono

theorem cleanKey_within {key v s} : Within [.ple] s (cleanKey key v s) := .ite dropDirty_within.mono .refl

theorem markClean_within {es s} : Within [.tdl, .ple] s (markClean es s) :=
  .ite (.mono (modTdl_within fun _ h => h)) <| .foldl fun _ _ => cleanKey_within.mono

theorem mapSector_within {n lba a s} : Within [.ple] s (mapSector n lba a s) :=
  .after putExtent_within <| .whenTrue putZone_within.mono <| trimExtents_within.mono

theorem settleSum_within {key s} : Within [.ple] s (settleSum key s) := .ite modMap_within.mono .refl

theorem settleParity_within {key v h s} : Within [.ple] s (settleParity key v h s) :=
  .ite settleSum_within.mono <| modBand_within.mono

theorem settlePool_within {n key v h s} : Within [.ple] s (settlePool n key v h s) :=
  .ite (.whenTrue settleSum_within.mono <| .mono (modPle_within fun _ h => h)) .refl

theorem settleSector_within {wt key v h s} : Within [.tdl, .ple, .hqe] s (settleSector wt key v h s) :=
  .ite .refl <| .ite (.mono (modPle_within fun _ h => h)) <| .ite settleParity_within.mono <| by
  split
  · exact .refl
  · exact .ite settlePool_within.mono <| by
      dsimp only
      split
      · exact .ite .refl <| modSlot_within.mono
      · exact .ite .refl <| .ite (.ite markClean_within.mono .refl) <| .ite .refl <| .after markClean_within <|
            .after journal_within <| mapSector_within.mono

theorem wtDone_within {slot s} : Within [.tdl, .ple, .hqe] s (wtDone slot s) := by
  unfold wtDone
  split
  · exact .refl
  · exact .ite (.after modSlot_within <| journalFor_within.mono) <| modSlot_within.mono

theorem stripeDone_within {c band wt upto s} : Within [.evr, .tdl, .ple, .hqe, .free] s (stripeDone c band wt upto s) := by
  unfold stripeDone
  split
  · exact .refl
  · exact .after updateMapState_within <| .after journal_within <| .comp (.foldl fun _ _ => settleSector_within.mono) <|
        passStripe_within.mono

theorem restage_within {slot es s} : WithinSome [.tdl, .ple, .hqe] s (restage slot es s) := by
  intro t ht
  unfold restage at ht
  dsimp only at ht
  split at ht
  · cases ht
    exact wtDone_within
  · split at ht
    · cases ht
    · obtain ⟨r, hr, rfl⟩ := Option.map_eq_some_iff.mp ht
      exact .after modSlot_within <| stageOut_within r hr

theorem restageLater_within {slot es s} : Within [.tdl, .ple, .hqe] s (restageLater slot es s) :=
  .getD restage_within <| .mono <| modPle_within fun _ h => h

theorem restagePump_within {s} : Within [.tdl, .ple, .hqe] s (restagePump s) := .comp (.foldl fun _ _ => by
    split
    · exact .ite .refl <| restageLater_within.mono
    · exact .refl) <| .mono (modPle_within fun _ h => h)

theorem dropRemake_within {band s} : Within [.tdl, .ple] s (dropRemake band s) :=
  .ite (.after setBand_within <| .mono (modPle_within fun _ h => h)) .refl

theorem dropCopied_within {key s} : Within [.ple] s (dropCopied key s) := by
  unfold dropCopied
  split
  · exact .after addParity_within <| .after (modPle_within fun _ h => h) <| .ite (by
         split
         · exact modBand_within.mono
         · exact .refl) .refl
  · exact .refl

theorem dropPool_within {keys s} : Within [.ple] s (dropPool keys s) := .foldl fun _ _ => dropCopied_within.mono

theorem loseWrite_within {c s} : Within [.tdl, .ple, .hqe] s (loseWrite c s) := by
  unfold loseWrite
  split
  · exact restageLater_within.mono
  · exact restageLater_within.mono
  · exact .mono (modPle_within fun _ h => h)
  · exact echoAbandon_within.mono
  · exact dropPool_within.mono

theorem shutPool_within {band s} : Within [.ple] s (shutPool band s) := by
  unfold shutPool
  split
  · exact .ite (.after dropPool_within <| putZone_within.mono) .refl
  · exact .refl

theorem failBand_within {band c s} : Within [.tdl, .ple, .hqe] s (failBand band c s) :=
  .after shutPool_within <| .after dropRemake_within <| .comp (.foldl fun _ _ => loseWrite_within.mono) <|
      .after setBand_within <| modSched_within.mono

theorem stripeFailed_within {c band cls s} : Within [.evr, .tdl, .ple, .hqe, .free] s (stripeFailed c band cls s) := by
  unfold stripeFailed
  split
  · exact .refl
  · exact .ite (.ite
           (.after updateMapState_within <| .after journal_within <| .after loseWrite_within <| passEmpty_within.mono) <|
               failBand_within.mono) <| .ite (.ite
           (.after updateMapState_within <| .after journal_within <| .after loseWrite_within <| passEmpty_within.mono) <|
               .after reenter_within <| .ite replan_within.mono .refl) <| by
      split
      · exact .refl
      · exact .after reenter_within <| .ite loseWrite_within.mono .refl

theorem closeDone_within {c band n wt good cls s} :
    Within [.evr, .tdl, .ple, .hqe, .free] s (closeDone c band n wt good cls s) :=
  .ite (by
     split
     · exact .refl
     · dsimp only
       split
       · exact .after restageLater_within <| .whenTrue dropRemake_within.mono <| .after dropPool_within <|
             .after stripeDone_within <| modBand_within.mono
       · exact .whenTrue dropRemake_within.mono <| .after dropPool_within <| .after stripeDone_within <|
             modBand_within.mono) <| .ite reenter_within.mono <|
             .ite (.after journal_within <| .after loseWrite_within <| passEmpty_within.mono) <| failBand_within.mono

theorem sealBands_within {s} : Within [.tdl, .ple] s (sealBands s) := putBands_within.mono

/-! ### The operations of Sys2Proof/Machine/Jobs.lean -/

theorem finish_within {n status dw0 dw1 s} : Within [.hqe] s (finish n status dw0 dw1 s) :=
  .after modSlot_within <| .mono (.setHqe fun h => h)

theorem setPart_within {n key v s} : Within [.hqe] s (setPart n key v s) := modSlot_within

theorem takeRead_within {n key v s} : Within [.hqe] s (takeRead n key v s) := by
  unfold takeRead
  split
  · exact .refl
  · split
    · exact setPart_within.mono
    · exact .refl
    · exact setPart_within.mono

theorem readSettled_within {n s} : Within [.hqe] s (readSettled n s) := by
  unfold readSettled
  split
  · exact .refl
  · exact .ite (.ite
           (.after finish_within <| modSlot_within.mono) <| .whenTrue finish_within.mono <| modSlot_within.mono) .refl

theorem slotWaited_within {n s} : Within [.hqe] s (slotWaited n s) := .after readSettled_within <| modSlot_within.mono

theorem relocLater_within {srcs s} : Within [.ple] s (relocLater srcs s) := modPle_within fun _ h => h

theorem rebuiltOut_within {key src dst v s} : Within [.tdl, .ple, .hqe] s (rebuiltOut key src dst v s) := by
  unfold rebuiltOut
  split
  · exact .mono <| modPle_within fun _ h => h
  · split
    · split
      · exact .after setBand_within <| modMap_within.mono
      · exact .refl
    · split
      · exact .refl
      · exact .getD stageStripe_map_within relocLater_within.mono

theorem rewriteSector_within {key src v s} : Within [.tdl, .ple, .hqe] s (rewriteSector key src v s) :=
  .ite .refl <| .after rebuiltOut_within <| noteDefect_within.mono

theorem sectorLost_within {slot key addr cls kind s} : Within [.tdl, .ple, .hqe] s (sectorLost slot key addr cls kind s) :=
  .ite setPart_within.mono <| by
  split
  · exact setPart_within.mono
  · exact .ite (.after rewriteSector_within <| setPart_within.mono) <| .comp (.foldl fun _ _ => enterCand_within.mono) <|
        .after modSlot_within <| setPart_within.mono

theorem startRebuild_within {key src dst s} : Within [.tdl, .ple, .hqe] s (startRebuild key src dst s) := .ite .refl <| by
  split
  · split
    · exact .mono (modPle_within fun _ h => h)
    · exact .refl
  · exact .ite rebuiltOut_within.mono <| .comp (.foldl fun _ _ => enterCand_within.mono) <| .mono (modPle_within fun _ h => h)

theorem rebuildTake_within {src good v s} : Within [.tdl, .ple, .hqe] s (rebuildTake src good v s) := by
  unfold rebuildTake
  split
  · exact .refl
  · exact .ite (by
         split
         · exact .after (modPle_within fun _ h => h) <| .mono (modPle_within fun _ h => h)
         · exact .mono (modPle_within fun _ h => h)) <|
               .ite (.after rebuiltOut_within <| .mono (modPle_within fun _ h => h)) <|
               .after (modPle_within fun _ h => h) <| .mono (modPle_within fun _ h => h)

theorem rewriteRebuilt_within {slot key v s} : Within [.tdl, .ple, .hqe] s (rewriteRebuilt slot key v s) := by
  unfold rewriteRebuilt
  split
  · exact rewriteSector_within.mono
  · exact .refl

theorem relocOut_within {vals c s} : Within [.tdl, .ple, .hqe] s (relocOut vals c s) := by
  unfold relocOut
  dsimp only
  split
  · rename_i h
    obtain ⟨n, -, hr⟩ := Option.bind_eq_some_iff.mp h
    exact stageStripe_within _ hr
  · exact reenter_within

theorem poolAdd_within {key src v cls s} : WithinSome [.tdl, .ple] s (poolAdd key src v cls s) := by
  intro t ht
  unfold poolAdd at ht
  split at ht
  · cases ht
    exact .refl
  · obtain ⟨h, hh, rfl⟩ := Option.map_eq_some_iff.mp ht
    have home : Within [.tdl, .ple] s h.2 := by
      split at hh
      · cases hh
        exact .refl
      · obtain ⟨r, hr, rfl⟩ := Option.map_eq_some_iff.mp hh
        exact .after journal_within <| .after putZone_within <| takeHome_within r hr
    exact .after addParity_within <| .after putZone_within <| .after (modPle_within fun _ h => h) home

/-- Operations for the elements of a list, each of which may stop the rest. -/
theorem foldl_bind_within {F} {α : Type} {f : α → State → Option State} {l : List α} {s : State}
    (hf : ∀ x s, WithinSome F s (f x s)) : WithinSome F s (l.foldl (fun r x => r.bind (f x)) (some s)) := by
  induction l generalizing s with
  | nil =>
    intro t ht
    cases ht
    exact .refl
  | cons x l ih =>
    intro t ht
    rw [List.foldl_cons, Option.bind_some] at ht
    cases hx : f x s with
    | none =>
      have none_stays (l : List α) : l.foldl (fun r x => r.bind (f x)) none = none := by
        induction l with
        | nil => rfl
        | cons y l ih => exact ih
      rw [hx, none_stays] at ht
      cases ht
    | some u =>
      rw [hx] at ht
      exact .comp (ih t ht) (hf x s u hx)

theorem poolOut_within {vals c s} : Within [.tdl, .ple, .hqe] s (poolOut vals c s) :=
  .getD (foldl_bind_within fun _ _ t ht => (poolAdd_within t ht).mono) reenter_within

theorem copyDone_within {c band srcs s} : Within [.tdl, .ple] s (copyDone c band srcs s) := by
  unfold copyDone
  split
  · exact .refl
  · exact .whenFalse (.ite relocLater_within.mono <| .mono (modPle_within fun _ h => h)) <| .after journal_within <|
        passStripe_within.mono

theorem compactionCommit_within {s} : Within [.evr, .tdl, .ple, .free] s (compactionCommit s) := by
  unfold compactionCommit
  split
  · exact .refl
  · exact .ite .refl <| .after updateMapState_within <| .after freeBands_within <| .whenFalse journal_within.mono <|
        .comp (.foldl fun _ _ => by
        split
        · exact .refl
        · exact .ite .refl <| .after journal_within <| .after modSched_within <|
              .whenTrue (.mono (modPle_within fun _ h => h)) <| .after mapSector_within <| dropCopies_within.mono) <|
              .mono (modPle_within fun _ h => h)

theorem runSequenceComplete_within {k e slot cls n s} : Within [.hqe] s (runSequenceComplete k e slot cls n s) := by
  unfold runSequenceComplete
  dsimp only
  split
  · exact .refl
  · exact .ite (.after finish_within <| modSlot_within.mono) .refl

theorem echoHome_within {n away s} r (hr : echoHome n away s = some r) : Within [.tdl, .ple] s r.2 := by
  unfold echoHome at hr
  dsimp only at hr
  split at hr
  · cases hr
    exact .refl
  · split at hr
    · cases hr
      exact .refl
    · split at hr
      · cases hr
      · cases hr
        exact .after noteBinding_within takeMembers_within

theorem echoRecord_within {c idx s} : Within [.ple] s (echoRecord c idx s) := by
  unfold echoRecord
  dsimp only
  split
  · exact modMap_within.mono
  · exact putExtent_within.mono

theorem echoStart_within {c s} : Within [.tdl, .ple, .hqe] s (echoStart c s) := by
  unfold echoStart
  refine .ite .refl ?_
  dsimp only
  split
  · exact .refl
  · rename_i home
    have placed {f} : Within [.tdl, .ple, .hqe] s (modMap f _) := .after modMap_within <| .mono <| echoHome_within _ home
    split
    · exact .ite .refl <| .after enterReads_within <| .after (modPle_within fun _ h => h) <|
          .whenTrue echoRecord_within.mono placed
    · exact .refl

theorem echoLook_within {n lba len s} : Within [.tdl, .ple, .hqe] s (echoLook n lba len s) :=
  .foldl fun _ _ => .ite (.foldl fun _ _ => echoStart_within.mono) .refl

theorem echoFeed_within {j s} : Within [.tdl, .ple, .hqe] s (echoFeed j s) := by
  unfold echoFeed
  split
  · exact echoAbandon_within.mono
  · exact .ite .refl <| .after putStripe_within <| .mono (modPle_within fun _ h => h)

theorem echoPump_within {s} : Within [.tdl, .ple, .hqe] s (echoPump s) :=
  .foldl fun _ _ => .foldl fun _ _ => echoFeed_within.mono

theorem echoTake_within {idx copy es s} : Within [.ple] s (echoTake idx copy es s) := modPle_within fun _ h => h

theorem echoSet_within {idx copy s} : Within [.tdl, .ple] s (echoSet idx copy s) := by
  unfold echoSet
  split
  · exact .refl
  · exact .ite .refl <| .after journal_within <| .after modMap_within <| .mono (modPle_within fun _ h => h)

theorem heatDecay_within {s} : Within [.tdl, .ple] s (heatDecay s) :=
  .whenTrue dropColdest_within.mono <| .after dropCopies_within <| .mono (modPle_within fun _ h => h)

theorem echoDrop_within {idx copy s} : Within [.tdl, .ple] s (echoDrop idx copy s) := by
  unfold echoDrop
  split
  · exact .refl
  · exact .ite .refl <| .ite .refl <| .after freeBands_within <| .after journal_within <| modMap_within.mono

theorem sysOut_within {kind places at_ es s} : Within [.tdl, .ple, .hqe] s (sysOut kind places at_ es s).1 :=
  .foldl fun _ _ => enterCand_within

theorem journalFlush_within {s} : Within [.tdl, .ple, .hqe] s (journalFlush s) :=
  .ite .refl <| .ite .refl <| .after (modPle_within fun _ h => h) sysOut_within

theorem journalReach_within {last s} : Within [.ple, .nv] s (journalReach last s) :=
  .after .setNv <| .mono (modPle_within fun _ h => h)

theorem unitDone_within {last s} : Within [.ple, .nv] s (unitDone last s) := by
  unfold unitDone
  split
  · exact .refl
  · exact .ite .refl <| .ite (.after journalReach_within <| .mono (modPle_within fun _ h => h)) <|
        .mono (modPle_within fun _ h => h)

theorem mapRoom_within {mc s} r (hr : mapRoom mc s = some r) : Within [.tdl, .ple] s r.2 := by
  unfold mapRoom at hr
  split at hr
  · cases hr
    exact .refl
  · obtain ⟨e, -, rfl⟩ := Option.map_eq_some_iff.mp hr
    exact takeBand_within

theorem snapOut_within {mc i vals s} : WithinSome [.tdl, .ple, .hqe] s (snapOut mc i vals s) := by
  intro t ht
  obtain ⟨r, hr, ht⟩ := Option.bind_eq_some_iff.mp ht
  obtain ⟨b, -, ht⟩ := Option.bind_eq_some_iff.mp ht
  obtain ⟨p, -, rfl⟩ := Option.map_eq_some_iff.mp ht
  exact .after putStripe_within <| .after recordPlan_within <| .mono <| mapRoom_within r hr

theorem snapshotStart_within {s} : Within [.tdl, .ple, .hqe] s (snapshotStart s) := by
  unfold snapshotStart
  refine .ite .refl ?_
  dsimp only
  split
  · exact .refl
  · rename_i out
    exact .ite .refl <| .after (modPle_within fun _ h => h) <| .comp (foldl_bind_within (fun _ _ => snapOut_within) _ out) <|
        .after journal_within <| .mono <| modPle_within fun _ h => h

theorem snapKeep_within {snap s} : Within [.tdl, .ple, .nv] s (snapKeep snap s) :=
  .after .setNv <| .after (modPle_within fun _ h => h) <| putBands_within.mono

theorem snapFail_within {s} : Within [.mcs, .tdl, .ple] s (snapFail s) := by
  unfold snapFail
  exact .after putBands_within <| .after withdraw_within <| .mono (modPle_within fun _ h => h)

theorem snapDone_within {band n s} : Within [.tdl, .ple, .hqe] s (snapDone band n s) := by
  have passed : Within [.tdl, .ple, .hqe] s (passStripe band n s) := passStripe_within.mono
  unfold snapDone
  dsimp only
  split
  · exact passed
  · exact .ite (.after (modPle_within fun _ h => h) passed) <| .after (modPle_within fun _ h => h) <| .comp sysOut_within passed

theorem dirDone_within {num s} : Within [.tdl, .ple, .nv] s (dirDone num s) := by
  unfold dirDone
  split
  · exact .refl
  · exact .ite .refl <| .ite (.mono (modPle_within fun _ h => h)) <| snapKeep_within.mono

theorem readHomeAgain_within {c slot s} : Within [.tdl, .ple, .hqe] s (readHomeAgain c slot s) :=
  .after slotWaited_within <| .comp (.foldl fun _ _ => by
    split
    · exact .refl
    · exact enterCand_within.mono) <| modSlot_within.mono

theorem hostReadDone_within {c slot good cls vals s} : Within [.tdl, .ple, .hqe] s (hostReadDone c slot good cls vals s) :=
  .ite (.after slotWaited_within <| .foldl fun _ _ => .after takeRead_within <| rewriteRebuilt_within.mono) <|
      .ite slotWaited_within.mono <| .ite reenter_within.mono <| .ite readHomeAgain_within.mono <|
      .ite (.comp (.foldl fun _ _ => by
       split
       · exact enterCand_within.mono
       · exact .after slotWaited_within <| setPart_within.mono) <| modSlot_within.mono) <| .after slotWaited_within <|
             sectorLost_within.mono

theorem moveTake_within {old es s} : Within [.ple] s (moveTake old es s) := modPle_within fun _ h => h

theorem resolveCand_within {c good cls vals s} :
    Within [.evr, .mcs, .tdl, .ple, .hqe, .nv, .free] s (resolveCand c good cls vals s) := by
  unfold resolveCand
  split
  · exact hostReadDone_within.mono
  · exact hostReadDone_within.mono
  · exact .ite (by
         dsimp only
         split
         · exact .after wtDone_within <| stripeDone_within.mono
         · exact stripeDone_within.mono) <| stripeFailed_within.mono
  · exact closeDone_within.mono
  · exact .ite (.ite poolOut_within.mono <| relocOut_within.mono) <| .ite reenter_within.mono <| .foldl fun _ _ => by
        split
        · exact startRebuild_within.mono
        · exact .refl
  · exact .ite reenter_within.mono <| rebuildTake_within.mono
  · exact .ite moveTake_within.mono <| .ite reenter_within.mono <| by
      split
      · exact .foldl fun _ _ => by
            split
            · exact startRebuild_within.mono
            · exact .refl
      · exact .refl
  · exact .ite copyDone_within.mono <| stripeFailed_within.mono
  · exact .ite (.whenTrue echoSet_within.mono <| .after journal_within <| passStripe_within.mono) <| stripeFailed_within.mono
  · exact .ite echoTake_within.mono <| .ite reenter_within.mono <| echoAbandon_within.mono
  · exact .ite unitDone_within.mono <| reenter_within.mono
  · exact .ite dirDone_within.mono <| reenter_within.mono
  · exact .ite snapDone_within.mono <| .ite (.after reenter_within <| replan_within.mono) <| snapFail_within.mono
  · exact .refl
  · exact .refl
  · exact .after sendCtrl_within <| .after (modTdl_within fun _ h => h) <| .ite sendRead_within.mono .refl

theorem resolveEnd_within {k e cls s} : Within [.evr, .mcs, .tdl, .ple, .hqe, .nv, .free] s (resolveEnd k e cls s) := by
  unfold resolveEnd
  split
  · exact .refl
  · dsimp only
    split
    · exact .after freeJob_within <| .after runSequenceComplete_within <| .after pinEcho_within <|
          .after (modPle_within fun _ h => h) <| .after noteHost_within <| modSched_within.mono
    · exact .after resolveCand_within <| .after freeJob_within <| .after pinEcho_within <|
          .after (modPle_within fun _ h => h) <| .after noteHost_within <| modSched_within.mono

theorem relocateSlot_within {addr s} : Within [.tdl, .ple, .hqe] s (relocateSlot addr s) := by
  unfold relocateSlot
  split
  · exact .refl
  · split
    · exact startRebuild_within.mono
    · split
      · exact .refl
      · exact .ite relocLater_within.mono <| .ite .refl <| enterCand_within.mono

theorem relocPump_within {s} : Within [.tdl, .ple, .hqe] s (relocPump s) :=
  .comp (.foldl fun _ _ => relocateSlot_within.mono) <| .mono (modPle_within fun _ h => h)

theorem degradeBands_within {p s} : Within [.tdl, .ple] s (degradeBands p s) := putBands_within.mono

theorem putDefect_within {d s} : Within [.evr, .tdl, .ple, .hqe, .free] s (putDefect d s) :=
  .ite (.after putBands_within <| .whenFalse (.after journal_within <| modMap_within.mono) <| .after degradeBands_within <|
      mediaEvent_within.mono) <| .whenTrue setReliability_within.mono <| .after journal_within <| .after modMap_within <|
      mediaEvent_within.mono

theorem retireAfter_within {mc head track slot s} :
    Within [.evr, .tdl, .ple, .hqe, .free] s (retireAfter mc head track slot s) :=
  .whenTrue (.comp (.foldl fun _ _ => relocateSlot_within.mono) <| putDefect_within.mono) <| by
  split
  · exact .refl
  · exact .ite (.comp (.foldl fun _ _ => relocateSlot_within.mono) <| putDefect_within.mono) .refl

theorem handleDefect_within {addr s} : Within [.evr, .tdl, .ple, .hqe, .free] s (handleDefect addr s) :=
  .after retireAfter_within <| relocateSlot_within.mono

theorem gdlAdd_within {addr reason s} : Within [.evr, .tdl, .ple, .hqe, .free] s (gdlAdd addr reason s) :=
  .ite .refl <| .ite noteDefect_within.mono <| .ite (.after (modPle_within fun _ h => h) <| putDefect_within.mono) <|
      .after handleDefect_within <| putDefect_within.mono

theorem lateDefects_within {s} : Within [.evr, .tdl, .ple, .hqe, .free] s (lateDefects s) :=
  .comp (.foldl fun _ _ => handleDefect_within.mono) <| .mono (modPle_within fun _ h => h)

theorem noteReads_within {k e s} : Within [.nv] s (noteReads k e s) := .ite .refl <| .mono .setNv

theorem remakeStart_within {old s} : Within [.tdl, .ple, .hqe] s (remakeStart old s) := by
  unfold remakeStart
  split
  · exact .refl
  · exact .ite .refl <| .ite (.foldl fun _ _ => by
           split
           · exact .ite .refl <| enterCand_within.mono
           · exact .refl) <| by
      split
      · exact .refl
      · exact .comp (.foldl fun _ _ => by
            split
            · exact startRebuild_within.mono
            · exact .refl) <| .after (modPle_within fun _ h => h) <| .after noteBinding_within <| takeBand_within.mono

theorem remakeSwitch_within {l s} : Within [.tdl, .ple] s (remakeSwitch l s) :=
  .after journal_within <| .after (modPle_within fun _ h => h) <| .foldl fun _ _ => by
    split
    · exact .refl
    · exact .after modMap_within <| dropCopiesIn_within.mono

theorem remakePump_within {s} : Within [.tdl, .ple, .hqe] s (remakePump s) :=
  .ite .refl <| .comp (.foldl fun _ _ => .ite setBand_within.mono <| remakeStart_within.mono) <| .foldl fun _ _ =>
      .ite (.after setBand_within <| .mono (modPle_within fun _ h => h)) <| .ite remakeSwitch_within.mono .refl

theorem enterMove_within {q s} : Within [.tdl, .ple, .hqe] s (enterMove q s) := by
  unfold enterMove
  split
  · exact .refl
  · exact .ite .refl <| .comp (.foldl fun _ _ => enterReads_within.mono) <| .after (modPle_within fun _ h => h) <|
        .after noteBinding_within <| takeMembers_within.mono

theorem zoneMoveSwitch_within {nsx zone bands s} : Within [.tdl, .ple] s (zoneMoveSwitch nsx zone bands s) :=
  .ite (.after freeBands_within <| remakeSwitch_within.mono) .refl

theorem failActuators_within {s} : Within [.tdl, .ple, .hqe] s (failActuators s) :=
  .after remakePump_within <| .after freeBands_within <| .after putBands_within <| degradeBands_within.mono

theorem afterJobs_within {s} : Within [.evr, .mcs, .tdl, .ple, .hqe, .nv, .free] s (afterJobs s) :=
  .ite .refl <| .after freeBands_within <| .after echoPump_within <| .after remakePump_within <| .after restagePump_within <|
      .after relocPump_within <| .after lateDefects_within <| .after sealBands_within <|
      .comp (.foldl fun _ _ => gdlAdd_within.mono) <| .after (modPle_within fun _ h => h) <| forMcs_within fun _ _ =>
      .comp (.foldl fun _ _ => .after resolveEnd_within <| noteReads_within.mono) <| modSched_within.mono

theorem schedulerDecision_within {k i s} :
    Within [.sys, .evr, .mck, .mcs, .mem, .staging, .tdl, .ple, .hqe, .bmc, .free] s (schedulerDecision k i s) := by
  unfold schedulerDecision
  extract_lets u v r
  have filled : Within [.sys, .evr, .mck, .mcs, .mem, .staging, .tdl, .ple, .hqe, .bmc, .free] s v :=
    .after fillReady_within <| .after reclass_within <|
        .ite (.comp (.foldl fun _ _ => enterMove_within.mono) <| .foldl fun _ _ => enterDestage_within.mono) .refl
  clear_value v
  have decided : Within [.sys, .evr, .mck, .mcs, .mem, .staging, .tdl, .ple, .hqe, .bmc, .free] s r.2 :=
      .after decide_within filled
  refine .ite filled ?_
  split
  · exact decided
  · exact .after armCand_within <| .after countDecision_within decided

theorem compactionStart_within {trigger s} : Within [.tdl, .ple, .hqe] s (compactionStart trigger s) := by
  unfold compactionStart
  split
  · exact .ite (.after remakePump_within <| relocPump_within.mono) <| .after enterReads_within <|
        .ite (.mono (modPle_within fun _ h => h)) .refl
  · exact .refl

theorem pleClrClaim_within {s} : Within [.ple] s (pleClrClaim s) := by
  unfold pleClrClaim
  split
  · exact modSched_within.mono
  · exact .refl

theorem pleClrDue_within {s} : Within [.ple] s (pleClrDue s) := by
  unfold pleClrDue
  split
  · exact modSched_within.mono
  · exact .refl

theorem pleClrMaxw_within {s} : Within [.ple] s (pleClrMaxw s) := by
  unfold pleClrMaxw
  split
  · exact modSched_within.mono
  · exact .refl

/-! ### The operations of Sys2Proof/Machine/Host.lean -/

theorem modHqe_within {f s} (h : ∀ u, Canon Hqe.csr u → Canon Hqe.csr (f u)) : Within [.hqe] s (modHqe f s) := .setHqe (h _)

theorem hqeReg_within {f s} (h : ∀ c, twf 0 c = true → twf 0 (f c) = true) : Within [.hqe] s (hqeReg f s) :=
  modHqe_within fun _ => h _

theorem putFn_within {f x s} : Within [.hqe] s (putFn f x s) := modHqe_within fun _ h => h

theorem modFn_within {f g s} : Within [.hqe] s (modFn f g s) := putFn_within

theorem putSq_within {f q x s} : Within [.hqe] s (putSq f q x s) := modFn_within

theorem putCq_within {f q x s} : Within [.hqe] s (putCq f q x s) := modFn_within

theorem sendInt_within {f v s} : Within [.hqe] s (sendInt f v s) := modFn_within

theorem signalCq_within {f c s} : Within [.hqe] s (signalCq f c s) :=
  .ite .refl <| .ite sendInt_within.mono <| modFn_within.mono

theorem coalesceExpiry_within {f v s} : Within [.hqe] s (coalesceExpiry f v s) := .ite .refl <| sendInt_within.mono

theorem cqPut_within {f q cid status dw0 dw1 s} : WithinSome [.hqe] s (cqPut f q cid status dw0 dw1 s) := by
  intro t ht
  unfold cqPut at ht
  dsimp only at ht
  split at ht
  · cases ht
  · split at ht
    · cases ht
      exact .comp signalCq_within <| .comp putCq_within <| modHqe_within fun _ h => h
    · cases ht

theorem useCtx_within {f q isCq s} : Within [.hqe, .free] s (useCtx f q isCq s) :=
  .ite .refl <| .after (modHqe_within fun _ h => h) <|
      .whenFalse (.after (modHqe_within fun _ h => h) <| takeFree_within.mono) <|
      .mono (hqeReg_within fun _ h => incR_twf _ _ _ h)

theorem dropCtx_within {f q isCq s} : Within [.hqe] s (dropCtx f q isCq s) := modHqe_within fun _ h => h

theorem pairEvents_within {f s} : Within [.hqe] s (pairEvents f s) := by
  unfold pairEvents
  exact .after modFn_within <| .mono (modHqe_within fun _ h => h)

theorem postEnds_within {f n s} : Within [.hqe] s (postEnds f n s) := by
  induction n generalizing s with
  | zero => exact .refl
  | succ n ih =>
    unfold postEnds
    split
    · exact .refl
    · refine .ite .refl ?_
      split
      · exact .refl
      · rename_i posted
        exact .comp ih <| .whenTrue finish_within <| modFn_within.comp (cqPut_within _ posted)

theorem deliver_within {f s} : Within [.hqe] s (deliver f s) := .ite .refl <| .after postEnds_within <| pairEvents_within.mono

theorem queueEvent_within {f w s} : Within [.hqe] s (queueEvent f w s) := .after deliver_within <| modFn_within.mono

theorem queueAll_within {w s} : Within [.hqe] s (queueAll w s) := .foldl fun _ _ => queueEvent_within.mono

theorem anaChange_within {s} : Within [.tdl, .hqe] s (anaChange s) := .after queueAll_within <| .mono (.setTdl fun h => h)

theorem doorbellError_within {f info s} : Within [.hqe] s (doorbellError f info s) :=
  .after queueEvent_within <| .mono (hqeReg_within fun _ h => incR_twf _ _ _ h)

theorem reloadCredits_within {f s} : Within [.hqe] s (reloadCredits f s) := .ite modFn_within.mono .refl

theorem doorbellWrite_within {f isCq q v s} : Within [.hqe] s (doorbellWrite f isCq q v s) := .ite .refl <| .ite (by
     split
     · exact doorbellError_within.mono
     · exact .ite doorbellError_within.mono <| .after deliver_within <| putCq_within.mono) <| by
  split
  · exact doorbellError_within.mono
  · exact .ite doorbellError_within.mono <| .ite doorbellError_within.mono <| .after reloadCredits_within <| putSq_within.mono

theorem issueFetch_within {f q n s} : Within [.hqe] s (issueFetch f q n s) := modHqe_within fun _ h => h

theorem serveClass_within {f cls s} : Within [.hqe, .free] s (serveClass f cls s) := by
  unfold serveClass
  dsimp only
  split
  · exact .refl
  · exact .after issueFetch_within <| .after useCtx_within <| modFn_within.mono

theorem fetchTurn_within {s} : Within [.hqe, .free] s (fetchTurn s) := .ite .refl <| by
  split
  · exact .after issueFetch_within <| .mono (modHqe_within fun _ h => h)
  · split
    · exact .after serveClass_within <| .mono (modHqe_within fun _ h => h)
    · split
      · exact .refl
      · dsimp only
        split
        · exact .after reloadCredits_within <| .mono (modHqe_within fun _ h => h)
        · exact .after reloadCredits_within <| .after serveClass_within <| .after modFn_within <|
              .after reloadCredits_within <| .mono (modHqe_within fun _ h => h)

theorem afterPost_within {n s} : Within [.hqe] s (afterPost n s) := .foldl fun _ _ => by
    split
    · exact .ite finish_within.mono .refl
    · exact .refl

theorem freeSlot_within {n s} : Within [.hqe] s (freeSlot n s) := modHqe_within fun _ h => h

theorem noteUsage_within {n x s} : Within [.hqe, .nv] s (noteUsage n x s) :=
  .whenFalse (.ite (.mono .setNv) <| .ite (.mono .setNv) .refl) <| .ite .refl <| .after modFn_within <| .mono .setNv

theorem completionPost_within {n s} : Within [.hqe, .nv, .free] s (completionPost n s) := by
  unfold completionPost
  split
  · exact .refl
  · exact .ite .refl <| by
      split
      · split
        · exact .refl
        · rename_i _ ht
          exact .after deliver_within <| .after afterPost_within <| .after freeSlot_within <| .after noteUsage_within <|
              .after useCtx_within <| .mono (cqPut_within _ ht)
      · split
        · exact freeSlot_within.mono
        · exact .after deliver_within <| .after afterPost_within <| .after freeSlot_within <| .after noteUsage_within <|
              .after useCtx_within <| .after signalCq_within <| .mono (modHqe_within fun _ h => h)
      · exact .refl

theorem noteC1At_within {wt pwrcyc time kind flags cntl info es s} :
    Within [.nv] s (noteC1At wt pwrcyc time kind flags cntl info es s) :=
  .mono .setNv

theorem noteC1_within {kind flags cntl info es s} : Within [.nv] s (noteC1 kind flags cntl info es s) := noteC1At_within

theorem reportC1_within {kind flags cntl info es s} : Within [.hqe, .nv] s (reportC1 kind flags cntl info es s) :=
  .after queueAll_within <| noteC1_within.mono

/-! ### The operations of Sys2Proof/Machine/Arrive.lean -/

theorem abortWaits_within {n target dw0 s} : Within [.hqe] s (abortWaits n target dw0 s) := modSlot_within

theorem endFilters_within {f q cid target s} : Within [.hqe] s (endFilters f q cid target s) :=
  .comp (.foldl fun _ _ => finish_within.mono) <| .comp (.foldl fun _ _ => abortWaits_within.mono) <| modFn_within.mono

theorem sqEntryArrive_within {f q e s} : Within [.tdl, .hqe, .elg] s (sqEntryArrive f q e s) := .ite .refl <| by
  split
  · exact .ite (.after finish_within <| .after (hqeReg_within fun _ h => incR_twf _ _ _ h) <| .after endFilters_within <|
        .whenTrue (.after capSettle_within <| .mono (modHqe_within fun _ h => h)) <| .after (modHqe_within fun _ h => h) <|
        .after putSq_within <| .mono (modHqe_within fun _ h => h)) <| .whenTrue sendMirror_within.mono <|
        .after endFilters_within <| .whenTrue (.after capSettle_within <| .mono (modHqe_within fun _ h => h)) <|
        .after (modHqe_within fun _ h => h) <| .after putSq_within <| .mono (modHqe_within fun _ h => h)
  · exact .refl

theorem detachWrites_within {n s} : Within [.tdl, .ple] s (detachWrites n s) := by
  unfold detachWrites
  exact .comp (forMcs_within fun _ _ => modSched_within.mono) <| .mono (modTdl_within fun _ h => h)

theorem unjournal_within {n s} : Within [.tdl, .ple, .hqe] s (unjournal n s) := by
  unfold unjournal
  split
  · exact .refl
  · exact .ite .refl <| .after modSlot_within <| journal_within.mono

theorem takeBack_within {n s} : Within [.mcs, .tdl, .ple, .hqe, .dma] s (takeBack n s) := by
  unfold takeBack
  exact .comp (.foldl fun _ _ => stopChan_within.mono) <| .after detachWrites_within <| .after withdraw_within <|
      unjournal_within.mono

theorem failCmd_within {n status s} : Within [.mcs, .tdl, .ple, .hqe, .dma] s (failCmd n status s) :=
  .after finish_within <| .after modSlot_within <| takeBack_within.mono

theorem malformed_within {n status s} : Within [.mcs, .tdl, .ple, .hqe, .dma] s (malformed n status s) :=
  .after failCmd_within <| .mono (hqeReg_within fun _ h => incR_twf _ _ _ h)

theorem jobBegun_within {k s} : Within [.hqe] s (jobBegun k s) := by
  unfold jobBegun
  split
  · exact .refl
  · split
    · exact writeBegun_within.mono
    · exact .refl

theorem beginJob_within {k e lateArm s} : Within [.mcs, .sce, .ple, .hqe] s (beginJob k e lateArm s) :=
  .after jobBegun_within <| jobBegin_within.mono

theorem abort_within {n s} : Within [.mcs, .tdl, .ple, .hqe, .dma] s (abort n s) := by
  unfold abort
  split
  · exact .refl
  · exact .ite .refl <| .ite finish_within.mono <| by
      split
      · exact finish_within.mono
      · exact .ite (.after deliver_within <| .after modFn_within <| .after modSlot_within <|
            .mono (modHqe_within fun _ h => h)) <| by
          split
          · exact .ite finish_within.mono <| .ite abortWaits_within.mono <| .after abortWaits_within <| failCmd_within.mono
          · exact .ite finish_within.mono <| .after modFn_within <| modSlot_within.mono

theorem channelEnded_within {c before s} : Within [.mcs, .tdl, .ple, .hqe, .dma] s (channelEnded c before s) := by
  unfold channelEnded
  split
  · exact .refl
  · exact .ite failCmd_within.mono .refl

theorem readCompletion_within {c at0 bytes s} :
    Within [.mcs, .staging, .tdl, .ple, .hqe, .dma] s (readCompletion c at0 bytes s) :=
  .after channelEnded_within <| dmaReadCompletion_within.mono

theorem dataError_within {n code s} : Within [.mcs, .tdl, .ple, .hqe, .dma] s (dataError n code s) := by
  unfold dataError
  split
  · exact .refl
  · exact .ite (.whenTrue failCmd_within.mono <| .foldl fun _ _ => dmaFail_within.mono) .refl

theorem accessFailed_within {a code s} : Within [.mcs, .tdl, .ple, .hqe, .dma] s (accessFailed a code s) := by
  unfold accessFailed
  split
  · exact dataError_within.mono
  · exact dataError_within.mono
  · split
    · exact .refl
    · exact .ite .refl <| .ite failCmd_within.mono <| modSlot_within.mono
  · split
    · exact .refl
    · exact .ite (.after modFn_within <| .mono (modHqe_within fun _ h => h)) <| .mono (modHqe_within fun _ h => h)

theorem hostMemoryError_within {a code s} : Within [.mcs, .tdl, .ple, .hqe, .dma] s (hostMemoryError a code s) :=
  accessFailed_within.mono

theorem completionTimeout_within {a s} : Within [.mcs, .tdl, .ple, .hqe, .dma] s (completionTimeout a s) :=
  accessFailed_within.mono

theorem lateCompletion_within {s} : Within [.hqe] s (lateCompletion s) := hqeReg_within fun _ h => incR_twf _ _ _ h

theorem hqeClrCnt_within {s} : Within [.hqe] s (hqeClrCnt s) :=
  hqeReg_within fun _ h => wr_twf _ _ _ (wr_twf _ _ _ (wr_twf _ _ _ (wr_twf _ _ _ h)))

/-! ### The operations of Sys2Proof/Machine/Writes.lean -/

theorem zoneAdvance_within {n zn len s} : Within [.ple] s (zoneAdvance n zn len s) := putZone_within

theorem dropWrites_within {bands s} : Within [.ple] s (dropWrites bands s) := by
  unfold dropWrites
  exact forMcs_within fun _ _ => modSched_within.mono

theorem zoneClear_within {n zn s} : Within [.tdl, .ple] s (zoneClear n zn s) :=
  .after freeBands_within <| .after putZone_within <| .comp (.foldl fun _ _ => setBand_within.mono) <|
      .after modMap_within <| .after dropDirty_within <| .after trimExtents_within <| .after dropEchoes_within <|
      .after dropCopiesIn_within <| dropWrites_within.mono

theorem zoneSend_within {n zsa zn s} : Within [.tdl, .ple] s (zoneSend n zsa zn s) := by
  unfold zoneSend
  dsimp only
  split
  · exact .refl
  · split
    · exact zoneClear_within.mono
    · exact .after sealBands_within <| putZone_within.mono
    · exact putZone_within.mono

theorem deallocate_within {n lba len s} : Within [.tdl, .ple] s (deallocate n lba len s) :=
  .after freeBands_within <| .after dropDirty_within <| .after trimExtents_within <| dropEchoes_within.mono

theorem noteStreamKeys_within {n stream lba len s} : Within [.ple] s (noteStreamKeys n stream lba len s) :=
  modPle_within fun _ h => h

theorem noteRun_within {n stream lba len s} : Within [.ple] s (noteRun n stream lba len s) := by
  unfold noteRun
  exact .mono (modPle_within fun _ h => h)

theorem openStream_within {n stream s} : Within [.ple] s (openStream n stream s) := by
  unfold openStream
  split
  · exact .refl
  · exact .mono (modPle_within fun _ h => h)

theorem noteTemp_within {n r s} : Within [.tdl, .ple] s (noteTemp n r s) := .after journal_within <| modMap_within.mono

theorem placeSectors_within {n lba x vals s} : Within [.tdl, .ple] s (placeSectors n lba x vals s) := by
  unfold placeSectors
  exact .ite (.comp (.foldl fun _ _ => by
         split
         · exact mapSector_within.mono
         · exact .refl) <| .after dropDirty_within <| .after trimExtents_within <| dropEchoes_within.mono) <|
               .after putDirty_within <| dropEchoes_within.mono

theorem bindZone_getD_within {n z stream s} : Within [.tdl, .ple] s ((bindZone n z stream s).getD s) :=
  .getD bindZone_within .refl

theorem applyZoned_within {n x s} : Within [.tdl, .ple] s (applyZoned n x s) :=
  .after zoneAdvance_within <| .comp (.foldl fun _ _ => addParity_within.mono) <| .after noteStreamKeys_within <|
      .after placeSectors_within <| .after openStream_within bindZone_getD_within

theorem applyCmd_within {x s} : Within [.tdl, .ple] s (applyCmd x s) := by
  unfold applyCmd
  split
  · exact .refl
  · split
    · exact .ite applyZoned_within.mono <| .after noteRun_within <| .after noteStreamKeys_within <| placeSectors_within.mono
    · exact applyZoned_within.mono
    · exact .ite applyZoned_within.mono <| deallocate_within.mono
    · exact .whenFalse (.foldl fun _ _ => deallocate_within.mono) <| .foldl fun _ _ => noteTemp_within.mono
    · exact .foldl fun _ _ => zoneSend_within.mono
    · exact .refl

theorem tryAdmit_within {n s} : Within [.hqe] s (tryAdmit n s) := by
  unfold tryAdmit
  split
  · exact .refl
  · exact .ite modSlot_within.mono <| .ite modSlot_within.mono <| modSlot_within.mono

theorem mirrorData_within {n x ns s} : Within [.tdl] s (mirrorData n x ns s) :=
  .ite (.foldl fun _ _ => sendMirror_within.mono) .refl

theorem writeThroughOut_within {slot x ns s} : Within [.tdl, .ple, .hqe] s (writeThroughOut slot x ns s) := by
  unfold writeThroughOut
  dsimp only
  split
  · refine .getD (fun t ht => ?_) .refl
    obtain ⟨r, hr, rfl⟩ := Option.map_eq_some_iff.mp ht
    exact .after modSlot_within <| stageOut_within r hr
  · split
    · exact .refl
    · rename_i bound
      split
      · exact .refl
      · rename_i staged
        exact .after modSlot_within <| .comp (stageOut_within _ staged) <|
            .comp (.foldl_fst fun _ _ => coverStripes_within) <| .mono <| bindZone_within _ bound

theorem putMeta_within {n s} : Within [.sys, .evr, .mck, .mem, .bmc, .free] s (putMeta n s) := by
  unfold putMeta
  split
  · exact .refl
  · exact dramPut_within.mono

theorem journalCmd_within {n x ops s} :
    Within [.sys, .evr, .mck, .mem, .tdl, .ple, .hqe, .bmc, .free] s (journalCmd n x ops s) :=
  .after modSlot_within <| .whenFalse putMeta_within.mono <| journalFor_within.mono

theorem advanceCmd_within {n s} :
    Within [.sys, .evr, .mck, .mcs, .mem, .tdl, .ple, .hqe, .bmc, .dma, .free] s (advanceCmd n s) := by
  have assigned {f} : Within [.sys, .evr, .mck, .mcs, .mem, .tdl, .ple, .hqe, .bmc, .dma, .free] s (modSlot n f s) :=
      modSlot_within.mono
  unfold advanceCmd
  split
  · exact .refl
  · refine .ite .refl ?_
    split
    · exact .refl
    · extract_lets +onlyGivenNames zn z status
      refine .ite failCmd_within.mono ?_
      extract_lets +onlyGivenNames x u v
      have admitted : Within [.sys, .evr, .mck, .mcs, .mem, .tdl, .ple, .hqe, .bmc, .dma, .free] s v :=
          .whenTrue tryAdmit_within.mono assigned
      clear_value v
      refine .ite admitted <| .ite admitted <| .ite (.after modSlot_within admitted) <|
          .ite (.after writeThroughOut_within admitted) ?_
      split
      · exact admitted
      · rename_i t home
        have bound : Within [.tdl, .ple] v t := by
          split at home
          · exact bindZone_within _ home
          · cases home
            exact .refl
        exact .after journalCmd_within <| .whenTrue mirrorData_within.mono <| .after bound admitted

theorem advanceAll_within {s} : Within [.sys, .evr, .mck, .mcs, .mem, .tdl, .ple, .hqe, .bmc, .dma, .free] s (advanceAll s) :=
  .foldl fun _ _ => advanceCmd_within.mono

theorem writeAccept_within {n s} :
    Within [.sys, .evr, .mck, .mcs, .mem, .tdl, .ple, .hqe, .bmc, .dma, .free] s (writeAccept n s) := by
  unfold writeAccept
  split
  · exact .refl
  · dsimp only
    split
    · exact .refl
    · exact .ite .refl <| .after advanceAll_within <| .after updateMapState_within <| .after sealBands_within <|
          .whenTrue sendMirror_within.mono <| .whenTrue (.mono (modTdl_within fun _ h => h)) <| .after applyCmd_within <|
          .after modSlot_within <| .after putCq_within <| .mono (modHqe_within fun _ h => h)

theorem onIo_within {F opc n f s} (h : ∀ x s, Within F s (f x s)) : Within F s (onIo opc n f s) := by
  unfold onIo
  split
  · exact .refl
  · exact .ite (h _ s) .refl

theorem sectorsIn_within {n data s} :
    Within [.sys, .evr, .mck, .mcs, .mem, .tdl, .ple, .hqe, .bmc, .dma, .free] s (sectorsIn n data s) := by
  unfold sectorsIn
  dsimp only
  split
  · exact .after tryAdmit_within <| modSlot_within.mono
  · exact .whenFalse (.after advanceAll_within <| by
        split
        · exact .whenFalse mirrorData_within.mono <| modSlot_within.mono
        · exact modSlot_within.mono) <| .after tryAdmit_within <| modSlot_within.mono

theorem write_within {n data s} :
    Within [.sys, .evr, .mck, .mcs, .mem, .tdl, .ple, .hqe, .bmc, .dma, .free] s (write n data s) :=
  onIo_within fun _ _ => .ite sectorsIn_within.mono .refl

theorem zoneAppend_within {n data s} :
    Within [.sys, .evr, .mck, .mcs, .mem, .tdl, .ple, .hqe, .bmc, .dma, .free] s (zoneAppend n data s) :=
  onIo_within fun _ _ => .ite sectorsIn_within.mono .refl

theorem writeZeroes_within {n s} :
    Within [.sys, .evr, .mck, .mcs, .mem, .tdl, .ple, .hqe, .bmc, .dma, .free] s (writeZeroes n s) :=
  onIo_within fun _ _ => .ite sectorsIn_within.mono <| .after advanceAll_within <| modSlot_within.mono

theorem heldWriteAdmit_within {n s} :
    Within [.sys, .evr, .mck, .mcs, .mem, .tdl, .ple, .hqe, .bmc, .dma, .free] s (heldWriteAdmit n s) := by
  unfold heldWriteAdmit
  split
  · exact .refl
  · exact .ite sectorsIn_within.mono .refl

theorem mapWaitRelease_within {n s} :
    Within [.sys, .evr, .mck, .mcs, .mem, .tdl, .ple, .hqe, .bmc, .dma, .free] s (mapWaitRelease n s) := by
  unfold mapWaitRelease
  split
  · exact .refl
  · exact .ite (.after advanceAll_within <| modSlot_within.mono) .refl

theorem mapWaitExpiry_within {n s} :
    Within [.sys, .evr, .mck, .mcs, .mem, .tdl, .ple, .hqe, .bmc, .dma, .free] s (mapWaitExpiry n s) := by
  unfold mapWaitExpiry
  split
  · exact .refl
  · exact .ite (.after advanceAll_within <| failCmd_within.mono) .refl

theorem datasetManagement_within {n ranges s} :
    Within [.sys, .evr, .mck, .mcs, .mem, .tdl, .ple, .hqe, .bmc, .dma, .free] s (datasetManagement n ranges s) :=
  onIo_within fun _ _ => .ite .refl <| by
    split
    · exact .refl
    · exact .ite malformed_within.mono <| .ite (.after advanceAll_within <| modSlot_within.mono) <| .after finish_within <|
          .comp (.foldl fun _ _ => noteTemp_within.mono) <| modSlot_within.mono

theorem zoneSendStart_within {zsa n s} :
    Within [.sys, .evr, .mck, .mcs, .mem, .tdl, .ple, .hqe, .bmc, .dma, .free] s (zoneSendStart zsa n s) :=
  onIo_within fun _ _ => .ite (.after advanceAll_within <| modSlot_within.mono) .refl

theorem zoneClose_within {n s} : Within [.sys, .evr, .mck, .mcs, .mem, .tdl, .ple, .hqe, .bmc, .dma, .free] s (zoneClose n s) :=
  zoneSendStart_within.mono

theorem zoneFinish_within {n s} :
    Within [.sys, .evr, .mck, .mcs, .mem, .tdl, .ple, .hqe, .bmc, .dma, .free] s (zoneFinish n s) :=
  zoneSendStart_within.mono

theorem zoneOpen_within {n s} : Within [.sys, .evr, .mck, .mcs, .mem, .tdl, .ple, .hqe, .bmc, .dma, .free] s (zoneOpen n s) :=
  zoneSendStart_within.mono

theorem zoneReset_within {n s} : Within [.sys, .evr, .mck, .mcs, .mem, .tdl, .ple, .hqe, .bmc, .dma, .free] s (zoneReset n s) :=
  zoneSendStart_within.mono

theorem zoneOffline_within {n s} :
    Within [.sys, .evr, .mck, .mcs, .mem, .tdl, .ple, .hqe, .bmc, .dma, .free] s (zoneOffline n s) :=
  zoneSendStart_within.mono

theorem zoneResetComplete_within {n s} : Within [.hqe] s (zoneResetComplete n s) := by
  unfold zoneResetComplete
  split
  · exact .refl
  · exact .ite modSlot_within.mono .refl

theorem flush_within {n s} : Within [.hqe] s (flush n s) := onIo_within fun _ _ => finish_within.mono

/-! ### The operations of Sys2Proof/Machine/Reads.lean -/

theorem heatUpdate_within {nsx lba len s} : Within [.ple] s (heatUpdate nsx lba len s) := by
  unfold heatUpdate
  exact .mono (modPle_within fun _ h => h)

theorem enterRun_within {cls born kind ns run s} : Within [.tdl, .ple, .hqe] s (enterRun cls born kind ns run s) := by
  unfold enterRun
  dsimp only
  split
  · exact .refl
  · exact .comp (.foldl fun _ _ => enterCand_within.mono) <| enterCand_within.mono

theorem readStart_within {kind n x ns s} : Within [.tdl, .ple, .hqe] s (readStart kind n x ns s) :=
  .whenTrue readSettled_within.mono <| .comp (.foldl fun _ _ => .after slotWaited_within <| sectorLost_within.mono) <|
      .comp (.foldl fun _ _ => enterRun_within.mono) <| modSlot_within.mono

theorem read_within {n s} : Within [.tdl, .ple, .hqe] s (read n s) := onIo_within fun _ _ => .ite .refl <| by
    split
    · exact .refl
    · exact .after echoLook_within <| .after readStart_within <| heatUpdate_within.mono

theorem rereadSlot_within {n s} : Within [.tdl, .ple, .hqe] s (rereadSlot n s) := by
  unfold rereadSlot
  split
  · exact .refl
  · split
    · exact .refl
    · exact .ite (.after readStart_within <| modSlot_within.mono) .refl

theorem readBuffer_within {n off len use requester e s} :
    Within [.sys, .evr, .mck, .mem, .tdl, .ple, .hqe, .nv, .elg, .bmc, .free] s (readBuffer n off len use requester e s) := by
  unfold readBuffer
  dsimp only
  split
  · exact .whenTrue rereadSlot_within.mono <| bufferRead_within.mono
  · exact bufferRead_within.mono

theorem verify_within {n s} : Within [.tdl, .ple, .hqe] s (verify n s) := onIo_within fun _ _ => .ite .refl <| by
    split
    · exact .refl
    · exact readStart_within.mono

theorem pumpReads_within {s} : Within [.dma, .free] s (pumpReads s) := .foldl fun _ _ => by
    split
    · exact .ite (by
           split
           · exact .refl
           · exact .whenFalse loadDesc_within.mono <| .after loadDesc_within <| .after takeFree_within <|
                 takeFree_within.mono) .refl
    · exact .refl

theorem orderingReadComplete_within {c ok s} : Within [.hqe, .dma] s (orderingReadComplete c ok s) := by
  unfold orderingReadComplete
  dsimp only
  split
  · exact .refl
  · exact .ite .refl <| .ite (.whenTrue finish_within.mono <| .after promote_within <| setDone_within.mono) <|
        .whenTrue finish_within.mono <| dmaFail_within.mono

theorem reportZones_within {n s} : Within [.hqe, .free] s (reportZones n s) := onIo_within fun _ _ => by
    split
    · exact .refl
    · exact .after finish_within <| .after modSlot_within <| takeFree_within.mono

theorem runSeqStart_within {n x data s} : Within [.tdl, .ple, .hqe] s (runSeqStart n x data s) :=
  .after enterCand_within <| modSlot_within.mono

theorem runSequenceWrite_within {n data s} : Within [.mcs, .tdl, .ple, .hqe, .dma] s (runSequenceWrite n data s) :=
  onIo_within fun _ _ => .ite malformed_within.mono <| .ite malformed_within.mono <| .ite .refl <| runSeqStart_within.mono

theorem runSequenceRead_within {n s} : Within [.mcs, .tdl, .ple, .hqe, .dma] s (runSequenceRead n s) :=
  onIo_within fun _ _ => .ite malformed_within.mono <| runSeqStart_within.mono

/-! ### The operations of Sys2Proof/Machine/Thermal.lean -/

theorem modTmn_within {f s} (h : ∀ u, Canon Tmn.csr u → Canon Tmn.csr (f u)) : Within [.tmn] s (modTmn f s) := .setTmn (h _)

theorem tmnReg_within {f s} (h : ∀ c, twf 0 c = true → twf 0 (f c) = true) : Within [.tmn] s (tmnReg f s) :=
  modTmn_within fun _ => h _

theorem requestSensor_within {n s} : Within [.tmn] s (requestSensor n s) := modTmn_within fun _ h => h

theorem requestAll_within {s} : Within [.tmn] s (requestAll s) := .foldl fun _ _ => .ite requestSensor_within.mono .refl

theorem tmnSchedule_within {s} : Within [.tmn] s (tmnSchedule s) := .ite .refl <| requestAll_within.mono

theorem tmnRequest_within {n s} : Within [.tmn] s (tmnRequest n s) :=
  .ite (.after requestSensor_within <| .mono (modTmn_within fun _ h => h)) .refl

theorem tmnConversionDone_within {t atEnd s} :
    Within [.sys, .evr, .mck, .mem, .hqe, .elg, .bmc, .tmn, .clp, .free] s (tmnConversionDone t atEnd s) := by
  unfold tmnConversionDone
  split
  · exact .refl
  · exact .whenTrue (.after energyEvent_within <| .after tocsin_within <| .after (.setHqe fun h => h) <|
        .mono (modElg_within fun _ h => h)) <| .ite (.ite
           (.after (tmnReg_within fun _ h => wrF_twf _ _ _ h) <|
               .ite (.after (tmnReg_within fun _ h => wrF_twf _ _ _ h) <|
               .whenTrue (.mono (tmnReg_within fun _ h => wrF_twf _ _ _ h)) <|
               .mono (modTmn_within fun _ h => incR_twf _ _ _ h)) <|
               .whenTrue (.mono (tmnReg_within fun _ h => wrF_twf _ _ _ h)) <|
               .mono (modTmn_within fun _ h => incR_twf _ _ _ h)) <|
               .ite (.after (tmnReg_within fun _ h => wrF_twf _ _ _ h) <|
               .whenTrue (.mono (tmnReg_within fun _ h => wrF_twf _ _ _ h)) <|
               .mono (modTmn_within fun _ h => incR_twf _ _ _ h)) <|
               .whenTrue (.mono (tmnReg_within fun _ h => wrF_twf _ _ _ h)) <|
               .mono (modTmn_within fun _ h => incR_twf _ _ _ h)) <| .after (modElg_within fun _ h => h) <|
               .ite (.after (tmnReg_within fun _ h => wrF_twf _ _ _ h) <|
               .ite (.after (tmnReg_within fun _ h => wrF_twf _ _ _ h) <|
               .whenTrue (.mono (tmnReg_within fun _ h => wrF_twf _ _ _ h)) <|
               .mono (modTmn_within fun _ h => incR_twf _ _ _ h)) <|
               .whenTrue (.mono (tmnReg_within fun _ h => wrF_twf _ _ _ h)) <|
               .mono (modTmn_within fun _ h => incR_twf _ _ _ h)) <|
               .ite (.after (tmnReg_within fun _ h => wrF_twf _ _ _ h) <|
               .whenTrue (.mono (tmnReg_within fun _ h => wrF_twf _ _ _ h)) <|
               .mono (modTmn_within fun _ h => incR_twf _ _ _ h)) <|
               .whenTrue (.mono (tmnReg_within fun _ h => wrF_twf _ _ _ h)) <| .mono (modTmn_within fun _ h => incR_twf _ _ _ h)

theorem tmnClrCnt_within {s} : Within [.tmn] s (tmnClrCnt s) := tmnReg_within fun _ h => wr_twf _ _ _ h

theorem modCal_within {f s} (h : ∀ u, Canon Cal.csr u → Canon Cal.csr (f u)) : Within [.cal] s (modCal f s) := .setCal (h _)

theorem modItem_within {n f s} : Within [.cal] s (modItem n f s) := .ite (.mono (modCal_within fun _ h => h)) .refl

theorem calRun_within {s} : Within [.cal] s (calRun s) := modItem_within

theorem calDue_within {n s} : Within [.cal] s (calDue n s) :=
  .ite .refl <| .ite modItem_within.mono <| .ite modItem_within.mono .refl

theorem calWrite_within {p v s} :
    Within [.sys, .evr, .mck, .mcs, .mem, .sce, .scu, .nv, .elg, .bmc, .cal, .free] s (calWrite p v s) := by
  unfold calWrite
  dsimp only
  split
  · exact memPutWord_within.mono
  · exact .refl
  · exact .mono (modMc_within fun _ h => h)
  · exact .mono .setNv
  · exact .mono (modMc_within fun _ h => h)
  · exact .mono (modMc_within fun _ h => putAscAge_canon h)
  · exact .mono (modMc_within fun _ h => h)
  · exact .mono (modSce_within fun _ h => coefPut_canon h)
  · exact .mono (modCal_within fun _ h => h)
  · exact .mono (scuReg_within fun _ h => wr_twf _ _ _ h)
  · exact .mono (modCal_within fun _ h => h)
  · exact .mono (modElg_within fun _ h => h)
  · exact .mono (modCal_within fun _ h => h)

theorem headMode_within {mc head mode s} : Within [.sys, .evr, .mck, .mem, .bmc, .free] s (headMode mc head mode s) :=
  .foldl fun _ _ => .ite memPutWord_within.mono .refl

theorem readerRun_within {r ok s} : Within [.sys, .evr, .mck, .mem, .bmc, .cal, .free] s (readerRun r ok s) :=
  .whenFalse (.after headMode_within <| .mono (modCal_within fun _ h => h)) <| .mono (modCal_within fun _ h => h)

theorem calStepApply_within {n s} :
    Within [.sys, .evr, .mck, .mcs, .mem, .sce, .scu, .nv, .elg, .bmc, .cal, .free] s (calStepApply n s) := by
  unfold calStepApply
  exact .after modItem_within <| .foldl fun _ _ => calWrite_within.mono

theorem calMeasured_within {n targets s} :
    Within [.sys, .evr, .mck, .mcs, .mem, .sce, .scu, .nv, .elg, .bmc, .cal, .free] s (calMeasured n targets s) :=
  .foldl fun _ _ => by
    split
    · exact .ite calWrite_within.mono .refl
    · exact .ite calWrite_within.mono .refl
    · exact .refl

theorem calRunEnd_within {n reader result targets s} :
    Within [.sys, .evr, .mck, .mcs, .mem, .sce, .scu, .nv, .elg, .bmc, .cal,
    .free] s (calRunEnd n reader result targets s) := by
  unfold calRunEnd
  extract_lets +onlyGivenNames x
  refine .ite .refl ?_
  extract_lets +onlyGivenNames t2 targets result x u
  have measured : Within [.sys, .evr, .mck, .mcs, .mem, .sce, .scu, .nv, .elg, .bmc, .cal, .free] s u :=
      .ite readerRun_within.mono calMeasured_within
  clear_value u
  have noted {f} : Within [.sys, .evr, .mck, .mcs, .mem, .sce, .scu, .nv, .elg, .bmc, .cal, .free] s (modItem n f u) :=
      .after modItem_within measured
  exact .ite (.ite_app (.comp calStepApply_within noted) noted) noted

/-! ### The operations of Sys2Proof/Machine/Admin.lean -/

theorem onAdmin_within {F opc n f s} (h : ∀ x s, Within F s (f x s)) : Within F s (onAdmin opc n f s) := by
  unfold onAdmin
  split
  · exact .refl
  · exact .ite (h _ s) .refl

theorem reply_within {n status s} : Within [.hqe] s (reply n status s) := finish_within

theorem createIoCq_within {n s} : Within [.hqe] s (createIoCq n s) :=
  onAdmin_within fun _ _ => .ite reply_within.mono <| .ite reply_within.mono <| .ite reply_within.mono <|
      .ite reply_within.mono <| .after reply_within <| .after putCq_within <| modFn_within.mono

theorem createIoSq_within {n s} : Within [.hqe] s (createIoSq n s) :=
  onAdmin_within fun _ _ => .ite reply_within.mono <| .ite reply_within.mono <| .ite reply_within.mono <|
      .ite reply_within.mono <| .after reply_within <| .after putSq_within <| modFn_within.mono

theorem deleteIoCq_within {n s} : Within [.hqe] s (deleteIoCq n s) :=
  onAdmin_within fun _ _ => .ite reply_within.mono <| .ite reply_within.mono <| .after reply_within <|
      .after dropCtx_within <| putCq_within.mono

theorem deleteIoSq_within {n s} :
    Within [.sys, .evr, .mck, .mcs, .mem, .tdl, .ple, .hqe, .bmc, .dma, .free] s (deleteIoSq n s) :=
  onAdmin_within fun _ _ => by
    dsimp only
    split
    · exact reply_within.mono
    · exact .ite reply_within.mono <| .after advanceAll_within <| .comp (.foldl fun _ _ => failCmd_within.mono) <|
          .comp (.foldl fun _ _ => finish_within.mono) <| .after modFn_within <| .after (modHqe_within fun _ h => h) <|
          .after putSq_within <| modSlot_within.mono

theorem deleteIoSqComplete_within {n s} : Within [.hqe] s (deleteIoSqComplete n s) := by
  unfold deleteIoSqComplete
  split
  · exact .refl
  · exact .ite (.after reply_within <| .after dropCtx_within <| putSq_within.mono) .refl

theorem echoSurplus_within {s} : Within [.tdl, .ple] s (echoSurplus s) := .foldl fun _ _ => by
    split
    · exact .refl
    · exact .whenTrue echoDropMark_within.mono <| .ite echoDropMark_within.mono .refl

theorem featureEffect_within {f fid w11 w12 s} :
    Within [.tdl, .ple, .hqe, .nv, .elg, .bmc, .pct] s (featureEffect f fid w11 w12 s) := by
  unfold featureEffect
  dsimp only
  split
  · exact .after modFn_within <| modFn_within.mono
  · exact .after capSettle_within <| .whenTrue (.mono (modElg_within fun _ h => h)) <|
        .ite (.after orderlyShutdown_within <| .mono (modHqe_within fun _ h => h)) <| .mono (modHqe_within fun _ h => h)
  · exact modFn_within.mono
  · exact .after capSettle_within <| .after (modHqe_within fun _ h => h) <|
        .mono (elgReg_within fun _ h => wrF_twf _ _ _ (wrB_twf _ _ _ (wrB_twf _ _ _ h)))
  · exact .after echoSurplus_within <| .after (modHqe_within fun _ h => h) <| .mono (modHqe_within fun _ h => h)
  · exact .after (modHqe_within fun _ h => h) <| .mono (bmcReg_within fun _ h => wrF_twf _ _ _ (wrF_twf _ _ _ h))
  · exact .ite modFn_within.mono <| .mono (modHqe_within fun _ h => h)

theorem setFeatures_within {n s} : Within [.tdl, .ple, .hqe, .nv, .elg, .bmc, .pct] s (setFeatures n s) :=
  onAdmin_within fun _ _ => .ite reply_within.mono <| .after finish_within <| .whenTrue (.mono .setNv) <|
      featureEffect_within.mono

theorem getFeatures_within {n s} : Within [.hqe, .tmn] s (getFeatures n s) :=
  onAdmin_within fun _ _ => .after finish_within <| .ite requestAll_within.mono .refl

theorem asyncEventRequest_within {n s} : Within [.hqe] s (asyncEventRequest n s) :=
  onAdmin_within fun _ _ => .ite reply_within.mono <| .after deliver_within <| .after freeSlot_within <| modFn_within.mono

theorem persistMap_within {ops f s} : Within [.tdl, .ple, .nv] s (persistMap ops f s) :=
  .after keepKeys_within <| .after journal_within <| modMap_within.mono

theorem freshKey_within {s} : Within [.free] s (freshKey s).2 := takeFree_within

theorem namespaceCreate_within {n r s} : Within [.tdl, .ple, .hqe, .nv, .free] s (namespaceCreate n r s) :=
  onAdmin_within fun _ _ => .ite .refl <| .ite reply_within.mono <| .after finish_within <| .after persistMap_within <|
      freshKey_within.mono

theorem closeStreams_within {p s} : Within [.tdl, .ple] s (closeStreams p s) :=
  .after freeBands_within <| .after (modPle_within fun _ h => h) <| .foldl fun _ _ => setBand_within.mono

theorem clearNs_within {nsx s} : Within [.tdl, .ple, .nv] s (clearNs nsx s) :=
  .after freeBands_within <| .after (modPle_within fun _ h => h) <| .after closeStreams_within <| persistMap_within.mono

theorem noteChanged_within {nsid s} : Within [.hqe] s (noteChanged nsid s) :=
  .foldl fun _ _ => .ite (.whenTrue queueEvent_within.mono <| modFn_within.mono) .refl

theorem namespaceDelete_within {n s} : Within [.tdl, .ple, .hqe, .nv] s (namespaceDelete n s) :=
  onAdmin_within fun _ _ => .ite .refl <| .after reply_within <| .foldl fun _ _ =>
      .comp (.foldl fun _ _ => modFn_within.mono) <| .after (modHqe_within fun _ h => h) <| .after persistMap_within <|
      .after noteChanged_within <| clearNs_within.mono

theorem attach_within {on nsid c s} : Within [.hqe] s (attach on nsid c s) := by
  unfold attach
  split
  · exact modFn_within.mono
  · exact .mono (modHqe_within fun _ h => h)

theorem namespaceAttachment_within {n ctrls s} : Within [.hqe] s (namespaceAttachment n ctrls s) :=
  onAdmin_within fun _ _ => .ite reply_within.mono <| .ite reply_within.mono <| .ite reply_within.mono <|
      .ite (.after reply_within <| .after noteChanged_within <| .foldl fun _ _ => attach_within.mono) <|
      .after reply_within <| .comp (.foldl fun _ _ => attach_within.mono) <| noteChanged_within.mono

theorem directiveSend_within {n s} : Within [.tdl, .ple, .hqe] s (directiveSend n s) :=
  onAdmin_within fun _ _ => .ite (.ite reply_within.mono <| .after reply_within <| modFn_within.mono) <|
      .ite (.after reply_within <| closeStreams_within.mono) <| .after reply_within <| closeStreams_within.mono

theorem directiveReceive_within {n s} : Within [.hqe] s (directiveReceive n s) :=
  onAdmin_within fun _ _ => .ite (.after reply_within <| modSlot_within.mono) <| by
    split
    · exact .after reply_within <| modSlot_within.mono
    · exact .after reply_within <| modSlot_within.mono
    · exact finish_within.mono

theorem firmwareImageDownload_within {n image s} : Within [.hqe, .nv] s (firmwareImageDownload n image s) :=
  onAdmin_within fun _ _ => .after reply_within <| .mono .setNv

theorem firmwareCommit_within {n sigOk s} : Within [.hqe, .nv] s (firmwareCommit n sigOk s) :=
  onAdmin_within fun _ _ => .ite .refl <| .ite reply_within.mono <| .ite reply_within.mono <| .ite reply_within.mono <|
      .after reply_within <| .mono .setNv

theorem firmwareActivate_within {n sigOk s} : Within [.tdl, .hqe, .nv] s (firmwareActivate n sigOk s) :=
  onAdmin_within fun _ _ => .ite .refl <| .ite reply_within.mono <| .ite reply_within.mono <|
      .ite (.whenTrue (.after anaChange_within <| .mono (modTdl_within fun _ h => h)) <|
      .after (modTdl_within fun _ h => h) <| .after modSlot_within <| .mono .setNv) <| .after (modHqe_within fun _ h => h) <|
      .after modSlot_within <| .mono .setNv

theorem interruptAll_within {s} :
    Within [.sys, .evr, .mck, .mcs, .mem, .tdl, .ple, .hqe, .bmc, .dma, .free] s (interruptAll s) :=
  .after advanceAll_within <| .foldl fun _ _ => failCmd_within.mono

theorem firmwareActivateDrainTimeout_within {s} :
    Within [.sys, .evr, .mck, .mcs, .mem, .tdl, .ple, .hqe, .bmc, .dma, .free] s (firmwareActivateDrainTimeout s) := by
  unfold firmwareActivateDrainTimeout
  split
  · exact .after interruptAll_within <| .mono (modHqe_within fun _ h => h)
  · exact .refl

theorem firmwareActivateDone_within {s} : Within [.evr, .hqe, .nv, .free] s (firmwareActivateDone s) := by
  unfold firmwareActivateDone
  split
  · exact .refl
  · exact .ite .refl <| .after firmwareEvent_within <| .after reportC1_within <| by
      split
      · exact .whenTrue reply_within.mono <| .after (modHqe_within fun _ h => h) <| .mono .setNv
      · exact .after (modHqe_within fun _ h => h) <| .mono .setNv

theorem persistNs_within {nsid g s} : Within [.tdl, .ple, .nv] s (persistNs nsid g s) := persistMap_within.mono

theorem formatOne_within {lbaf mset s x} : Within [.tdl, .ple, .hqe, .nv, .free] s (formatOne lbaf mset s x) :=
  .after noteChanged_within <| .after clearNs_within <| .after persistNs_within <| freshKey_within.mono

theorem formatNvm_within {n s} : Within [.tdl, .ple, .hqe, .nv, .free] s (formatNvm n s) :=
  onAdmin_within fun _ _ => .ite reply_within.mono <| .comp (.foldl fun _ _ => formatOne_within.mono) <| modSlot_within.mono

theorem formatComplete_within {nsid s} : Within [.tdl, .ple, .hqe, .nv] s (formatComplete nsid s) :=
  .ite .refl <| .comp (.foldl fun _ _ => by
    split
    · exact .ite reply_within.mono .refl
    · exact .refl) <| persistNs_within.mono

theorem cryptoErase_within {s} : Within [.sys, .evr, .mck, .mem, .staging, .tdl, .ple, .nv, .bmc, .free] s (cryptoErase s) := by
  have erased {t u x} (h : Canon Bmc.csr t.bmc → Canon Bmc.csr x) :
      Within [.mem, .staging, .nv, .bmc] t { t with nv := u, bmc := x, staging := [], mem := [] } :=
    ⟨rfl, rfl, fun r => { r with bmc := h r.bmc }, fun _ => rfl, fun p hp => by cases p <;> simp_all [same]⟩
  unfold cryptoErase
  extract_lets +onlyGivenNames rekey u v snap wear
  have cleared : Within [.tdl, .ple, .nv, .free] s v := .comp (.foldl fun _ _ => clearNs_within.mono) <| .foldl fun _ _ =>
      .after persistNs_within <| freshKey_within.mono
  clear_value v wear snap
  exact .after dramPut_within <| .after (erased fun h => h) <| .after (modPle_within fun _ h => h) cleared.mono

theorem putSan_within {z s} : Within [.hqe, .nv] s (putSan z s) := .after .setNv <| .mono (modHqe_within fun _ h => h)

theorem overwriteBand_within {b p s} : Within [.media] s (overwriteBand b p s) :=
  .foldl fun _ _ => .foldl fun _ _ => .mono .setMedia

theorem sanitizeReply_within {status s} : Within [.hqe] s (sanitizeReply status s) := .foldl fun _ _ => by
    split
    · exact .ite reply_within.mono .refl
    · exact .refl

theorem sanitizeExitFailure_within {n s} : Within [.hqe, .nv] s (sanitizeExitFailure n s) :=
  onAdmin_within fun _ _ => .ite .refl <| .ite reply_within.mono <| .ite (.after reply_within <| putSan_within.mono) <|
      reply_within.mono

theorem sanitizeCryptoErase_within {n s} :
    Within [.sys, .evr, .mck, .mem, .staging, .tdl, .ple, .hqe, .nv, .bmc, .free] s (sanitizeCryptoErase n s) :=
  onAdmin_within fun _ _ => .ite .refl <| .after reply_within <| .after putSan_within <| cryptoErase_within.mono

theorem sanitizeOverwrite_within {n s} :
    Within [.sys, .evr, .mck, .mem, .staging, .tdl, .ple, .hqe, .nv, .bmc, .free] s (sanitizeOverwrite n s) :=
  onAdmin_within fun _ _ => .ite .refl <| .ite (.after reply_within <| .after putSan_within <| .after modSlot_within <|
      cryptoErase_within.mono) <| .after putSan_within <| .after modSlot_within <| cryptoErase_within.mono

theorem sanitizeBandDone_within {fault s} : Within [.media, .hqe, .nv] s (sanitizeBandDone fault s) :=
  .ite .refl <| .ite (.after sanitizeReply_within <| putSan_within.mono) <| by
  split
  · exact .refl
  · exact .ite (.after putSan_within <| overwriteBand_within.mono) <|
        .ite (.after putSan_within <| overwriteBand_within.mono) <| .after sanitizeReply_within <| .after putSan_within <|
        overwriteBand_within.mono

theorem nonceRequest_within {n s} : Within [.hqe, .free] s (nonceRequest n s) :=
  onAdmin_within fun _ _ => .ite .refl <| .after finish_within <| .after (modHqe_within fun _ h => h) <| takeFree_within.mono

theorem nonceExpiry_within {s} : Within [.hqe] s (nonceExpiry s) := .ite (.mono (modHqe_within fun _ h => h)) .refl

theorem unlockToken_within {n t s} : Within [.hqe] s (unlockToken n t s) :=
  onAdmin_within fun _ _ => .ite .refl <| .ite (.after reply_within <| .after (modHqe_within fun _ h => h) <|
      .mono (modHqe_within fun _ h => h)) <| .after reply_within <| .mono (modHqe_within fun _ h => h)

theorem unlockEnd_within {n s} : Within [.hqe] s (unlockEnd n s) :=
  onAdmin_within fun _ _ => .ite .refl <| .after reply_within <| .ite (.mono (modHqe_within fun _ h => h)) .refl

theorem unlockExpiry_within {s} : Within [.hqe] s (unlockExpiry s) := .ite (.mono (modHqe_within fun _ h => h)) .refl

theorem microprogramLoad_within {n img s} : Within [.mcs, .hqe] s (microprogramLoad n img s) := onAdmin_within fun _ _ => by
    split
    · exact finish_within.mono
    · exact .comp (.foldl fun _ _ => .mono (modMc_within fun _ h => h)) <| .after modSlot_within <| .mono (.setHqe fun h => h)

theorem onLoad_within {F n f s} (h : ∀ x s, Within F s (f x s)) : Within F s (onLoad n f s) := by
  unfold onLoad
  split
  · exact .refl
  · exact .ite (h _ s) .refl

theorem imageToDram_within {k s} : Within [.sys, .evr, .mck, .mem, .bmc, .free] s (imageToDram k s) := dramPut_within.mono

theorem microprogramLoadQuiesced_within {n s} :
    Within [.sys, .evr, .mck, .mcs, .mem, .hqe, .nv, .bmc, .free] s (microprogramLoadQuiesced n s) := by
  have kept {t u} {l : List (Nat × Option GrlnImage)} :
      Within [.hqe, .nv] t { t with nv := u, hqe := { t.hqe with images := l } } :=
    .after (.setNv (s := { t with hqe := { t.hqe with images := l } })) <| .mono <| .setHqe fun h => h
  exact onLoad_within fun _ s => .ite (.after reply_within <| .after kept <| .foldl fun _ _ => .after imageToDram_within <|
      .mono <| modMc_within fun _ h => loadRegion_canon h) .refl

theorem microprogramLoadTimeout_within {n s} : Within [.mcs, .hqe] s (microprogramLoadTimeout n s) :=
  onLoad_within fun _ _ => .after reply_within <| .comp (.foldl fun _ _ => .mono (modMc_within fun _ h => h)) <|
      .mono (.setHqe fun h => h)

/-! ### The operations of Sys2Proof/Machine/Cache.lean -/

theorem modMpc_within {f s} (h : ∀ u, Canon Mpc.csr u → Canon Mpc.csr (f u)) : Within [.mpc] s (modMpc f s) := .setMpc (h _)

theorem mpcReg_within {f s} (h : ∀ c, twf 0 c = true → twf 0 (f c) = true) : Within [.mpc] s (mpcReg f s) :=
  modMpc_within fun _ => h _

theorem dramRead_within {line e s} : Within [.sys, .evr, .mck, .mem, .hqe, .nv, .elg, .bmc, .free] s (dramRead line e s) :=
  bufferRead_within.mono

theorem toDram_within {line bytes s} : Within [.sys, .evr, .mck, .mem, .bmc, .free] s (toDram line bytes s) :=
  bufferWrite_within.mono

theorem putLine_within {x s} : Within [.mpc] s (putLine x s) := modMpc_within fun _ h => h

theorem dropLine_within {line s} : Within [.mpc] s (dropLine line s) := modMpc_within fun _ h => h

theorem editLine_within {x s} : Within [.mpc] s (editLine x s) := modMpc_within fun _ h => h

theorem makeRoom_within {line s} : WithinSome [.mpc, .free] s (makeRoom line s) := by
  intro t ht
  have dropped {l} : Within [.mpc, .free] s (dropLine l (takeFree s).2) := .after dropLine_within takeFree_within.mono
  unfold makeRoom at ht
  dsimp only at ht
  split at ht
  · cases ht
    exact .refl
  · split at ht
    · cases ht
    · split at ht
      · split at ht
        · cases ht
        · cases ht
          exact .after (modMpc_within fun _ h => h) dropped
      · cases ht
        exact dropped

theorem mpcAnswer_within {out poison s} : Within [.mpc] s (mpcAnswer out poison s) := modMpc_within fun _ h => h

theorem mpcHit_within {x w s} : Within [.mpc] s (mpcHit x w s) :=
  .ite (.after mpcAnswer_within <| putLine_within.mono) <| .after mpcAnswer_within <| putLine_within.mono

theorem mpcFill_within {cnt line w e s} :
    Within [.sys, .evr, .mck, .mem, .hqe, .nv, .elg, .bmc, .mpc, .free] s (mpcFill cnt line w e s) := by
  unfold mpcFill
  split
  · exact .refl
  · rename_i _ ht
    exact .ite (.after mpcAnswer_within <| .after dramRead_within <|
        .whenTrue (.mono (mpcReg_within fun _ h => incR_twf _ _ _ h)) <| .mono (makeRoom_within _ ht)) <|
        .after mpcHit_within <| .after putLine_within <| .after dramRead_within <|
        .whenTrue (.mono (mpcReg_within fun _ h => incR_twf _ _ _ h)) <| .mono (makeRoom_within _ ht)

theorem mpcSnoop_within {cnt line w issued e s} : Within [.mpc, .free] s (mpcSnoop cnt line w issued e s) := .ite (by
     split
     · exact .refl
     · rename_i _ ht
       exact .after mpcAnswer_within <| .ite (.after (modMpc_within fun _ h => h) <| .after putLine_within <|
           .after (mpcReg_within fun _ h => incR_twf _ _ _ (twf_ite (incR_twf _ _ _ h) h)) <|
           .mono (makeRoom_within _ ht)) <| .after (modMpc_within fun _ h => h) <| .after putLine_within <|
           .after (mpcReg_within fun _ h => incR_twf _ _ _ (twf_ite (incR_twf _ _ _ h) h)) <|
           .mono (makeRoom_within _ ht)) <| .ite (.after (modMpc_within fun _ h => h) <|
           .mono (mpcReg_within fun _ h => incR_twf _ _ _ h)) <| .after mpcAnswer_within <|
           .after (mpcReg_within fun _ h => incR_twf _ _ _ (twf_ite (incR_twf _ _ _ h) h)) <| .mono (modMpc_within fun _ h => h)

theorem mpcRequest_within {line w issued i s} :
    Within [.sys, .evr, .mck, .mem, .hqe, .nv, .elg, .bmc, .mpc, .free] s (mpcRequest line w issued i s) :=
  .ite .refl <| .ite (.ite
       (.after mpcAnswer_within <| bufferWrite_within.mono) <| .after mpcAnswer_within <| dramRead_within.mono) <| by
  split
  · dsimp only
    split
    · exact .after mpcHit_within <| .mono (mpcReg_within fun _ h => incR_twf _ _ _ h)
    · exact .after mpcHit_within <| .mono (mpcReg_within fun _ h => incR_twf _ _ _ (incR_twf _ _ _ h))
    · exact .ite (.after mpcAnswer_within <| .after machineCheck_within <|
          .after (mpcReg_within fun _ h => incR_twf _ _ _ h) <| dropLine_within.mono) <| .after mpcFill_within <|
          .after (mpcReg_within fun _ h => incR_twf _ _ _ h) <| dropLine_within.mono
    · exact .ite (.after mpcFill_within <| .after machineCheck_within <| .after takeFree_within <|
          .after (mpcReg_within fun _ h => incR_twf _ _ _ h) <| dropLine_within.mono) <| .after mpcFill_within <|
          .after (mpcReg_within fun _ h => incR_twf _ _ _ h) <| dropLine_within.mono
  · split
    · exact mpcSnoop_within.mono
    · exact mpcFill_within.mono

theorem lockRefuse_within {code s} : Within [.mpc] s (lockRefuse code s) :=
  mpcReg_within fun _ h => wrF_twf _ _ _ (wrB_twf _ _ _ h)

theorem lockDone_within {s} : Within [.mpc] s (lockDone s) := mpcReg_within fun _ h => wrF_twf _ _ _ (wrB_twf _ _ _ h)

theorem lockFor_within {line s} : Within [.sys, .evr, .mck, .mem, .hqe, .nv, .elg, .bmc, .mpc, .free] s (lockFor line s) := by
  unfold lockFor
  dsimp only
  split
  · exact .ite (.after lockDone_within <| .mono (modMpc_within fun _ h => h)) <|
        .ite (.after lockRefuse_within <| .mono (modMpc_within fun _ h => h)) <| by
      split
      · exact .after lockRefuse_within <| .mono (modMpc_within fun _ h => h)
      · exact .after lockDone_within <| .after editLine_within <| .mono (modMpc_within fun _ h => h)
  · exact .ite (.after lockRefuse_within <| .mono (modMpc_within fun _ h => h)) <|
        .ite (.after (modMpc_within fun _ h => h) <| .mono (modMpc_within fun _ h => h)) <| by
      split
      · split
        · exact .after lockRefuse_within <| .after mpcSnoop_within <| .mono (modMpc_within fun _ h => h)
        · exact .after lockDone_within <| .after editLine_within <| .after mpcSnoop_within <| .mono (modMpc_within fun _ h => h)
      · split
        · exact .after lockRefuse_within <| .after mpcFill_within <| .mono (modMpc_within fun _ h => h)
        · exact .after lockDone_within <| .after editLine_within <| .after mpcFill_within <| .mono (modMpc_within fun _ h => h)

theorem mpcLock_within {s} : Within [.sys, .evr, .mck, .mem, .hqe, .nv, .elg, .bmc, .mpc, .free] s (mpcLock s) :=
  .ite .refl <| lockFor_within.mono

theorem evictionWritebackDone_within {line s} :
    Within [.sys, .evr, .mck, .mem, .hqe, .nv, .elg, .bmc, .mpc, .free] s (evictionWritebackDone line s) := by
  unfold evictionWritebackDone
  split
  · exact .refl
  · exact .ite (by
         dsimp only
         split
         · exact .after (modMpc_within fun _ h => h) <| toDram_within.mono
         · exact .after lockFor_within <| .after (modMpc_within fun _ h => h) <| toDram_within.mono) .refl

theorem mpcUnlock_within {s} : Within [.mpc] s (mpcUnlock s) := .ite .refl <| by
  split
  · exact .ite (.after lockDone_within <| editLine_within.mono) <| lockRefuse_within.mono
  · exact lockRefuse_within.mono

theorem lockGo_within {s} : Within [.sys, .evr, .mck, .mem, .hqe, .nv, .elg, .bmc, .mpc, .free] s (lockGo s) := by
  unfold lockGo
  split
  · exact mpcLock_within.mono
  · exact mpcUnlock_within.mono
  · exact .ite .refl <| lockRefuse_within.mono

theorem visitLine_within {op x s} : Within [.sys, .evr, .mck, .mem, .bmc, .mpc, .free] s (visitLine op x s) := by
  unfold visitLine
  dsimp only
  split
  · exact .ite (.after editLine_within <| toDram_within.mono) .refl
  · exact .ite (.mono (mpcReg_within fun _ h => wrB_twf _ _ _ (wrF_twf _ _ _ h))) <| dropLine_within.mono
  · exact .ite (.after (mpcReg_within fun _ h => wrB_twf _ _ _ (wrF_twf _ _ _ h)) <|
        .ite (.after editLine_within <| toDram_within.mono) .refl) <| .after dropLine_within <|
        .ite (.after editLine_within <| toDram_within.mono) .refl

theorem visitAll_within {op l s} : Within [.sys, .evr, .mck, .mem, .bmc, .mpc, .free] s (visitAll op l s) := by
  induction l generalizing s with
  | nil => exact .mono <| modMpc_within fun _ h => h
  | cons x l ih =>
    unfold visitAll
    split
    · exact ih
    · exact .ite (.mono <| modMpc_within fun _ h => h) <| .comp ih visitLine_within

theorem rangeGo_within {op s} : Within [.sys, .evr, .mck, .mem, .bmc, .mpc, .free] s (rangeGo op s) :=
  .ite (.mono (mpcReg_within fun _ h => wrB_twf _ _ _ h)) <| .after visitAll_within <|
      .mono (modMpc_within fun _ h => wrF_twf _ _ _ h)

theorem mpcClean_within {s} : Within [.sys, .evr, .mck, .mem, .bmc, .mpc, .free] s (mpcClean s) := rangeGo_within.mono

theorem mpcInvalidate_within {s} : Within [.sys, .evr, .mck, .mem, .bmc, .mpc, .free] s (mpcInvalidate s) :=
  rangeGo_within.mono

theorem mpcCleanInvalidate_within {s} : Within [.sys, .evr, .mck, .mem, .bmc, .mpc, .free] s (mpcCleanInvalidate s) :=
  rangeGo_within.mono

theorem mpcRangeEnd_within {s} : Within [.sys, .evr, .mck, .mem, .bmc, .mpc, .free] s (mpcRangeEnd s) := by
  unfold mpcRangeEnd
  split
  · exact .refl
  · exact .whenFalse (.mono (modMpc_within fun _ h => h)) <| visitAll_within.mono

theorem mpcClrCnt_within {s} : Within [.mpc] s (mpcClrCnt s) :=
  mpcReg_within fun _ h => wr_twf _ _ _ (wr_twf _ _ _ (wr_twf _ _ _ (wr_twf _ _ _ (wr_twf _ _ _ h))))

/-! ### The operations of Sys2Proof/Machine/Logs.lean -/

theorem getLogPage_within {n s} : Within [.hqe, .tmn, .free] s (getLogPage n s) := onAdmin_within fun _ _ => by
    dsimp only
    split
    · exact reply_within.mono
    · exact .ite reply_within.mono <| .after reply_within <| .after modSlot_within <| .whenTrue modFn_within.mono <|
          .whenTrue requestAll_within.mono <| .mono .setFree

theorem identify_within {n s} : Within [.hqe, .free] s (identify n s) :=
  onAdmin_within fun _ _ => .after reply_within <| .after modSlot_within <| .mono .setFree

/-! ### The operations of Sys2Proof/Machine/HostReset.lean -/

theorem dispose_within {n disp x s} : Within [.hqe] s (dispose n disp x s) :=
  .after freeSlot_within <| .ite modFn_within.mono .refl

theorem disposeCmd_within {n s} :
    Within [.sys, .evr, .mck, .mcs, .mem, .tdl, .ple, .hqe, .bmc, .dma, .free] s (disposeCmd n s) := by
  unfold disposeCmd
  split
  · exact .refl
  · exact .ite .refl <| by
      split
      · exact dispose_within.mono
      · exact dispose_within.mono
      · exact .ite (.ite
               (.after advanceAll_within <| .after updateMapState_within <| .after dispose_within <|
                   applyCmd_within.mono) .refl) <| .after advanceAll_within <| .after dispose_within <| takeBack_within.mono

theorem resetPump_within {s} : Within [.sys, .evr, .mck, .mcs, .mem, .tdl, .ple, .hqe, .bmc, .dma, .free] s (resetPump s) :=
  .foldl fun _ _ => disposeCmd_within.mono

theorem settleHost_within {s} :
    Within [.sys, .evr, .mck, .mcs, .mem, .tdl, .ple, .hqe, .nv, .bmc, .dma, .pct, .free] s (settleHost s) :=
  .after saveRecords_within <| .after pumpReads_within <| .after advanceAll_within <| .after resetPump_within <|
      afterJobs_within.mono

theorem ctrlReset_within {f kind s} :
    Within [.sys, .evr, .mck, .mcs, .mem, .tdl, .ple, .hqe, .bmc, .dma, .free] s (ctrlReset f kind s) :=
  .ite .refl <| .after resetPump_within <| .after (modHqe_within fun _ h => h) <| modFn_within.mono

theorem controllerReset_within {f shn s} :
    Within [.sys, .evr, .mck, .mcs, .mem, .tdl, .ple, .hqe, .nv, .bmc, .dma, .pct, .free] s (controllerReset f shn s) :=
  .whenTrue orderlyShutdown_within.mono <| ctrlReset_within.mono

theorem functionLevelReset_within {f s} :
    Within [.sys, .evr, .mck, .mcs, .mem, .tdl, .ple, .hqe, .bmc, .dma, .free] s (functionLevelReset f s) :=
  ctrlReset_within.mono

theorem vfEnableClear_within {pf s} :
    Within [.sys, .evr, .mck, .mcs, .mem, .tdl, .ple, .hqe, .bmc, .dma, .free] s (vfEnableClear pf s) :=
  .ite .refl <| .after modFn_within <| .foldl fun _ _ => ctrlReset_within.mono

theorem resetPort_within {p s} :
    Within [.sys, .evr, .mck, .mcs, .mem, .tdl, .ple, .hqe, .bmc, .dma, .free] s (resetPort p s) := by
  unfold resetPort
  exact .after modFn_within <| .after cutTransfers_within <| .foldl fun _ _ => ctrlReset_within.mono

theorem portReset_within {p s} : Within [.sys, .evr, .mck, .mcs, .mem, .tdl, .ple, .hqe, .bmc, .dma, .free] s (portReset p s) :=
  resetPort_within.mono

theorem linkDownPort_within {p s} :
    Within [.sys, .evr, .mck, .mcs, .mem, .tdl, .ple, .hqe, .bmc, .dma, .free] s (linkDownPort p s) :=
  .ite (.after (hqeReg_within fun _ h => wrF_twf _ _ _ (wrF_twf _ _ _ h)) <| resetPort_within.mono) <|
      .whenTrue (.mono (hqeReg_within fun _ h => wrF_twf _ _ _ (wrF_twf _ _ _ h))) <| resetPort_within.mono

theorem controllerResetSlotsFree_within {f s} : Within [.hqe, .nv, .pct] s (controllerResetSlotsFree f s) :=
  .ite .refl <| .after saveFrontier_within <| .whenTrue (.mono (modHqe_within fun _ h => h)) <|
      .after (modHqe_within fun _ h => h) <| .after putFn_within <| noteC1_within.mono

theorem controllerEnable_within {f cc asqs acqs width speed s} :
    Within [.hqe] s (controllerEnable f cc asqs acqs width speed s) :=
  .ite .refl <| .after modFn_within <| .whenFalse modFn_within.mono <|
      .ite (.mono (hqeReg_within fun _ h => wrF_twf _ _ _ (wrF_twf _ _ _ h))) <|
      .mono (hqeReg_within fun _ h => wrF_twf _ _ _ (wrF_twf _ _ _ h))

/-! ### The operations of Sys2Proof/Machine/Tandem.lean -/

theorem onLink_within {F h f s} (hf : ∀ s, Within F s (f s)) (hF : inside [.tdl] F = true := by decide) :
    Within F s (onLink h f s) :=
  .ite (.comp (hf _) (takeHeader_within.mono hF)) .refl

theorem ackNow_within {s} : Within [.tdl] s (ackNow s) := sendCtrl_within

theorem onMirror_within {F h mseq f s} (hf : ∀ s, Within F s (f s)) (hF : inside [.tdl] F = true := by decide) :
    Within F s (onMirror h mseq f s) :=
  onLink_within (hF := hF) fun _ =>
    .ite (.comp (ackNow_within.mono hF) <| (tdlReg_within fun _ h => incR_twf _ _ _ h).mono hF) <|
        .ite (.comp (ackNow_within.mono hF) <| .comp (hf _) <| .mono (modTdl_within fun _ h => h) hF) .refl

theorem modCmd_within {slot f s} : Within [.tdl] s (modCmd slot f s) := modTdl_within fun _ h => h

theorem holdData_within {slot s} : Within [.tdl] s (holdData slot s) :=
  .after modCmd_within <| .mono (modTdl_within fun _ h => h)

theorem snapMark_within {num seq s} : Within [.ple, .nv] s (snapMark num seq s) :=
  .after .setNv <| .mono (modPle_within fun _ h => h)

theorem mirrorOp_within {s op} : Within [.tdl, .ple, .nv] s (mirrorOp s op) := by
  unfold mirrorOp
  split
  · exact snapMark_within.mono
  · exact applyOp_within.mono

theorem applyMirror_within {r s} : Within [.evr, .tdl, .ple, .nv, .free] s (applyMirror r s) := by
  unfold applyMirror
  split
  · exact .mono (modTdl_within fun _ h => h)
  · exact .ite (.ite
           (.after (modPle_within fun _ h => h) <| modMap_within.mono) <| .after (modTdl_within fun _ h => h) <|
               modMap_within.mono) <| modCmd_within.mono
  · exact .ite (.after updateMapState_within <| .after modCmd_within <| .after keepKeys_within <|
        .comp (.foldl fun _ _ => mirrorOp_within.mono) <| .after (modPle_within fun _ h => h) <| .after holdData_within <|
        .after (modTdl_within fun _ h => h) <| .mono (modPle_within fun _ h => h)) <| .after (modTdl_within fun _ h => h) <|
        .mono (modPle_within fun _ h => h)
  · exact modCmd_within.mono
  · exact .mono (modTdl_within fun _ h => h)

theorem tdlSlot_within {h mseq r s} : Within [.evr, .tdl, .ple, .nv, .free] s (tdlSlot h mseq r s) :=
  onMirror_within fun _ => applyMirror_within.mono

theorem tdlData_within {h mseq slot key v need s} :
    Within [.evr, .tdl, .ple, .nv, .free] s (tdlData h mseq slot key v need s) :=
  onMirror_within fun _ => applyMirror_within.mono

theorem tdlJournal_within {h mseq seq slot final ops assigned s} :
    Within [.evr, .tdl, .ple, .nv, .free] s (tdlJournal h mseq seq slot final ops assigned s) :=
  onMirror_within fun _ => applyMirror_within.mono

theorem commitDone_within {h mseq slot cid s} : Within [.evr, .tdl, .ple, .nv, .free] s (commitDone h mseq slot cid s) :=
  onMirror_within fun _ => applyMirror_within.mono

theorem tdlRelease_within {h mseq keys s} : Within [.evr, .tdl, .ple, .nv, .free] s (tdlRelease h mseq keys s) :=
  onMirror_within fun _ => applyMirror_within.mono

theorem releaseAcked_within {s} : Within [.tdl, .ple] s (releaseAcked s) :=
  .ite .refl <| .whenFalse sendMirror_within.mono <| .whenFalse journal_within.mono <|
      .comp (.foldl fun _ _ => cleanKey_within.mono) <| .mono (modTdl_within fun _ h => h)

theorem tdlAck_within {h mseq late s} : Within [.tdl, .ple] s (tdlAck h mseq late s) :=
  onLink_within fun _ => .ite (.mono (tdlReg_within fun _ h => incR_twf _ _ _ h)) <|
      .ite (.after releaseAcked_within <| .mono (modTdl_within fun _ h => h)) .refl

theorem mirrorResendTimeout_within {s} : Within [.tdl] s (mirrorResendTimeout s) := by
  unfold mirrorResendTimeout
  split
  · exact .refl
  · exact resendFrom_within.mono

theorem mediaReq_within {h r s} : Within [.tdl, .ple, .free] s (mediaReq h r s) :=
  onLink_within fun _ => .ite sendCtrl_within.mono <| .after modSched_within <| .after (modPle_within fun _ h => h) <|
      .mono .setFree

theorem unqueue_within {k p s} : Within [.ple] s (unqueue k p s) := modSched_within

theorem mediaCancel_within {h tag s} : Within [.mcs, .tdl, .ple] s (mediaCancel h tag s) :=
  onLink_within fun _ => forMcs_within fun _ _ => .whenTrue sendCtrl_within.mono <|
      .comp (.foldl fun _ _ => jtCancel_within.mono) <| unqueue_within.mono

theorem remoteEnded_within {c cls vals s} : Within [.evr, .mcs, .tdl, .ple, .hqe, .nv, .free] s (remoteEnded c cls vals s) := by
  unfold remoteEnded
  dsimp only
  split
  · exact .after finish_within <| .after takeFree_within <| .after (modPle_within fun _ h => h) <|
        .mono (modTdl_within fun _ h => h)
  · exact .after resolveCand_within <| .after (modPle_within fun _ h => h) <| .mono (modTdl_within fun _ h => h)

theorem mediaEnd_within {h tag cls s} : Within [.evr, .mcs, .tdl, .ple, .hqe, .nv, .free] s (mediaEnd h tag cls s) :=
  onLink_within fun _ => by
    split
    · exact .refl
    · exact .ite (.mono (modTdl_within fun _ h => h)) <| .ite (by
           split
           · exact remoteEnded_within.mono
           · exact .mono (modTdl_within fun _ h => h)) <| remoteEnded_within.mono

theorem readData_within {h tag vals s} : Within [.evr, .mcs, .tdl, .ple, .hqe, .nv, .free] s (readData h tag vals s) :=
  onLink_within fun _ => by
    split
    · exact .refl
    · exact .ite remoteEnded_within.mono <| .mono (modTdl_within fun _ h => h)

theorem tdlClaim_within {h tag claim s} : Within [.mcs, .tdl, .ple] s (tdlClaim h tag claim s) := by
  unfold tdlClaim
  exact onLink_within fun _ => .ite (.after sendCtrl_within <| .after withdraw_within <|
      .mono (modPle_within fun _ h => h)) <| .after sendCtrl_within <| .mono (modTdl_within fun _ h => h)

theorem claimReply_within {h tag won s} : Within [.tdl, .ple] s (claimReply h tag won s) :=
  onLink_within fun _ => .ite .refl <| .ite (.mono (modTdl_within fun _ h => h)) <|
      .comp (forMcs_within fun _ _ => .ite (.after modSched_within <| unqueue_within.mono) .refl) <|
      .mono (modTdl_within fun _ h => h)

theorem takeAll_within {s} : Within [.evr, .mcs, .media, .sce, .scu, .tdl, .ple, .hqe, .free] s (takeAll s) :=
  .comp (.foldl fun _ _ => reenter_within.mono) <| .after (modTdl_within fun _ h => h) <|
      .whenFalse scuDriveWrite_within.mono <| forMcs_within fun _ _ =>
      .ite (.after actEnWrite_within <| takeOwn_within.mono) .refl

theorem adoptHeld_within {s} : Within [.tdl, .ple] s (adoptHeld s) := by
  unfold adoptHeld
  exact .after (modTdl_within fun _ h => h) <| .mono (modPle_within fun _ h => h)

theorem yieldDirty_within {s} : Within [.tdl, .ple] s (yieldDirty s) := by
  unfold yieldDirty
  exact .after (modPle_within fun _ h => h) <| .mono (modTdl_within fun _ h => h)

theorem classify_within {n s} : Within [.evr, .tdl, .free] s (classify n s) :=
  .ite .refl <| .after pairEvent_within <| .mono (tdlReg_within fun _ h => wrF_twf _ _ _ h)

theorem startServing_within {s} : Within [.evr, .tdl, .ple, .hqe, .free] s (startServing s) :=
  .ite .refl <| .after pairEvent_within <| .after anaChange_within <| .after adoptHeld_within <|
      .after (modTdl_within fun _ h => h) <| .mono (tdlReg_within fun _ h => wrB_twf _ _ _ h)

theorem failover_within {s} : Within [.sys, .evr, .mck, .mcs, .media, .mem, .sce, .scu, .tdl, .ple, .hqe, .nv, .elg, .bmc,
    .clp, .free] s (failover s) :=
  .ite .refl <| .whenTrue startServing_within.mono <| .after reportC1_within <| .after (modTdl_within fun _ h => h) <|
      .after takeAll_within <| .after (modTdl_within fun _ h => h) <| .after withdraw_within <| .after tocsin_within <|
      .after pairLost_within <| .after pairEvent_within <| classify_within.mono

theorem linkFault_within {s} : Within [.evr, .mcs, .tdl, .ple, .free] s (linkFault s) :=
  .whenFalse (.after withdraw_within <| .mono (modTdl_within fun _ h => h)) <| classify_within.mono

theorem finishYield_within {s} : Within [.evr, .mcs, .media, .sce, .scu, .tdl, .ple, .clp, .free] s (finishYield s) :=
  .ite .refl <| .after (modClp_within fun _ h => h) <| .after (modTdl_within fun _ h => h) <|
      .whenTrue scuDriveWrite_within.mono <| forMcs_within fun _ _ => .after actEnWrite_within <|
      .ite hifOwnWrite_within.mono .refl

theorem tdlSilence_within {s} : Within [.evr, .mcs, .tdl, .ple, .elg, .free] s (tdlSilence s) :=
  .whenFalse (.whenFalse linkFault_within.mono <| .after settleWt_within <| pairLost_within.mono) <|
      .mono (tdlReg_within fun _ h => wrB_twf _ _ _ h)

theorem carillonAbsence_within {s} : Within [.sys, .evr, .mck, .mcs, .media, .mem, .sce, .scu, .tdl, .ple, .hqe, .nv, .elg,
    .bmc, .clp, .free] s (carillonAbsence s) :=
  .ite failover_within.mono .refl

theorem tdlFault_within {h s} : Within [.sys, .evr, .mck, .mcs, .media, .mem, .sce, .scu, .tdl, .ple, .hqe, .nv, .elg, .bmc,
    .clp, .free] s (tdlFault h s) :=
  onLink_within fun _ => .ite failover_within.mono .refl

theorem seeYield_within {s} : Within [.evr, .mcs, .media, .sce, .scu, .tdl, .ple, .hqe, .clp, .free] s (seeYield s) :=
  .ite (.after (modClp_within fun _ h => h) <| takeAll_within.mono) .refl

theorem seeSolo_within {s} : Within [.tdl] s (seeSolo s) := .ite (.mono (modTdl_within fun _ h => h)) .refl

theorem flitReplayTimeout_within {s} : Within [.evr, .tdl, .free] s (flitReplayTimeout s) :=
  .ite .refl <| resendFlits_within.mono

theorem tdlNak_within {h s} : Within [.evr, .tdl, .free] s (tdlNak h s) := onLink_within fun _ => resendFlits_within.mono

theorem flitDropped_within {bytes s} : Within [.tdl] s (flitDropped bytes s) := .ite .refl <| by
  split
  · exact .refl
  · exact .mono (tdlReg_within fun _ h => incR_twf _ _ _ h)
  · exact .mono (modTdl_within fun _ h => h)
  · exact .mono (modTdl_within fun _ h => h)

theorem lossOfLaneLock_within {s} : Within [.evr, .tdl, .free] s (lossOfLaneLock s) := linkDown_within.mono

theorem tdlRetrainDone_within {s} : Within [.tdl] s (tdlRetrainDone s) :=
  .ite .refl <| .after sendCtrl_within <| .after (modTdl_within fun _ h => h) <|
      .mono (tdlReg_within fun _ h => wrF_twf _ _ _ (wrF_twf _ _ _ (wrB_twf _ _ _ h)))

theorem heartbeatSendTick_within {s} : Within [.tdl] s (heartbeatSendTick s) :=
  .ite (.after sendCtrl_within <| .mono (modTdl_within fun _ h => h)) .refl

theorem tdlClrCnt_within {s} : Within [.tdl] s (tdlClrCnt s) :=
  tdlReg_within fun _ h => wr_twf _ _ _ (wr_twf _ _ _ (wr_twf _ _ _ (wr_twf _ _ _ h)))

theorem hello_within {h x s} : Within [.evr, .mcs, .tdl, .ple, .hqe, .nv, .clp, .free] s (hello h x s) :=
  onLink_within fun _ => .ite (.after reportC1_within <| .after classify_within <|
      .after (tdlReg_within fun _ h => wrF_twf _ _ _ h) <|
      .after (tdlReg_within fun _ h => wrF_twf _ _ _ (wrF_twf _ _ _ h)) <| .mono (modTdl_within fun _ h => h)) <|
      .ite (.after (modClp_within fun _ h => h) <| .after classify_within <|
      .after (tdlReg_within fun _ h => wrF_twf _ _ _ h) <|
      .after (tdlReg_within fun _ h => wrF_twf _ _ _ (wrF_twf _ _ _ h)) <| .mono (modTdl_within fun _ h => h)) <|
      .after linkFault_within <| .after reportC1_within <| .after (tdlReg_within fun _ h => wrF_twf _ _ _ h) <|
      .after (tdlReg_within fun _ h => wrF_twf _ _ _ (wrF_twf _ _ _ h)) <| .mono (modTdl_within fun _ h => h)

theorem takeActs_within {acts s} : Within [.mcs, .sce] s (takeActs acts s) :=
  forMcs_within fun _ _ => .ite (.after actEnWrite_within <| takeOwn_within.mono) .refl

theorem offerDumped_within {s} : Within [.tdl] s (offerDumped s) := .foldl fun _ _ => sendMirror_within.mono

theorem takeRoles_within {b s} : Within [.evr, .mcs, .media, .sce, .scu, .tdl, .ple, .hqe, .free] s (takeRoles b s) :=
  .ite .refl <| .after takeActs_within <| .whenTrue scuDriveWrite_within.mono <| .whenTrue startServing_within.mono <|
      .after offerDumped_within <| .mono (modTdl_within fun _ h => h)

theorem noteBeat_within {b s} : Within [.tdl, .hqe] s (noteBeat b s) :=
  .after (tdlReg_within fun _ h => wrF_twf _ _ _ (wrB_twf _ _ _ h)) <| .after (modTdl_within fun _ h => h) <|
      .ite anaChange_within.mono .refl

theorem askHome_within {b s} : Within [.tdl] s (askHome b s) :=
  .ite (.after sendCtrl_within <| .mono (modTdl_within fun _ h => h)) .refl

theorem advanceEpoch_within {s} : Within [.tdl, .ple] s (advanceEpoch s) :=
  .ite (.after journal_within <| modMap_within.mono) .refl

theorem tdlHeartbeat_within {h b s} :
    Within [.evr, .mcs, .media, .sce, .scu, .tdl, .ple, .hqe, .nv, .elg, .free] s (tdlHeartbeat h b s) :=
  onLink_within fun _ => .whenTrue (.after anaChange_within <| .mono (modTdl_within fun _ h => h)) <|
      .whenTrue (.after advanceEpoch_within <| .after askHome_within <| .after takeRoles_within <|
      .mono (elgReg_within fun _ h => wrB_twf _ _ _ h)) <|
      .whenTrue (.after journalReach_within <| .mono (modPle_within fun _ h => h)) <|
      .whenTrue (.after resendFrom_within <| .mono (modTdl_within fun _ h => h)) <| noteBeat_within.mono

theorem helloWaitTimeout_within {s} : Within [.evr, .mcs, .media, .sce, .scu, .tdl, .ple, .hqe, .free] s (helloWaitTimeout s) :=
  .ite .refl <| .ite (.after startServing_within <| .after takeAll_within <| .after classify_within <|
      .mono (modTdl_within fun _ h => h)) <| .ite (.after linkFault_within <| .mono (modTdl_within fun _ h => h)) <|
      .after takeActs_within <| .after (modTdl_within fun _ h => h) <| .after startServing_within <|
      .after linkFault_within <| .after (tdlReg_within fun _ h => wrB_twf _ _ _ h) <| .mono (modTdl_within fun _ h => h)

theorem returnWork_within {k s} : Within [.mcs, .tdl, .ple] s (returnWork k s) :=
  .comp (.foldl fun _ _ => .ite jtCancel_within.mono .refl) <| .comp (.foldl fun _ _ => by
    split
    · exact sendCtrl_within.mono
    · exact .refl) <| .after (modTdl_within fun _ h => h) <| unqueue_within.mono

theorem startRelease_within {acts spindle s} : Within [.mcs, .tdl, .ple] s (startRelease acts spindle s) := by
  unfold startRelease
  exact .comp (forMcs_within fun _ _ => .ite returnWork_within.mono .refl) <| .mono (modTdl_within fun _ h => h)

theorem handoffReq_within {h acts spindle s} : Within [.mcs, .tdl, .ple] s (handoffReq h acts spindle s) :=
  onLink_within fun _ => .ite .refl <| .ite startRelease_within.mono <| .mono (modTdl_within fun _ h => h)

theorem handoffState_within {h targets spindle s} :
    Within [.evr, .mcs, .media, .sce, .scu, .tdl, .ple, .free] s (handoffState h targets spindle s) :=
  onLink_within fun _ => .whenTrue scuDriveWrite_within.mono <|
      .comp (.foldl fun _ _ => .after actEnWrite_within <| .after modAct_within <| takeOwn_within.mono) <|
      .whenFalse (.mono (tdlReg_within fun _ h => wrB_twf _ _ _ (wrF_twf _ _ _ h))) <| .mono (modTdl_within fun _ h => h)

theorem reenterReturned_within {s} : Within [.tdl, .ple, .hqe] s (reenterReturned s) :=
  .ite .refl <| .comp (.foldl fun _ _ => reenter_within.mono) <| .mono (modTdl_within fun _ h => h)

theorem handoffDone_within {h s} : Within [.evr, .tdl, .ple, .hqe, .free] s (handoffDone h s) := onLink_within fun _ => by
    split
    · exact .after pairEvent_within <| .after reenterReturned_within <| .mono (modTdl_within fun _ h => h)
    · exact .after pairEvent_within <| .after reenterReturned_within <| .mono (modTdl_within fun _ h => h)

theorem handoffArm_within {s} : Within [.mcs, .tdl, .ple] s (handoffArm s) := by
  unfold handoffArm
  dsimp only
  split
  · exact .whenFalse (.after sendCtrl_within <| .after (modTdl_within fun _ h => h) <| forMcs_within fun _ _ =>
        .ite returnWork_within.mono .refl) <| .after (modTdl_within fun _ h => h) <|
        .mono (tdlReg_within fun _ h => wrB_twf _ _ _ h)
  · exact .after (modTdl_within fun _ h => h) <| .mono (tdlReg_within fun _ h => wrB_twf _ _ _ h)

theorem handoffDisarm_within {s} : Within [.evr, .tdl, .ple, .hqe, .free] s (handoffDisarm s) := by
  unfold handoffDisarm
  dsimp only
  split
  · exact .whenTrue (.after pairEvent_within <| .after reenterReturned_within <| .after sendCtrl_within <|
        .mono (modTdl_within fun _ h => h)) <| .mono (tdlReg_within fun _ h => wrB_twf _ _ _ h)
  · exact .mono (tdlReg_within fun _ h => wrB_twf _ _ _ h)

theorem spindleProgress_within {s} : Within [.evr, .tdl, .ple, .hqe, .free] s (spindleProgress s) :=
  .ite (.after pairEvent_within <| .after reenterReturned_within <| .after sendCtrl_within <|
      .mono (modTdl_within fun _ h => h)) .refl

theorem handoffJobTimeout_within {s} : Within [.tdl, .ple, .hqe] s (handoffJobTimeout s) := by
  unfold handoffJobTimeout
  split
  · exact .ite (.after reenterReturned_within <| .mono (modTdl_within fun _ h => h)) .refl
  · exact .refl

theorem driveWrite_within {b s} : Within [.evr, .mcs, .media, .sce, .scu, .tdl, .ple, .free] s (driveWrite b s) :=
  .whenFalse (by
    split
    · exact .after sendCtrl_within <| .ite (.mono (modTdl_within fun _ h => h)) .refl
    · exact sendCtrl_within.mono
    · exact .refl) <| scuDriveWrite_within.mono

theorem serveXfer_within {h mseq s} : Within [.tdl] s (serveXfer h mseq s) :=
  onLink_within fun _ => .ite .refl <| .mono (modTdl_within fun _ h => h)

theorem serveXferDrainTimeout_within {s} :
    Within [.sys, .evr, .mck, .mcs, .mem, .tdl, .ple, .hqe, .bmc, .dma, .free] s (serveXferDrainTimeout s) :=
  .ite interruptAll_within.mono .refl

theorem serveProgress_within {s} : Within [.evr, .tdl, .ple, .hqe, .free] s (serveProgress s) := by
  unfold serveProgress
  split
  · exact .ite .refl <| .after pairEvent_within <| .after yieldDirty_within <| .after sendCtrl_within <|
        .after (tdlReg_within fun _ h => wrB_twf _ _ _ h) <| .mono (modTdl_within fun _ h => h)
  · exact .ite startServing_within.mono .refl
  · exact .refl

theorem prepProgress_within {s} : Within [.mcs, .tdl, .ple, .hqe] s (prepProgress s) := by
  unfold prepProgress
  split
  · exact .refl
  · exact .ite .refl <| .ite (.ite
           (.after startRelease_within <| sendCtrl_within.mono) .refl) <|
               .ite (.after (modHqe_within fun _ h => h) <| .mono (modTdl_within fun _ h => h)) .refl

theorem remoteProgress_within {s} : Within [.tdl, .ple, .hqe] s (remoteProgress s) := by
  unfold remoteProgress
  exact .comp (forMcs_within fun _ _ => .ite .refl <| .comp (.foldl fun _ _ => queueCand_within.mono) <|
      unqueue_within.mono) <| .mono (modPle_within fun _ h => h)

theorem releaseProgress_within {s} : Within [.mcs, .tdl, .ple] s (releaseProgress s) := by
  unfold releaseProgress
  split
  · exact .ite .refl <| startRelease_within.mono
  · exact .ite (.mono (modTdl_within fun _ h => h)) .refl
  · exact .refl

theorem activateDone_within {s} : Within [.evr, .tdl, .hqe, .nv, .free] s (activateDone s) :=
  .whenTrue (.after sendCtrl_within <| .mono (modTdl_within fun _ h => h)) <| firmwareActivateDone_within.mono

theorem settleSlots_within {s} :
    Within [.sys, .evr, .mck, .mcs, .mem, .tdl, .ple, .hqe, .nv, .bmc, .dma, .pct, .free] s (settleSlots s) := by
  unfold settleSlots
  exact .after prepProgress_within <| .after releaseProgress_within <| .after serveProgress_within <|
      .after remoteProgress_within <| settleHost_within.mono

theorem settle_within {s} : Within [.sys, .evr, .mck, .mcs, .media, .mem, .sce, .scu, .tdl, .ple, .hqe, .nv, .bmc, .dma,
    .pct, .clp, .free] s (settle s) := by
  unfold settle
  exact .after prepProgress_within <| .after spindleProgress_within <| .after releaseProgress_within <|
      .after serveProgress_within <| .after finishYield_within <| .after remoteProgress_within <| .after settleHost_within <|
      releaseAcked_within.mono

/-! ### The operations of Sys2Proof/Machine/Clp.lean -/

theorem stranger_within {s} : Within [.evr, .clp, .free] s (stranger s) :=
  .whenFalse (.after coordEvent_within <| .mono (modClp_within fun _ h => h)) <|
      .mono (clpReg_within fun _ h => incR_twf _ _ _ h)

theorem conflict_within {s} : Within [.sys, .evr, .mck, .mem, .bmc, .clp, .free] s (conflict s) :=
  .whenFalse tocsin_within.mono <| .mono (clpReg_within fun _ h => wrB_twf _ _ _ h)

theorem ringEnter_within {h type body slot s} :
    Within [.sys, .evr, .mck, .mem, .bmc, .clp, .free] s (ringEnter h type body slot s) := by
  unfold ringEnter
  exact .after (clpReg_within fun _ h => wrF_twf _ _ _ h) <| bufPut_within.mono

theorem clpReceive_within {h type known slot late s} :
    Within [.sys, .evr, .mck, .mem, .bmc, .clp, .free] s (clpReceive h type known slot late s).2 := by
  have strange : Within [.sys, .evr, .mck, .mem, .bmc, .clp, .free] s (stranger s) := stranger_within.mono
  have counted {t} off (h : Within [.sys, .evr, .mck, .mem, .bmc, .clp, .free] s t) :
      Within [.sys, .evr, .mck, .mem, .bmc, .clp, .free] s (clpReg (fun c => incR c off 1) t) :=
    .after (clpReg_within fun _ h => incR_twf _ _ _ h) h
  generalize hr : clpReceive h type known slot late s = r
  unfold clpReceive at hr
  extract_lets +onlyGivenNames c body prod at hr
  split at hr
  · cases hr
    exact .refl
  split at hr
  · cases hr
    exact counted _ .refl
  split at hr
  · cases hr
    exact strange
  split at hr
  · cases hr
    exact .ite (.comp conflict_within strange) strange
  split at hr
  · cases hr
    exact strange
  split at hr
  · cases hr
    exact counted _ .refl
  extract_lets +onlyGivenNames d u v at hr
  split at hr
  · cases hr
    exact strange
  split at hr
  · cases hr
    exact counted _ .refl
  have received : Within [.sys, .evr, .mck, .mem, .bmc, .clp, .free] s v := counted _ bufPut_within.mono
  clear_value v
  split at hr
  · cases hr
    exact counted _ received
  · cases hr
    exact .comp ringEnter_within received

theorem onClp_within {F h type body f s} (hf : ∀ s, Within F s (f s))
    (hF : inside [.sys, .evr, .mck, .mem, .bmc, .clp, .free] F = true := by decide) : Within F s (onClp h type body f s) :=
  .ite (.comp (hf _) (clpReceive_within.mono hF)) (clpReceive_within.mono hF)

theorem putXchg_within {n x s} : Within [.clp] s (putXchg n x s) := modClp_within fun _ h => h

theorem armXchg_within {n tmo reqid s} : Within [.clp] s (armXchg n tmo reqid s) := putXchg_within

theorem spinUp_within {reqid granted s} : Within [.scu, .clp] s (spinUp reqid granted s) :=
  .after scuCmdStart_within <| .mono (modClp_within fun _ h => h)

theorem grantTaken_within {reqid s} : Within [.scu, .clp] s (grantTaken reqid s) := by
  unfold grantTaken
  split
  · exact .ite spinUp_within.mono .refl
  · exact .ite spinUp_within.mono .refl
  · exact .refl

theorem queuedTaken_within {reqid s} : Within [.clp] s (queuedTaken reqid s) := by
  unfold queuedTaken
  split
  · exact .ite (.after armXchg_within <| .mono (modClp_within fun _ h => h)) .refl
  · exact .ite (.after armXchg_within <| .mono (modClp_within fun _ h => h)) .refl
  · exact .refl

theorem denyTaken_within {reqid s} : Within [.clp] s (denyTaken reqid s) := by
  unfold denyTaken
  split
  · exact .ite (.mono (modClp_within fun _ h => h)) .refl
  · exact .ite (.mono (modClp_within fun _ h => h)) .refl
  · exact .refl

theorem response_within {F op h m f s} (hf : ∀ n s, Within F s (f n s))
    (hF : inside [.sys, .evr, .mck, .mem, .bmc, .clp, .free] F = true := by decide) : Within F s (response op h m f s) := by
  have hclp : inside [.clp] F = true := inside_trans (by decide) hF
  have hev : inside [.evr, .free] F = true := inside_trans (by decide) hF
  unfold response
  refine .ite (.comp (hf _ _) ?_) <| .ite (.comp (coordEvent_within.mono hev) (clpReceive_within.mono hF))
      (clpReceive_within.mono hF)
  split
  · exact .comp (putXchg_within.mono hclp) (clpReceive_within.mono hF)
  · exact clpReceive_within.mono hF

theorem grant_within {h m s} : Within [.sys, .evr, .mck, .mem, .scu, .bmc, .clp, .free] s (grant h m s) :=
  response_within fun _ _ => grantTaken_within.mono

theorem grantQueued_within {h m s} : Within [.sys, .evr, .mck, .mem, .bmc, .clp, .free] s (grantQueued h m s) :=
  response_within fun _ _ => queuedTaken_within.mono

theorem grantDeny_within {h m s} : Within [.sys, .evr, .mck, .mem, .bmc, .clp, .free] s (grantDeny h m s) :=
  response_within fun _ _ => denyTaken_within.mono

theorem answer_within {op pos e dur s} : Within [.sys, .evr, .mck, .mem, .scu, .bmc, .clp, .free] s (answer op pos e dur s) :=
  .ite (by
     split
     · exact grantTaken_within.mono
     · exact queuedTaken_within.mono
     · exact denyTaken_within.mono) <| clpSend_within.mono

theorem pumpGrants_within {n s} : Within [.sys, .evr, .mck, .mem, .scu, .bmc, .clp, .free] s (pumpGrants n s) := by
  induction n generalizing s with
  | zero => exact .refl
  | succ n ih =>
    unfold pumpGrants
    split
    · exact .refl
    · exact .ite .refl <| .comp ih <| .comp answer_within <| .mono <| modClp_within fun _ h => h

theorem grantAll_within {s} : Within [.sys, .evr, .mck, .mem, .scu, .bmc, .clp, .free] s (grantAll s) :=
  pumpGrants_within.mono

theorem request_within {subject reqid watts dur s} :
    Within [.sys, .evr, .mck, .mem, .scu, .bmc, .clp, .free] s (request subject reqid watts dur s) := by
  unfold request
  dsimp only
  split
  · exact answer_within.mono
  · split
    · exact .after answer_within <| .mono (modClp_within fun _ h => h)
    · exact .ite answer_within.mono <| by
        split
        · exact .after answer_within <| .after grantAll_within <| .mono (modClp_within fun _ h => h)
        · exact .after grantAll_within <| .mono (modClp_within fun _ h => h)

theorem grantRequest_within {h m s} : Within [.sys, .evr, .mck, .mem, .scu, .bmc, .clp, .free] s (grantRequest h m s) :=
  onClp_within fun _ => .ite request_within.mono .refl

theorem endGrants_within {p s} : Within [.sys, .evr, .mck, .mem, .scu, .bmc, .clp, .free] s (endGrants p s) :=
  .after grantAll_within <| .mono (modClp_within fun _ h => h)

theorem grantRelease_within {h m s} : Within [.sys, .evr, .mck, .mem, .scu, .bmc, .clp, .free] s (grantRelease h m s) :=
  onClp_within fun _ => .ite endGrants_within.mono .refl

theorem grantExpiry_within {subject reqid s} :
    Within [.sys, .evr, .mck, .mem, .scu, .bmc, .clp, .free] s (grantExpiry subject reqid s) :=
  endGrants_within.mono

theorem grantQueueLapse_within {subject reqid s} :
    Within [.sys, .evr, .mck, .mem, .scu, .bmc, .clp, .free] s (grantQueueLapse subject reqid s) :=
  .after grantAll_within <| .mono (modClp_within fun _ h => h)

theorem granterRestartWaitEnd_within {s} :
    Within [.sys, .evr, .mck, .mem, .scu, .bmc, .clp, .free] s (granterRestartWaitEnd s) :=
  .after grantAll_within <| .mono (modClp_within fun _ h => h)

theorem sendRequest_within {reqid s} : Within [.sys, .evr, .mck, .mem, .scu, .bmc, .clp, .free] s (sendRequest reqid s) :=
  .ite request_within.mono <| clpSend_within.mono

theorem spinStartNeeded_within {s} : Within [.sys, .evr, .mck, .mem, .scu, .bmc, .clp, .free] s (spinStartNeeded s) :=
  .ite scuCmdStart_within.mono <| by
  split
  · exact .after sendRequest_within <| .after armXchg_within <| .mono (modClp_within fun _ h => h)
  · exact .refl

theorem xchgArm_within {n tmo reqid s} :
    Within [.sys, .evr, .mck, .mem, .scu, .bmc, .clp, .free] s (xchgArm n tmo reqid s) := by
  unfold xchgArm
  dsimp only
  split
  · exact .whenTrue (.after sendRequest_within <| .mono (modClp_within fun _ h => h)) <| armXchg_within.mono
  · exact .whenTrue (.after sendRequest_within <| .mono (modClp_within fun _ h => h)) <| armXchg_within.mono
  · exact armXchg_within.mono

theorem xchgExpiry_within {n s} : Within [.clp] s (xchgExpiry n s) := by
  unfold xchgExpiry
  refine .ite .refl ?_
  dsimp only
  split
  · exact .whenFalse (modClp_within fun _ h => h) putXchg_within
  · exact .whenFalse (modClp_within fun _ h => h) putXchg_within
  · exact putXchg_within

theorem spinBackoffEnd_within {s} : Within [.scu, .clp] s (spinBackoffEnd s) := by
  unfold spinBackoffEnd
  split
  · exact spinUp_within.mono
  · exact .refl

theorem bootProgress_within {s} : Within [.sys, .pins] s (bootProgress s) :=
  .ite .refl <| .ite (.ite .refl <| bootStage_within.mono) <| .ite (.ite bootStage_within.mono .refl) <|
      .ite bootStage_within.mono .refl

theorem spinEnded_within {s} : Within [.sys, .evr, .mck, .pins, .mem, .scu, .bmc, .clp, .free] s (spinEnded s) := by
  unfold spinEnded
  dsimp only
  split
  · exact .whenTrue (.whenFalse (.ite endGrants_within.mono <| clpSend_within.mono) <| .mono (modClp_within fun _ h => h)) <|
        bootProgress_within.mono
  · exact bootProgress_within.mono

theorem writeWindow_within {period phase len s} : Within [.ple] s (writeWindow period phase len s) :=
  pleReg_within fun _ h => wr_twf _ _ _ h

theorem seekSlot_within {h m s} : Within [.sys, .evr, .mck, .mem, .ple, .bmc, .clp, .free] s (seekSlot h m s) := by
  unfold seekSlot
  refine onClp_within fun s => .ite .refl ?_
  extract_lets +onlyGivenNames u older
  have yielded : Within [.sys, .evr, .mck, .mem, .ple, .bmc, .clp, .free] s u :=
      .ite (.mono <| modClp_within fun _ h => h) .refl
  clear_value u
  refine .ite yielded ?_
  extract_lets +onlyGivenNames i v
  have placed : Within [.sys, .evr, .mck, .mem, .ple, .bmc, .clp, .free] s v := .after (modClp_within fun _ h => h) yielded
  clear_value v i
  cases i with
  | none => exact .after writeWindow_within placed
  | some i => exact .ite (.after writeWindow_within placed) <| .after writeWindow_within <|
        .after (pleReg_within fun _ h => wrB_twf _ _ _ h) placed

theorem seekSlotSilence_within {s} : Within [.ple, .clp] s (seekSlotSilence s) :=
  .whenTrue (.mono (modClp_within fun _ h => h)) <| .after (modClp_within fun _ h => h) <| writeWindow_within.mono

theorem clpPhase_within {h m s} : Within [.sys, .evr, .mck, .mem, .sce, .bmc, .clp, .free] s (clpPhase h m s) :=
  onClp_within fun _ => by
    split
    · exact .ite (.mono (sceReg_within fun _ h => wrF_twf _ _ _ h)) .refl
    · exact .refl

theorem partnerBeat_within {b us s} :
    Within [.evr, .mcs, .media, .sce, .scu, .tdl, .ple, .hqe, .clp, .free] s (partnerBeat b us s) :=
  .whenTrue seeSolo_within.mono <| .whenTrue seeYield_within.mono <| .whenTrue linkFault_within.mono <|
      .mono (modClp_within fun _ h => h)

theorem clpHeartbeat_within {h b s} : Within [.sys, .evr, .mck, .mcs, .media, .mem, .sce, .scu, .tdl, .ple, .hqe, .bmc, .clp,
    .free] s (clpHeartbeat h b s) := by
  unfold clpHeartbeat
  exact onClp_within fun _ => .whenTrue partnerBeat_within.mono <| .mono (modClp_within fun _ h => h)

theorem clpDialect_within {h d s} : Within [.sys, .evr, .mck, .mem, .bmc, .clp, .free] s (clpDialect h d s) :=
  onClp_within fun _ => .mono (modClp_within fun _ h => h)

theorem tocsinIn_within {h m s} : Within [.sys, .evr, .mck, .mem, .scu, .bmc, .clp, .free] s (tocsinIn h m s) :=
  onClp_within fun _ => .ite .refl <| .whenTrue endGrants_within.mono <| .after (modClp_within fun _ h => h) <|
      coordEvent_within.mono

theorem tocsinRepeat_within {event s} : Within [.sys, .evr, .mck, .mem, .bmc, .clp, .free] s (tocsinRepeat event s) := by
  unfold tocsinRepeat
  split
  · exact .refl
  · exact .after clpSend_within <| .mono (modClp_within fun _ h => h)

theorem neighborSolicitation_within {target s} : Within [.clp] s (neighborSolicitation target s) :=
  .ite (.mono (modClp_within fun _ h => h)) .refl

theorem txAdvance_within {alarm s} : Within [.clp] s (txAdvance alarm s) := clpReg_within fun _ h => wrF_twf _ _ _ h

theorem txCount_within {s} : Within [.nv, .pct, .clp] s (txCount s) :=
  .whenTrue (.mono (clpReg_within fun _ h => wrB_twf _ _ _ h)) <| .whenTrue optUpdate_within.mono <|
      .mono (clpReg_within fun _ h => wr_twf _ _ _ h)

theorem clpTransmit_within {collisions s} : Within [.nv, .pct, .clp] s (clpTransmit collisions s) := .ite .refl <| by
  split
  · exact .refl
  · exact .ite (.after (clpReg_within fun _ h => incR_twf _ _ _ h) <| .after txCount_within <| .after txAdvance_within <|
        .mono (clpReg_within fun _ h => incR_twf _ _ _ h)) <| .after (modClp_within fun _ h => h) <|
        .after (clpReg_within fun _ h => incR_twf _ _ _ h) <| .after txCount_within <| .after txAdvance_within <|
        .mono (clpReg_within fun _ h => incR_twf _ _ _ h)

theorem plcaFallback_within {s} : Within [.clp] s (plcaFallback s) :=
  .ite (.mono (clpReg_within fun _ h => incR_twf _ _ _ (wrB_twf _ _ _ h))) .refl

theorem plcaBeacon_within {s} : Within [.clp] s (plcaBeacon s) :=
  .ite (.mono (clpReg_within fun _ h => wrB_twf _ _ _ h)) .refl

theorem sendClpBeat_within {s} : Within [.sys, .evr, .mck, .mem, .bmc, .clp, .free] s (sendClpBeat s) := clpSend_within.mono

theorem sendDialect_within {s} : Within [.sys, .evr, .mck, .mem, .bmc, .clp, .free] s (sendDialect s) := clpSend_within.mono

theorem sendSeekSlot_within {s} : Within [.sys, .evr, .mck, .mem, .ple, .bmc, .clp, .free] s (sendSeekSlot s) :=
  .after clpSend_within <| .ite (.after writeWindow_within <| .after (modClp_within fun _ h => h) <| takeFree_within.mono) <|
      .after writeWindow_within <| .after (pleReg_within fun _ h => wrB_twf _ _ _ h) <|
      .after (modClp_within fun _ h => h) <| takeFree_within.mono

theorem sendPhase_within {s} : Within [.sys, .evr, .mck, .mem, .bmc, .clp, .free] s (sendPhase s) :=
  .ite .refl <| .after clpSend_within <| takeFree_within.mono

theorem clpTick_within {s} : Within [.sys, .evr, .mck, .mem, .ple, .bmc, .clp, .free] s (clpTick s) :=
  .ite .refl <| .whenTrue (.after sendPhase_within <| sendSeekSlot_within.mono) <| .whenTrue sendDialect_within.mono <|
      .ite sendClpBeat_within.mono .refl

theorem clpEnabled_within {s} : Within [.sys, .evr, .mck, .mem, .scu, .bmc, .clp, .free] s (clpEnabled s) :=
  .after (scuReg_within fun _ h => wrB_twf _ _ _ h) <| sendDialect_within.mono

theorem clpClrCnt_within {s} : Within [.clp] s (clpClrCnt s) := clpReg_within fun _ h => tdrop_twf h

/-! ### The operations of Sys2Proof/Machine/CsrRead.lean -/

theorem noteDecodeError_within {a s} : Within [.sys] s (noteDecodeError a s) := .setSys fun h => wr_twf _ _ _ (incF_twf h)

theorem autoInc_twf {auto f c} (hc : twf 0 c = true) : twf 0 (autoInc auto f c) = true := twf_ite (wrapF_twf hc) hc

theorem readMc_canon {off m} (hc : Canon Mc.csr m) : Canon Mc.csr (readMc off m) :=
  Canon.ite (autoInc_twf hc) (Canon.ite (evtLo_canon hc)
      (Canon.ite (evtHi_canon hc) (Canon.ite (stRead_canon hc) (Canon.ite (traceOut_canon hc) hc))))

theorem synPop_within {s} : Within [.mck] s (synPop s) := .setMck fun h => h

theorem readEffect_within {a s} : Within [.sys, .mck, .mcs, .sce, .scu, .elg] s (readEffect a s) :=
  .ite noteDecodeError_within.mono <| by
  split
  · exact .ite (.mono (.setSys fun h => h)) .refl
  · exact .mono (modMc_within fun _ h => readMc_canon h)
  · exact .mono (modMc_within fun _ h => readMc_canon h)
  · exact .ite .refl <| .mono (modMc_within fun _ h => readMc_canon h)
  · exact .ite .refl <| .mono (modMc_within fun _ h => readMc_canon h)
  · exact .ite (.mono (sceReg_within fun _ h => autoInc_twf h)) <| .ite (.mono (sceReg_within fun _ h => autoInc_twf h)) .refl
  · exact .ite (.mono (scuReg_within fun _ h => autoInc_twf h)) .refl
  · exact .ite mtrLoRead_within.mono .refl
  · exact .ite synPop_within.mono .refl
  · exact .refl

theorem csrRead_within {a s} : Within [.sys, .mck, .mcs, .sce, .scu, .elg] s (csrRead a s).2 :=
  .after (.setSys fun h => h) readEffect_within

theorem evtLoRead_within {k s} : Within [.sys, .mcs] s (evtLoRead k s) :=
  .ite readsZero_within.mono <| mcReadOut_within fun _ => evtLo_canon

theorem evtHiRead_within {k s} : Within [.sys, .mcs] s (evtHiRead k s) :=
  .ite readsZero_within.mono <| mcReadOut_within fun _ => evtHi_canon

theorem traceRead_within {k s} : Within [.sys, .mcs] s (traceRead k s) :=
  .ite readsZero_within.mono <| mcReadOut_within fun _ h => h

theorem mckSynPop_within {s} : Within [.sys, .mck, .mcs, .sce, .scu, .elg] s (mckSynPop s) := csrRead_within

/-! ### The operations of Sys2Proof/Machine/Recorder.lean -/

theorem modEvr_within {f s} (h : ∀ u, Canon Evr.csr u → Canon Evr.csr (f u)) : Within [.evr] s (modEvr f s) := .setEvr (h _)

theorem evrReg_within {f s} (h : ∀ c, twf 0 c = true → twf 0 (f c) = true) : Within [.evr] s (evrReg f s) :=
  modEvr_within fun _ => h _

theorem logAppend_within {rs s} : Within [.nv] s (logAppend rs s) := .mono .setNv

theorem evrRecord_within {s} : Within [.evr] s (evrRecord s) := by
  unfold evrRecord
  split
  · exact .refl
  · exact .whenTrue (.mono (evrReg_within fun _ h => wr_twf _ _ _ (incR_twf _ _ _ h))) <|
        .after (evrReg_within fun _ h => wr_twf _ _ _ (wr_twf _ _ _ h)) <| .mono (modEvr_within fun _ h => h)

theorem evrFirmwarePost_within {cls id detail s} : Within [.evr] s (evrFirmwarePost cls id detail s) :=
  .whenFalse evrPost_within.mono <| .mono (evrReg_within fun _ h => wrF_twf _ _ _ (wrF_twf _ _ _ (wr_twf _ _ _ h)))

theorem flushTo_within {w s} : Within [.evr, .nv] s (flushTo w s) :=
  .after (evrReg_within fun _ h => wr_twf _ _ _ h) <| .ite logAppend_within.mono .refl

theorem evrClrCnt_within {s} : Within [.evr] s (evrClrCnt s) := evrReg_within fun _ h => wr_twf _ _ _ (wr_twf _ _ _ h)

theorem mckClrCnt_within {s} : Within [.mck] s (mckClrCnt s) := .setMck fun h => wr_twf _ _ _ (wr_twf _ _ _ h)

theorem recorderRead_within {n s} : Within [.hqe] s (recorderRead n s) :=
  onAdmin_within fun _ _ => finish_within.comp modSlot_within

/-! ### The operations of Sys2Proof/Machine/Reset.lean -/

theorem performDumped_within {s} : Within [.tdl, .ple, .hqe] s (performDumped s) :=
  .foldl fun _ _ => .ite .refl <| .ite (.after modSlot_within <| applyCmd_within.mono) <| unjournal_within.mono

theorem dumpStart_within {kind s} : Within [.sys, .sce, .tdl, .ple, .hqe, .nv] s (dumpStart kind s) :=
  .whenFalse (.after (modTdl_within fun _ h => h) <| forMcs_within fun _ _ => .ite unload_within.mono .refl) <|
      .after (modHqe_within fun _ h => h) <| .after (.setSys fun h => h) <| .whenFalse (.mono .setNv) <|
      performDumped_within.mono

theorem dumpDone_within {s} : Within [.nv] s (dumpDone s) := .ite .refl <| .mono .setNv

theorem mcAfterReset_canon {m} : Canon Mc.csr (mcAfterReset m) := wrB_twf _ _ _ Mc.reset_canon

theorem keepMcAssist_within {k s} : Within [.nv] s (keepMcAssist k s) := .foldl fun _ _ => keepAssist_within.mono

theorem reset_registers : Registers State.reset := (regsWf_iff _).mp (by decide)

theorem deviceReset_within {s} : Within [.sys, .evr, .mck, .pins, .mcs, .mem, .staging, .sce, .scu, .tdl, .ple, .hqe, .nv,
    .elg, .bmc, .mpc, .dma, .pct, .tmn, .cal, .clp] s (deviceReset s) := by
  unfold deviceReset
  extract_lets +onlyGivenNames t r c c1 c2
  have stopped : Within [.nv, .pct] s t := .after pctStop_within <| .mono (G := [.nv]) <| forMcs_within fun _ _ =>
      keepMcAssist_within
  have sys : twf 0 c2 = true := wr_twf _ _ _ <| wrF_twf _ _ _ <| wr_twf _ _ _ reset_registers.sys
  clear_value t c2
  refine .comp ?_ stopped.mono
  refine ⟨rfl, rfl, fun _ => { reset_registers with
      sys := sys
      mcs := fun k => by fin_cases k <;> exact mcAfterReset_canon
      elg := wrF_twf _ _ _ reset_registers.elg }, fun _ => reset_mem_wf, fun p hp => ?_⟩
  cases p <;> simp_all [same]

theorem setCause_within {f s} : Within [.sys] s (setCause f s) := sysReg_within fun _ h => wrB_twf _ _ _ h

theorem resetTrigger_within {cause s} : Within [.sys, .evr, .mck, .pins, .mcs, .mem, .staging, .sce, .scu, .tdl, .ple, .hqe,
    .nv, .elg, .bmc, .mpc, .dma, .pct, .tmn, .cal, .clp] s (resetTrigger cause s) :=
  .ite .refl <| .whenFalse (.ite
      (.after dumpStart_within <| .ite sendCtrl_within.mono .refl) <| .after deviceReset_within <| .after setCause_within <|
          .after .setNv <| .ite sendCtrl_within.mono .refl) <| setCause_within.mono

theorem powerOnReset_within {s} : Within [.sys, .evr, .mck, .pins, .mcs, .mem, .staging, .sce, .scu, .tdl, .ple, .hqe, .nv,
    .elg, .bmc, .mpc, .dma, .pct, .tmn, .cal, .clp] s (powerOnReset s) := by
  have cleared {t : State} {u v w} (h : Canon Sys.csr u) : Within [.sys, .pins, .elg, .bmc, .cal, .nv] t { t with
      sys := u, pins := v, elg := Elg.reset, bmc := State.reset.bmc, cal := State.reset.cal, nv := w } :=
    ⟨rfl, rfl, fun r => { r with sys := h, elg := reset_registers.elg, bmc := reset_registers.bmc, cal := reset_registers.cal },
      id, fun p hp => by cases p <;> simp_all [same]⟩
  exact .after (cleared (wrB_twf _ _ _ initSys_twf)) deviceReset_within

theorem porAssert_within {s} : Within [.sys, .evr, .mck, .pins, .mcs, .mem, .staging, .sce, .scu, .tdl, .ple, .hqe, .nv,
    .elg, .bmc, .mpc, .dma, .pct, .tmn, .cal, .clp] s (porAssert s) :=
  .ite .refl <| .after (.setSys fun h => h) <| powerOnReset_within.mono

theorem cloudburst_within {s} :
    Within [.sys, .evr, .mck, .mem, .sce, .scu, .tdl, .ple, .hqe, .nv, .elg, .bmc, .pct, .clp, .free] s (cloudburst s) :=
  .ite .refl <| .after tocsin_within <| .after pctCloudburst_within <| .after scuCloudburst_within <|
      .ite (.after dumpStart_within <| .mono .setNv) <| .after (.setSys fun h => h) <| .mono .setNv

theorem cloudburstTrigger_within {i s} : Within [.sys, .evr, .mck, .pins, .mem, .sce, .scu, .tdl, .ple, .hqe, .nv, .elg,
    .bmc, .pct, .clp, .free] s (cloudburstTrigger i s) := by
  unfold cloudburstTrigger
  split
  · exact .ite .refl <| .after cloudburst_within <| .ite (.mono .setPins) .refl
  · exact .whenTrue cloudburst_within.mono <| .mono .setPins
  · exact .ite (.after cloudburst_within <| scuEvt_within.mono) .refl

theorem watchdogKick_within {key s} : Within [.sys] s (watchdogKick key s) :=
  .ite (.mono (sysReg_within fun _ h => wrF_twf _ _ _ h)) .refl

theorem watchdogExpiry_within {s} : Within [.sys, .evr, .mck, .pins, .mcs, .mem, .staging, .sce, .scu, .tdl, .ple, .hqe, .nv,
    .elg, .bmc, .mpc, .dma, .pct, .tmn, .cal, .clp] s (watchdogExpiry s) :=
  .ite (.after resetTrigger_within <| .after (.setSys fun h => h) <| .mono (sysReg_within fun _ h => incF_twf h)) .refl

theorem softReset_within {s} : Within [.sys, .evr, .mck, .pins, .mcs, .mem, .staging, .sce, .scu, .tdl, .ple, .hqe, .nv,
    .elg, .bmc, .mpc, .dma, .pct, .tmn, .cal, .clp] s (softReset s) :=
  .after resetTrigger_within <| .mono (sysReg_within fun _ h => wrB_twf _ _ _ h)

theorem sysClrWdog_within {s} : Within [.sys] s (sysClrWdog s) := sysReg_within fun _ h => wrF_twf _ _ _ h

theorem floatGates_within {s} : Within [.scu] s (floatGates s) := modScu_within fun _ h => h

theorem cutNow_within {k s} : Within [.mcs, .media] s (cutNow k s) := .after modJob_within <| cutWrite_within.mono

theorem fatalEffects_within {s} : Within [.sys, .evr, .mck, .pins, .mcs, .media, .mem, .staging, .sce, .scu, .tdl, .ple,
    .hqe, .nv, .elg, .bmc, .mpc, .dma, .pct, .tmn, .cal, .clp, .free] s (fatalEffects s) :=
  .whenTrue resetTrigger_within.mono <| .after tocsin_within <| .after (modTdl_within fun _ h => h) <|
      .whenTrue sendCtrl_within.mono <| .after floatGates_within <| forMcs_within fun _ _ => .after dropOwn_within <|
      cutNow_within.mono

theorem recordLoss_within {s t} : Within [.hqe, .nv, .free] t (recordLoss s t) :=
  .ite (.after reportC1_within <| takeFree_within.mono) .refl

theorem withFatal_within {F f s} (hf : ∀ s, Within F s (f s)) (hF :
    inside [.sys, .evr, .mck, .pins, .mcs, .media, .mem, .staging, .sce, .scu, .tdl, .ple, .hqe, .nv, .elg, .bmc, .mpc, .dma,
    .pct, .tmn, .cal, .clp, .free] F = true := by decide) : Within F s (withFatal f s) :=
  .whenTrue (fatalEffects_within.mono hF) <| .comp (recordLoss_within.mono (inside_trans (by decide) hF)) (hf s)

theorem optMc_within {k s} : Within [.mcs] s (optMc k s) := by
  unfold optMc
  exact .mono (modMc_within fun _ h => wrF_twf _ _ _ h)

theorem optPct_within {s} : Within [.pct] s (optPct s) := pctReg_within fun _ h => twf_ite h (wrF_twf _ _ _ h)

theorem optTdl_within {s} : Within [.tdl] s (optTdl s) := tdlReg_within fun _ h => wrF_twf _ _ _ (wrB_twf _ _ _ h)

theorem optClp_within {s} : Within [.clp] s (optClp s) :=
  .ite .refl <| .after (clpReg_within fun _ h => wrB_twf _ _ _ h) <| .whenFalse (.mono (modClp_within fun _ h => h)) <|
      .mono (clpReg_within fun _ h => wr_twf _ _ _ (wr_twf _ _ _ (wr_twf _ _ _ (wr_twf _ _ _ (wrB_twf _ _ _ h)))))

theorem unitReset_within {F f s} (h : ∀ s, Within F s (f s)) : Within F s (unitReset f s) := .ite (h s) .refl

theorem unitResetMc_within {k s} : Within [.mcs, .media, .ple, .nv] s (unitResetMc k s) :=
  .ite .refl <| unitReset_within fun _ =>
    .after optMc_within <| .after (setMc_within fun _ => mcAfterReset_canon) <|
        .comp (.foldl fun _ _ => jobEndHook_within.mono) <| .after keepMcAssist_within <| cutWrite_within.mono

theorem sceResetProgress_within {s} : Within [.sys, .sce] s (sceResetProgress s) :=
  .ite (.after (sysReg_within fun _ h => wrB_twf _ _ _ h) <| .mono (.setSce fun h => Sce.reset_canon)) .refl

theorem unitResetSce_within {s} : Within [.sys, .sce] s (unitResetSce s) :=
  unitReset_within fun _ => .after sceResetProgress_within <| .comp (forMcs_within fun _ _ => unload_within.mono) <|
      .mono (sysReg_within fun _ h => wrB_twf _ _ _ h)

theorem unitResetScu_within {s} : Within [.sys, .evr, .mck, .pins, .mem, .scu, .bmc, .clp, .free] s (unitResetScu s) :=
  unitReset_within fun _ => .after spinEnded_within <| .whenTrue (.mono (scuReg_within fun _ h => wrB_twf _ _ _ h)) <|
      .mono (.setScu fun h => Scu.reset_canon)

theorem unitResetPct_within {s} : Within [.pct] s (unitResetPct s) :=
  unitReset_within fun _ => .after optPct_within <| .after (pctReg_within fun _ h => initPct_twf) <| pctStop_within.mono

theorem unitResetTdl_within {s} : Within [.tdl] s (unitResetTdl s) :=
  unitReset_within fun _ => .after optTdl_within <| .mono (modTdl_within fun _ h => initTdl_twf)

theorem unitResetClp_within {s} : Within [.clp] s (unitResetClp s) :=
  unitReset_within fun _ => .after optClp_within <| .mono (modClp_within fun _ h => wrB_twf _ _ _ (wr_twf _ _ _ initClp_twf))

/-! ### The operations of Sys2Proof/Machine/Boot.lean -/

theorem bootStraps_within {b por s} : Within [.sys, .pins, .hqe, .elg] s (bootStraps b por s) :=
  .after (hqeReg_within fun _ h => wrB_twf _ _ _ h) <| .after .setPins <|
      .after (elgReg_within fun _ h => wrF_twf _ _ _ h) <|
      .whenTrue (.mono (sysReg_within fun _ h => wrB_twf _ _ _ (wrB_twf _ _ _ (wrB_twf _ _ _ (wrB_twf _ _ _ h))))) <|
      bootStage_within.mono

theorem outsideOption_within {words s} : Within [.nv] s (outsideOption words s) := .ite .refl <| .mono .setNv

theorem loadOptions_within {s} : Within [.mcs, .tdl, .hqe, .elg, .pct, .clp] s (loadOptions s) :=
  .whenFalse (.mono (elgReg_within fun _ h => wr_twf _ _ _ h)) <| .after (modElg_within fun _ h => h) <|
      .after (hqeReg_within fun _ h => wrB_twf _ _ _ h) <| .comp (forMcs_within fun _ _ => optMc_within.mono) <|
      .after optClp_within <| .after optTdl_within <| optPct_within.mono

theorem bootOptions_within {b s} : Within [.sys, .pins, .mcs, .tdl, .hqe, .nv, .elg, .pct, .clp] s (bootOptions b s).1 := by
  have read {o} : Within [.sys, .pins, .mcs, .tdl, .hqe, .nv, .elg, .pct, .clp] s
      { outsideOption b.opt (pctReg (fun c => wrB c PCT_CTL.EN true) (bootStage 2 s)) with nv := o } :=
    .after .setNv <| .after outsideOption_within <| .after (pctReg_within fun _ h => wrB_twf _ _ _ h) <| bootStage_within.mono
  unfold bootOptions
  dsimp only
  split
  · exact .after (sysReg_within fun _ h => wrB_twf _ _ _ h) <| .after bootStage_within read
  · exact .after loadOptions_within <| .after .setNv <|
        .after (sysReg_within fun _ h => wrB_twf _ _ _ <| wrF_twf _ _ _ <| wrF_twf _ _ _ <| wrF_twf _ _ _ <| wrB_twf _ _ _ <|
        wrB_twf _ _ _ h) read

theorem bootSelfTest_within {b s} : Within [.sys, .pins, .hqe] s (bootSelfTest b s).1 := by
  unfold bootSelfTest
  extract_lets u run bad v core w
  have tested : Within [.sys, .pins, .hqe] s w := .whenTrue setReliability_within.mono <|
      .after (sysReg_within fun _ h => wrF_twf _ _ _ <| wrF_twf _ _ _ h) bootStage_within.mono
  exact .ite_fst (.after bootStage_within tested) tested

theorem bootStageOk_within {ok n s} : Within [.sys, .pins] s (bootStageOk ok n s) := .ite bootStage_within.mono .refl

theorem bootDram_within {b ok s} : Within [.sys, .evr, .mck, .pins, .hqe, .bmc, .free] s (bootDram b ok s).1 := by
  generalize hr : bootDram b ok s = r
  unfold bootDram at hr
  extract_lets +onlyGivenNames t dens bad at hr
  have staged : Within [.sys, .evr, .mck, .pins, .hqe, .bmc, .free] s t := bootStageOk_within.mono
  clear_value t bad
  split at hr
  · cases hr
    exact .after bootStage_within staged
  · extract_lets +onlyGivenNames p u v at hr
    have released : Within [.sys, .evr, .mck, .pins, .hqe, .bmc, .free] s u := .after .setPins staged
    clear_value u
    have trained : Within [.sys, .evr, .mck, .pins, .hqe, .bmc, .free] s v := by
      unfold v
      split
      · exact released
      · exact .after machineCheck_within <| .after (.setBmc fun h => h) <| .after setReliability_within <|
            .after (bmcReg_within fun _ h => wrF_twf _ _ _ <| wrB_twf _ _ _ h) released
    clear_value v
    cases hr
    exact .after (bmcReg_within fun _ h => wrB_twf _ _ _ h) trained

theorem retirePrimary_within {s} : Within [.ple] s (retirePrimary s) := .foldl fun _ _ => .ite modMap_within.mono .refl

theorem factoryMap_within {b s} : Within [.ple, .nv] s (factoryMap b s) :=
  .after .setNv <| .after retirePrimary_within <| modMap_within.mono

theorem restoreMap_within {b s} : Within [.tdl, .ple, .nv] s (restoreMap b s) := by
  unfold restoreMap
  split
  · exact .refl
  · exact .after .setNv <| .after modMap_within <| .after (modPle_within fun _ h => h) <|
        .comp (.foldl fun _ _ => applyOp_within.mono) <| .mono (modPle_within fun _ h => h)

theorem restoreSums_within {s} : Within [.ple] s (restoreSums s) := .comp (.foldl fun _ _ => by
    split
    · exact .refl
    · exact .ite .refl <| .foldl fun _ _ => .ite .refl <| addParity_within.mono) <| modMap_within.mono

theorem restoreDefects_within {s} : Within [.ple] s (restoreDefects s) := by
  unfold restoreDefects
  exact .mono (modPle_within fun _ h => h)

theorem reopenBand_within {n s} : Within [.tdl, .ple, .hqe] s (reopenBand n s) := by
  unfold reopenBand
  split
  · exact .refl
  · extract_lets +onlyGivenNames x t
    have put : Within [.tdl, .ple, .hqe] s t := putBand_within.mono
    clear_value t
    refine .ite put ?_
    split
    · exact put
    · exact .ite put <| .after enterCand_within <| .after putBand_within put

theorem mapSettle_within {s} : Within [.tdl, .ple, .hqe] s (mapSettle s) :=
  .comp (.foldl fun _ _ => modBand_within.mono) <| .comp (.foldl fun _ _ => reopenBand_within.mono) <|
      .after modMap_within <| .foldl fun _ _ => .after echoAbandon_within <| echoAbandon_within.mono

theorem replay_within {b s} : Within [.evr, .tdl, .ple, .hqe, .nv, .free] s (replay b s) := by
  unfold replay
  exact .after updateMapState_within <| .after freeBands_within <| .comp (.foldl fun _ _ => formatComplete_within.mono) <|
      .after restoreDefects_within <| .after restoreSums_within <| .after mapSettle_within <|
      .after (modPle_within fun _ h => h) <| .after (modTdl_within fun _ h => h) <| .after .setNv <|
      .whenTrue (.mono (modHqe_within fun _ h => h)) <| by
    split
    · exact .after noteC1At_within <| .whenTrue setReliability_within.mono <| .after modMap_within <|
          .ite factoryMap_within.mono <| restoreMap_within.mono
    · exact .whenFalse noteC1_within.mono <| .whenTrue setReliability_within.mono <| .after modMap_within <|
          .ite factoryMap_within.mono <| restoreMap_within.mono

theorem bootRecorder_within {s} : Within [.evr, .nv, .free] s (bootRecorder s) :=
  .after evrPost_within <| .after takeFree_within <|
      .after (evrReg_within fun _ h => wrB_twf _ _ _ (wr_twf _ _ _ (wr_twf _ _ _ (wr_twf _ _ _ h)))) <|
      .after (modEvr_within fun _ h => h) <| logAppend_within.mono

theorem restoreStore_within {k s} : Within [.mcs] s (restoreStore k s) :=
  modMc_within fun _ h => by dsimp only; split; exacts [h, loadRegion_canon h]

theorem bootFirmware_within {por ok s} :
    Within [.sys, .evr, .pins, .mcs, .tdl, .ple, .hqe, .nv, .elg, .bmc, .mpc, .pct, .free] s (bootFirmware por ok s) :=
  .comp (.foldl fun _ _ => by
    split
    · exact featureEffect_within.mono
    · exact .refl) <| .after (modHqe_within fun _ h => h) <| .after (hqeReg_within fun _ h => wrB_twf _ _ _ h) <|
          .after bootFrontier_within <| .after (pctReg_within fun _ h => wrB_twf _ _ _ h) <|
          .after (bmcReg_within fun _ h => wrB_twf _ _ _ h) <| .after (mpcReg_within fun _ h => wrB_twf _ _ _ h) <|
          .after bootRecorder_within <| .comp (forMcs_within fun _ _ => restoreStore_within.mono) <|
          .comp (when_within fun _ => rewriteRecords_within.mono) <| .whenTrue (.mono .setNv) <| bootStageOk_within.mono

theorem healOptions_within {s} : Within [.nv, .pct] s (healOptions s) := by
  unfold healOptions
  split
  · exact .refl
  · exact .ite .refl <| .after optionSecond_within <| .after openOptions_within <| .mono .setNv

theorem bootCounter_within {s} : Within [.sys, .evr, .mck, .mem, .scu, .nv, .bmc, .pct, .clp, .free] s (bootCounter s) :=
  .ite .refl <| .after clpEnabled_within <| .after optUpdate_within <|
      .mono (clpReg_within fun _ h => wrB_twf _ _ _ (wr_twf _ _ _ h))

theorem bootSpindle_within {b s} : Within [.evr, .mcs, .media, .sce, .scu, .ple, .free] s (bootSpindle b s) :=
  .ite .refl <| .ite (.after enterCatch_within <| .mono (scuReg_within fun _ h => wrB_twf _ _ _ h)) <| enterCoast_within.mono

theorem boot_within {b por s} : Within [.sys, .evr, .mck, .pins, .mcs, .media, .mem, .sce, .scu, .tdl, .ple, .hqe, .nv, .elg,
    .bmc, .mpc, .pct, .clp, .free] s (boot b por s) := by
  unfold boot
  exact .whenFalse (.whenFalse (.whenFalse (.ite
            (.after bootStage_within <| .after (sysReg_within fun _ h => wrF_twf _ _ _ h) <| .after readRecords_within <|
                bootStageOk_within.mono) <| .ite (.after bootStageOk_within <| .after restoreMap_within <|
                .after (sysReg_within fun _ h => wrF_twf _ _ _ h) <| .after bootStageOk_within <|
                .comp (when_within fun _ => firmwareEvent_within.mono) <| .after bootFirmware_within <|
                .whenFalse (.mono .setNv) <| .after (sysReg_within fun _ h => wrB_twf _ _ _ h) <|
                .after (sysReg_within fun _ h => wrF_twf _ _ _ h) <| .after readRecords_within <| bootStageOk_within.mono) <|
                .after bootSpindle_within <| .after bootStage_within <| .after bootCounter_within <|
                .after saveRecords_within <| .after healOptions_within <| .after failActuators_within <|
                .after replay_within <| .after (sysReg_within fun _ h => wrF_twf _ _ _ h) <| .after bootStageOk_within <|
                .comp (when_within fun _ => firmwareEvent_within.mono) <| .after bootFirmware_within <|
                .whenFalse (.mono .setNv) <| .after (sysReg_within fun _ h => wrB_twf _ _ _ h) <|
                .after (sysReg_within fun _ h => wrF_twf _ _ _ h) <| .after readRecords_within <| bootStageOk_within.mono) <|
                .after bootDram_within <| bootSelfTest_within.mono) <| bootOptions_within.mono) <|
                .after bootStraps_within <| .mono (.setSys fun h => h)

theorem por_within {vin b s} : Within [.sys, .evr, .mck, .pins, .mcs, .media, .mem, .staging, .sce, .scu, .tdl, .ple, .hqe,
    .nv, .elg, .bmc, .mpc, .dma, .pct, .tmn, .cal, .clp, .free] s (por vin b s) :=
  .ite .refl <| .after boot_within <| .after .setPins <| powerOnReset_within.mono

theorem bootUnlessHeld_within {b s} : Within [.sys, .evr, .mck, .pins, .mcs, .media, .mem, .sce, .scu, .tdl, .ple, .hqe, .nv,
    .elg, .bmc, .mpc, .pct, .clp, .free] s (bootUnlessHeld b s) :=
  .ite .refl <| boot_within.mono

theorem resetPin_within {low b s} : Within [.sys, .evr, .mck, .pins, .mcs, .media, .mem, .staging, .sce, .scu, .tdl, .ple,
    .hqe, .nv, .elg, .bmc, .mpc, .dma, .pct, .tmn, .cal, .clp, .free] s (resetPin low b s) :=
  .ite .refl <| .ite (.whenFalse resetTrigger_within.mono <| .mono .setPins) <| .whenTrue boot_within.mono <| .mono .setPins

theorem resetDumpEnd_within {b s} : Within [.sys, .evr, .mck, .pins, .mcs, .media, .mem, .staging, .sce, .scu, .tdl, .ple,
    .hqe, .nv, .elg, .bmc, .mpc, .dma, .pct, .tmn, .cal, .clp, .free] s (resetDumpEnd b s) :=
  .ite (.after bootUnlessHeld_within <| .after deviceReset_within <| .after setCause_within <| dumpDone_within.mono) <|
      .ite bootUnlessHeld_within.mono .refl

theorem cloudburstEnd_within {b s} : Within [.sys, .evr, .mck, .pins, .mcs, .media, .mem, .staging, .sce, .scu, .tdl, .ple,
    .hqe, .nv, .elg, .bmc, .mpc, .dma, .pct, .tmn, .cal, .clp, .free] s (cloudburstEnd b s) :=
  .ite (.after bootUnlessHeld_within <| .after .setPins <| .after deviceReset_within <| .after setCause_within <|
      dumpDone_within.mono) .refl

theorem precautionaryDumpEnd_within {cost s} : Within [.sys, .evr, .mck, .pins, .mcs, .mem, .staging, .sce, .scu, .tdl, .ple,
    .hqe, .nv, .elg, .bmc, .mpc, .dma, .pct, .tmn, .cal, .clp, .free] s (precautionaryDumpEnd cost s) :=
  .ite .refl <| .ite (.after settleWt_within <| .after dcostMeasure_within <| .after (modPle_within fun _ h => h) <|
      .after .setNv <| .mono (modElg_within fun _ h => h)) <| .after deviceReset_within <| .after setCause_within <|
      .after setReliability_within <| .after dcostMeasure_within <| .after (modPle_within fun _ h => h) <| .after .setNv <|
      .mono (modElg_within fun _ h => h)

theorem ioReady_within {s} : Within [.sys, .pins, .hqe] s (ioReady s) :=
  .ite .refl <| .after queueAll_within <| .after (modHqe_within fun _ h => h) <| bootStage_within.mono

theorem jtagReset_within {s} : Within [.sys, .evr, .mck, .pins, .mcs, .mem, .staging, .sce, .scu, .tdl, .ple, .hqe, .nv,
    .elg, .bmc, .mpc, .dma, .pct, .tmn, .cal, .clp] s (jtagReset s) :=
  .ite resetTrigger_within.mono .refl

/-! ### The operations of Sys2Proof/Machine/CsrWrite.lean -/

theorem putMasked_twf {rows lock off own v c} (hc : twf 0 c = true) : twf 0 (putMasked rows lock off own v c) = true :=
  wr_twf _ _ _ hc

theorem setOperating_within {t s} : Within [.sys, .nv] s (setOperating t s) := by
  refine ⟨rfl, rfl, fun r => { r with }, id, fun p hp => ?_⟩
  cases p <;> simp_all [same, setOperating]

theorem fabClrPacemin_within {s} : Within [.sys] s (fabClrPacemin s) := sysReg_within fun _ h => wrF_twf _ _ _ h

theorem fabClrDec_within {s} : Within [.sys] s (fabClrDec s) := sysReg_within fun _ h => wr_twf _ _ _ (wrF_twf _ _ _ h)

theorem fabClrArb_within {s} : Within [.sys] s (fabClrArb s) := sysReg_within fun _ h => wrF_twf _ _ _ h

theorem unitResets_within {v s} : Within [.sys, .evr, .mck, .pins, .mcs, .media, .mem, .sce, .scu, .tdl, .ple, .nv, .bmc,
    .pct, .clp, .free] s (unitResets v s) :=
  .comp (when_within fun _ => unitResetClp_within.mono) <| .comp (when_within fun _ => unitResetTdl_within.mono) <|
      .comp (when_within fun _ => unitResetPct_within.mono) <| .comp (when_within fun _ => unitResetScu_within.mono) <|
      .comp (when_within fun _ => unitResetSce_within.mono) <| forMcs_within fun _ _ => when_within fun _ =>
      unitResetMc_within.mono

theorem writeSys_within {off v s} : Within [.sys, .evr, .mck, .pins, .mcs, .media, .mem, .staging, .sce, .scu, .tdl, .ple,
    .hqe, .nv, .elg, .bmc, .mpc, .dma, .pct, .tmn, .cal, .clp, .free] s (writeSys off v s) :=
  .ite (.comp (when_within fun _ => softReset_within.mono) <| .mono (sysReg_within fun _ h => putMasked_twf h)) <|
      .ite unitResets_within.mono <| .ite watchdogKick_within.mono <| .ite (.ite .refl <| .mono .setNv) <|
      .ite (.ite .refl <| setOperating_within.mono) <| .ite (.ite .refl <| setOperating_within.mono) <|
      .ite (when_within fun _ => sysClrWdog_within.mono) <|
      .ite (.comp (when_within fun _ => fabClrArb_within.mono) <| .comp (when_within fun _ => fabClrDec_within.mono) <|
      when_within fun _ => fabClrPacemin_within.mono) <| .mono (sysReg_within fun _ h => putMasked_twf h)

theorem writeHqe_within {off v s} : Within [.hqe] s (writeHqe off v s) :=
  .ite (.ite modFn_within.mono .refl) <| .ite (when_within fun _ => hqeClrCnt_within.mono) <|
      .mono (hqeReg_within fun _ h => putMasked_twf h)

theorem writePle_within {off v s} : Within [.ple] s (writePle off v s) :=
  .ite (.comp (when_within fun _ => pleClrClaim_within.mono) <| .comp (when_within fun _ => pleClrDue_within.mono) <|
      when_within fun _ => pleClrMaxw_within.mono) <| .mono (pleReg_within fun _ h => putMasked_twf h)

theorem writeAdc_canon {v m} (hc : Canon Mc.csr m) : Canon Mc.csr (writeAdc v m) := by
  unfold writeAdc
  split
  · exact hc
  · exact Canon.ite hc hc

theorem writeJt_canon {v m} (hc : Canon Mc.csr m) : Canon Mc.csr (writeJt v m) :=
  autoInc_twf (Canon.ite hc (jtWrite_canon hc))

theorem clearDone_within {k base v s} : Within [.mcs] s (clearDone k base v s) :=
  .foldl fun _ _ => when_within fun _ => jtDoneClear_within.mono

theorem writeMcTable_canon {off v m m'} (hm : writeMcTable off v m = some m') (hc : Canon Mc.csr m) : Canon Mc.csr m' := by
  unfold writeMcTable at hm
  split at hm
  · cases hm
    exact writeAdc_canon hc
  split at hm
  · split at hm <;> cases hm <;> exact hc
  split at hm
  · split at hm <;> cases hm
    · exact hc
    · exact putAscAge_canon hc
  split at hm
  · cases hm
    exact hc
  split at hm
  · cases hm
    exact writeJt_canon hc
  split at hm
  · cases hm
    exact stWrite_canon hc
  split at hm <;> cases hm
  exact hc

theorem writeMc_within {k off v s} : Within [.mcs, .ple, .nv] s (writeMc k off v s) := by
  have plain {own t} (h : Within [.mcs, .ple, .nv] s t) :
      Within [.mcs, .ple, .nv] s (mcReg k (putMasked rowsMc MC_ASC_CTL.LOCK off own v) t) :=
    .after (mcReg_within fun _ h => putMasked_twf h) h
  unfold writeMc
  dsimp only
  split
  · rename_i table
    exact .mono <| setMc_within fun h => writeMcTable_canon table h
  · exact .ite (.comp (when_within fun _ => adcMaskApply_within.mono) (plain .refl)) <|
        .ite (.after (modMc_within fun _ h => .ite (wrB_twf _ _ _ h) h) (plain .refl)) <|
        .ite (.after hifOwnWrite_within (plain .refl)) <|
        .ite (.ite hifFirmwareFrame_within.mono <| .ite .refl (plain .refl)) <|
        .ite (.comp (when_within fun _ => clrAsc_within.mono) <| .comp (when_within fun _ => clrHif_within.mono) <|
        .comp (when_within fun _ => clrSyn_within.mono) <| when_within fun _ => clrLdpc_within.mono) <|
        .ite (.comp (when_within fun _ => clrFmtRec_within.mono) <| when_within fun _ => clrFmtCnt_within.mono) <|
        .ite (.after msqEnWrite_within (plain .refl)) <|
        .ite (.ite .refl <| .comp (when_within fun _ => jtCancel_within.mono) <|
        .comp (when_within fun _ => jtArm_within.mono) (plain .refl)) <| .ite clearDone_within.mono <|
        .ite clearDone_within.mono <| .ite (.comp (when_within fun _ => clrEvt_within.mono) <|
        .comp (when_within fun _ => clrTrace_within.mono) <| when_within fun _ => clrMsqCnt_within.mono) (plain .refl)

theorem writeCoef_canon {v c} (hc : Canon Sce.csr c) : Canon Sce.csr (writeCoef v c) :=
  autoInc_twf (Canon.ite hc (coefPut_canon hc))

theorem writeTbl_canon {v c} (hc : Canon Sce.csr c) : Canon Sce.csr (writeTbl v c) := autoInc_twf (Canon.ite hc hc)

theorem writeAct_within {k off v s} : Within [.sce] s (writeAct k off v s) :=
  .ite (.ite actCommand_within.mono <| modAct_within.mono) <| .ite modAct_within.mono <| .ite modAct_within.mono .refl

theorem writeSce_within {off v s} : Within [.sce] s (writeSce off v s) :=
  .ite (.comp (forMcs_within fun _ _ => actEnWrite_within.mono) <| .comp (when_within fun _ => zrebuild_within.mono) <|
      .mono (sceReg_within fun _ h => putMasked_twf h)) <| .ite (by
     split
     · exact .refl
     · exact writeAct_within.mono) <| .ite (.mono (modSce_within fun _ h => writeCoef_canon h)) <|
           .ite (.mono (modSce_within fun _ h => writeTbl_canon h)) <|
           .ite (.ite pslReg_within.mono <| .mono (sceReg_within fun _ h => putMasked_twf h)) <|
           .ite (.comp (when_within fun _ => sceClrPsl_within.mono) <| .comp (when_within fun _ => sceClrAct_within.mono) <|
           .comp (when_within fun _ => sceClrFin_within.mono) <| .comp (when_within fun _ => sceClrLate_within.mono) <|
           when_within fun _ => sceClrOvr_within.mono) <|
           .ite (.after dropSync_within <| .mono (sceReg_within fun _ h => putMasked_twf h)) <|
           .mono (sceReg_within fun _ h => putMasked_twf h)

theorem scuCmd_within {n s} :
    Within [.sys, .evr, .mck, .mcs, .media, .mem, .sce, .scu, .ple, .bmc, .clp, .free] s (scuCmd n s) := by
  unfold scuCmd
  split
  · exact scuCmdStart_within.mono
  · exact scuCmdStop_within.mono
  · exact scuCmdCoast_within.mono
  · exact scuCmdCatch_within.mono
  · exact scuCmdRectify_within.mono
  · exact .refl

theorem writeScu_within {off v s} :
    Within [.sys, .evr, .mck, .mcs, .media, .mem, .sce, .scu, .tdl, .ple, .bmc, .clp, .free] s (writeScu off v s) :=
  .ite (.after scuCmd_within <| .after driveWrite_within <| .mono (scuReg_within fun _ h => putMasked_twf h)) <|
      .ite (.after (scuReg_within fun _ h => autoInc_twf h) <| .mono (modScu_within fun _ h => ctabPut_canon h)) <|
      .ite (when_within fun _ => scuClrCnt_within.mono) <| .mono (scuReg_within fun _ h => putMasked_twf h)

theorem writeBmc_within {off v s} : Within [.bmc] s (writeBmc off v s) :=
  .ite (.comp (when_within fun _ => bmcClrErr_within.mono) <| when_within fun _ => bmcClrCnt_within.mono) <|
      .mono (bmcReg_within fun _ h => putMasked_twf h)

theorem writeMpc_within {off v s} : Within [.sys, .evr, .mck, .mem, .hqe, .nv, .elg, .bmc, .mpc, .free] s (writeMpc off v s) :=
  .ite (.mono (mpcReg_within fun _ h => putMasked_twf h)) <|
      .ite (.comp (when_within fun _ => rangeGo_within.mono) <| .mono (mpcReg_within fun _ h => putMasked_twf h)) <|
      .ite (.comp (when_within fun _ => lockGo_within.mono) <| .mono (mpcReg_within fun _ h => putMasked_twf h)) <|
      .ite (when_within fun _ => mpcClrCnt_within.mono) <| .mono (mpcReg_within fun _ h => putMasked_twf h)

theorem writeDma_within {off v s} : Within [.dma] s (writeDma off v s) :=
  .ite (.comp (when_within fun _ => stopEngine_within.mono) <| .comp (when_within fun _ => stopEngine_within.mono) <|
      .mono (dmaReg_within fun _ h => putMasked_twf h)) <| .ite (by
     split
     · exact dmaLoad_within.mono
     · exact dmaStop_within.mono
     · exact dmaClear_within.mono
     · exact .refl) <| .ite (when_within fun _ => dmaClrCnt_within.mono) <| .mono (dmaReg_within fun _ h => putMasked_twf h)

theorem loadWearTable_within {s} : Within [.sys, .evr, .mck, .mem, .bmc, .free] s (loadWearTable s) := dramPut_within.mono

theorem writePct_within {off v s} : Within [.sys, .evr, .mck, .mem, .bmc, .pct, .free] s (writePct off v s) :=
  .ite (.ite .refl <| .mono (pctReg_within fun _ h => putMasked_twf h)) <|
      .ite (.ite .refl <| .comp (when_within fun _ => pctResume_within.mono) <|
      .comp (when_within fun _ => pctSuspend_within.mono) <| .mono (pctReg_within fun _ h => putMasked_twf h)) <|
      .ite (.ite .refl <| .after loadWearTable_within <| .mono (pctReg_within fun _ h => putMasked_twf h)) <|
      .ite (when_within fun _ => pctClrCnt_within.mono) <| .mono (pctReg_within fun _ h => putMasked_twf h)

theorem writeElg_within {off v s} : Within [.elg, .free] s (writeElg off v s) := by
  have plain : Within [.elg, .free] s (elgReg (putMasked rowsElg ELG_CTL.LOCK off 0 v) s) := .mono <|
      elgReg_within fun _ h => putMasked_twf h
  exact .ite dcostMeasure_within.mono <| .ite (.ite .refl <| .mono <| modElg_within fun _ h => h) <|
      .ite (.mono <| elgReg_within fun _ h => wrF_twf _ _ _ h) <| .ite_app (.after capSettle_within plain) plain

theorem writeTmn_within {off v s} : Within [.tmn] s (writeTmn off v s) :=
  .ite (.comp (when_within fun _ => tmnRequest_within.mono) <| .mono (tmnReg_within fun _ h => putMasked_twf h)) <|
      .ite (when_within fun _ => tmnClrCnt_within.mono) <| .mono (tmnReg_within fun _ h => putMasked_twf h)

theorem writeCal_within {off v s} : Within [.cal] s (writeCal off v s) :=
  .ite (.mono (modCal_within fun _ h => putMasked_twf h)) <| .ite (.mono (modCal_within fun _ h => putMasked_twf h)) <|
      .ite (.ite .refl <| modItem_within.mono) <| .ite (when_within fun _ => calRun_within.mono) .refl

theorem writeTdl_within {off v s} : Within [.evr, .mcs, .tdl, .ple, .hqe, .free] s (writeTdl off v s) :=
  .ite (.comp (when_within fun _ => anaChange_within.mono) <|
      .ite (.after (modTdl_within fun _ h => h) <| .after (tdlReg_within fun _ h => putMasked_twf h) <| when_within fun _ =>
      linkDown_within.mono) <| .after (tdlReg_within fun _ h => putMasked_twf h) <| when_within fun _ =>
      linkDown_within.mono) <| .ite (.ite .refl <| .comp (when_within fun _ => handoffDisarm_within.mono) <|
      .comp (when_within fun _ => handoffArm_within.mono) <| .mono (tdlReg_within fun _ h => putMasked_twf h)) <|
      .ite (when_within fun _ => tdlClrCnt_within.mono) <| .mono (tdlReg_within fun _ h => putMasked_twf h)

theorem loadReplayTable_within {s} : Within [.sys, .evr, .mck, .mem, .bmc, .free] s (loadReplayTable s) := dramPut_within.mono

theorem writeRings_twf {off v c} (hc : twf 0 c = true) : twf 0 (writeRings off v c) = true :=
  twf_ite (twf_ite (wrF_twf _ _ _ hc) hc) (twf_ite (twf_ite hc (wrF_twf _ _ _ hc))
      (wrF_twf _ _ _ (twf_ite hc (wrF_twf _ _ _ hc))))

theorem writeClp_within {off v s} : Within [.sys, .evr, .mck, .mem, .scu, .bmc, .clp, .free] s (writeClp off v s) :=
  .ite (.comp (when_within fun _ => clpEnabled_within.mono) <| .mono (clpReg_within fun _ h => putMasked_twf h)) <|
      .ite (.ite .refl <| .after loadReplayTable_within <| .mono (clpReg_within fun _ h => putMasked_twf h)) <|
      .ite (.mono (clpReg_within fun _ h => writeRings_twf h)) <|
      .ite (.comp (when_within fun _ => xchgArm_within.mono) <| .mono (clpReg_within fun _ h => putMasked_twf h)) <|
      .ite (when_within fun _ => clpClrCnt_within.mono) <| .mono (clpReg_within fun _ h => putMasked_twf h)

theorem writeEvr_within {off v s} : Within [.evr, .nv] s (writeEvr off v s) :=
  .ite (.ite .refl <| .mono (evrReg_within fun _ h => wr_twf _ _ _ h)) <| .ite flushTo_within.mono <|
      .ite (.mono (evrReg_within fun _ h => wr_twf _ _ _ h)) <|
      .ite (.ite evrFirmwarePost_within.mono <| .mono (evrReg_within fun _ h => putMasked_twf h)) <|
      .ite (.ite .refl <| .mono (modEvr_within fun _ h => h)) <| .ite (when_within fun _ => evrClrCnt_within.mono) <|
      .mono (evrReg_within fun _ h => putMasked_twf h)

theorem writeMck_within {off v s} : Within [.mck] s (writeMck off v s) :=
  .ite (when_within fun _ => mckClrCnt_within.mono) <| .mono (.setMck fun h => putMasked_twf h)

theorem csrWrite_within {a v s} : Within [.sys, .evr, .mck, .pins, .mcs, .media, .mem, .staging, .sce, .scu, .tdl, .ple,
    .hqe, .nv, .elg, .bmc, .mpc, .dma, .pct, .tmn, .cal, .clp, .free] s (csrWrite a v s) :=
  .ite noteDecodeError_within.mono <| by
  split
  · exact writeSys_within.mono
  · exact writeHqe_within.mono
  · exact writePle_within.mono
  · exact writeMc_within.mono
  · exact writeMc_within.mono
  · exact .ite .refl <| writeMc_within.mono
  · exact .ite .refl <| writeMc_within.mono
  · exact writeSce_within.mono
  · exact writeScu_within.mono
  · exact writeBmc_within.mono
  · exact writeMpc_within.mono
  · exact writeDma_within.mono
  · exact writePct_within.mono
  · exact writeElg_within.mono
  · exact writeTmn_within.mono
  · exact writeCal_within.mono
  · exact writeTdl_within.mono
  · exact writeClp_within.mono
  · exact writeEvr_within.mono
  · exact writeMck_within.mono
  · exact .refl

theorem csrAccess_within {bytes a v s} : Within [.sys, .evr, .mck, .pins, .mcs, .media, .mem, .staging, .sce, .scu, .tdl,
    .ple, .hqe, .nv, .elg, .bmc, .mpc, .dma, .pct, .tmn, .cal, .clp, .free] s (csrAccess bytes a v s) :=
  .ite csrWrite_within.mono <| noteDecodeError_within.mono

/-! ### The operations of Sys2Proof/Machine/Access.lean -/

theorem csrReadCmd_within {n s} : Within [.sys, .mck, .mcs, .sce, .scu, .hqe, .elg] s (csrReadCmd n s) :=
  onAdmin_within fun _ _ => .ite .refl <| .ite reply_within.mono <| .after finish_within <| csrRead_within.mono

theorem csrWriteCmd_within {n s} : Within [.sys, .evr, .mck, .pins, .mcs, .media, .mem, .staging, .sce, .scu, .tdl, .ple,
    .hqe, .nv, .elg, .bmc, .mpc, .dma, .pct, .tmn, .cal, .clp, .free] s (csrWriteCmd n s) :=
  onAdmin_within fun _ _ => .ite .refl <| .ite reply_within.mono <| .after reply_within <| csrWrite_within.mono

theorem noteAg_canon {now head m} (hc : Canon Mc.csr m) : Canon Mc.csr (noteAg now head m) := hc

theorem countAssist_canon {now m} (hc : Canon Mc.csr m) : Canon Mc.csr (countAssist now m) :=
  wrF_twf _ _ _ (Canon.ite (noteAg_canon hc) hc)

theorem wdogTick_within {s} : Within [.sys] s (wdogTick s) := .ite (.mono (sysReg_within fun _ h => wrF_twf _ _ _ h)) .refl

theorem paceWindowEnd_within {tokens s} :
    Within [.sys, .evr, .mck, .mcs, .mem, .sce, .ple, .nv, .elg, .bmc, .clp, .free] s (paceWindowEnd tokens s) :=
  .whenTrue saveReplayTable_within.mono <| .after clpTick_within <| .whenTrue wdogTick_within.mono <|
      .comp (forMcs_within fun _ _ => pushEnd_within.mono) <|
      .comp (forMcs_within fun _ _ => .mono (modMc_within fun _ h => countAssist_canon h)) <| .after (.setSys fun h => h) <|
      .after noteSpeed_within <| .mono (sysReg_within fun _ h =>
      twf_ite (wrB_twf _ _ _ (wrF_twf _ _ _ (wrF_twf _ _ _ h))) (wrF_twf _ _ _ (wrF_twf _ _ _ h)))

theorem failTransfers_within {i s} : Within [.evr, .sce, .tdl, .mpc, .dma, .free] s (failTransfers i s) := by
  unfold failTransfers
  split
  · exact cutTransfers_within.mono
  · exact .mono (.setMpc fun h => h)
  · exact .mono (modSce_within fun _ h => h)
  · exact .ite .refl <| resendFlits_within.mono
  · exact .refl

theorem cbpFault_within {island s} :
    Within [.sys, .evr, .mck, .mcs, .media, .sce, .tdl, .ple, .mpc, .dma, .free] s (cbpFault island s) :=
  .ite .refl <| .ite (.ite
       (.after writeAbort_within <| .after machineCheck_within <| .mono (sysReg_within fun _ h => wr_twf _ _ _ h)) <|
           .after dropGates_within <| .after stopJob_within <| .after machineCheck_within <|
           .mono (sysReg_within fun _ h => wr_twf _ _ _ h)) <| .whenFalse failTransfers_within.mono <|
           .after machineCheck_within <| .mono (sysReg_within fun _ h => wr_twf _ _ _ h)

theorem tapLoad_within {i dr s} : Within [.sys] s (tapLoad i dr s) := .setSys fun h => h

theorem tapBypass_within {s} : Within [.sys] s (tapBypass s) := tapLoad_within

theorem tapIdcode_within {s} : Within [.sys] s (tapIdcode s) := tapLoad_within

theorem tapSamplePreload_within {cells s} : Within [.sys] s (tapSamplePreload cells s) :=
  .after (.setSys fun h => h) <| tapLoad_within.mono

theorem tapPins_within {i s} : Within [.sys] s (tapPins i s) := .ite tapLoad_within.mono <| tapBypass_within.mono

theorem tapExtest_within {s} : Within [.sys] s (tapExtest s) := tapPins_within

theorem tapClamp_within {s} : Within [.sys] s (tapClamp s) := tapPins_within

theorem tapHighz_within {s} : Within [.sys] s (tapHighz s) := tapPins_within

theorem tapDevrst_within {s} : Within [.sys, .evr, .mck, .pins, .mcs, .mem, .staging, .sce, .scu, .tdl, .ple, .hqe, .nv,
    .elg, .bmc, .mpc, .dma, .pct, .tmn, .cal, .clp] s (tapDevrst s) :=
  .ite (.after jtagReset_within <| tapLoad_within.mono) <| tapBypass_within.mono

theorem tapCsracc_within {write a v s} : Within [.sys, .evr, .mck, .pins, .mcs, .media, .mem, .staging, .sce, .scu, .tdl,
    .ple, .hqe, .nv, .elg, .bmc, .mpc, .dma, .pct, .tmn, .cal, .clp, .free] s (tapCsracc write a v s) :=
  .ite tapBypass_within.mono <| .ite (.after csrWrite_within <| tapLoad_within.mono) <| .after tapLoad_within <|
      csrRead_within.mono

/-! ### The operations of Sys2Proof/Machine/Follow.lean -/

theorem onMc_within {F k f s} (h : ∀ s, Within F s (f s)) : Within F s (onMc k f s) := .ite .refl (h s)

theorem afterServo_within {s} : Within [.sys, .pins, .sce] s (afterServo s) :=
  .after bootProgress_within <| sceResetProgress_within.mono

theorem afterCsr_within {s} : Within [.sys, .evr, .mck, .pins, .mcs, .media, .mem, .sce, .scu, .tdl, .ple, .hqe, .nv, .bmc,
    .dma, .pct, .clp, .free] s (afterCsr s) :=
  .after settle_within <| .after sceResetProgress_within <| spinEnded_within.mono

theorem vmFailure_within {vm was s} : Within [.sys, .evr, .mck, .mem, .sce, .scu, .tdl, .ple, .hqe, .nv, .elg, .bmc, .pct,
    .clp, .free] s (vmFailure vm was s) :=
  .ite (.after cloudburst_within <| scuEvt_within.mono) .refl

theorem pwmRow_within {i s} :
    Within [.sys, .evr, .mck, .mem, .sce, .scu, .tdl, .ple, .hqe, .nv, .elg, .bmc, .pct, .clp, .free] s (pwmRow i s) :=
  .whenTrue floatGates_within.mono <| .after vmFailure_within <| pwmHalf_within.mono

/-! ## Every row completes within its footprint -/

/-- The row completes, and what it leaves lies within the row's footprint. -/
def Completes (c : Instr) (s : State) : Prop := ∃ t, exec c s = .next t ∧ Within (footprint c).2 s t

/-- Of all rows only a POR above the ratings of VIN does not complete (R472). A line for each row,
    in the order of the dispatcher:
the operation that the row's definition names, with what follows it. -/
theorem exec_completes (c : Instr) (s : State)
    (ratings : ∀ v b, c = .por v b → v ≤ 6500 ∨ s.sys.phase ≠ .unpowered) : Completes c s := by
  cases c with (dsimp only [Completes, footprint])
  | csrWrite => exact ⟨_, rfl, .after afterCsr_within <| csrAccess_within.mono⟩
  | paceWindowEnd => exact ⟨_, rfl, .after afterServo_within <| paceWindowEnd_within.mono⟩
  | fabClrPacemin => exact ⟨_, rfl, fabClrPacemin_within.mono⟩
  | fabClrDec => exact ⟨_, rfl, fabClrDec_within.mono⟩
  | fabClrArb => exact ⟨_, rfl, fabClrArb_within.mono⟩
  | cbpFault => exact ⟨_, rfl, .after settle_within <| cbpFault_within.mono⟩
  | syncMarkFound => exact ⟨_, rfl, onMc_within fun _ => syncMarkFound_within.mono⟩
  | syncWindowClose => exact ⟨_, rfl, onMc_within fun _ => syncWindowClose_within.mono⟩
  | timedSyncEnd => exact ⟨_, rfl, .after settle_within <| onMc_within fun _ => searchEnd_within.mono⟩
  | realignEnd => exact ⟨_, rfl, .after settle_within <| onMc_within fun _ => searchEnd_within.mono⟩
  | decodeComplete => exact ⟨_, rfl, onMc_within fun _ => decodeComplete_within.mono⟩
  | stripeSolveEnd => exact ⟨_, rfl, .after settle_within <| onMc_within fun _ => stripeSolveEnd_within.mono⟩
  | mcFmtClrRec => exact ⟨_, rfl, onMc_within fun _ => clrFmtRec_within.mono⟩
  | mcFmtClrCnt => exact ⟨_, rfl, onMc_within fun _ => clrFmtCnt_within.mono⟩
  | wedgeMark => exact ⟨_, rfl, onMc_within fun _ => wedgeMark_within.mono⟩
  | markWindowClose => exact ⟨_, rfl, .after settle_within <| onMc_within fun _ => markWindowClose_within.mono⟩
  | adcMaskApply => exact ⟨_, rfl, onMc_within fun _ => adcMaskApply_within.mono⟩
  | hfltFall => exact ⟨_, rfl, .after settle_within <| onMc_within fun _ => hfltFall_within.mono⟩
  | hifFrameEnd => exact ⟨_, rfl, .after settle_within <| onMc_within fun _ => hifFrameEnd_within.mono⟩
  | hifFirmwareFrame => exact ⟨_, rfl, onMc_within fun _ => hifFirmwareFrame_within.mono⟩
  | hifOwnWrite => exact ⟨_, rfl, onMc_within fun _ => hifOwnWrite_within.mono⟩
  | hifOwnRelease => exact ⟨_, rfl, onMc_within fun _ => hifOwnRelease_within.mono⟩
  | assistLeadLong => exact ⟨_, rfl, onMc_within fun _ => assistLeadLong_within.mono⟩
  | assistDutyNear => exact ⟨_, rfl, onMc_within fun _ => assistDutyNear_within.mono⟩
  | assistDutyLimit => exact ⟨_, rfl, .after settle_within <| onMc_within fun _ => assistDutyLimit_within.mono⟩
  | assistDutyRelease => exact ⟨_, rfl, onMc_within fun _ => assistDutyRelease_within.mono⟩
  | mcChClrAsc => exact ⟨_, rfl, onMc_within fun _ => clrAsc_within.mono⟩
  | mcChClrHif => exact ⟨_, rfl, onMc_within fun _ => clrHif_within.mono⟩
  | mcChClrSyn => exact ⟨_, rfl, onMc_within fun _ => clrSyn_within.mono⟩
  | mcChClrLdpc => exact ⟨_, rfl, onMc_within fun _ => clrLdpc_within.mono⟩
  | seqJump => exact ⟨_, rfl, .after settle_within <| onMc_within fun _ => stepWord_within.mono⟩
  | seqBranch => exact ⟨_, rfl, .after settle_within <| onMc_within fun _ => stepWord_within.mono⟩
  | seqDispatch => exact ⟨_, rfl, .after settle_within <| onMc_within fun _ => stepWord_within.mono⟩
  | seqCall => exact ⟨_, rfl, .after settle_within <| onMc_within fun _ => stepWord_within.mono⟩
  | seqReturn => exact ⟨_, rfl, .after settle_within <| onMc_within fun _ => stepWord_within.mono⟩
  | seqWait => exact ⟨_, rfl, .after settle_within <| onMc_within fun _ => stepWord_within.mono⟩
  | seqLoop => exact ⟨_, rfl, .after settle_within <| onMc_within fun _ => stepWord_within.mono⟩
  | seqHalt => exact ⟨_, rfl, .after settle_within <| onMc_within fun _ => stepWord_within.mono⟩
  | haltPadEnd => exact ⟨_, rfl, .after settle_within <| onMc_within fun _ => haltPadEnd_within.mono⟩
  | waitPass => exact ⟨_, rfl, .after settle_within <| onMc_within fun _ => waitPass_within.mono⟩
  | msqTimerExpiry => exact ⟨_, rfl, .after settle_within <| onMc_within fun _ => timerExpiry_within.mono⟩
  | waitWatchdog => exact ⟨_, rfl, .after settle_within <| onMc_within fun _ => waitWatchdog_within.mono⟩
  | storeScrub => exact ⟨_, rfl, onMc_within fun _ => storeScrub_within.mono⟩
  | jtArm => exact ⟨_, rfl, onMc_within fun _ => jtArm_within.mono⟩
  | jtCancel => exact ⟨_, rfl, .after settle_within <| onMc_within fun _ => jtCancel_within.mono⟩
  | cancelEffect => exact ⟨_, rfl, .after settle_within <| onMc_within fun _ => cancelEffect_within.mono⟩
  | jobBegin => exact ⟨_, rfl, .after settle_within <| onMc_within fun _ => beginJob_within.mono⟩
  | msqEnWrite => exact ⟨_, rfl, onMc_within fun _ => msqEnWrite_within.mono⟩
  | jtDoneClear => exact ⟨_, rfl, onMc_within fun _ => jtDoneClear_within.mono⟩
  | evtLoRead => exact ⟨_, rfl, evtLoRead_within.mono⟩
  | evtHiRead => exact ⟨_, rfl, evtHiRead_within.mono⟩
  | traceRead => exact ⟨_, rfl, traceRead_within.mono⟩
  | storeLane0Read => exact ⟨_, rfl, storeLane0Read_within.mono⟩
  | storeWordCommit => exact ⟨_, rfl, onMc_within fun _ => storeWordCommit_within.mono⟩
  | msqClrEvt => exact ⟨_, rfl, onMc_within fun _ => clrEvt_within.mono⟩
  | msqClrTrace => exact ⟨_, rfl, onMc_within fun _ => clrTrace_within.mono⟩
  | msqClrCnt => exact ⟨_, rfl, onMc_within fun _ => clrMsqCnt_within.mono⟩
  | microprogramLoad => exact ⟨_, rfl, .after settleSlots_within <| microprogramLoad_within.mono⟩
  | microprogramLoadQuiesced => exact ⟨_, rfl, .after settleSlots_within <| microprogramLoadQuiesced_within.mono⟩
  | microprogramLoadTimeout => exact ⟨_, rfl, .after settleSlots_within <| microprogramLoadTimeout_within.mono⟩
  | runSequenceWrite => exact ⟨_, rfl, .after settleSlots_within <| runSequenceWrite_within.mono⟩
  | runSequenceRead => exact ⟨_, rfl, .after settleSlots_within <| runSequenceRead_within.mono⟩
  | runSequenceComplete => exact ⟨_, rfl, .after settleSlots_within <| runSequenceComplete_within.mono⟩
  | servoSample => exact ⟨_, rfl, .after settle_within <| .after afterServo_within <| servoSample_within.mono⟩
  | loopResultReady => exact ⟨_, rfl, loopResultReady_within.mono⟩
  | loopDeadline => exact ⟨_, rfl, loopDeadline_within.mono⟩
  | outputRelease => exact ⟨_, rfl, outputRelease_within.mono⟩
  | pslFrameSend => exact ⟨_, rfl, pslFrameSend_within.mono⟩
  | pslReply => exact ⟨_, rfl, .after settle_within <| .after afterServo_within <| pslReply_within.mono⟩
  | spindleLoopTick => exact ⟨_, rfl, spindleLoopTick_within.mono⟩
  | actSeek => exact ⟨_, rfl, actCommand_within.mono⟩
  | actLoad => exact ⟨_, rfl, actCommand_within.mono⟩
  | actUnload => exact ⟨_, rfl, actCommand_within.mono⟩
  | actHold => exact ⟨_, rfl, actCommand_within.mono⟩
  | zrebuild => exact ⟨_, rfl, zrebuild_within.mono⟩
  | zrebuildEnd => exact ⟨_, rfl, zrebuildEnd_within.mono⟩
  | coefSwap => exact ⟨_, rfl, coefSwap_within.mono⟩
  | lostTimeout => exact ⟨_, rfl, lostTimeout_within.mono⟩
  | loadTimeout => exact ⟨_, rfl, loadTimeout_within.mono⟩
  | unloadBemfLow => exact ⟨_, rfl, .after afterServo_within <| unloadBemfLow_within.mono⟩
  | unloadTimeout => exact ⟨_, rfl, .after afterServo_within <| unloadTimeout_within.mono⟩
  | spsyncEdge => exact ⟨_, rfl, spsyncEdge_within.mono⟩
  | spsyncMissing => exact ⟨_, rfl, spsyncMissing_within.mono⟩
  | pslRegWrite => exact ⟨_, rfl, pslReg_within.mono⟩
  | pslRegRead => exact ⟨_, rfl, pslReg_within.mono⟩
  | actEnWrite => exact ⟨_, rfl, .after afterServo_within <| actEnWrite_within.mono⟩
  | sceClrPsl => exact ⟨_, rfl, sceClrPsl_within.mono⟩
  | sceClrAct => exact ⟨_, rfl, sceClrAct_within.mono⟩
  | sceClrFin => exact ⟨_, rfl, sceClrFin_within.mono⟩
  | sceClrLate => exact ⟨_, rfl, sceClrLate_within.mono⟩
  | sceClrOvr => exact ⟨_, rfl, sceClrOvr_within.mono⟩
  | pwmHalfPeriod => exact ⟨_, rfl, .after spinEnded_within <| pwmRow_within.mono⟩
  | bemfZeroCrossing => exact ⟨_, rfl, .after spinEnded_within <| bemfZeroCrossing_within.mono⟩
  | floatWindowClose => exact ⟨_, rfl, .after spinEnded_within <| floatWindowClose_within.mono⟩
  | scuCmdStart => exact ⟨_, rfl, .after spinEnded_within <| scuCmdStart_within.mono⟩
  | scuCmdStop => exact ⟨_, rfl, .after spinEnded_within <| scuCmdStop_within.mono⟩
  | scuCmdCoast => exact ⟨_, rfl, .after spinEnded_within <| scuCmdCoast_within.mono⟩
  | scuCmdCatch => exact ⟨_, rfl, .after spinEnded_within <| scuCmdCatch_within.mono⟩
  | scuCmdRectify => exact ⟨_, rfl, .after spinEnded_within <| scuCmdRectify_within.mono⟩
  | alignTimeout => exact ⟨_, rfl, .after spinEnded_within <| alignTimeout_within.mono⟩
  | lockedRotor => exact ⟨_, rfl, .after spinEnded_within <| lockedRotor_within.mono⟩
  | lockedRotorRetry => exact ⟨_, rfl, .after spinEnded_within <| lockedRotorRetry_within.mono⟩
  | catchTimeout => exact ⟨_, rfl, .after spinEnded_within <| catchTimeout_within.mono⟩
  | brakeHoldEnd => exact ⟨_, rfl, .after spinEnded_within <| brakeHoldEnd_within.mono⟩
  | coastTimeout => exact ⟨_, rfl, .after spinEnded_within <| coastTimeout_within.mono⟩
  | scuDriveWrite => exact ⟨_, rfl, .after spinEnded_within <| driveWrite_within.mono⟩
  | scuClrCnt => exact ⟨_, rfl, scuClrCnt_within.mono⟩
  | schedulerDecision => exact ⟨_, rfl, .after settleSlots_within <| schedulerDecision_within.mono⟩
  | heatDecay => exact ⟨_, rfl, .after settleSlots_within <| heatDecay_within.mono⟩
  | echoDrop => exact ⟨_, rfl, .after settleSlots_within <| echoDrop_within.mono⟩
  | compactionStart => exact ⟨_, rfl, .after settleSlots_within <| compactionStart_within.mono⟩
  | compactionCommit => exact ⟨_, rfl, .after settleSlots_within <| compactionCommit_within.mono⟩
  | journalUnitFlush => exact ⟨_, rfl, .after settleSlots_within <| journalFlush_within.mono⟩
  | snapshotStart => exact ⟨_, rfl, .after settleSlots_within <| snapshotStart_within.mono⟩
  | zoneMoveSwitch => exact ⟨_, rfl, .after settleSlots_within <| zoneMoveSwitch_within.mono⟩
  | mapWaitRelease => exact ⟨_, rfl, .after settleSlots_within <| mapWaitRelease_within.mono⟩
  | mapWaitExpiry => exact ⟨_, rfl, .after settleSlots_within <| mapWaitExpiry_within.mono⟩
  | pleClrClaim => exact ⟨_, rfl, pleClrClaim_within.mono⟩
  | pleClrDue => exact ⟨_, rfl, pleClrDue_within.mono⟩
  | pleClrMaxw => exact ⟨_, rfl, pleClrMaxw_within.mono⟩
  | gdlAdd => exact ⟨_, rfl, .after settleSlots_within <| gdlAdd_within.mono⟩
  | portReset => exact ⟨_, rfl, .after settleSlots_within <| portReset_within.mono⟩
  | linkDown => exact ⟨_, rfl, .after settleSlots_within <| linkDownPort_within.mono⟩
  | doorbellWrite => exact ⟨_, rfl, doorbellWrite_within.mono⟩
  | fetchTurn => exact ⟨_, rfl, fetchTurn_within.mono⟩
  | sqEntryArrive => exact ⟨_, rfl, .after settleSlots_within <| sqEntryArrive_within.mono⟩
  | hostMemoryError => exact ⟨_, rfl, .after settleSlots_within <| hostMemoryError_within.mono⟩
  | completionTimeout => exact ⟨_, rfl, .after settleSlots_within <| completionTimeout_within.mono⟩
  | lateCompletion => exact ⟨_, rfl, lateCompletion_within.mono⟩
  | heldWriteAdmit => exact ⟨_, rfl, .after settleSlots_within <| heldWriteAdmit_within.mono⟩
  | writeAccept => exact ⟨_, rfl, .after settleSlots_within <| writeAccept_within.mono⟩
  | completionPost => exact ⟨_, rfl, .after settleSlots_within <| completionPost_within.mono⟩
  | coalesceTimerExpiry => exact ⟨_, rfl, coalesceExpiry_within.mono⟩
  | createIoSq => exact ⟨_, rfl, createIoSq_within.mono⟩
  | createIoCq => exact ⟨_, rfl, createIoCq_within.mono⟩
  | deleteIoSq => exact ⟨_, rfl, .after settleSlots_within <| deleteIoSq_within.mono⟩
  | deleteIoSqComplete => exact ⟨_, rfl, .after settleSlots_within <| deleteIoSqComplete_within.mono⟩
  | deleteIoCq => exact ⟨_, rfl, deleteIoCq_within.mono⟩
  | getLogPage => exact ⟨_, rfl, getLogPage_within.mono⟩
  | identify => exact ⟨_, rfl, identify_within.mono⟩
  | abort => exact ⟨_, rfl, .after settleSlots_within <| abort_within.mono⟩
  | setFeatures => exact ⟨_, rfl, setFeatures_within.mono⟩
  | getFeatures => exact ⟨_, rfl, getFeatures_within.mono⟩
  | asyncEventRequest => exact ⟨_, rfl, asyncEventRequest_within.mono⟩
  | namespaceCreate => exact ⟨_, rfl, .after settleSlots_within <| namespaceCreate_within.mono⟩
  | namespaceDelete => exact ⟨_, rfl, .after settleSlots_within <| namespaceDelete_within.mono⟩
  | namespaceAttachment => exact ⟨_, rfl, namespaceAttachment_within.mono⟩
  | firmwareImageDownload => exact ⟨_, rfl, firmwareImageDownload_within.mono⟩
  | firmwareCommit => exact ⟨_, rfl, firmwareCommit_within.mono⟩
  | firmwareActivate => exact ⟨_, rfl, .after settleSlots_within <| firmwareActivate_within.mono⟩
  | firmwareActivateDrainTimeout => exact ⟨_, rfl, .after settleSlots_within <| firmwareActivateDrainTimeout_within.mono⟩
  | firmwareActivateDone => exact ⟨_, rfl, .after settleSlots_within <| activateDone_within.mono⟩
  | directiveSend => exact ⟨_, rfl, directiveSend_within.mono⟩
  | directiveReceive => exact ⟨_, rfl, directiveReceive_within.mono⟩
  | formatNvm => exact ⟨_, rfl, .after settleSlots_within <| formatNvm_within.mono⟩
  | formatComplete => exact ⟨_, rfl, .after settleSlots_within <| formatComplete_within.mono⟩
  | sanitizeExitFailure => exact ⟨_, rfl, sanitizeExitFailure_within.mono⟩
  | sanitizeOverwrite => exact ⟨_, rfl, .after settleSlots_within <| sanitizeOverwrite_within.mono⟩
  | sanitizeCryptoErase => exact ⟨_, rfl, .after settleSlots_within <| sanitizeCryptoErase_within.mono⟩
  | sanitizeBandDone => exact ⟨_, rfl, .after settleSlots_within <| sanitizeBandDone_within.mono⟩
  | recorderRead => exact ⟨_, rfl, recorderRead_within.mono⟩
  | csrReadCmd => exact ⟨_, rfl, csrReadCmd_within.mono⟩
  | csrWriteCmd => exact ⟨_, rfl, .after afterCsr_within <| csrWriteCmd_within.mono⟩
  | nonceRequest => exact ⟨_, rfl, nonceRequest_within.mono⟩
  | unlockToken => exact ⟨_, rfl, unlockToken_within.mono⟩
  | unlockEnd => exact ⟨_, rfl, unlockEnd_within.mono⟩
  | nonceExpiry => exact ⟨_, rfl, nonceExpiry_within.mono⟩
  | unlockExpiry => exact ⟨_, rfl, unlockExpiry_within.mono⟩
  | flush => exact ⟨_, rfl, .after settleSlots_within <| flush_within.mono⟩
  | write => exact ⟨_, rfl, .after settleSlots_within <| write_within.mono⟩
  | read => exact ⟨_, rfl, .after settleSlots_within <| read_within.mono⟩
  | writeZeroes => exact ⟨_, rfl, .after settleSlots_within <| writeZeroes_within.mono⟩
  | datasetManagement => exact ⟨_, rfl, .after settleSlots_within <| datasetManagement_within.mono⟩
  | verify => exact ⟨_, rfl, .after settleSlots_within <| verify_within.mono⟩
  | zoneOpen => exact ⟨_, rfl, .after settleSlots_within <| zoneOpen_within.mono⟩
  | zoneClose => exact ⟨_, rfl, .after settleSlots_within <| zoneClose_within.mono⟩
  | zoneFinish => exact ⟨_, rfl, .after settleSlots_within <| zoneFinish_within.mono⟩
  | zoneReset => exact ⟨_, rfl, .after settleSlots_within <| zoneReset_within.mono⟩
  | zoneResetComplete => exact ⟨_, rfl, .after settleSlots_within <| zoneResetComplete_within.mono⟩
  | zoneOffline => exact ⟨_, rfl, .after settleSlots_within <| zoneOffline_within.mono⟩
  | reportZones => exact ⟨_, rfl, .after settleSlots_within <| reportZones_within.mono⟩
  | zoneAppend => exact ⟨_, rfl, .after settleSlots_within <| zoneAppend_within.mono⟩
  | controllerReset => exact ⟨_, rfl, .after settleSlots_within <| controllerReset_within.mono⟩
  | functionLevelReset => exact ⟨_, rfl, .after settleSlots_within <| functionLevelReset_within.mono⟩
  | controllerResetSlotsFree => exact ⟨_, rfl, .after settleSlots_within <| controllerResetSlotsFree_within.mono⟩
  | controllerEnable => exact ⟨_, rfl, .after settleSlots_within <| controllerEnable_within.mono⟩
  | hqeClrCnt => exact ⟨_, rfl, hqeClrCnt_within.mono⟩
  | cloudburstTrigger => exact ⟨_, rfl, cloudburstTrigger_within.mono⟩
  | cloudburstEnd => exact ⟨_, rfl, cloudburstEnd_within.mono⟩
  | precautionaryDumpEnd => exact ⟨_, rfl, .after settleSlots_within <| precautionaryDumpEnd_within.mono⟩
  | bufferRead => exact ⟨_, rfl, withFatal_within fun _ => readBuffer_within.mono⟩
  | bufferWrite => exact ⟨_, rfl, bufferWrite_within.mono⟩
  | drizzleRecompute => exact ⟨_, rfl, withFatal_within fun _ => drizzleRecompute_within.mono⟩
  | drizzleScrub => exact ⟨_, rfl, withFatal_within fun _ => drizzleScrub_within.mono⟩
  | dqsOscCheck => exact ⟨_, rfl, dqsOscCheck_within.mono⟩
  | dramRetrain => exact ⟨_, rfl, withFatal_within fun _ => dramRetrain_within.mono⟩
  | mpcRequest => exact ⟨_, rfl, mpcRequest_within.mono⟩
  | evictionWritebackDone => exact ⟨_, rfl, evictionWritebackDone_within.mono⟩
  | mpcLock => exact ⟨_, rfl, mpcLock_within.mono⟩
  | mpcUnlock => exact ⟨_, rfl, mpcUnlock_within.mono⟩
  | mpcClean => exact ⟨_, rfl, mpcClean_within.mono⟩
  | mpcInvalidate => exact ⟨_, rfl, mpcInvalidate_within.mono⟩
  | mpcCleanInvalidate => exact ⟨_, rfl, mpcCleanInvalidate_within.mono⟩
  | mpcRangeEnd => exact ⟨_, rfl, mpcRangeEnd_within.mono⟩
  | dmaLoad => exact ⟨_, rfl, dmaLoad_within.mono⟩
  | dmaStop => exact ⟨_, rfl, .after settleSlots_within <| dmaStop_within.mono⟩
  | dmaClear => exact ⟨_, rfl, .after settleSlots_within <| dmaClear_within.mono⟩
  | dmaDescriptorDone => exact ⟨_, rfl, .after settleSlots_within <| dmaDescriptorDone_within.mono⟩
  | dmaReadRequest => exact ⟨_, rfl, dmaReadRequest_within.mono⟩
  | dmaReadCompletion => exact ⟨_, rfl, .after settleSlots_within <| readCompletion_within.mono⟩
  | orderingReadComplete => exact ⟨_, rfl, .after settleSlots_within <| orderingReadComplete_within.mono⟩
  | bmcClrErr => exact ⟨_, rfl, bmcClrErr_within.mono⟩
  | bmcClrCnt => exact ⟨_, rfl, bmcClrCnt_within.mono⟩
  | mpcClrCnt => exact ⟨_, rfl, mpcClrCnt_within.mono⟩
  | dmaClrCnt => exact ⟨_, rfl, dmaClrCnt_within.mono⟩
  | psaRead => exact ⟨_, rfl, psaRead_within.mono⟩
  | psaProgram => exact ⟨_, rfl, psaProgram_within.mono⟩
  | psaErase => exact ⟨_, rfl, psaErase_within.mono⟩
  | psaBlank => exact ⟨_, rfl, psaBlank_within.mono⟩
  | psaMarginRead => exact ⟨_, rfl, psaMarginRead_within.mono⟩
  | psaFrontierLoad => exact ⟨_, rfl, psaFrontierLoad_within.mono⟩
  | psaPulseEnd => exact ⟨_, rfl, psaPulseEnd_within.mono⟩
  | psaDieReady => exact ⟨_, rfl, psaDieReady_within.mono⟩
  | psaDieTimeout => exact ⟨_, rfl, psaDieTimeout_within.mono⟩
  | brownOutTrip => exact ⟨_, rfl, brownOutTrip_within.mono⟩
  | pctSuspend => exact ⟨_, rfl, pctSuspend_within.mono⟩
  | pctResume => exact ⟨_, rfl, pctResume_within.mono⟩
  | pctClrCnt => exact ⟨_, rfl, pctClrCnt_within.mono⟩
  | meterSample => exact ⟨_, rfl, meterSample_within.mono⟩
  | meterBinEnd => exact ⟨_, rfl, meterBinEnd_within.mono⟩
  | reserveRecompute => exact ⟨_, rfl, reserveRecompute_within.mono⟩
  | mtrLoRead => exact ⟨_, rfl, mtrLoRead_within.mono⟩
  | dcostMeasure => exact ⟨_, rfl, dcostMeasure_within.mono⟩
  | testDump => exact ⟨_, rfl, testDump_within.mono⟩
  | governorWindowEnd => exact ⟨_, rfl, governorWindowEnd_within.mono⟩
  | vcoreStep => exact ⟨_, rfl, vcoreStep_within.mono⟩
  | tmnSchedule => exact ⟨_, rfl, tmnSchedule_within.mono⟩
  | tmnRequest => exact ⟨_, rfl, tmnRequest_within.mono⟩
  | tmnConversionDone => exact ⟨_, rfl, tmnConversionDone_within.mono⟩
  | tmnClrCnt => exact ⟨_, rfl, tmnClrCnt_within.mono⟩
  | calRun => exact ⟨_, rfl, calRun_within.mono⟩
  | calDue => exact ⟨_, rfl, calDue_within.mono⟩
  | calRunEnd => exact ⟨_, rfl, calRunEnd_within.mono⟩
  | calStepApply => exact ⟨_, rfl, calStepApply_within.mono⟩
  | hello => exact ⟨_, rfl, .after settle_within <| hello_within.mono⟩
  | tdlHeartbeat => exact ⟨_, rfl, .after settle_within <| tdlHeartbeat_within.mono⟩
  | tdlAck => exact ⟨_, rfl, .after settle_within <| tdlAck_within.mono⟩
  | mediaReq => exact ⟨_, rfl, .after settle_within <| mediaReq_within.mono⟩
  | mediaCancel => exact ⟨_, rfl, .after settle_within <| mediaCancel_within.mono⟩
  | mediaEnd => exact ⟨_, rfl, .after settle_within <| mediaEnd_within.mono⟩
  | tdlClaim => exact ⟨_, rfl, .after settle_within <| tdlClaim_within.mono⟩
  | claimReply => exact ⟨_, rfl, .after settle_within <| claimReply_within.mono⟩
  | handoffReq => exact ⟨_, rfl, .after settle_within <| handoffReq_within.mono⟩
  | handoffState => exact ⟨_, rfl, .after settle_within <| handoffState_within.mono⟩
  | handoffDone => exact ⟨_, rfl, .after settle_within <| handoffDone_within.mono⟩
  | serveXfer => exact ⟨_, rfl, .after settle_within <| serveXfer_within.mono⟩
  | tdlFault => exact ⟨_, rfl, .after settle_within <| tdlFault_within.mono⟩
  | tdlSlot => exact ⟨_, rfl, .after settle_within <| tdlSlot_within.mono⟩
  | tdlData => exact ⟨_, rfl, .after settle_within <| tdlData_within.mono⟩
  | tdlJournal => exact ⟨_, rfl, .after settle_within <| tdlJournal_within.mono⟩
  | commitDone => exact ⟨_, rfl, .after settle_within <| commitDone_within.mono⟩
  | tdlRelease => exact ⟨_, rfl, .after settle_within <| tdlRelease_within.mono⟩
  | readData => exact ⟨_, rfl, .after settle_within <| readData_within.mono⟩
  | flitReplayTimeout => exact ⟨_, rfl, .after settle_within <| flitReplayTimeout_within.mono⟩
  | tdlRetrainDone => exact ⟨_, rfl, .after settle_within <| tdlRetrainDone_within.mono⟩
  | mirrorResendTimeout => exact ⟨_, rfl, .after settle_within <| mirrorResendTimeout_within.mono⟩
  | heartbeatSendTick => exact ⟨_, rfl, .after settle_within <| heartbeatSendTick_within.mono⟩
  | tdlSilence => exact ⟨_, rfl, .after settle_within <| tdlSilence_within.mono⟩
  | carillonAbsence => exact ⟨_, rfl, .after settle_within <| carillonAbsence_within.mono⟩
  | handoffArm => exact ⟨_, rfl, .after settle_within <| handoffArm_within.mono⟩
  | handoffDisarm => exact ⟨_, rfl, .after settle_within <| handoffDisarm_within.mono⟩
  | handoffJobTimeout => exact ⟨_, rfl, .after settle_within <| handoffJobTimeout_within.mono⟩
  | serveXferDrainTimeout => exact ⟨_, rfl, .after settle_within <| serveXferDrainTimeout_within.mono⟩
  | helloWaitTimeout => exact ⟨_, rfl, .after settle_within <| helloWaitTimeout_within.mono⟩
  | tdlClrCnt => exact ⟨_, rfl, tdlClrCnt_within.mono⟩
  | grantRequest => exact ⟨_, rfl, grantRequest_within.mono⟩
  | grant => exact ⟨_, rfl, grant_within.mono⟩
  | grantQueued => exact ⟨_, rfl, grantQueued_within.mono⟩
  | grantDeny => exact ⟨_, rfl, grantDeny_within.mono⟩
  | grantRelease => exact ⟨_, rfl, grantRelease_within.mono⟩
  | seekSlot => exact ⟨_, rfl, seekSlot_within.mono⟩
  | clpPhase => exact ⟨_, rfl, clpPhase_within.mono⟩
  | clpHeartbeat => exact ⟨_, rfl, .after settle_within <| clpHeartbeat_within.mono⟩
  | clpDialect => exact ⟨_, rfl, clpDialect_within.mono⟩
  | tocsin => exact ⟨_, rfl, .after settle_within <| tocsinIn_within.mono⟩
  | neighborSolicitation => exact ⟨_, rfl, neighborSolicitation_within.mono⟩
  | clpTransmit => exact ⟨_, rfl, clpTransmit_within.mono⟩
  | plcaFallback => exact ⟨_, rfl, plcaFallback_within.mono⟩
  | plcaBeacon => exact ⟨_, rfl, plcaBeacon_within.mono⟩
  | xchgArm => exact ⟨_, rfl, xchgArm_within.mono⟩
  | xchgExpiry => exact ⟨_, rfl, xchgExpiry_within.mono⟩
  | spinStartNeeded => exact ⟨_, rfl, spinStartNeeded_within.mono⟩
  | spinBackoffEnd => exact ⟨_, rfl, spinBackoffEnd_within.mono⟩
  | grantExpiry => exact ⟨_, rfl, grantExpiry_within.mono⟩
  | grantQueueLapse => exact ⟨_, rfl, grantQueueLapse_within.mono⟩
  | seekSlotSilence => exact ⟨_, rfl, seekSlotSilence_within.mono⟩
  | tocsinRepeat => exact ⟨_, rfl, tocsinRepeat_within.mono⟩
  | clpClrCnt => exact ⟨_, rfl, clpClrCnt_within.mono⟩
  | por vin b =>
    have h : ¬ (s.sys.phase = .unpowered ∧ 6500 < vin) := fun ⟨hp, hv⟩ =>
        (ratings vin b rfl).elim (Nat.not_le.mpr hv) fun h => h hp
    exact ⟨_, if_neg h, por_within.mono⟩
  | ioReady => exact ⟨_, rfl, ioReady_within.mono⟩
  | resetN => exact ⟨_, rfl, resetPin_within.mono⟩
  | resetDumpEnd => exact ⟨_, rfl, resetDumpEnd_within.mono⟩
  | watchdogKick => exact ⟨_, rfl, watchdogKick_within.mono⟩
  | watchdogExpiry => exact ⟨_, rfl, watchdogExpiry_within.mono⟩
  | softReset => exact ⟨_, rfl, softReset_within.mono⟩
  | unitResetMc => exact ⟨_, rfl, .after settle_within <| unitResetMc_within.mono⟩
  | unitResetSce => exact ⟨_, rfl, unitResetSce_within.mono⟩
  | unitResetScu => exact ⟨_, rfl, unitResetScu_within.mono⟩
  | unitResetPct => exact ⟨_, rfl, unitResetPct_within.mono⟩
  | unitResetTdl => exact ⟨_, rfl, unitResetTdl_within.mono⟩
  | unitResetClp => exact ⟨_, rfl, unitResetClp_within.mono⟩
  | sysClrWdog => exact ⟨_, rfl, sysClrWdog_within.mono⟩
  | bypass => exact ⟨_, rfl, tapBypass_within.mono⟩
  | idcode => exact ⟨_, rfl, tapIdcode_within.mono⟩
  | samplePreload => exact ⟨_, rfl, tapSamplePreload_within.mono⟩
  | extest => exact ⟨_, rfl, tapExtest_within.mono⟩
  | clamp => exact ⟨_, rfl, tapClamp_within.mono⟩
  | highz => exact ⟨_, rfl, tapHighz_within.mono⟩
  | devrst => exact ⟨_, rfl, tapDevrst_within.mono⟩
  | csracc => exact ⟨_, rfl, .after afterCsr_within <| tapCsracc_within.mono⟩
  | mckSynPop => exact ⟨_, rfl, mckSynPop_within.mono⟩
  | evrFirmwarePost => exact ⟨_, rfl, evrFirmwarePost_within.mono⟩
  | evrRecord => exact ⟨_, rfl, evrRecord_within.mono⟩
  | evrClrCnt => exact ⟨_, rfl, evrClrCnt_within.mono⟩
  | mckClrCnt => exact ⟨_, rfl, mckClrCnt_within.mono⟩
  | porAssert => exact ⟨_, rfl, porAssert_within.mono⟩
  | lossOfLaneLock => exact ⟨_, rfl, lossOfLaneLock_within.mono⟩
  | tdlNak => exact ⟨_, rfl, .after settle_within <| tdlNak_within.mono⟩
  | flitDropped => exact ⟨_, rfl, flitDropped_within.mono⟩
  | vfEnableClear => exact ⟨_, rfl, .after settleSlots_within <| vfEnableClear_within.mono⟩
  | persistentLinkError => exact ⟨_, rfl, withFatal_within fun _ => persistentLinkError_within.mono⟩
  | rdecodeReport => exact ⟨_, rfl, onMc_within fun _ => rdecodeReport_within.mono⟩
  | granterRestartWaitEnd => exact ⟨_, rfl, granterRestartWaitEnd_within.mono⟩

theorem exec_next_within {c s t} (h : exec c s = .next t) : Within (footprint c).2 s t := by
  obtain ⟨u, hu, w⟩ := exec_completes c s fun vin b hc => by
    by_contra outside
    rw [not_or, Nat.not_le, not_not] at outside
    rw [hc] at h
    have fault : exec (.por vin b) s = .fault .outsideRatings := if_pos ⟨outside.2, outside.1⟩
    rw [fault] at h
    cases h
  rw [hu] at h
  cases h
  exact w

/-- What every step keeps: an empty queue idles, and the front command of another stays within its footprint. -/
theorem step_keeps {s t} (h : step s = .next t) :
    t.pending = s.pending.tail ∧ t.part = s.part ∧ (Registers s → Registers t) := by
  rw [step] at h
  split at h
  · rename_i idle
    cases h
    exact ⟨by rw [idle, List.tail_nil], rfl, id⟩
  · rename_i c rest front
    have w := exec_next_within h
    exact ⟨by rw [w.queue, front, List.tail_cons], w.part, fun r => w.regs { r with }⟩

/-- Settles O2: no row's footprint takes in the queue or the part number, so all that changes in the queue is that the front
command is gone. -/
theorem everyStepTakesOneCommand : Obligations.EveryStepTakesOneCommand := by
  unfold Obligations.EveryStepTakesOneCommand
  intro s t h
  obtain ⟨queue, part, -⟩ := step_keeps h
  exact ⟨queue, part⟩

/-- Settles O4: every operation writes the register files by operations on tables that keep them canonical, or resets them. -/
theorem registerFilesKeepTheirCanonicalForm : Obligations.RegisterFilesKeepTheirCanonicalForm := by
  unfold Obligations.RegisterFilesKeepTheirCanonicalForm
  intro s t canonical h
  obtain ⟨-, -, regs⟩ := step_keeps h
  exact (regsWf_iff t).mpr (regs ((regsWf_iff s).mp canonical))

end Sys2Proof.Machine
end

section
namespace Sys2Proof.Machine

/-! ## The control path and the fabric (R15, R18, R25 to R27) -/

/-- Settles O1: both are what a step is by definition. -/
theorem stepRunsTheFrontCommand : Obligations.StepRunsTheFrontCommand := by
  unfold Obligations.StepRunsTheFrontCommand
  exact ⟨fun _ _ _ => rfl, fun _ => rfl⟩

/-- Every row completes within its footprint, of POR only one within the ratings of VIN. -/
theorem exec_staysIn (c : Instr) (s : State) (ratings : ∀ v b, c = .por v b → v ≤ 6500 ∨ s.sys.phase ≠ .unpowered) :
    staysIn c s := by
  obtain ⟨t, completes, within⟩ := exec_completes c s ratings
  exact ⟨t, completes, within.queue, within.part, within.frame⟩

/-- Settles O6: a POR is no row of this family, and every other row completes within its footprint. -/
theorem fabricRowsStayInTheirFootprint : Obligations.FabricRowsStayInTheirFootprint := by
  unfold Obligations.FabricRowsStayInTheirFootprint
  intro c s family
  refine exec_staysIn c s fun v b por => ?_
  rw [por] at family
  cases family

/-! ### What a write of a register leaves of the others -/

theorem rdF_wr_other (t : List (Nat × Word)) (off : Nat) (w : Word) (f : Fld) (ne : f.off ≠ off) (h : twf 0 t = true) :
    rdF (wr t off w) f = rdF t f := by
  rw [rdF, rdF, rd_wr_other t off f.off w ne h]

theorem rdB_wrF_other (t : List (Nat × Word)) (f g : Fld) (v : Nat) (ne : g.off ≠ f.off) (h : twf 0 t = true) :
    rdB (wrF t f v) g = rdB t g := by
  rw [rdB, rdB, rdF_wrF_other t f g v ne h]

/-- A counter field counts up to its top. -/
theorem rdF_incF_same (t : List (Nat × Word)) (f : Fld) (n : Nat) (hw : f.lo ≤ f.hi) (h32 : f.hi < 32) (h : twf 0 t = true) :
    rdF (incF t f n) f = min (fldTop f) (rdF t f + n) := by
  have top : fldTop f < 2 ^ (f.hi + 1 - f.lo) := Nat.sub_lt (by positivity) Nat.one_pos
  rw [incF, rdF_wrF_same t f _ hw h32 h]
  exact Nat.mod_eq_of_lt ((Nat.min_le_left _ _).trans_lt top)

/-- An update of a register file leaves one register as it was, and the file canonical. -/
def HoldsReg (a : Nat) (c d : List (Nat × Word)) : Prop := twf 0 c = true → twf 0 d = true ∧ rd d a = rd c a

namespace HoldsReg
variable {a : Nat} {c d e : List (Nat × Word)}

protected theorem refl : HoldsReg a c c := fun h => ⟨h, rfl⟩

theorem trans (h : HoldsReg a c d) (g : HoldsReg a d e) : HoldsReg a c e := fun canonical => by
  obtain ⟨hd, same⟩ := h canonical
  obtain ⟨he, same'⟩ := g hd
  exact ⟨he, same'.trans same⟩

/-- An update that is done only if a condition holds, after a first one. -/
theorem whenTrue {p : Prop} [Decidable p] (g : HoldsReg a d e) (h : HoldsReg a c d) : HoldsReg a c (if p then e else d) := by
  split
  · exact h.trans g
  · exact h

theorem whenFalse {p : Prop} [Decidable p] (g : HoldsReg a d e) (h : HoldsReg a c d) : HoldsReg a c (if p then d else e) := by
  split
  · exact h
  · exact h.trans g

theorem wr {off : Nat} {w : Word} (ne : a ≠ off) : HoldsReg a c (wr c off w) :=
  fun h => ⟨wr_twf _ _ _ h, rd_wr_other _ _ _ _ ne h⟩

theorem wrF {f : Fld} {v : Nat} (ne : a ≠ f.off) : HoldsReg a c (wrF c f v) := wr ne

theorem wrB {f : Fld} {b : Bool} (ne : a ≠ f.off) : HoldsReg a c (wrB c f b) := wr ne

end HoldsReg

/-- Settles O22: each clear writes the registers it names in the SYS register file and no others. -/
theorem fabricClearsSetTheirCounters : Obligations.FabricClearsSetTheirCounters := by
  unfold Obligations.FabricClearsSetTheirCounters
  intro s canonical
  refine ⟨⟨wrF s.sys.csr SYS_PACE_MIN.MIN 0xFFFF, rfl, ?_, fun a ne => ?_⟩,
    ⟨wr (wrF s.sys.csr SYS_FAB_DECERR.COUNT 0) SYS_FAB_DECADDR 0, rfl, ?_, ?_, fun a neCount neAddr => ?_⟩,
    ⟨wrF s.sys.csr SYS_ARB_SLOW.COUNT 0, rfl, ?_, fun a ne => ?_⟩⟩
  · exact rdF_wrF_same _ SYS_PACE_MIN.MIN _ (by decide) (by decide) canonical
  · exact rd_wrF_other _ _ _ _ ne canonical
  · rw [rdF_wr_other _ _ _ _ (by decide) (wrF_twf _ _ _ canonical)]
    exact rdF_wrF_same _ SYS_FAB_DECERR.COUNT _ (by decide) (by decide) canonical
  · exact rd_wr_same _ _ _ (wrF_twf _ _ _ canonical)
  · exact (HoldsReg.trans (.wrF neCount) (.wr neAddr) canonical).2
  · exact rdF_wrF_same _ SYS_ARB_SLOW.COUNT _ (by decide) (by decide) canonical
  · exact rd_wrF_other _ _ _ _ ne canonical

/-! ### Decode errors (R25) -/

theorem decodeError_iff (a : Nat) :
    decodeError a = true ↔ a % 4 ≠ 0 ∨ 0x30000 ≤ a ∧ a ≤ 0x3FFFF ∨ 0x150000 ≤ a := by
  rw [decodeError, Bool.or_eq_true, Bool.or_eq_true, decide_eq_true_eq, decide_eq_true_eq, decide_eq_true_eq]
  omega

/-- An access of another width than 32 bits, or to an address that no unit decodes, is noted as a decode error. -/
theorem csrAccess_decodeError (bytes a : Nat) (v : Word) (s : State) (h : bytes ≠ 4 ∨ decodeError a = true) :
    csrAccess bytes a v s = noteDecodeError a s := by
  rw [csrAccess]
  split
  case isTrue width =>
    exact if_pos (h.resolve_left (not_not_intro width))
  case isFalse => rfl

/-- Settles O23: such an access is noted in the two registers of SYS_FAB_DECERR and does nothing else. -/
theorem decodeErrorIsCountedAndChangesNothingElse : Obligations.DecodeErrorIsCountedAndChangesNothingElse := by
  unfold Obligations.DecodeErrorIsCountedAndChangesNothingElse
  intro bytes a v s canonical _ undecoded
  have noted : csrAccess bytes a v s = noteDecodeError a s :=
    csrAccess_decodeError bytes a v s (undecoded.imp_right (decodeError_iff a).mpr)
  refine ⟨wr (incF s.sys.csr SYS_FAB_DECERR.COUNT 1) SYS_FAB_DECADDR (BitVec.ofNat 32 a), ?_, ?_, ?_, fun b neCount neAddr => ?_⟩
  · calc exec (.csrWrite bytes a v) s
        = .next (afterCsr (csrAccess bytes a v s)) := rfl
      _ = .next (afterCsr (noteDecodeError a s)) := by rw [noted]
      _ = _ := rfl
  · rw [rdF_wr_other _ _ _ _ (by decide) (incF_twf canonical)]
    exact rdF_incF_same _ SYS_FAB_DECERR.COUNT 1 (by decide) (by decide) canonical
  · exact rd_wr_same _ _ _ (incF_twf canonical)
  · exact (HoldsReg.trans (.wrF neCount) (.wr neAddr) canonical).2

/-! ### A pace window's end (R18) -/

/-- The SYS register file with a window's count published: the count, the minimum and the alarm. -/
def pacePublished (n : Nat) (c : List (Nat × Word)) : List (Nat × Word) :=
  let d := wrF (wrF c SYS_PACE_NOW.TOKENS n) SYS_PACE_MIN.MIN (min n (rdF c SYS_PACE_MIN.MIN))
  if rdB c SYS_PACE_CTL.EN && decide (n < rdF c SYS_PACE_CTL.ALARM) then wrB d SYS_PACE_STAT.ALARM true else d

section
variable {n : Nat} {c : List (Nat × Word)}

theorem pacePublished_twf (h : twf 0 c = true) : twf 0 (pacePublished n c) = true :=
  have count := wrF_twf _ _ _ (wrF_twf _ _ _ h)
  twf_ite (wrB_twf _ _ _ count) count

/-- The alarm's write leaves the registers of the count and of the minimum alone. -/
theorem rdF_pacePublished (f : Fld) (ne : f.off ≠ SYS_PACE_STAT) (h : twf 0 c = true) :
    rdF (pacePublished n c) f =
      rdF (wrF (wrF c SYS_PACE_NOW.TOKENS n) SYS_PACE_MIN.MIN (min n (rdF c SYS_PACE_MIN.MIN))) f := by
  rw [pacePublished]
  split
  · exact rdF_wrF_other _ _ _ _ ne (wrF_twf _ _ _ (wrF_twf _ _ _ h))
  · rfl

theorem pacePublished_now (hn : n < 65536) (h : twf 0 c = true) : rdF (pacePublished n c) SYS_PACE_NOW.TOKENS = n := by
  rw [rdF_pacePublished _ (by decide) h, rdF_wrF_other _ _ _ _ (by decide) (wrF_twf _ _ _ h),
    rdF_wrF_same _ _ _ (by decide) (by decide) h]
  exact Nat.mod_eq_of_lt hn

theorem pacePublished_min (hn : n < 65536) (h : twf 0 c = true) :
    rdF (pacePublished n c) SYS_PACE_MIN.MIN = min n (rdF c SYS_PACE_MIN.MIN) := by
  rw [rdF_pacePublished _ (by decide) h, rdF_wrF_same _ _ _ (by decide) (by decide) (wrF_twf _ _ _ h)]
  exact Nat.mod_eq_of_lt ((Nat.min_le_left _ _).trans_lt hn)

theorem pacePublished_alarm (h : twf 0 c = true) : rdB (pacePublished n c) SYS_PACE_STAT.ALARM =
    (rdB c SYS_PACE_STAT.ALARM || rdB c SYS_PACE_CTL.EN && decide (n < rdF c SYS_PACE_CTL.ALARM)) := by
  have count := wrF_twf _ SYS_PACE_NOW.TOKENS n h
  rw [pacePublished]
  split
  case isTrue below => rw [rdB_wrB_same _ _ _ rfl (by decide) (wrF_twf _ _ _ count), below, Bool.or_true]
  case isFalse notBelow =>
    rw [rdB_wrF_other _ _ _ _ (by decide) count, rdB_wrF_other _ _ _ _ (by decide) h, Bool.eq_false_of_not_eq_true notBelow,
      Bool.or_false]

end

/-- The window's count is published, the energy logic notes the speed, and the timebase goes one microsecond on. -/
def windowCounted (n : Nat) (s : State) : State :=
  let t := noteSpeed (sysReg (pacePublished n) s)
  { t with sys := { t.sys with us := t.sys.us + 1 } }

@[simp] theorem windowCounted_csr (n : Nat) (s : State) : (windowCounted n s).sys.csr = pacePublished n s.sys.csr := rfl
@[simp] theorem windowCounted_us (n : Nat) (s : State) : (windowCounted n s).sys.us = s.sys.us + 1 := rfl
@[simp] theorem windowCounted_mcOf (n : Nat) (s : State) (k : Fin 4) : mcOf (windowCounted n s) k = mcOf s k := rfl

/-- The registers of SYS that what follows a window's count may still write: the watchdog's count, the reset of the SCE that
waits, and the boot's progress. -/
def followingRegs : List Nat := [SYS_WDOG_STAT, SYS_UNIT_RST, SYS_BOOT_STAT]

/-- What follows a window's count keeps the timebase, the published registers, and of each Media Channel the gates and the
job. -/
structure PaceStays (s t : State) : Prop where
  us : t.sys.us = s.sys.us
  regs : ∀ a, a ∉ followingRegs → HoldsReg a s.sys.csr t.sys.csr
  gates : ∀ k, (mcOf t k).wg = (mcOf s k).wg ∧ (mcOf t k).ag = (mcOf s k).ag ∧ (mcOf t k).job = (mcOf s k).job

namespace PaceStays
variable {F : List Piece} {s t u : State}

theorem of_units (sys : t.sys.us = s.sys.us) (csr : t.sys.csr = s.sys.csr) (mcs : t.mcs = s.mcs) : PaceStays s t where
  us := sys
  regs _ _ := csr ▸ .refl
  gates k := by rw [mcOf, mcs]; exact ⟨rfl, rfl, rfl⟩

protected theorem refl : PaceStays s s := .of_units rfl rfl rfl

/-- An operation whose footprint takes in neither SYS nor the Media Channels. -/
theorem of_within (w : Within F s t) (noSys : Piece.sys ∉ F := by decide) (noMcs : Piece.mcs ∉ F := by decide) : PaceStays s t :=
  have sys : t.sys = s.sys := w.frame .sys noSys
  .of_units (by rw [sys]) (by rw [sys]) (w.frame .mcs noMcs)

/-- A second operation, named first as in the model's text, after a first one. -/
theorem comp (g : PaceStays t u) (h : PaceStays s t) : PaceStays s u where
  us := g.us.trans h.us
  regs a ha := (h.regs a ha).trans (g.regs a ha)
  gates k := by
    obtain ⟨wg, ag, job⟩ := h.gates k
    obtain ⟨wg', ag', job'⟩ := g.gates k
    exact ⟨wg'.trans wg, ag'.trans ag, job'.trans job⟩

theorem ite {c : Prop} [Decidable c] (h : PaceStays s t) (g : PaceStays s u) : PaceStays s (if c then t else u) := by
  split <;> assumption

theorem whenTrue {c : Prop} [Decidable c] (g : PaceStays t u) (h : PaceStays s t) : PaceStays s (if c then u else t) :=
  .ite (.comp g h) h

theorem foldl {α : Type} {f : State → α → State} {l : List α} (hf : ∀ s x, PaceStays s (f s x)) : PaceStays s (l.foldl f s) := by
  induction l generalizing s with
  | nil => exact .refl
  | cons x l ih => exact .comp ih (hf s x)

theorem forMcs {f : Fin 4 → State → State} (h : ∀ k s, PaceStays s (f k s)) : PaceStays s (forMcs f s) :=
  .comp (h 3 _) <| .comp (h 2 _) <| .comp (h 1 _) (h 0 s)

/-- A write of one of the registers that may follow. -/
theorem sysWrite {f : List (Nat × Word) → List (Nat × Word)} (h : ∀ a c, a ∉ followingRegs → HoldsReg a c (f c)) :
    PaceStays s (sysReg f s) where
  us := rfl
  regs a ha := h a _ ha
  gates _ := ⟨rfl, rfl, rfl⟩

theorem modMc {k : Fin 4} {f : Mc → Mc} (h : ∀ m, (f m).wg = m.wg ∧ (f m).ag = m.ag ∧ (f m).job = m.job) :
    PaceStays s (modMc k f s) where
  us := rfl
  regs _ _ := .refl
  gates j := by
    by_cases hj : j = k
    · rw [hj, mcOf_modMc_same]
      exact h _
    · rw [mcOf_modMc_other _ _ _ _ hj]
      exact ⟨rfl, rfl, rfl⟩

end PaceStays

theorem ne_of_following {a b : Nat} (ha : a ∉ followingRegs) (hb : b ∈ followingRegs := by decide) : a ≠ b :=
  fun e => ha (e ▸ hb)

theorem machineCheck_paceStays {unit code sev addr info s} : PaceStays s (machineCheck unit code sev addr info s) := by
  rw [machineCheck_changes]
  exact .of_units rfl rfl rfl

theorem dramPut_paceStays {bytes s} : PaceStays s (dramPut bytes s) :=
  .foldl fun _ _ => .ite machineCheck_paceStays <|
    have put {l : List (Nat × Byte)} {n t} : Within [.mem] t (l.foldl (fun s e => putByte n (e.1 % 4096) e.2 s) t) :=
      .foldl fun _ _ => putByte_within
    .ite (.comp (.of_within unstale_within) (.of_within put)) (.comp (.of_within markStale_within) (.of_within put))

theorem clpSend_paceStays {alarm type scope body s} : PaceStays s (clpSend alarm type scope body s) :=
  .ite .refl <| .comp (.of_within <| clpReg_within fun _ h => wrF_twf _ _ _ h) dramPut_paceStays

theorem sendPhase_paceStays {s} : PaceStays s (sendPhase s) :=
  .ite .refl <| .comp clpSend_paceStays (.of_within takeFree_within)

theorem sendSeekSlot_paceStays {s} : PaceStays s (sendSeekSlot s) :=
  .comp clpSend_paceStays <|
    have placed : PaceStays s (modClp (fun c => { c with
        slotSent := some (takeFree s).2.sys.us
        place := some (0, (sledTable s).length) }) (takeFree s).2) :=
      .comp (.of_within <| modClp_within fun _ h => h) (.of_within takeFree_within)
    .ite (.comp (.of_within writeWindow_within) placed)
      (.comp (.of_within writeWindow_within) <| .comp (.of_within <| pleReg_within fun _ h => wrB_twf _ _ _ h) placed)

theorem clpTick_paceStays {s} : PaceStays s (clpTick s) :=
  .ite .refl <| .whenTrue (.comp sendPhase_paceStays sendSeekSlot_paceStays) <| .whenTrue clpSend_paceStays <|
    .ite clpSend_paceStays .refl

theorem wdogTick_paceStays {s} : PaceStays s (wdogTick s) := .ite (.sysWrite fun _ _ h => .wrF (ne_of_following h)) .refl

theorem bootStage_paceStays {n s} : PaceStays s (bootStage n s) :=
  .comp (.of_within .setPins) <| .sysWrite fun _ _ h => .wrF (ne_of_following h)

theorem bootProgress_paceStays {s} : PaceStays s (bootProgress s) :=
  .ite .refl <| .ite (.ite .refl bootStage_paceStays) <| .ite (.ite bootStage_paceStays .refl) <| .ite bootStage_paceStays .refl

theorem sceResetProgress_paceStays {s} : PaceStays s (sceResetProgress s) :=
  .ite (.comp (.sysWrite fun _ _ h => .wrB (ne_of_following h)) <| .of_within (.setSce fun _ => Sce.reset_canon)) .refl

theorem afterServo_paceStays {s} : PaceStays s (afterServo s) := .comp bootProgress_paceStays sceResetProgress_paceStays

theorem countAssist_gates (now : Nat) (m : Mc) :
    (countAssist now m).wg = m.wg ∧ (countAssist now m).ag = m.ag ∧ (countAssist now m).job = m.job := by
  rw [countAssist]
  split <;> exact ⟨rfl, rfl, rfl⟩

/-- After the count is published a window's end moves on what the timebase counts, none of it the published pace or a gate. -/
theorem paceWindowEnd_paceStays {n s} (hn : n < 65536) : PaceStays (windowCounted n s) (paceWindowEnd n s) := by
  have counted : windowCounted n s = windowCounted (n % 65536) s := by rw [Nat.mod_eq_of_lt hn]
  rw [counted]
  exact .whenTrue (.of_within saveReplayTable_within) <| .comp clpTick_paceStays <| .whenTrue wdogTick_paceStays <|
    .comp (.forMcs fun _ _ => .of_within pushEnd_within) <| .forMcs fun _ _ => .modMc fun m => countAssist_gates _ m

theorem csrView_paceNow (s : State) : csrView s SYS_PACE_NOW = rd s.sys.csr SYS_PACE_NOW := rfl

/-- Settles O25: the published registers are those of `pacePublished`, and what follows leaves them, the gates and the jobs
alone. -/
theorem paceWindowIsPublishedWhole : Obligations.PaceWindowIsPublishedWhole := by
  unfold Obligations.PaceWindowIsPublishedWhole
  intro n s canonical range _
  have stays : PaceStays (windowCounted n s) (afterServo (paceWindowEnd n s)) :=
    .comp afterServo_paceStays (paceWindowEnd_paceStays range)
  have hqe : (afterServo (paceWindowEnd n s)).hqe = s.hqe :=
    same_trans (p := .hqe) (paceWindowEnd_within.frame .hqe (by decide)) (afterServo_within.frame .hqe (by decide))
  have media : (afterServo (paceWindowEnd n s)).media = s.media :=
    same_trans (p := .media) (paceWindowEnd_within.frame .media (by decide)) (afterServo_within.frame .media (by decide))
  have published (a : Nat) (ha : a ∉ followingRegs) :
      rd (afterServo (paceWindowEnd n s)).sys.csr a = rd (pacePublished n s.sys.csr) a := by
    obtain ⟨-, held⟩ := stays.regs a ha (pacePublished_twf canonical)
    rw [held, windowCounted_csr]
  have field (f : Fld) (hf : f.off ∉ followingRegs) :
      rdF (afterServo (paceWindowEnd n s)).sys.csr f = rdF (pacePublished n s.sys.csr) f := by
    rw [rdF, rdF, published f.off hf]
  refine ⟨_, rfl, ?_, ?_, ?_, csrView_paceNow s, csrView_paceNow _, stays.us.trans (windowCounted_us n s),
    hqe, media, fun k => windowCounted_mcOf n s k ▸ stays.gates k⟩
  · rw [field _ (by decide), pacePublished_now range canonical]
  · rw [field _ (by decide), pacePublished_min range canonical]
  · rw [rdB, field _ (by decide)]
    exact pacePublished_alarm canonical

/-! ### A Clock Boundary Port fault (R15) -/

@[simp] theorem mcOf_jobEndHook (j k : Fin 4) (entry cls : Nat) (s : State) : mcOf (jobEndHook j entry cls s) k = mcOf s k := rfl

theorem endJob_job (k : Fin 4) (fin cls stop : Nat) (s : State) : (mcOf (endJob k fin cls stop s) k).job = none := by
  rw [endJob]
  split
  case h_1 idle => exact idle
  case h_2 j _ =>
    have disabled (m : Mc) : (applyDisable m).job = m.job := by rw [applyDisable]; split <;> rfl
    dsimp only
    rw [mcOf_jobEndHook, mcOf_modMc_same]
    exact disabled _

theorem stopJob_job (k : Fin 4) (code : Nat) (s : State) : (mcOf (stopJob k code s) k).job = none := by
  rw [stopJob]
  split
  case h_1 idle => exact idle
  case h_2 => exact endJob_job ..

/-- With its job stopped and its gates dropped a Media Channel is idle and writes nothing. -/
theorem dropGates_stopJob (k : Fin 4) (code : Nat) (s : State) :
    let u := dropGates k (stopJob k code s)
    (mcOf u k).wg = false ∧ (mcOf u k).ag = false ∧ (mcOf u k).job = none := by
  intro u
  have channel : mcOf u k = gatesLow (mcOf (stopJob k code s) k) := mcOf_modMc_same _ k _
  rw [channel]
  exact ⟨rfl, rfl, stopJob_job k code s⟩

theorem evrPost_mck (cls id : Nat) (detail : Word) (syn : List Word) (s : State) :
    (evrPost cls id detail syn s).mck = s.mck := by
  rw [evrPost_changes]

/-- A machine check counts itself, up to the counter's top. -/
theorem machineCheck_count (unit code sev : Nat) (addr info : Word) (s : State) (h : twf 0 s.mck.csr = true) :
    (rd (machineCheck unit code sev addr info s).mck.csr MCK_COUNT).toNat =
      min 0xFFFFFFFF ((rd s.mck.csr MCK_COUNT).toNat + 1) := by
  have held : HoldsReg MCK_COUNT (incR s.mck.csr MCK_COUNT 1) (machineCheck unit code sev addr info s).mck.csr := by
    rw [machineCheck]
    dsimp only
    rw [evrPost_mck]
    exact .whenFalse (.trans (.wrB (by decide)) (.wr (by decide))) <| .whenTrue (.wrB (by decide)) <|
      .whenTrue (.wrB (by decide)) <| .wrF (by decide)
  obtain ⟨-, count⟩ := held (incR_twf _ _ _ h)
  rw [count, incR_toNat _ _ _ h]

/-- What a fault of an island does first: the island's bit of SYS_CBP_STAT, and a machine check. -/
def cbpNoted (i : Nat) (s : State) : State :=
  machineCheck 0 0x01 1 (BitVec.ofNat 32 i) 0
    (sysReg (fun c => wr c SYS_CBP_STAT (wordSetField (rd c SYS_CBP_STAT) i i 1)) s)

/-- The bit that was set in a word reads 1. -/
theorem wordBit_set_one (w : Word) (i : Nat) (h : i < 32) : wordBit (wordSetField w i i 1) i = true := by
  have field : wordField (wordSetField w i i 1) i i = 1 := by
    rw [wordField_set_same w i i 1 le_rfl h, Nat.add_sub_cancel_left]
    rfl
  rw [wordField, Nat.add_sub_cancel_left, pow_one, Nat.shiftRight_eq_div_pow] at field
  rw [wordBit, Nat.testBit_eq_decide_div_mod_eq, field]
  rfl

theorem cbpNoted_bit (i : Nat) (s : State) (hi : i < 32) (h : twf 0 s.sys.csr = true) :
    wordBit (rd (cbpNoted i s).sys.csr SYS_CBP_STAT) i = true := by
  rw [cbpNoted, machineCheck_changes]
  dsimp only [sysReg_csr]
  rw [rd_wr_same _ _ _ h]
  exact wordBit_set_one _ i hi

section
variable (i : Fin 9) (s : State)

theorem cbpFault_absent (absent : s.part = .dhk7420 ∧ (i.val = 4 ∨ i.val = 5)) : cbpFault i s = s := if_pos absent

theorem cbpFault_present (present : ¬ (s.part = .dhk7420 ∧ (i.val = 4 ∨ i.val = 5))) : cbpFault i s =
    if 2 ≤ i.val ∧ i.val ≤ 5 then
      if (mcOf (cbpNoted i.val s) (mcIx (i.val - 2))).wg then writeAbort (mcIx (i.val - 2)) MC_WR_FAULT.CBP 7 (cbpNoted i.val s)
      else dropGates (mcIx (i.val - 2)) (stopJob (mcIx (i.val - 2)) 14 (cbpNoted i.val s))
    else if cbpEmpty i (cbpNoted i.val s) then cbpNoted i.val s
    else failTransfers i.val (cbpNoted i.val s) := if_neg present

/-- After the bit and the machine check a fault touches neither their units nor, on an island that is no Media Timing Island,
the Media Channels. -/
theorem cbpFault_afterNoted (present : ¬ (s.part = .dhk7420 ∧ (i.val = 4 ∨ i.val = 5))) :
    Within [.evr, .mcs, .media, .sce, .tdl, .ple, .mpc, .dma, .free] (cbpNoted i.val s) (cbpFault i s) := by
  rw [cbpFault_present i s present]
  exact .ite (.ite writeAbort_within.mono (.after dropGates_within stopJob_within.mono)) (.ite .refl failTransfers_within.mono)

theorem cbpFault_mcs (present : ¬ (s.part = .dhk7420 ∧ (i.val = 4 ∨ i.val = 5))) (other : ¬ (2 ≤ i.val ∧ i.val ≤ 5)) :
    (cbpFault i s).mcs = s.mcs := by
  have noted : Within [.sys, .evr, .mck, .free] s (cbpNoted i.val s) :=
    .after machineCheck_within <| .mono (sysReg_within fun _ h => wr_twf _ _ _ h)
  have failed : Within [.sys, .evr, .mck, .sce, .tdl, .mpc, .dma, .free] s (cbpFault i s) := by
    rw [cbpFault_present i s present, if_neg other]
    exact .whenFalse failTransfers_within.mono noted.mono
  exact failed.frame .mcs (by decide)

end

/-- A fault of a Media Timing Island leaves its channel without a job and with its gates low, whether or not it was writing. -/
theorem cbpFault_channel (k : Fin 4) (s : State) (present : mcAbsent s k = false) :
    let u := cbpFault ⟨2 + k.val, by omega⟩ s
    (mcOf u k).wg = false ∧ (mcOf u k).ag = false ∧ (mcOf u k).job = none := by
  intro u
  have channel : mcIx (2 + k.val - 2) = k := by rw [Nat.add_sub_cancel_left]; exact Fin.ext (Nat.mod_eq_of_lt k.isLt)
  have island : ¬ (s.part = .dhk7420 ∧ (2 + k.val = 4 ∨ 2 + k.val = 5)) := by
    rintro ⟨part, high⟩
    rw [mcAbsent, part, decide_eq_true rfl, Bool.true_and, decide_eq_false_iff_not] at present
    omega
  have fault : u = if (mcOf (cbpNoted (2 + k.val) s) k).wg then writeAbort k MC_WR_FAULT.CBP 7 (cbpNoted (2 + k.val) s)
      else dropGates k (stopJob k 14 (cbpNoted (2 + k.val) s)) := by
    have range : 2 ≤ 2 + k.val ∧ 2 + k.val ≤ 5 := by omega
    refine (cbpFault_present _ s island).trans ?_
    rw [if_pos range, channel]
  rw [fault]
  split
  · exact dropGates_stopJob k 7 _
  · exact dropGates_stopJob k 14 _

/-- Settles O26: the bit and the machine check come first and stay, and on a Media Timing Island the job is stopped and the gates
are dropped. -/
theorem boundaryPortFaultDropsTheGates : Obligations.BoundaryPortFaultDropsTheGates := by
  unfold Obligations.BoundaryPortFaultDropsTheGates
  refine ⟨fun i s canonical present => ?_, fun i s part absent => ?_, fun k s _ present => ?_⟩
  · have regs := (regsWf_iff s).mp canonical
    have onPart : ¬ (s.part = .dhk7420 ∧ (i.val = 4 ∨ i.val = 5)) := by
      rintro ⟨part, absent⟩
      obtain ⟨ne4, ne5⟩ := present part
      exact absent.elim ne4 ne5
    have after := cbpFault_afterNoted i s onPart
    have sys : (cbpFault i s).sys = (cbpNoted i.val s).sys := after.frame .sys (by decide)
    have mck : (cbpFault i s).mck = (cbpNoted i.val s).mck := after.frame .mck (by decide)
    refine ⟨cbpFault i s, rfl, ?_, ?_, fun other => cbpFault_mcs i s onPart (by omega)⟩
    · rw [sys]
      exact cbpNoted_bit i.val s (by omega) regs.sys
    · rw [mck]
      exact machineCheck_count _ _ _ _ _ _ regs.mck
  · calc exec (.cbpFault i) s
        = .next (settle (cbpFault i s)) := rfl
      _ = .next (settle s) := by rw [cbpFault_absent i s ⟨part, absent⟩]
  · exact ⟨_, rfl, cbpFault_channel k s present⟩

end Sys2Proof.Machine
end

section
namespace Sys2Proof.Machine

/-! ## Media format and codes (R58 to R72, R105, R106, R141, R143, R506) -/

/-- Settles O7: a POR is no row of this family, and every other row completes within its footprint. -/
theorem mediaRowsStayInTheirFootprint : Obligations.MediaRowsStayInTheirFootprint := by
  unfold Obligations.MediaRowsStayInTheirFootprint
  intro c s family
  refine exec_staysIn c s fun v b por => ?_
  rw [por] at family
  cases family

/-! ### What an operation on one Media Channel leaves of the others -/

/-- The Media Channels but one are the same in two states. -/
def OthersStay (k : Fin 4) (s t : State) : Prop := ∀ j, j ≠ k → mcOf t j = mcOf s j

namespace OthersStay
variable {k : Fin 4} {s t u : State}

protected theorem refl : OthersStay k s s := fun _ _ => rfl

/-- A second operation, named first as in the model's text, after a first one. -/
theorem comp (g : OthersStay k t u) (h : OthersStay k s t) : OthersStay k s u := fun j hj => (g j hj).trans (h j hj)

theorem ite {c : Prop} [Decidable c] (h : OthersStay k s t) (g : OthersStay k s u) :
    OthersStay k s (if c then t else u) := by
  split <;> assumption

/-- An operation that is done only if a condition holds, after a first one. -/
theorem whenTrue {c : Prop} [Decidable c] (g : OthersStay k t u) (h : OthersStay k s t) :
    OthersStay k s (if c then u else t) :=
  .ite (.comp g h) h

theorem setMc {m : Mc} : OthersStay k s (setMc k m s) := fun j hj => mcOf_setMc_other s k j m hj

theorem modMc {f : Mc → Mc} : OthersStay k s (modMc k f s) := .setMc

theorem of_mcs (h : t.mcs = s.mcs) : OthersStay k s t := fun _ _ => by rw [mcOf, mcOf, h]

end OthersStay

theorem startFrame_othersStay {k s} : OthersStay k s (startFrame k s) := .ite .refl <| by
  split
  · exact .setMc
  · exact .setMc
  · exact .setMc
  · exact .refl

theorem wedgeMark_othersStay {k x s} : OthersStay k s (wedgeMark k x s) := .ite .modMc .refl

theorem hifFirmwareFrame_othersStay {k w s} : OthersStay k s (hifFirmwareFrame k w s) :=
  .ite .refl <| .comp startFrame_othersStay .setMc

theorem hifOwnWrite_othersStay {k b s} : OthersStay k s (hifOwnWrite k b s) :=
  .ite (.comp startFrame_othersStay .modMc) <| .ite .modMc .modMc

theorem hifOwnRelease_othersStay {k s} : OthersStay k s (hifOwnRelease k s) := .ite .modMc .refl

theorem assistLeadLong_othersStay {k s} : OthersStay k s (assistLeadLong k s) := .ite .setMc .refl

theorem assistDutyNear_othersStay {k head s} : OthersStay k s (assistDutyNear k head s) :=
  .ite (.comp .modMc .modMc) .refl

theorem assistDutyRelease_othersStay {k head s} : OthersStay k s (assistDutyRelease k head s) := .ite .modMc .refl

theorem clrAsc_othersStay {k s} : OthersStay k s (clrAsc k s) := .comp .modMc (.of_mcs rfl)

theorem jtArm_othersStay {k e s} : OthersStay k s (jtArm k e s) := .ite (.whenTrue .modMc .modMc) .modMc

theorem mcReadOut_othersStay {k f s} : OthersStay k s (mcReadOut k f s) := .comp (.of_mcs rfl) .setMc

/-- The row completes, leaves the other Media Channels alone, and on a channel that the part lacks changes only what a read
returns. -/
def ActsAlone (k : Fin 4) (c : Instr) (s : State) : Prop :=
  ∃ t, exec c s = .next t ∧ OthersStay k s t ∧
    (mcAbsent s k = true → t = { s with sys := { s.sys with rdata := t.sys.rdata } })

theorem actsAlone_of_onMc {k c f s} (row : exec c s = .next (onMc k f s)) (h : OthersStay k s (f s)) : ActsAlone k c s :=
  ⟨onMc k f s, row, .ite .refl h, fun absent => by rw [onMc_absent k f s absent]⟩

theorem actsAlone_of_read {k c t s} (row : exec c s = .next (if mcAbsent s k then readsZero s else t))
    (h : OthersStay k s t) : ActsAlone k c s := by
  refine ⟨_, row, .ite (.of_mcs rfl) h, fun absent => ?_⟩
  rw [if_pos absent]
  rfl

/-- Settles O27: every such row updates its own channel, and of one that the part lacks at most a read returns zero. -/
theorem channelRowsLeaveOtherChannelsAlone : Obligations.ChannelRowsLeaveOtherChannelsAlone := by
  unfold Obligations.ChannelRowsLeaveOtherChannelsAlone
  intro c k s channel
  show ActsAlone k c s
  cases c with
  | mcFmtClrRec => cases channel; exact actsAlone_of_onMc rfl .modMc
  | mcFmtClrCnt => cases channel; exact actsAlone_of_onMc rfl .modMc
  | wedgeMark => cases channel; exact actsAlone_of_onMc rfl wedgeMark_othersStay
  | adcMaskApply => cases channel; exact actsAlone_of_onMc rfl .modMc
  | hifFirmwareFrame => cases channel; exact actsAlone_of_onMc rfl hifFirmwareFrame_othersStay
  | hifOwnWrite => cases channel; exact actsAlone_of_onMc rfl hifOwnWrite_othersStay
  | hifOwnRelease => cases channel; exact actsAlone_of_onMc rfl hifOwnRelease_othersStay
  | assistLeadLong => cases channel; exact actsAlone_of_onMc rfl assistLeadLong_othersStay
  | assistDutyNear => cases channel; exact actsAlone_of_onMc rfl assistDutyNear_othersStay
  | assistDutyRelease => cases channel; exact actsAlone_of_onMc rfl assistDutyRelease_othersStay
  | mcChClrAsc => cases channel; exact actsAlone_of_onMc rfl clrAsc_othersStay
  | mcChClrHif => cases channel; exact actsAlone_of_onMc rfl .modMc
  | mcChClrSyn => cases channel; exact actsAlone_of_onMc rfl .modMc
  | mcChClrLdpc => cases channel; exact actsAlone_of_onMc rfl .modMc
  | jtArm => cases channel; exact actsAlone_of_onMc rfl jtArm_othersStay
  | msqEnWrite => cases channel; exact actsAlone_of_onMc rfl .modMc
  | jtDoneClear => cases channel; exact actsAlone_of_onMc rfl .modMc
  | evtLoRead => cases channel; exact actsAlone_of_read rfl mcReadOut_othersStay
  | evtHiRead => cases channel; exact actsAlone_of_read rfl mcReadOut_othersStay
  | traceRead => cases channel; exact actsAlone_of_read rfl mcReadOut_othersStay
  | storeLane0Read => cases channel; exact actsAlone_of_read rfl <| .ite (.comp (.of_mcs rfl) .setMc) .refl
  | storeWordCommit => cases channel; exact actsAlone_of_onMc rfl .modMc
  | msqClrEvt => cases channel; exact actsAlone_of_onMc rfl .modMc
  | msqClrTrace => cases channel; exact actsAlone_of_onMc rfl .modMc
  | msqClrCnt => cases channel; exact actsAlone_of_onMc rfl .modMc
  | _ => cases channel

/-! ### The clears of a Media Channel (R72, R106, R143) -/

theorem tdrop_cons {α : Type} (j : Nat) (x : α) (r : List (Nat × α)) (lo hi : Nat) :
    tdrop ((j, x) :: r) lo hi = if lo ≤ j ∧ j < hi then tdrop r lo hi else (j, x) :: tdrop r lo hi := by
  rw [tdrop, List.filter_cons]
  by_cases inside : lo ≤ j ∧ j < hi
  · rw [if_pos inside, if_neg (by simp [inside]), tdrop]
  · rw [if_neg inside, if_pos (by simpa [imp_iff_not_or] using inside), tdrop]

/-- Of a register file with a range dropped, the range reads zero and every other register as before. -/
theorem rd_tdrop (c : List (Nat × Word)) (lo hi a : Nat) : rd (tdrop c lo hi) a = if lo ≤ a ∧ a < hi then 0 else rd c a := by
  induction c with
  | nil => exact (ite_self _).symm
  | cons e r ih =>
    obtain ⟨j, w⟩ := e
    rw [tdrop_cons]
    by_cases here : a = j
    · rw [here] at ih ⊢
      split
      case isTrue inside => rw [ih, if_pos inside]
      case isFalse => exact (if_pos rfl).trans (if_pos rfl).symm
    · have later : rd ((j, w) :: r) a = rd r a := if_neg here
      rw [later, ← ih]
      split
      · rfl
      · exact if_neg here

/-- Registers of a file set to zero, one after another. -/
def zeroRegs (l : List Nat) (c : List (Nat × Word)) : List (Nat × Word) := l.foldl (fun c a => wr c a 0) c

theorem zeroRegs_twf {l c} (h : twf 0 c = true) : twf 0 (zeroRegs l c) = true := by
  induction l generalizing c with
  | nil => exact h
  | cons a l ih => exact ih (wr_twf c a 0 h)

theorem rd_zeroRegs {l : List Nat} {a c} (h : twf 0 c = true) (ha : a ∈ l ∨ rd c a = 0) : rd (zeroRegs l c) a = 0 := by
  induction l generalizing c with
  | nil => exact ha.resolve_left List.not_mem_nil
  | cons b l ih =>
    refine ih (wr_twf c b 0 h) ?_
    by_cases here : a = b
    · exact .inr (by rw [here, rd_wr_same c b 0 h])
    · rw [rd_wr_other c b a 0 here h]
      exact ha.imp_left fun mem => (List.mem_cons.mp mem).resolve_left here

theorem rd_zeroRegs_mem (l : List Nat) {c} (h : twf 0 c = true) : ∀ a ∈ l, rd (zeroRegs l c) a = 0 :=
  fun _ ha => rd_zeroRegs h (.inl ha)

/-- The registers that a range of a channel's counters takes in read zero after it is cleared, and no other changes. -/
theorem rd_tdrop_range (c : List (Nat × Word)) (lo hi : Nat) :
    (∀ a, lo ≤ a → a < hi → rd (tdrop c lo hi) a = 0) ∧ ∀ a, a < lo ∨ hi ≤ a → rd (tdrop c lo hi) a = rd c a := by
  refine ⟨fun a above below => ?_, fun a outside => ?_⟩
  · rw [rd_tdrop, if_pos ⟨above, below⟩]
  · rw [rd_tdrop, if_neg (by omega)]

/-- Settles O28: each clear writes zeros to the registers it names, drops its range of counters or empties its list. -/
theorem mediaClearsZeroTheirCounters : Obligations.MediaClearsZeroTheirCounters := by
  unfold Obligations.MediaClearsZeroTheirCounters
  intro k s canonical onTime rises present
  have runs (f : State → State) : Host.Outcome.next (onMc k f s) = (.next (f s) : Host.Outcome State Fault Refusal) :=
    congrArg Host.Outcome.next (onMc_present k f s present)
  refine ⟨⟨_, runs (clrFmtRec k), ?_⟩, ⟨_, runs (clrFmtCnt k), rd_tdrop_range _ _ _⟩, ⟨_, runs (clrHif k), ?_⟩,
    ⟨_, runs (clrSyn k), ?_⟩, ⟨_, runs (clrLdpc k), ?_⟩, ⟨_, runs (clrAsc k), ?_⟩, ⟨_, runs (clrEvt k), rfl, rfl⟩,
    ⟨_, runs (clrTrace k), rfl⟩, ⟨_, runs (clrMsqCnt k), rd_tdrop_range _ _ _⟩⟩
  · have zero := rd_zeroRegs_mem [MC_RECOV_LAST, MC_RECOV_TRACK, MC_TAG_DIFF_LO, MC_TAG_DIFF_HI] canonical
    exact ⟨zero _ (by decide), zero _ (by decide), zero _ (by decide), zero _ (by decide)⟩
  · exact rd_wr_same _ _ _ canonical
  · have zero := rd_zeroRegs_mem [MC_SYN_COAST, MC_SYN_LATE, MC_SYN_UNLOCK] canonical
    exact ⟨zero _ (by decide), zero _ (by decide), zero _ (by decide)⟩
  · have zero := rd_zeroRegs_mem [MC_LDPC_CONV, MC_LDPC_FAIL] canonical
    have zeroed := zeroRegs_twf (l := [MC_LDPC_CONV, MC_LDPC_FAIL]) canonical
    refine ⟨?_, ?_, rdF_wrF_same _ MC_WR_FAULT.COUNT 0 (by decide) (by decide) zeroed⟩
    · exact (rd_wrF_other _ _ _ _ (by decide) zeroed).trans (zero _ (by decide))
    · exact (rd_wrF_other _ _ _ _ (by decide) zeroed).trans (zero _ (by decide))
  · rw [clrAsc, mcOf_modMc_same]
    exact ⟨tget_tput_same 0 0 _ _ onTime, tget_tput_same 0 0 _ _ rises⟩

/-! ### The sync search (R58, R59) -/

/-- The slots whose windows have found their mark, and those whose windows have closed. -/
def marks (j : Job) : List Nat × List Nat := (j.found, j.closed)

theorem marks_windowSeen (slot : Nat) (found : Bool) (j : Job) : marks (windowSeen slot found j) =
    if found then (slot :: j.found, j.closed) else (j.found, slot :: j.closed) := by
  unfold windowSeen
  cases found <;> exact (apply_ite marks _ _ _).trans (ite_self _)

/-- The counters of the sync search. -/
def syncRegs : List Nat := [MC_SYNC_FOUND, MC_SYNC_MISS, MC_SYNC_LATE]

theorem ne_of_sync {a b : Nat} (ha : a ∈ syncRegs) (hb : b ∉ syncRegs := by decide) : a ≠ b := fun e => hb (e ▸ ha)

/-- A Media Channel keeps the counters of the sync search, and its job, if it has one, the search's marks. -/
structure SyncStays (k : Fin 4) (s t : State) : Prop where
  regs : ∀ a, a ∈ syncRegs → HoldsReg a (mcOf s k).csr (mcOf t k).csr
  job : (mcOf t k).job.map marks = (mcOf s k).job.map marks

namespace SyncStays
variable {k : Fin 4} {s t u : State}

protected theorem refl : SyncStays k s s := ⟨fun _ _ => .refl, rfl⟩

/-- A second operation, named first as in the model's text, after a first one. -/
theorem comp (g : SyncStays k t u) (h : SyncStays k s t) : SyncStays k s u :=
  ⟨fun a ha => (h.regs a ha).trans (g.regs a ha), g.job.trans h.job⟩

theorem ite {c : Prop} [Decidable c] (h : SyncStays k s t) (g : SyncStays k s u) : SyncStays k s (if c then t else u) := by
  split <;> assumption

/-- An operation that is done only if a condition holds, after a first one. -/
theorem whenTrue {c : Prop} [Decidable c] (g : SyncStays k t u) (h : SyncStays k s t) :
    SyncStays k s (if c then u else t) :=
  .ite (.comp g h) h

theorem setMc {m : Mc} (csr : ∀ a, a ∈ syncRegs → HoldsReg a (mcOf s k).csr m.csr) (job : m.job = (mcOf s k).job) :
    SyncStays k s (setMc k m s) := by
  refine ⟨fun a ha => ?_, ?_⟩ <;> rw [mcOf_setMc_same]
  · exact csr a ha
  · rw [job]

theorem modMc {f : Mc → Mc} (csr : ∀ m a, a ∈ syncRegs → HoldsReg a m.csr (f m).csr) (job : ∀ m, (f m).job = m.job) :
    SyncStays k s (modMc k f s) :=
  .setMc (csr _) (job _)

/-- An update of a Media Channel that leaves its registers and its job alone. -/
theorem modMc_rest {f : Mc → Mc} (csr : ∀ m, (f m).csr = m.csr := by exact fun _ => rfl)
    (job : ∀ m, (f m).job = m.job := by exact fun _ => rfl) : SyncStays k s (Machine.modMc k f s) :=
  .modMc (fun m _ _ => (csr m).symm ▸ .refl) job

theorem mcReg {f : List (Nat × Word) → List (Nat × Word)} (h : ∀ c a, a ∈ syncRegs → HoldsReg a c (f c)) :
    SyncStays k s (mcReg k f s) :=
  .modMc (fun _ => h _) fun _ => rfl

theorem mcCount {off n : Nat} (h : off ∉ syncRegs := by decide) : SyncStays k s (mcCount k off n s) :=
  .mcReg fun _ _ ha => .wr (ne_of_sync ha h)

theorem modJob {f : Job → Job} (h : ∀ j, marks (f j) = marks j) : SyncStays k s (modJob k f s) := by
  refine ⟨fun a _ => ?_, ?_⟩ <;> rw [Machine.modJob, mcOf_modMc_same]
  · exact .refl
  · rw [Option.map_map]
    exact congrFun (congrArg Option.map (funext h)) _

theorem of_mcs (h : t.mcs = s.mcs) : SyncStays k s t := by
  have channel : mcOf t k = mcOf s k := by rw [mcOf, mcOf, h]
  exact ⟨fun _ _ => channel ▸ .refl, by rw [channel]⟩

end SyncStays

theorem postEvt_syncStays {k code slot j s} : SyncStays k s (postEvt k code slot j s) :=
  .ite .modMc_rest <| .comp (.modJob fun _ => rfl) .mcCount

theorem commitSector_syncStays {k slot bp data s} : SyncStays k s (commitSector k slot bp data s) := by
  rw [commitSector]
  split
  · exact .refl
  · split
    · exact .refl
    · exact .comp (.modJob fun _ => rfl) (.of_mcs rfl)

/-- A decode's report counts no marks, and the job goes on. -/
theorem report_syncStays {k x bp data s} : SyncStays k s (report k x bp data s) := by
  unfold report
  extract_lets +onlyGivenNames u
  have dropped : SyncStays k s u := .modMc_rest
  clear_value u
  split
  · exact dropped
  · extract_lets slot ok ordered vendorRead late v w y
    have noted : SyncStays k s w := .whenTrue (.modJob fun _ => rfl) <| .comp (.modJob fun _ => rfl) dropped
    have committed : SyncStays k s y := .whenTrue commitSector_syncStays noted
    clear_value y
    refine .ite ?_ committed
    split
    · exact .comp postEvt_syncStays committed
    · exact committed

theorem noteRecovery_syncStays {k kind ofs slot s} : SyncStays k s (noteRecovery k kind ofs slot s) := by
  rw [noteRecovery]
  split
  · exact .refl
  · exact .mcReg fun c a ha =>
      have last := ne_of_sync ha (b := MC_RECOV_LAST)
      .trans (.wrF last) <| .trans (.wrF last) <| .trans (.wrF last) <| .trans (.wrF last) (.wrF (ne_of_sync ha))

theorem enterRecovery_syncStays {k slot use enabled failCode iter erased s} :
    SyncStays k s (enterRecovery k slot use enabled failCode iter erased s) :=
  .ite (.comp report_syncStays .mcCount) <| .ite .modMc_rest <| .comp report_syncStays .modMc_rest

theorem trackLoops_syncStays {k s} : SyncStays k s (trackLoops k s) := by
  unfold trackLoops
  exact .comp (.modMc (fun _ _ ha =>
    have afe := ne_of_sync ha (b := MC_AFE_CUR)
    .trans (.wrF afe) (.wrF afe)) fun _ => rfl) (.of_mcs rfl)

theorem acquire_syncStays {k s} : SyncStays k s (acquire k s) :=
  .comp trackLoops_syncStays <| .setMc (fun _ ha =>
    have afe := ne_of_sync ha (b := MC_AFE_CUR)
    .trans (.wrF afe) <| .trans (.wrF afe) <| .trans (.wrF afe) (.wrF afe)) rfl

theorem modJob_job (k : Fin 4) (f : Job → Job) (s : State) : (mcOf (modJob k f s) k).job = (mcOf s k).job.map f := by
  rw [modJob, mcOf_modMc_same]

theorem modJob_csr (k : Fin 4) (f : Job → Job) (s : State) : (mcOf (modJob k f s) k).csr = (mcOf s k).csr := by
  rw [modJob, mcOf_modMc_same]

theorem mcCount_job (k : Fin 4) (off n : Nat) (s : State) : (mcOf (mcCount k off n s) k).job = (mcOf s k).job := by
  rw [mcCount, mcReg, mcOf_modMc_same]

theorem running_mcCount {k off n s} : running (mcCount k off n s) k = running s k := congrArg Option.isSome (mcCount_job ..)

theorem mcCount_csr (k : Fin 4) (off n : Nat) (s : State) :
    (mcOf (mcCount k off n s) k).csr = incR (mcOf s k).csr off n := by
  rw [mcCount, mcReg, mcOf_modMc_same]

theorem modJob_windowSeen_marks (k : Fin 4) (slot : Nat) (found : Bool) (s : State) :
    (mcOf (modJob k (windowSeen slot found) s) k).job.map marks = ((mcOf s k).job.map marks).map fun m =>
      if found then (slot :: m.1, m.2) else (m.1, slot :: m.2) := by
  rw [modJob_job, Option.map_map, Option.map_map]
  exact congrFun (congrArg Option.map (funext (marks_windowSeen slot found))) _

/-- What keeps the counters and the marks before a window is seen keeps them after it. -/
theorem SyncStays.windowSeen {k slot found s t} (h : SyncStays k s t) :
    SyncStays k (Machine.modJob k (Machine.windowSeen slot found) s) (Machine.modJob k (Machine.windowSeen slot found) t) where
  regs a ha := by
    rw [modJob_csr, modJob_csr]
    exact h.regs a ha
  job := by rw [modJob_windowSeen_marks, modJob_windowSeen_marks, h.job]

theorem searchOpen_of_seen {s k slot j} (job : (mcOf s k).job = some j)
    (seen : j.found.contains slot || j.closed.contains slot) : searchOpen s k slot = false := by
  rw [searchOpen, job]
  dsimp only
  rw [Bool.and_assoc, ← Bool.not_or, seen, Bool.not_true, Bool.and_false]

/-- Once a slot's window has found its mark or has closed, the slot's search is over and the job goes on. -/
theorem search_over {k slot found s t} (stays : SyncStays k (modJob k (windowSeen slot found) s) t)
    (busy : running s k = true) : running t k = true ∧ searchOpen t k slot = false := by
  obtain ⟨j, job⟩ := Option.isSome_iff_exists.mp busy
  have seen := stays.job
  rw [modJob_windowSeen_marks, job] at seen
  obtain ⟨i, job', seen⟩ := Option.map_eq_some_iff.mp seen
  refine ⟨Option.isSome_iff_exists.mpr ⟨i, job'⟩, searchOpen_of_seen job' ?_⟩
  cases found
  · have closed : i.closed = slot :: j.closed := congrArg Prod.snd seen
    rw [closed, List.contains_cons, BEq.rfl, Bool.true_or, Bool.or_true]
  · have found : i.found = slot :: j.found := congrArg Prod.fst seen
    rw [found, List.contains_cons, BEq.rfl, Bool.true_or, Bool.true_or]

theorem running_of_searchOpen {s k slot} (h : searchOpen s k slot = true) : running s k = true := by
  rw [running]
  rw [searchOpen] at h
  split at h
  · cases h
  · rename_i job
    rw [job]
    rfl

theorem counter_of_stays {k slot found u t a c} (stays : SyncStays k (modJob k (windowSeen slot found) u) t) (ha : a ∈ syncRegs)
    (counted : (mcOf u k).csr = c) (canonical : twf 0 c = true) : rd (mcOf t k).csr a = rd c a := by
  have held := stays.regs a ha
  rw [modJob_csr, counted] at held
  exact (held canonical).2

/-- A candidate is the mark of a slot: the slot's window is open, the candidate lies within WIN of its centre, and its bits differ
from the zone's pattern in at most TOL places (R58). -/
def IsMark (k : Fin 4) (slot : Nat) (pos : Int) (bits : Nat) (s : State) : Prop :=
  searchOpen s k slot = true ∧ pos.natAbs ≤ max 8 (min 48 (rdF (mcOf s k).csr MC_SYNC_CTL.WIN)) ∧
    hamming32 bits ((mcOf s k).zone.getD 4 0).toNat ≤ min 4 (rdF (mcOf s k).csr MC_SYNC_CTL.TOL)

/-- What taking the mark of a slot does. -/
def markTaken (k : Fin 4) (slot : Nat) (s : State) : State :=
  let t := acquire k (modJob k (windowSeen slot true) (mcCount k MC_SYNC_FOUND 1 s))
  if awaits s k slot then modMc k (toDecoder slot) t else t

section
variable {k : Fin 4} {slot : Nat} {pos : Int} {bits : Nat} {s : State}

/-- The test that the row makes of a candidate. -/
theorem isMark_iff : (searchOpen s k slot && decide (-((max 8 (min 48 (rdF (mcOf s k).csr MC_SYNC_CTL.WIN)) : Nat) : Int) ≤ pos) &&
    decide (pos ≤ ((max 8 (min 48 (rdF (mcOf s k).csr MC_SYNC_CTL.WIN)) : Nat) : Int)) &&
    decide (hamming32 bits ((mcOf s k).zone.getD 4 0).toNat ≤ min 4 (rdF (mcOf s k).csr MC_SYNC_CTL.TOL))) = true ↔
    IsMark k slot pos bits s := by
  rw [IsMark, Bool.and_eq_true, Bool.and_eq_true, Bool.and_eq_true, decide_eq_true_eq, decide_eq_true_eq, decide_eq_true_eq,
    and_assoc, and_assoc, ← and_assoc (a := _ ≤ pos), ← abs_le, Int.abs_eq_natAbs, Int.ofNat_le]

theorem syncMarkFound_mark (h : IsMark k slot pos bits s) : syncMarkFound k slot pos bits s = markTaken k slot s :=
  if_pos (isMark_iff.mpr h)

theorem syncMarkFound_noMark (h : ¬ IsMark k slot pos bits s) : syncMarkFound k slot pos bits s = s :=
  if_neg (mt isMark_iff.mp h)

theorem markTaken_syncStays :
    SyncStays k (modJob k (windowSeen slot true) (mcCount k MC_SYNC_FOUND 1 s)) (markTaken k slot s) :=
  .whenTrue .modMc_rest acquire_syncStays

theorem acquire_othersStay : OthersStay k s (acquire k s) := .comp .modMc <| .comp (.of_mcs rfl) .setMc

theorem markTaken_othersStay : OthersStay k s (markTaken k slot s) :=
  .whenTrue .modMc <| .comp acquire_othersStay <| .comp .modMc .modMc

end

/-- Settles O29: the mark's test is the row's own, and what follows the count of the mark leaves the counters of the search. -/
theorem syncMarkCountsWithinWindowAndTolerance : Obligations.SyncMarkCountsWithinWindowAndTolerance := by
  unfold Obligations.SyncMarkCountsWithinWindowAndTolerance
  intro k slot pos bits s canonical present win tol mark
  have row : exec (.syncMarkFound k slot pos bits) s = .next (syncMarkFound k slot pos bits s) :=
    congrArg Host.Outcome.next (onMc_present k _ s present)
  have counter {a} (ha : a ∈ syncRegs) : rd (mcOf (markTaken k slot s) k).csr a = rd (incR (mcOf s k).csr MC_SYNC_FOUND 1) a :=
    counter_of_stays markTaken_syncStays ha (mcCount_csr ..) (incR_twf _ _ _ canonical)
  refine ⟨fun taken => ⟨markTaken k slot s, ?_, ?_, ?_, ?_⟩, fun discarded => ?_⟩
  · rw [row, syncMarkFound_mark taken]
  · rw [counter (by decide), incR_toNat _ _ _ canonical]
  · rw [counter (by decide), incR_other _ _ _ _ (by decide) canonical]
  · obtain ⟨goesOn, closed⟩ := search_over markTaken_syncStays (running_mcCount.trans (running_of_searchOpen taken.1))
    exact ⟨closed, goesOn, markTaken_othersStay⟩
  · rw [row, syncMarkFound_noMark discarded]

/-- The registers of a channel that has counted a miss, and a late mark if one came. -/
def missCsr (late : Bool) (c : List (Nat × Word)) : List (Nat × Word) :=
  if late then incR (incR c MC_SYNC_MISS 1) MC_SYNC_LATE 1 else incR c MC_SYNC_MISS 1

section
variable {late : Bool} {c : List (Nat × Word)} (canonical : twf 0 c = true)
include canonical

theorem missCsr_twf : twf 0 (missCsr late c) = true :=
  twf_ite (incR_twf _ _ _ (incR_twf _ _ _ canonical)) (incR_twf _ _ _ canonical)

theorem missCsr_miss : (rd (missCsr late c) MC_SYNC_MISS).toNat = min 0xFFFFFFFF ((rd c MC_SYNC_MISS).toNat + 1) := by
  rw [missCsr]
  split
  · rw [incR_other _ _ _ _ (by decide) (incR_twf _ _ _ canonical), incR_toNat _ _ _ canonical]
  · rw [incR_toNat _ _ _ canonical]

theorem missCsr_late :
    (rd (missCsr late c) MC_SYNC_LATE).toNat = min 0xFFFFFFFF ((rd c MC_SYNC_LATE).toNat + b2n late) := by
  cases late
  case false =>
    have other : rd (missCsr false c) MC_SYNC_LATE = rd c MC_SYNC_LATE := incR_other c MC_SYNC_MISS 1 _ (by decide) canonical
    have width := (rd c MC_SYNC_LATE).isLt
    have none : b2n false = 0 := rfl
    rw [other, none]
    omega
  case true =>
    rw [missCsr, if_pos rfl, incR_toNat _ _ _ (incR_twf _ _ _ canonical), incR_other _ _ _ _ (by decide) canonical]
    rfl

end

/-- A Media Channel with a miss counted, and a late mark if one came. -/
def missCounted (k : Fin 4) (late : Bool) (s : State) : State :=
  let t := mcCount k MC_SYNC_MISS 1 s
  if late then mcCount k MC_SYNC_LATE 1 t else t

theorem missCounted_csr {k late s} : (mcOf (missCounted k late s) k).csr = missCsr late (mcOf s k).csr := by
  cases late
  · exact mcCount_csr ..
  · exact (mcCount_csr ..).trans (congrArg (incR · MC_SYNC_LATE 1) (mcCount_csr ..))

theorem running_missCounted {k late s} : running (missCounted k late s) k = running s k := by
  cases late
  · exact running_mcCount
  · exact running_mcCount.trans running_mcCount

/-- What follows the count of a miss keeps the counters of the search; the slot's window is closed. -/
theorem syncWindowClose_syncStays {k slot late runs s} (unfound : searchOpen s k slot = true) :
    SyncStays k (modJob k (windowSeen slot false) (missCounted k late s)) (syncWindowClose k slot late runs s) := by
  rw [syncWindowClose, if_pos unfound]
  have recorded : SyncStays k (missCounted k late s)
      (if late then noteRecovery k 6 0 slot (mcCount k MC_SYNC_LATE 1 (mcCount k MC_SYNC_MISS 1 s))
      else mcCount k MC_SYNC_MISS 1 s) := by
    cases late
    · exact .refl
    · exact noteRecovery_syncStays
  exact .whenTrue enterRecovery_syncStays <| .comp acquire_syncStays recorded.windowSeen

/-- Settles O30: what follows the counts leaves them alone, and a slot whose window has closed takes no candidate as its mark. -/
theorem lateMarkIsDiscardedAndCounted : Obligations.LateMarkIsDiscardedAndCounted := by
  unfold Obligations.LateMarkIsDiscardedAndCounted
  intro k slot late runs s canonical present
  have row : exec (.syncWindowClose k slot late runs) s = .next (syncWindowClose k slot late runs s) :=
    congrArg Host.Outcome.next (onMc_present k _ s present)
  refine ⟨fun unfound => ?_, fun seen => ?_⟩
  · have stays := syncWindowClose_syncStays (late := late) (runs := runs) unfound
    have counter {a} (ha : a ∈ syncRegs) :
        rd (mcOf (syncWindowClose k slot late runs s) k).csr a = rd (missCsr late (mcOf s k).csr) a :=
      counter_of_stays stays ha missCounted_csr (missCsr_twf canonical)
    obtain ⟨goesOn, closed⟩ := search_over stays (running_missCounted.trans (running_of_searchOpen unfound))
    refine ⟨_, row, ?_, ?_, goesOn, closed, fun pos bits => ?_⟩
    · rw [counter (by decide), missCsr_miss canonical]
    · rw [counter (by decide), missCsr_late canonical]
    · have noMark : ¬ IsMark k slot pos bits (syncWindowClose k slot late runs s) := fun ⟨opened, _⟩ => by
        rw [closed] at opened
        cases opened
      refine congrArg Host.Outcome.next ?_
      rw [onMc, syncMarkFound_noMark noMark, ite_self]
  · rw [row, syncWindowClose, seen]
    rfl

/-! ### Decodes, searches and retry decodes (R48, R506) -/

/-- Media Channel 0 awaits the retry decode of slot 0, a slot that holds no sector. The sample buffer names outcome 0, that of a
decode that passed, for the case that the decode fails; the job's first sector belongs on page 0 of the Staging Buffer. -/
def passCodeState : State :=
  setMc 0 { Mc.reset with
    jt := [(6, 1)]
    sbuf := some ⟨0, 0, .rdecode, false, 0, []⟩
    job := some { freshJob State.reset 0 0 with need := [0] } } { State.reset with
    mem := [(4, 1)]
    staging := [(0, 7)] }

/-- Refutes O31: a retry decode that does not converge reports the outcome code that the sample buffer holds, and where that is
the code of a decode that passed, the report puts an empty sector on the job's page. No recovery fills the buffer so, but the
statement is about every state; `stagingStays_of_failureCode` is what holds. -/
theorem not_noSuccessWithoutTheJobsSector : ¬ Obligations.NoSuccessWithoutTheJobsSector := by
  unfold Obligations.NoSuccessWithoutTheJobsSector
  intro h
  obtain ⟨-, held⟩ := h 0 passCodeState
  have foreign : ∀ b, (mcOf passCodeState 0).sbuf = some b → tagGood passCodeState 0 b.slot = false := by
    rintro _ ⟨⟩
    decide
  obtain ⟨-, -, t, row, kept⟩ := held foreign [] (Quad.all ⟨[0], none⟩)
  have reported : onMc 0 (rdecodeReport 0 (Quad.all ⟨[0], none⟩)) passCodeState = t := Host.Outcome.next.inj row
  have emptied : (onMc 0 (rdecodeReport 0 (Quad.all ⟨[0], none⟩)) passCodeState).staging = [] := by decide
  rw [reported, kept] at emptied
  cases emptied

/-! What keeps the Staging Buffer as it is: the code of a failure, which is above 3, in every report and in the sample buffer. -/

theorem report_failed_within {k x bp data s} (failed : 3 < x.outcome) : Within [.mcs] s (report k x bp data s) := by
  unfold report
  extract_lets +onlyGivenNames u
  have dropped : Within [.mcs] s u := modMc_within fun _ h => h
  clear_value u
  split
  · exact dropped
  · extract_lets slot ok ordered vendorRead late v w y
    have noted : Within [.mcs] s w := .whenTrue modJob_within <| .after modJob_within dropped
    have notOk : ok = false := decide_eq_false (Nat.not_le.mpr failed)
    have uncommitted : y = w := if_neg (by rw [notOk, Bool.false_and, Bool.false_and]; exact Bool.false_ne_true)
    rw [uncommitted]
    refine .ite ?_ noted
    split
    · exact .after postEvt_within noted
    · exact noted

theorem enterRecovery_failed_within {k slot use enabled failCode iter erased s} (failed : 3 < failCode) :
    Within [.mcs] s (enterRecovery k slot use enabled failCode iter erased s) :=
  .ite (.after (report_failed_within (by norm_num)) mcCount_within) <| .ite (modMc_within fun _ h => h) <|
    .after (report_failed_within failed) <| modMc_within fun _ h => h

@[simp] theorem headTrack_modMc {k j f s tr} : headTrack (modMc k f s) j tr = headTrack s j tr := rfl

/-- An update of a Media Channel that leaves its job and its Job Table alone leaves what the job's seed matches. -/
theorem tagGood_modMc {k slot s} {f : Mc → Mc} (job : ∀ m, (f m).job = m.job := by exact fun _ => rfl)
    (jt : ∀ m, (f m).jt = m.jt := by exact fun _ => rfl) : tagGood (modMc k f s) k slot = tagGood s k slot := by
  have seed (e : Nat) : jobSeed (modMc k f s) k e slot = jobSeed s k e slot := by
    simp only [jobSeed, jobAddr, jtF, jtW, mcOf_modMc_same, jt, fmtId, modMc_nv]
  have under (e : Nat) : underHead (modMc k f s) k e slot = underHead s k e slot := by
    simp only [underHead, headTrack_modMc, jobHead, jobAddr, jtF, jtW, mcOf_modMc_same, jt]
  rw [tagGood, tagGood, mcOf_modMc_same, job]
  split
  · rfl
  · rw [slotUnderHead, slotUnderHead, under, seed, modMc_media]

theorem tagGood_mcReg {k slot s f} : tagGood (mcReg k f s) k slot = tagGood s k slot := tagGood_modMc

theorem tagGood_adaptTaps {k slot s} : tagGood (adaptTaps k s) k slot = tagGood s k slot := by
  rw [adaptTaps]
  split
  · exact tagGood_modMc
  · rfl

/-- A streaming decode of a slot without the job's sector stages nothing. -/
theorem decodeComplete_foreign_within {k d s} (foreign : tagGood s k d.slot = false) :
    Within [.mcs, .free] s (decodeComplete k d s) := by
  rw [decodeComplete]
  split
  case isFalse => exact .refl
  case isTrue =>
    extract_lets m erased ta f u x out iter corr v w bp y
    have drawn : Within [.mcs, .free] s w := .after (mcReg_within fun _ h => ldpcLast_twf h) <| .after mcCount_within <|
      .ite takeFree_within.mono <| .after adaptTaps_within takeFree_within.mono
    have unread : tagGood w k d.slot = false := by
      have taps : tagGood v k d.slot = tagGood s k d.slot := by
        show tagGood (if ta then u else adaptTaps k u) k d.slot = _
        split
        · rfl
        · exact tagGood_adaptTaps
      exact tagGood_mcReg.trans (tagGood_mcReg.trans (taps.trans foreign))
    rw [unread]
    exact .ite (.after (report_failed_within (by norm_num)) <| .after tagFailure_within drawn) <|
      .after (enterRecovery_failed_within (by split <;> decide)) <| .after (modMc_within fun _ h => h) drawn

/-- No attempt of a search succeeds on a slot without the job's sector. -/
theorem searchHit_foreign {s k slot fix att} (foreign : tagGood s k slot = false) (l : List Int) :
    searchHit s k slot fix att l = none := by
  induction l with
  | nil => rfl
  | cons o r ih =>
    rw [searchHit]
    split
    · exact ih
    · dsimp only
      split
      · rw [if_neg (by rw [foreign]; exact Bool.false_ne_true), ih]
      · exact ih

/-- A search on a buffered slot without the job's sector stages nothing. -/
theorem searchEnd_foreign_within {k timed att s} (foreign : ∀ b, (mcOf s k).sbuf = some b → tagGood s k b.slot = false)
    (failed : ∀ b, (mcOf s k).sbuf = some b → 3 < b.failCode) : Within [.mcs, .free] s (searchEnd k timed att s) := by
  rw [searchEnd]
  split
  case h_1 => exact .refl
  case h_2 b buffered =>
    refine .ite ?_ .refl
    extract_lets c span ta f u
    have noHit := searchHit_foreign (s := u) (fix := erasedReading b.erased f.1) (att := att) (foreign b buffered)
    rw [noHit]
    exact .after searchEnds_within <| .after (report_failed_within (failed b buffered)) <|
      .after (mcReg_within fun _ h => ldpcLast_twf h) <| .after noteRecovery_within <| .after mcCount_within takeFree_within.mono

/-- A retry decode of a buffered slot without the job's sector stages nothing. -/
theorem rdecodeReport_foreign_within {k q s} (foreign : ∀ b, (mcOf s k).sbuf = some b → tagGood s k b.slot = false)
    (failed : ∀ b, (mcOf s k).sbuf = some b → 3 < b.failCode) : Within [.mcs, .free] s (rdecodeReport k q s) := by
  rw [rdecodeReport]
  split
  case h_1 => exact .refl
  case h_2 b buffered =>
    refine .ite ?_ .refl
    extract_lets m ta f u x out iter corr v w
    have drawn : Within [.mcs, .free] s v := .after (mcReg_within fun _ h => ldpcLast_twf h) takeFree_within.mono
    have unread : tagGood v k b.slot = false := tagGood_mcReg.trans (foreign b buffered)
    have reported : Within [.mcs, .free] s w := by
      show Within [.mcs, .free] s (if out.isSome then _ else _)
      rw [unread]
      exact .ite (.after (report_failed_within (by norm_num)) <| .after tagFailure_within drawn) <|
        .after (report_failed_within (failed b buffered)) drawn
    exact .after (modMc_within fun _ h => h) reported

/-- What holds of O31: where the code in the sample buffer is that of a failure, as in every buffer that a recovery fills, nothing
of a slot without the job's sector reaches the Staging Buffer. -/
theorem stagingStays_of_failureCode (k : Fin 4) (s : State) (failed : ∀ b, (mcOf s k).sbuf = some b → 3 < b.failCode) :
    (∀ d : DecodeIn, tagGood s k d.slot = false → ∃ t, exec (.decodeComplete k d) s = .next t ∧ t.staging = s.staging) ∧
    ((∀ b, (mcOf s k).sbuf = some b → tagGood s k b.slot = false) → ∀ (att : List (Int × Quad Reading)) (q : Quad Reading),
      (∃ u, exec (.timedSyncEnd k att) s = .next (settle u) ∧ u.staging = s.staging) ∧
      (∃ u, exec (.realignEnd k att) s = .next (settle u) ∧ u.staging = s.staging) ∧
      ∃ t, exec (.rdecodeReport k q) s = .next t ∧ t.staging = s.staging) := by
  have kept {t} (h : Within [.mcs, .free] s t) : (if mcAbsent s k then s else t).staging = s.staging :=
    (Within.ite .refl h).frame .staging (by decide)
  exact ⟨fun d foreign => ⟨_, rfl, kept (decodeComplete_foreign_within foreign)⟩, fun foreign att q =>
    ⟨⟨_, rfl, kept (searchEnd_foreign_within foreign failed)⟩, ⟨_, rfl, kept (searchEnd_foreign_within foreign failed)⟩,
      _, rfl, kept (rdecodeReport_foreign_within foreign failed)⟩⟩

/-! ### The grown defect list (R64 to R69) -/

theorem insertDefect_eq_orderedInsert (d : Defect) (l : List Defect) :
    insertDefect d l = l.orderedInsert (fun x y => defectKey x < defectKey y) d := by
  induction l with
  | nil => rfl
  | cons x l ih => rw [insertDefect, List.orderedInsert, ih]

theorem mem_insertDefect {d x : Defect} {l : List Defect} : x ∈ insertDefect d l ↔ x = d ∨ x ∈ l := by
  rw [insertDefect_eq_orderedInsert, List.mem_orderedInsert]

/-- A defect list is in the order of bits 61 to 24 (R65). -/
abbrev DefectsSorted (l : List Defect) : Prop := l.Pairwise fun x y => defectKey x ≤ defectKey y

theorem insertDefect_sorted {d : Defect} {l : List Defect} (h : DefectsSorted l) : DefectsSorted (insertDefect d l) := by
  induction l with
  | nil => exact List.pairwise_singleton _ d
  | cons x l ih =>
    obtain ⟨first, rest⟩ := List.pairwise_cons.mp h
    rw [insertDefect]
    split
    case isTrue before =>
      refine List.pairwise_cons.mpr ⟨fun y hy => ?_, h⟩
      obtain rfl | hy := List.mem_cons.mp hy
      · exact before.le
      · exact before.le.trans (first y hy)
    case isFalse notBefore =>
      refine List.pairwise_cons.mpr ⟨fun y hy => ?_, ih rest⟩
      obtain rfl | hy := mem_insertDefect.mp hy
      · exact Nat.not_lt.mp notBefore
      · exact first y hy

/-! ### What journaling leaves of the map -/

theorem opRecords_length_pos (counts : Nat → Nat × Nat) (epoch seq : Nat) (ops : List MapOp) :
    0 < (opRecords counts epoch seq ops).length := by
  rw [opRecords]
  rw [List.length_map, List.length_zip, List.length_range, min_self, List.length_pos_iff]
  split
  · exact List.cons_ne_nil _ _
  · assumption

/-- Journaling changes no table of the map and takes the next numbers of the journal's records. -/
theorem journal_ple (ops : List MapOp) (s : State) :
    (journal ops s).ple.map = s.ple.map ∧ s.ple.jseq < (journal ops s).ple.jseq := by
  have mirrored (r : MirrorRec) (t : State) : (sendMirror r t).ple = t.ple := sendMirror_within.frame .ple (by decide)
  rw [journal, journalFor]
  have grows := opRecords_length_pos (fun b => (bandValid s b, openRefs s b)) s.ple.map.epoch (s.ple.jseq + 1) ops
  split
  · rw [mirrored]
    exact ⟨rfl, Nat.lt_add_of_pos_right grows⟩
  · exact ⟨rfl, Nat.lt_add_of_pos_right grows⟩

theorem modMap_map (f : MapImage → MapImage) (s : State) : (modMap f s).ple.map = f s.ple.map := rfl

theorem putBands_gdl (f : Nat → Band → Band) (s : State) : (putBands f s).ple.map.gdl = s.ple.map.gdl := by
  rw [putBands]
  dsimp only
  split
  · rfl
  · rw [(journal_ple ..).1, modMap_map]

theorem mediaEvent_ple (s : State) : (mediaEvent s).ple = s.ple := mediaEvent_within.frame .ple (by decide)

theorem degradeBands_gdl (p : Band → Bool) (s : State) : (degradeBands p s).ple.map.gdl = s.ple.map.gdl := by
  rw [degradeBands]
  dsimp only
  rw [putBands_gdl]

/-- A full grown defect list takes no entry: the defect's head leaves new placement instead (R65). -/
theorem putDefect_full {d s} (full : 1048576 ≤ s.ple.map.gdl.length) : (putDefect d s).ple.map.gdl = s.ple.map.gdl := by
  have degraded (p : Band → Bool) : (degradeBands p (mediaEvent s)).ple.map.gdl = s.ple.map.gdl := by
    rw [degradeBands_gdl, mediaEvent_ple]
  rw [putDefect]
  dsimp only
  rw [mediaEvent_ple, if_pos full, putBands_gdl]
  split
  · rw [degraded]
  · rw [(journal_ple ..).1, modMap_map]
    exact degraded _

/-- A grown defect list with room takes the entry at its place, and the change is journaled. -/
theorem putDefect_room {d s} (room : s.ple.map.gdl.length < 1048576) :
    (putDefect d s).ple.map.gdl = insertDefect d s.ple.map.gdl ∧ s.ple.jseq < (putDefect d s).ple.jseq := by
  have entered (t : State) (same : t.ple = s.ple) :
      let u := journal [.defect d] (modMap (fun m => { m with gdl := insertDefect d m.gdl }) t)
      u.ple.map.gdl = insertDefect d s.ple.map.gdl ∧ s.ple.jseq < u.ple.jseq := by
    obtain ⟨map, jseq⟩ := journal_ple [.defect d] (modMap (fun m => { m with gdl := insertDefect d m.gdl }) t)
    rw [← same]
    exact ⟨congrArg MapImage.gdl map, jseq⟩
  rw [putDefect]
  dsimp only
  rw [mediaEvent_ple, if_neg (Nat.not_le.mpr room)]
  split <;> exact entered _ (mediaEvent_ple s)

/-- Settles O47: the entry goes to its place in the list, or a full list stays as it is; every earlier entry stays in both. -/
theorem grownDefectIsEnteredOnceInOrder : Obligations.GrownDefectIsEnteredOnceInOrder := by
  unfold Obligations.GrownDefectIsEnteredOnceInOrder
  intro addr reason s d held
  have row : exec (.gdlAdd addr reason) s = .next (settleSlots (gdlAdd addr reason s)) := rfl
  refine ⟨fun listed => ?_, fun new waits => ?_, fun new serves => ⟨putDefect d s, ?_, ?_⟩⟩
  · rw [row, gdlAdd, if_pos listed]
  · rw [row, gdlAdd, if_neg (by simpa using new), waits]
    rfl
  · rw [row, gdlAdd, if_neg (by simpa using new), serves]
    rfl
  · obtain room | full := Nat.lt_or_ge s.ple.map.gdl.length 1048576
    · obtain ⟨gdl, jseq⟩ := putDefect_room (d := d) room
      rw [gdl]
      exact ⟨fun x hx => mem_insertDefect.mpr (.inr hx), fun _ => ⟨mem_insertDefect.mpr (.inl rfl), jseq⟩, insertDefect_sorted⟩
    · rw [putDefect_full full]
      exact ⟨fun _ => id, fun room => absurd room (Nat.not_lt.mpr full), id⟩

end Sys2Proof.Machine
end

section
namespace Sys2Proof.Machine

/-! ## The Head Interface and the assist (R91, R96, R98 to R100) -/

/-! ### A row of a channel that the part has -/

theorem exec_of_onMc {c k f s} (present : mcAbsent s k = false) (row : exec c s = .next (onMc k f s)) :
    exec c s = .next (f s) := by
  rw [row, onMc_present k f s present]

theorem exec_of_settle_onMc {c k f s} (present : mcAbsent s k = false) (row : exec c s = .next (settle (onMc k f s))) :
    exec c s = .next (settle (f s)) := by
  rw [row, onMc_present k f s present]

/-! ### A field of a register that another of its fields is written beside -/

/-- A field below bit `top` does not see the bits from `top` on. -/
theorem field_mod_two_pow (n : Nat) {hi lo top : Nat} (below : hi < top) :
    n % 2 ^ top / 2 ^ lo % 2 ^ (hi + 1 - lo) = n / 2 ^ lo % 2 ^ (hi + 1 - lo) := by
  refine Nat.eq_of_testBit_eq fun i => ?_
  rw [Nat.testBit_mod_two_pow, Nat.testBit_mod_two_pow, Nat.testBit_div_two_pow, Nat.testBit_div_two_pow, Nat.testBit_mod_two_pow]
  by_cases inside : i < hi + 1 - lo
  · rw [decide_eq_true (show i + lo < top by omega), Bool.true_and]
  · rw [decide_eq_false inside, Bool.false_and, Bool.false_and]

/-- The write of a field leaves the field below it as it was. -/
theorem wordField_set_above (w : Word) {hi lo hi' lo' : Nat} (v : Nat) (below : hi' < lo) (hw : lo ≤ hi) (h32 : hi < 32) :
    wordField (wordSetField w hi lo v) hi' lo' = wordField w hi' lo' := by
  have low : (wordSetField w hi lo v).toNat % 2 ^ lo = w.toNat % 2 ^ lo := by
    have word : 2 ^ lo ∣ 2 ^ 32 := pow_dvd_pow 2 (by omega)
    obtain ⟨d, above⟩ : 2 ^ lo ∣ 2 ^ (hi + 1) := pow_dvd_pow 2 (by omega)
    rw [wordSetField, BitVec.toNat_ofNat, Nat.mod_mod_of_dvd _ word, above, Nat.mul_left_comm, Nat.add_mul_mod_self_left,
      Nat.add_mul_mod_self_right, Nat.mod_mod]
  rw [wordField, wordField, Nat.shiftRight_eq_div_pow, Nat.shiftRight_eq_div_pow, ← field_mod_two_pow _ below, low,
    field_mod_two_pow _ below]

theorem rdB_wrF_above (t : List (Nat × Word)) (f g : Fld) (v : Nat) (off : g.off = f.off) (below : g.hi < f.lo)
    (hw : f.lo ≤ f.hi) (h32 : f.hi < 32) (h : twf 0 t = true) : rdB (wrF t f v) g = rdB t g := by
  rw [rdB, rdB, rdF, rdF, wrF, off, rd_wr_same t f.off _ h, wordField_set_above _ _ below hw h32]

/-! ### What a stop leaves of its channel (R130) -/

/-- The registers of a Media Channel that the end of a job and a stop write. -/
def stopRegs : List Nat := [MSQ_CTL, MSQ_STAT, MSQ_STOP, MSQ_JT_DONE_LO, MSQ_JT_DONE_HI]

theorem ne_of_stop {a b : Nat} (ha : a ∉ stopRegs) (hb : b ∈ stopRegs := by decide) : a ≠ b := fun e => ha (e ▸ hb)

/-- A Media Channel keeps its heads in DUTY_HOLD and every register that a stop does not write. -/
structure StopStays (m n : Mc) : Prop where
  regs : ∀ a, a ∉ stopRegs → HoldsReg a m.csr n.csr
  dutyHold : n.dutyHold = m.dutyHold

namespace StopStays
variable {l m n : Mc}

protected theorem refl : StopStays m m := ⟨fun _ _ => .refl, rfl⟩

theorem trans (h : StopStays l m) (g : StopStays m n) : StopStays l n :=
  ⟨fun a ha => (h.regs a ha).trans (g.regs a ha), g.dutyHold.trans h.dutyHold⟩

/-- A field of a register that a stop does not write. -/
theorem flag (h : StopStays m n) (f : Fld) (canonical : twf 0 m.csr = true) (hf : f.off ∉ stopRegs := by decide) :
    rdB n.csr f = rdB m.csr f := by
  rw [rdB, rdB, rdF, rdF, (h.regs f.off hf canonical).2]

end StopStays

theorem jtDone_stays (e : Nat) (b : Bool) (m : Mc) : StopStays m (jtDone e b m) := by
  refine ⟨fun a ha => ?_, rfl⟩
  rw [jtDone]
  exact .wrF (by dsimp only; split <;> exact ne_of_stop ha)

theorem applyDisable_stays (m : Mc) : StopStays m (applyDisable m) := by
  rw [applyDisable]
  split
  · exact ⟨fun _ ha => .wrB (ne_of_stop ha), rfl⟩
  · exact .refl

theorem applyDisable_ag (m : Mc) : (applyDisable m).ag = m.ag := by
  rw [applyDisable]
  split <;> rfl

section
variable (k : Fin 4) (fin cls stop code : Nat) (s : State)

theorem endJob_stays : StopStays (mcOf s k) (mcOf (endJob k fin cls stop s) k) := by
  rw [endJob]
  split
  · exact .refl
  · dsimp only
    rw [mcOf_jobEndHook, mcOf_modMc_same]
    refine .trans ?_ <| (jtDone_stays _ _ _).trans (applyDisable_stays _)
    exact ⟨fun _ ha => .trans (.wrF (ne_of_stop ha)) (.wrF (ne_of_stop ha)), rfl⟩

/-- A job's end takes AG down, and without a job AG stays as it was. -/
theorem endJob_ag (idle : (mcOf s k).job = none → (mcOf s k).ag = false) : (mcOf (endJob k fin cls stop s) k).ag = false := by
  rw [endJob]
  split
  case h_1 noJob => exact idle noJob
  case h_2 =>
    dsimp only
    rw [mcOf_jobEndHook, mcOf_modMc_same, applyDisable_ag]
    rfl

theorem mcOf_cutWrite : mcOf (cutWrite k s) k = mcOf s k := by
  rw [cutWrite_changes]
  rfl

theorem stopJob_stays : StopStays (mcOf s k) (mcOf (stopJob k code s) k) := by
  rw [stopJob]
  split
  · exact .refl
  · refine .trans ?_ (endJob_stays ..)
    rw [mcReg, mcOf_modMc_same, mcOf_cutWrite]
    refine ⟨fun _ ha => ?_, rfl⟩
    have stop := ne_of_stop ha (b := MSQ_STOP)
    exact .trans (.wrF stop) <| .trans (.wrF stop) <| .trans (.wrF stop) (.wrB stop)

theorem stopJob_ag (idle : (mcOf s k).job = none → (mcOf s k).ag = false) : (mcOf (stopJob k code s) k).ag = false := by
  rw [stopJob]
  split
  case h_1 noJob => exact idle noJob
  case h_2 =>
    refine endJob_ag _ _ _ _ _ ?_
    rw [mcReg, mcOf_modMc_same, mcOf_cutWrite]
    exact idle

end

/-- A field that was written before a stop reads after it as it was written. -/
theorem stopJob_mcReg_flag (k : Fin 4) (code : Nat) (s : State) {f : List (Nat × Word) → List (Nat × Word)} {g : Fld}
    (canonical : twf 0 (f (mcOf s k).csr) = true) (hg : g.off ∉ stopRegs := by decide) :
    rdB (mcOf (stopJob k code (mcReg k f s)) k).csr g = rdB (f (mcOf s k).csr) g := by
  have stopped := stopJob_stays k code (mcReg k f s)
  rw [mcReg, mcOf_modMc_same] at stopped
  exact stopped.flag g canonical hg

/-! ### A head fault (R91, R100) -/

/-- What an abort of the write path counts, with the bit of its fault. -/
def faultCounted (fault : Fld) (c : List (Nat × Word)) : List (Nat × Word) := incF (wrB c fault true) MC_WR_FAULT.COUNT 1

section
variable {fault : Fld} {c : List (Nat × Word)} (off : fault.off = MC_WR_FAULT) (canonical : twf 0 c = true)
include off canonical

theorem faultCounted_fault (bit : fault.lo = fault.hi) (below : fault.hi < 16) : rdB (faultCounted fault c) fault = true := by
  have written := rdB_wrB_same c fault true bit (by omega) canonical
  exact (rdB_wrF_above _ MC_WR_FAULT.COUNT fault _ off below (by decide) (by decide) (wrB_twf _ _ _ canonical)).trans written

theorem faultCounted_other {f : Fld} (other : f.off ≠ MC_WR_FAULT) : rdB (faultCounted fault c) f = rdB c f := by
  rw [faultCounted, incF, rdB_wrF_other _ _ _ _ other (wrB_twf _ _ _ canonical), rdB_wrB_other _ _ _ _ (off ▸ other) canonical]

end

theorem writeAbort_flag (k : Fin 4) (fault : Fld) (code : Nat) (s : State) {f : Fld} (canonical : twf 0 (mcOf s k).csr = true)
    (hf : f.off ∉ stopRegs := by decide) :
    rdB (mcOf (writeAbort k fault code s) k).csr f = rdB (faultCounted fault (mcOf s k).csr) f := by
  have channel : mcOf (writeAbort k fault code s) k = gatesLow (mcOf (stopJob k code (mcReg k (faultCounted fault) s)) k) :=
    mcOf_modMc_same ..
  rw [channel]
  exact stopJob_mcReg_flag k code s (incF_twf (wrB_twf _ _ _ canonical)) hf

/-- What HFLT_FALL notes of the channel before the gates drop. -/
def hfltNoted (stays : Bool) (m : Mc) : Mc := { m with
  hfltLow := stays
  csr := wrB (wrB m.csr MC_HIF_STAT.HFLT true) MC_HIF_STAT.HFLT_NOW stays }

/-- A head fault is noted first; then it aborts the write if a gate is high, and drops the gates if none is. -/
theorem hfltFall_eq (k : Fin 4) (stays : Bool) (s : State) : ∃ v, mcOf v k = hfltNoted stays (mcOf s k) ∧
    hfltFall k stays s = if (mcOf s k).wg || (mcOf s k).ag then writeAbort k MC_WR_FAULT.HFLT 7 v else dropGates k v := by
  have noted : mcOf (modMc k (hfltNoted stays) s) k = hfltNoted stays (mcOf s k) := mcOf_modMc_same ..
  refine ⟨_, ?_, rfl⟩
  split
  · exact noted
  · split <;> exact noted

theorem hfltNoted_twf {stays m} (canonical : twf 0 m.csr = true) : twf 0 (hfltNoted stays m).csr = true :=
  wrB_twf _ _ _ (wrB_twf _ _ _ canonical)

theorem hfltNoted_hflt {stays m} (canonical : twf 0 m.csr = true) : rdB (hfltNoted stays m).csr MC_HIF_STAT.HFLT = true := by
  have written := rdB_wrB_same m.csr MC_HIF_STAT.HFLT true rfl (by decide) canonical
  have kept := rdB_wrF_above (wrB m.csr MC_HIF_STAT.HFLT true) MC_HIF_STAT.HFLT_NOW MC_HIF_STAT.HFLT (b2n stays) rfl (by decide)
    (by decide) (by decide) (wrB_twf _ _ _ canonical)
  exact kept.trans written

/-- Settles O32: the fault is noted before anything else, and neither the abort nor the drop of the gates writes MC_HIF_STAT. -/
theorem headFaultDropsGatesAndCutsTheWrite : Obligations.HeadFaultDropsGatesAndCutsTheWrite := by
  unfold Obligations.HeadFaultDropsGatesAndCutsTheWrite
  intro k stays s canonical present
  obtain ⟨v, noted, fall⟩ := hfltFall_eq k stays s
  have regs : twf 0 (mcOf v k).csr = true := noted ▸ hfltNoted_twf canonical
  have flag : rdB (mcOf v k).csr MC_HIF_STAT.HFLT = true := noted ▸ hfltNoted_hflt canonical
  refine ⟨hfltFall k stays s, exec_of_settle_onMc present rfl, ?_⟩
  rw [fall]
  split
  case isTrue =>
    obtain ⟨wg, ag, job⟩ := dropGates_stopJob k 7 (mcReg k (faultCounted MC_WR_FAULT.HFLT) v)
    refine ⟨wg, ag, ?_, fun _ => ⟨job, ?_⟩⟩
    · rw [writeAbort_flag _ _ _ _ regs, faultCounted_other rfl regs (by decide), flag]
    · rw [writeAbort_flag _ _ _ _ regs, faultCounted_fault rfl regs rfl (by decide)]
  case isFalse low =>
    rw [dropGates, mcOf_modMc_same]
    refine ⟨rfl, rfl, flag, fun high => absurd ?_ low⟩
    rw [high, Bool.true_or]

/-! ### Ownership of the preamp lines (R98, R99) -/

/-- The next frame of a Head Interface changes neither who owns the lines nor whether their release waits. -/
theorem startFrame_own (k : Fin 4) (s : State) :
    (mcOf (startFrame k s) k).own = (mcOf s k).own ∧ (mcOf (startFrame k s) k).ownRelease = (mcOf s k).ownRelease := by
  rw [startFrame]
  dsimp only
  split
  · exact ⟨rfl, rfl⟩
  · split
    case h_4 => exact ⟨rfl, rfl⟩
    all_goals rw [mcOf_setMc_same]; exact ⟨rfl, rfl⟩

theorem takeOwn_own (k : Fin 4) (s : State) :
    (mcOf (takeOwn k s) k).own = true ∧ (mcOf (takeOwn k s) k).ownRelease = false := by
  obtain ⟨own, release⟩ := startFrame_own k (modMc k (fun m => { m with
    csr := wrB m.csr MC_HIF_CTL.OWN true
    own := true
    serialZ := false
    ownRelease := false }) s)
  rw [mcOf_modMc_same] at own release
  exact ⟨own, release⟩

/-- A channel has given the preamp lines up: nothing is driven and no release waits. -/
def OwnReleased (m : Mc) : Prop :=
  m.own = false ∧ m.wg = false ∧ m.ag = false ∧ m.serialZ = true ∧ m.ownRelease = false

theorem dropOwn_released (k : Fin 4) (s : State) : OwnReleased (mcOf (dropOwn k s) k) := by
  rw [dropOwn, mcOf_modMc_same]
  exact ⟨rfl, rfl, rfl, rfl, rfl⟩

/-- Neither a sector nor a frame holds a release back. -/
def HifQuiet (m : Mc) : Prop := m.wg = false ∧ m.busy = none

section
variable {k : Fin 4} {s : State}

theorem hifQuiet_iff (m : Mc) : (m.wg || m.busy.isSome) = false ↔ HifQuiet m := by
  rw [Bool.or_eq_false_iff, Option.isSome_eq_false_iff, Option.isNone_iff_eq_none, HifQuiet]

theorem hifOwnWrite_quiet (quiet : HifQuiet (mcOf s k)) : hifOwnWrite k false s = dropOwn k s := by
  have test := (hifQuiet_iff _).mpr quiet
  rw [hifOwnWrite, test]
  rfl

theorem hifOwnWrite_waits (held : ¬ HifQuiet (mcOf s k)) :
    hifOwnWrite k false s = modMc k (fun m => { m with ownRelease := true }) s := by
  have test := Bool.eq_true_of_not_eq_false (mt (hifQuiet_iff _).mp held)
  rw [hifOwnWrite, test]
  rfl

theorem release_iff (m : Mc) : (m.ownRelease && !m.wg && m.busy.isNone) = true ↔ m.ownRelease = true ∧ HifQuiet m := by
  rw [Bool.and_eq_true, Bool.and_eq_true, Bool.not_eq_true', Option.isNone_iff_eq_none, and_assoc, HifQuiet]

theorem hifOwnRelease_due (waits : (mcOf s k).ownRelease = true) (quiet : HifQuiet (mcOf s k)) :
    hifOwnRelease k s = dropOwn k s :=
  if_pos ((release_iff _).mpr ⟨waits, quiet⟩)

theorem hifOwnRelease_idle (idle : ¬ ((mcOf s k).ownRelease = true ∧ HifQuiet (mcOf s k))) : hifOwnRelease k s = s :=
  if_neg (mt (release_iff _).mp idle)

end

/-- Settles O33: the row drops ownership on a quiet channel and else notes the release, which the later row then carries out. -/
theorem ownershipReleaseWaitsForTheGate : Obligations.OwnershipReleaseWaitsForTheGate := by
  unfold Obligations.OwnershipReleaseWaitsForTheGate
  intro k s present released quiet
  have dropped : released (dropOwn k s) := dropOwn_released k s
  have written (b : Bool) : exec (.hifOwnWrite k b) s = .next (hifOwnWrite k b s) := exec_of_onMc present rfl
  have due : exec (.hifOwnRelease k) s = .next (hifOwnRelease k s) := exec_of_onMc present rfl
  refine ⟨fun isQuiet => ⟨_, written false, ?_⟩, fun held => ⟨_, written false, ?_⟩,
    fun isQuiet waits => ⟨_, due, ?_⟩, fun settled => ?_, ⟨_, written true, takeOwn_own k s⟩⟩
  · rw [hifOwnWrite_quiet isQuiet]
    exact dropped
  · rw [hifOwnWrite_waits held]
    have channel := mcOf_modMc_same s k (fun m => { m with ownRelease := true })
    refine ⟨by rw [channel], by rw [channel], by rw [channel], by rw [channel], congrArg Host.Outcome.next ?_⟩
    rw [onMc, hifOwnRelease_idle, ite_self]
    rw [channel]
    exact fun ⟨_, isQuiet⟩ => held isQuiet
  · rw [hifOwnRelease_due waits isQuiet]
    exact dropped
  · rw [due, hifOwnRelease_idle]
    rw [settled]
    exact fun ⟨waits, _⟩ => Bool.false_ne_true waits

/-! ### The duty limit of the assist (R96) -/

/-- A refusal of AG ends the job with AG low and sets the fault's bit. -/
theorem dutyRefuse_refuses (k : Fin 4) (s : State) (canonical : twf 0 (mcOf s k).csr = true)
    (idle : (mcOf s k).job = none → (mcOf s k).ag = false) :
    let n := mcOf (dutyRefuse k s) k
    n.job = none ∧ n.ag = false ∧ rdB n.csr MC_WR_FAULT.DUTY = true := by
  refine ⟨stopJob_job .., stopJob_ag _ _ _ ?_, ?_⟩
  · rw [mcReg, mcOf_modMc_same]
    exact idle
  · exact (stopJob_mcReg_flag k 11 s (wrB_twf _ _ _ canonical)).trans (rdB_wrB_same _ _ _ rfl (by decide) canonical)

theorem dutyRefuse_dutyHold (k : Fin 4) (s : State) : (mcOf (dutyRefuse k s) k).dutyHold = (mcOf s k).dutyHold := by
  rw [dutyRefuse, (stopJob_stays ..).dutyHold, mcReg, mcOf_modMc_same]

theorem dutyReaches_limit {m : Mc} {now head : Nat} :
    dutyReaches m now head 100 = true ↔ dutyLimit m * dutyWinUs m ≤ 100 * onUsIn m now head := by
  rw [dutyReaches, decide_eq_true_eq, Nat.mul_assoc]
  omega

/-- A head in DUTY_HOLD, its event noted. -/
def dutyHeld (now head : Nat) (m : Mc) : Mc :=
  ascEvent now head { m with dutyHold := head :: m.dutyHold.filter (· ≠ head) }

/-- The channel's job holds AG high on the head and writes no slot: at the limit it ends at once. -/
def EndsAtLimit (head : Nat) (m : Mc) : Prop :=
  ∃ j, m.job = some j ∧ m.ag = true ∧ jobHead m j.entry = head ∧ j.writing = none

theorem ascEvent_twf {now head m} (h : twf 0 m.csr = true) : twf 0 (ascEvent now head m).csr = true :=
  wrF_twf _ _ _ (wrF_twf _ _ _ h)

section
variable {k : Fin 4} {head : Nat} {s : State}

theorem assistDutyLimit_below
    (below : 100 * onUsIn (mcOf s k) s.sys.us head < dutyLimit (mcOf s k) * dutyWinUs (mcOf s k)) :
    assistDutyLimit k head s = s := if_neg (mt dutyReaches_limit.mp (Nat.not_le.mpr below))

/-- At the limit the head is held, and then the job is refused if it must end at once. -/
theorem assistDutyLimit_reached
    (reached : dutyLimit (mcOf s k) * dutyWinUs (mcOf s k) ≤ 100 * onUsIn (mcOf s k) s.sys.us head) :
    let t := modMc k (dutyHeld s.sys.us head) s
    (EndsAtLimit head (mcOf s k) → assistDutyLimit k head s = dutyRefuse k t) ∧
      (¬ EndsAtLimit head (mcOf s k) → assistDutyLimit k head s = t) := by
  intro t
  have channel : mcOf t k = dutyHeld s.sys.us head (mcOf s k) := mcOf_modMc_same ..
  have same : EndsAtLimit head (mcOf t k) ↔ EndsAtLimit head (mcOf s k) := by rw [channel]; rfl
  have limit : assistDutyLimit k head s = match (mcOf t k).job with
      | none => t
      | some j => if (mcOf t k).ag && decide (jobHead (mcOf t k) j.entry = head) && j.writing.isNone then dutyRefuse k t else t :=
    if_pos (dutyReaches_limit.mpr reached)
  rw [← same, limit]
  split
  case h_1 idle =>
    refine ⟨fun ⟨j, job, _⟩ => ?_, fun _ => rfl⟩
    rw [idle] at job
    cases job
  case h_2 j job =>
    have test : ((mcOf t k).ag && decide (jobHead (mcOf t k) j.entry = head) && j.writing.isNone) = true ↔
        EndsAtLimit head (mcOf t k) := by
      rw [EndsAtLimit, job, Bool.and_eq_true, Bool.and_eq_true, decide_eq_true_eq, Option.isNone_iff_eq_none, and_assoc]
      exact ⟨fun h => ⟨j, rfl, h⟩, fun ⟨_, rfl, h⟩ => h⟩
    exact ⟨fun ends => if_pos (test.mpr ends), fun goesOn => if_neg (mt test.mp goesOn)⟩

theorem agateRise_held (bit : Nat) (held : (mcOf s k).dutyHold.contains head = true) :
    agateRise k head bit s = dutyRefuse k s := if_pos held

/-- A head out of DUTY_HOLD; the event is noted if it was in it. -/
def dutyReleased (now head : Nat) (m : Mc) : Mc :=
  if m.dutyHold.contains head then ascEvent now head { m with dutyHold := m.dutyHold.filter (· ≠ head) } else m

theorem dutyReleased_dutyHold (now head : Nat) (m : Mc) : (dutyReleased now head m).dutyHold.contains head = false := by
  rw [dutyReleased]
  split
  case isTrue =>
    refine Bool.eq_false_of_not_eq_true fun held => ?_
    obtain ⟨-, ne⟩ := List.mem_filter.mp (List.contains_iff_mem.mp held)
    exact of_decide_eq_true ne rfl
  case isFalse unheld => exact Bool.eq_false_of_not_eq_true unheld

theorem assistDutyRelease_back
    (back : 10000 * onUsIn (mcOf s k) s.sys.us head ≤ 75 * dutyLimit (mcOf s k) * dutyWinUs (mcOf s k)) :
    assistDutyRelease k head s = setMc k (dutyReleased s.sys.us head (mcOf s k)) s := if_pos back

theorem assistDutyRelease_above
    (above : 75 * dutyLimit (mcOf s k) * dutyWinUs (mcOf s k) < 10000 * onUsIn (mcOf s k) s.sys.us head) :
    assistDutyRelease k head s = s := if_neg (Nat.not_le.mpr above)

end

/-- Settles O34: at the limit the head is held before the job is refused, and a refusal leaves the held heads as they are. -/
theorem dutyHoldFollowsTheLimit : Obligations.DutyHoldFollowsTheLimit := by
  unfold Obligations.DutyHoldFollowsTheLimit
  intro k head s canonical present m on
  have limitRow : exec (.assistDutyLimit k head) s = .next (settle (assistDutyLimit k head s)) :=
    exec_of_settle_onMc present rfl
  have releaseRow : exec (.assistDutyRelease k head) s = .next (assistDutyRelease k head s) := exec_of_onMc present rfl
  have channel : mcOf (modMc k (dutyHeld s.sys.us head) s) k = dutyHeld s.sys.us head m := mcOf_modMc_same ..
  refine ⟨fun reached => ⟨_, limitRow, ?_, fun j job ag under between => ?_⟩, fun below => ?_, fun held low bit => ?_,
    fun back => ⟨dutyReleased s.sys.us head m, ?_, dutyReleased_dutyHold ..⟩, fun above => ?_⟩
  · have hold : (mcOf (assistDutyLimit k head s) k).dutyHold = (dutyHeld s.sys.us head m).dutyHold := by
      obtain ⟨refuses, goesOn⟩ := assistDutyLimit_reached reached
      by_cases ends : EndsAtLimit head m
      · rw [refuses ends, dutyRefuse_dutyHold, channel]
      · rw [goesOn ends, channel]
    rw [hold]
    exact List.contains_iff_mem.mpr List.mem_cons_self
  · obtain ⟨refuses, -⟩ := assistDutyLimit_reached reached
    rw [refuses ⟨j, job, ag, under, between⟩]
    refine dutyRefuse_refuses k _ ?_ ?_
    · rw [channel]
      exact ascEvent_twf canonical
    · rw [channel]
      exact fun noJob => absurd (job.symm.trans noJob) (Option.some_ne_none j)
  · rw [limitRow, assistDutyLimit_below below]
  · rw [agateRise_held bit held]
    obtain ⟨job, ag, duty⟩ := dutyRefuse_refuses k s canonical fun _ => low
    exact ⟨ag, job, duty⟩
  · rw [releaseRow, assistDutyRelease_back back]
  · rw [releaseRow, assistDutyRelease_above above]

end Sys2Proof.Machine
end

section
namespace Sys2Proof.Machine

/-! ## The Media Sequencer and Run Sequences (R107 to R143) -/

/-- Settles O8: a POR is no row of this family, and every other row completes within its footprint. -/
theorem sequencerRowsStayInTheirFootprint : Obligations.SequencerRowsStayInTheirFootprint := by
  unfold Obligations.SequencerRowsStayInTheirFootprint
  intro c s family
  refine exec_staysIn c s fun v b por => ?_
  rw [por] at family
  cases family

/-! ### The event queue (R142) -/

section
variable {k : Fin 4} {code slot : Nat} {j : Job} {s : State}

theorem postEvt_room (room : (mcOf s k).events.length < 16) :
    ∃ e, mcOf (postEvt k code slot j s) k = { mcOf s k with
      events := (mcOf s k).events ++ [e]
      coreReports := (mcOf s k).coreReports + 1 } := by
  rw [postEvt, if_pos room]
  exact ⟨_, mcOf_modMc_same ..⟩

theorem postEvt_full (full : 16 ≤ (mcOf s k).events.length) : mcOf (postEvt k code slot j s) k = { mcOf s k with
    csr := incR (mcOf s k).csr MSQ_EVT_LOST 1
    job := (mcOf s k).job.map fun j => { j with evtLost := true } } := by
  rw [postEvt, if_neg (Nat.not_lt.mpr full), modJob, mcOf_modMc_same, mcCount, mcReg, mcOf_modMc_same]

theorem mcOf_mcReadOut {f : Mc → Word × Mc} : mcOf (mcReadOut k f s) k = (f (mcOf s k)).2 := mcOf_setMc_same ..

theorem evtLo_cons {m : Mc} {e : Word × Word} {rest : List (Word × Word)} (queue : m.events = e :: rest) :
    evtLo m = (e.1, { m with evtLatch := some e }) := by
  rw [evtLo, queue]

theorem evtLo_nil {m : Mc} (queue : m.events = []) : evtLo m = (0, { m with evtLatch := none }) := by
  rw [evtLo, queue]

/-- The oldest event, once it is latched, leaves the queue as its high word is read. -/
theorem evtHi_latched {m : Mc} {e : Word × Word} {rest : List (Word × Word)} (queue : m.events = e :: rest)
    (latch : m.evtLatch = some e) : evtHi m = (e.2, { m with
      evtLatch := none
      events := rest }) := by
  rw [evtHi, latch, queue]
  dsimp only
  rw [if_pos (List.head?_cons ..)]
  rfl

end

/-- Settles O42: a post finds room or counts a loss, and the two reads latch the oldest event and remove the latched one. -/
theorem eventQueueIsReadInOrder : Obligations.EventQueueIsReadInOrder := by
  unfold Obligations.EventQueueIsReadInOrder
  intro k s canonical present
  have lowRow (t : State) (part : mcAbsent t k = false) : exec (.evtLoRead k) t = .next (mcReadOut k evtLo t) :=
    congrArg Host.Outcome.next (if_neg (by rw [part]; exact Bool.false_ne_true))
  have highRow (t : State) (part : mcAbsent t k = false) : exec (.evtHiRead k) t = .next (mcReadOut k evtHi t) :=
    congrArg Host.Outcome.next (if_neg (by rw [part]; exact Bool.false_ne_true))
  refine ⟨fun code slot j job => ⟨fun room => ?_, fun full => ?_⟩, fun e rest queue => ?_, fun empty => ?_⟩
  · obtain ⟨e, posted⟩ := postEvt_room (code := code) (slot := slot) (j := j) room
    exact ⟨e, by rw [posted], by rw [posted, job]⟩
  · rw [postEvt_full full, job]
    exact ⟨rfl, rfl, incR_toNat _ _ _ canonical⟩
  · have latched : mcOf (mcReadOut k evtLo s) k = { mcOf s k with evtLatch := some e } := by
      rw [mcOf_mcReadOut, evtLo_cons queue]
    have low : (mcReadOut k evtLo s).sys.rdata = e.1 := congrArg Prod.fst (evtLo_cons queue)
    have high : evtHi (mcOf (mcReadOut k evtLo s) k) = (e.2, { mcOf s k with
        evtLatch := none
        events := rest }) := by
      rw [latched]
      exact evtHi_latched queue rfl
    refine ⟨_, lowRow s present, low, by rw [latched, queue], _, highRow _ present, congrArg Prod.fst high, ?_⟩
    rw [mcOf_mcReadOut, high]
  · refine ⟨_, lowRow s present, congrArg Prod.fst (evtLo_nil empty), ?_⟩
    rw [mcOf_mcReadOut, evtLo_nil empty]
    exact empty

end Sys2Proof.Machine
end

section
namespace Sys2Proof.Machine

/-! ### The Job Table (R126, R129) -/

section
variable {e dw : Nat} {w : Word} {m : Mc}

theorem jtPut_twf (h : twf 0 m.jt = true) : twf 0 (jtPut e dw w m).jt = true := tput_twf _ _ _ _ h

theorem jtPut_csr : (jtPut e dw w m).csr = m.csr := rfl

theorem jtW_jtPut_same (h : twf 0 m.jt = true) : jtW (jtPut e dw w m) e dw = w := tget_tput_same _ _ _ _ h

theorem jtW_jtPut_other {dw' : Nat} (ne : dw' ≠ dw) (h : twf 0 m.jt = true) : jtW (jtPut e dw w m) e dw' = jtW m e dw' :=
  tget_tput_other _ _ _ _ _ (by omega) h

theorem jtSetState_twf {st : Nat} (h : twf 0 m.jt = true) : twf 0 (jtSetState e st m).jt = true := jtPut_twf h

theorem jtState_jtSetState {st : Nat} (h : twf 0 m.jt = true) : jtState (jtSetState e st m) e = st % 4 := by
  rw [jtState, jtF, jtSetState, jtW_jtPut_same h]
  exact wordField_set_same _ 31 30 st (by decide) (by decide)

end

/-- What a job's end reports in dword 10 of its entry (R126): END, CLASS, STATUS, FLAGS, EVT_LOST and STOP. -/
def endWord (fin cls stop : Nat) (j : Job) : Word :=
  BitVec.ofNat 32 (fin * 2 ^ 28 + cls * 2 ^ 24 + j.status % 256 * 2 ^ 16 + j.flags % 16 * 2 ^ 12 + b2n j.evtLost * 2 ^ 11 + stop)

theorem b2n_le_one (b : Bool) : b2n b ≤ 1 := by cases b <;> decide

theorem endWord_fields {fin cls stop : Nat} {j : Job} (hfin : fin < 16) (hcls : cls < 16) (hstop : stop < 256) :
    wordField (endWord fin cls stop j) 31 28 = fin ∧ wordField (endWord fin cls stop j) 27 24 = cls ∧
    wordField (endWord fin cls stop j) 23 16 = j.status % 256 ∧ wordField (endWord fin cls stop j) 15 12 = j.flags % 16 ∧
    wordField (endWord fin cls stop j) 7 0 = stop := by
  have lost := b2n_le_one j.evtLost
  simp only [wordField, endWord, Nat.shiftRight_eq_div_pow, BitVec.toNat_ofNat, Nat.reducePow, Nat.reduceAdd, Nat.reduceSub]
  omega

/-- The dwords that a job's end writes keep the Job Table canonical, and dword 10 is its report. -/
theorem endDwords_report {e fin cls stop : Nat} {j : Job} {m : Mc} (h : twf 0 m.jt = true) :
    twf 0 (endDwords e fin cls stop j m).jt = true ∧ jtW (endDwords e fin cls stop j m) e 10 = endWord fin cls stop j :=
  have below := jtPut_twf <| jtPut_twf <| jtPut_twf <| jtPut_twf <| jtPut_twf h
  ⟨jtPut_twf below, jtW_jtPut_same below⟩

end Sys2Proof.Machine
end

section
namespace Sys2Proof.Machine

/-! ### The end of a job (R126, R129) -/

/-- An entry is done, with a report in its dword 10. -/
structure EntryDone (m : Mc) (e : Nat) (report : Word) : Prop where
  state : jtState m e = 3
  report : jtW m e 10 = report

theorem EntryDone.field {m : Mc} {e : Nat} {w : Word} (h : EntryDone m e w) (hi lo : Nat) :
    jtF m e 10 hi lo = wordField w hi lo := by
  rw [jtF, h.report]

theorem EntryDone.of_jt {m n : Mc} {e : Nat} {w : Word} (h : EntryDone m e w) (jt : n.jt = m.jt) : EntryDone n e w := by
  obtain ⟨state, report⟩ := h
  exact ⟨by rwa [jtState, jtF, jtW, jt], by rwa [jtW, jt]⟩

/-- What the end of every job comes to in the Job Table: the entry's state and its done bit. -/
def closeEntry (e : Nat) (m : Mc) : Mc := jtDone e true (jtSetState e 3 m)

section
variable {e : Nat} {m : Mc}

theorem closeEntry_jt_twf (h : twf 0 m.jt = true) : twf 0 (closeEntry e m).jt = true := jtSetState_twf h

theorem closeEntry_canon (h : Canon Mc.csr m) : Canon Mc.csr (closeEntry e m) := jtDone_canon (jtSetState_canon h)

theorem closeEntry_done (h : twf 0 m.jt = true) : EntryDone (closeEntry e m) e (jtW m e 10) :=
  ⟨jtState_jtSetState h, jtW_jtPut_other (by decide) h⟩

theorem closeEntry_holds {a : Nat} (low : a ≠ MSQ_JT_DONE_LO) (high : a ≠ MSQ_JT_DONE_HI) :
    HoldsReg a m.csr (closeEntry e m).csr := by
  rw [closeEntry, jtDone]
  exact .wrF (by dsimp only; split <;> assumption)

/-- The done bit of a closed entry (R129). -/
theorem closeEntry_bit (range : e < 64) (h : twf 0 m.csr = true) :
    (e < 32 → wordBit (rd (closeEntry e m).csr MSQ_JT_DONE_LO) e = true) ∧
    (32 ≤ e → wordBit (rd (closeEntry e m).csr MSQ_JT_DONE_HI) (e - 32) = true) := by
  refine ⟨fun low => ?_, fun high => ?_⟩
  · rw [closeEntry, jtDone, if_pos low, Nat.mod_eq_of_lt low]
    exact (congrArg (wordBit · e) (rd_wr_same _ _ _ h)).trans (wordBit_set_one _ e low)
  · have index : e % 32 = e - 32 := by omega
    rw [closeEntry, jtDone, if_neg (by omega), index]
    exact (congrArg (wordBit · (e - 32)) (rd_wr_same _ _ _ h)).trans (wordBit_set_one _ (e - 32) (by omega))

theorem applyDisable_keeps : (applyDisable m).wg = m.wg ∧ (applyDisable m).ag = m.ag ∧ (applyDisable m).job = m.job ∧
    (applyDisable m).jt = m.jt := by
  rw [applyDisable]
  split <;> exact ⟨rfl, rfl, rfl, rfl⟩

theorem applyDisable_holds {a : Nat} (ne : a ≠ MSQ_CTL) : HoldsReg a m.csr (applyDisable m).csr := by
  rw [applyDisable]
  split
  · exact .wrB ne
  · exact .refl

end

/-- A Media Channel without the job that ran on it, its gates low. -/
def withoutJob (j : Job) (m : Mc) : Mc := { m with
  job := none
  wg := false
  ag := false
  agWait := false
  elem := .off
  wdIdle := true
  sbuf := none
  decoding := []
  coreReports := m.coreReports + 1
  csr := wrF (wrF m.csr MSQ_STAT.JOB j.entry) MSQ_STAT.PC j.lastPc }

/-- A Media Channel right after the end of its job. -/
def jobEnded (fin cls stop : Nat) (j : Job) (m : Mc) : Mc :=
  applyDisable (closeEntry j.entry (endDwords j.entry fin cls stop j (withoutJob j m)))

theorem mcOf_endJob {k : Fin 4} {fin cls stop : Nat} {s : State} {j : Job} (job : (mcOf s k).job = some j) :
    mcOf (endJob k fin cls stop s) k = jobEnded fin cls stop j (mcOf s k) := by
  rw [endJob, job]
  dsimp only
  rw [mcOf_jobEndHook, mcOf_modMc_same]
  rfl

section
variable {fin cls stop : Nat} {j : Job} {m : Mc}

theorem jobEnded_gates : (jobEnded fin cls stop j m).job = none ∧ (jobEnded fin cls stop j m).wg = false ∧
    (jobEnded fin cls stop j m).ag = false := by
  obtain ⟨wg, ag, job, -⟩ := applyDisable_keeps
    (m := closeEntry j.entry (endDwords j.entry fin cls stop j (withoutJob j m)))
  exact ⟨job, wg, ag⟩

theorem jobEnded_jt : (jobEnded fin cls stop j m).jt =
    (closeEntry j.entry (endDwords j.entry fin cls stop j (withoutJob j m))).jt := by
  obtain ⟨-, -, -, jt⟩ := applyDisable_keeps (m := closeEntry j.entry (endDwords j.entry fin cls stop j (withoutJob j m)))
  exact jt

theorem jobEnded_jt_twf (h : twf 0 m.jt = true) : twf 0 (jobEnded fin cls stop j m).jt = true := by
  obtain ⟨written, -⟩ := endDwords_report (e := j.entry) (fin := fin) (cls := cls) (stop := stop) (j := j) (m := withoutJob j m) h
  rw [jobEnded_jt]
  exact closeEntry_jt_twf written

theorem jobEnded_done (h : twf 0 m.jt = true) : EntryDone (jobEnded fin cls stop j m) j.entry (endWord fin cls stop j) := by
  obtain ⟨written, report⟩ :=
    endDwords_report (e := j.entry) (fin := fin) (cls := cls) (stop := stop) (j := j) (m := withoutJob j m) h
  rw [← report]
  exact (closeEntry_done written).of_jt jobEnded_jt

theorem endDwords_withoutJob_canon (h : Canon Mc.csr m) :
    Canon Mc.csr (endDwords j.entry fin cls stop j (withoutJob j m)) :=
  endDwords_canon (wrF_twf _ _ _ (wrF_twf _ _ _ h))

theorem jobEnded_canon (h : Canon Mc.csr m) : Canon Mc.csr (jobEnded fin cls stop j m) :=
  applyDisable_canon (closeEntry_canon (endDwords_withoutJob_canon h))

/-- A job's end leaves the record of the last stop alone. -/
theorem jobEnded_holds_stop : HoldsReg MSQ_STOP m.csr (jobEnded fin cls stop j m).csr := by
  have reported : HoldsReg MSQ_STOP m.csr (endDwords j.entry fin cls stop j (withoutJob j m)).csr :=
    .trans (.wrF (by decide)) (.wrF (by decide))
  rw [jobEnded]
  exact .trans reported <| .trans (closeEntry_holds (by decide) (by decide)) (applyDisable_holds (by decide))

theorem jobEnded_bit (range : j.entry < 64) (h : twf 0 m.csr = true) :
    (j.entry < 32 → wordBit (rd (jobEnded fin cls stop j m).csr MSQ_JT_DONE_LO) j.entry = true) ∧
    (32 ≤ j.entry → wordBit (rd (jobEnded fin cls stop j m).csr MSQ_JT_DONE_HI) (j.entry - 32) = true) := by
  have reported : Canon Mc.csr (endDwords j.entry fin cls stop j (withoutJob j m)) := endDwords_withoutJob_canon h
  have disabled (a : Nat) (ne : a ≠ MSQ_CTL) := (applyDisable_holds ne (closeEntry_canon (e := j.entry) reported)).2
  rw [jobEnded, disabled MSQ_JT_DONE_LO (by decide), disabled MSQ_JT_DONE_HI (by decide)]
  exact closeEntry_bit range reported

end

/-! ### A cancel (R129) -/

theorem quadSet_set {α : Type} (q : Quad α) (k : Fin 4) (x y : α) : quadSet (quadSet q k x) k y = quadSet q k y := by
  fin_cases k <;> rfl

theorem quadSet_get {α : Type} (q : Quad α) (k : Fin 4) : quadSet q k (quadGet q k) = q := by
  fin_cases k <;> rfl

theorem modMc_modMc {k : Fin 4} {f g : Mc → Mc} {s : State} : modMc k f (modMc k g s) = setMc k (f (g (mcOf s k))) s := by
  rw [modMc, mcOf_modMc_same, modMc, setMc, setMc, quadSet_set]
  rfl

/-- An entry that ends without a job is closed over its report, and leaves the arm order. -/
theorem endUnrun_eq {e fin cls : Nat} {m : Mc} (h : twf 0 m.jt = true) : ∃ n, twf 0 n.jt = true ∧ n.csr = m.csr ∧
    endUnrun e fin cls m = closeEntry e (jtPut e 10 (BitVec.ofNat 32 (fin * 2 ^ 28 + cls * 2 ^ 24)) n) := by
  let n := jtPut e 11 0 <| jtPut e 12 0 <| jtPut e 13 0 <| jtPut e 14 0 <| jtPut e 15 0 { m with
    armed := m.armed.filter (· ≠ e)
    coreReports := m.coreReports + 1 }
  have below : twf 0 n.jt = true := jtPut_twf (jtPut_twf (jtPut_twf (jtPut_twf (jtPut_twf h))))
  exact ⟨n, below, by simp only [n, jtPut_csr], rfl⟩

theorem endUnrun_done {e fin cls : Nat} {m : Mc} (h : twf 0 m.jt = true) :
    EntryDone (endUnrun e fin cls m) e (BitVec.ofNat 32 (fin * 2 ^ 28 + cls * 2 ^ 24)) := by
  obtain ⟨n, table, -, ends⟩ := endUnrun_eq (e := e) (fin := fin) (cls := cls) h
  have closed := closeEntry_done (e := e) (jtPut_twf (e := e) (dw := 10) (w := BitVec.ofNat 32 (fin * 2 ^ 28 + cls * 2 ^ 24)) table)
  rw [jtW_jtPut_same table] at closed
  rwa [ends]

theorem endUnrun_unarmed (e fin cls : Nat) (m : Mc) : e ∉ (endUnrun e fin cls m).armed := fun armed => by
  obtain ⟨-, other⟩ := List.mem_filter.mp armed
  exact of_decide_eq_true other rfl

/-- Of the registers such an end writes the done bits alone. -/
theorem endUnrun_holds {e fin cls a : Nat} {m : Mc} (h : twf 0 m.jt = true) (low : a ≠ MSQ_JT_DONE_LO)
    (high : a ≠ MSQ_JT_DONE_HI) : HoldsReg a m.csr (endUnrun e fin cls m).csr := by
  obtain ⟨n, -, csr, ends⟩ := endUnrun_eq (e := e) (fin := fin) (cls := cls) h
  rw [ends, ← csr]
  exact closeEntry_holds (m := jtPut e 10 _ n) low high

/-- Whether a cancel found its entry done, as MSQ_JT_CMD notes it. -/
def lateNoted (b : Bool) (m : Mc) : Mc := { m with csr := wrB m.csr MSQ_JT_CMD.LATE b }

theorem lateNoted_late {b : Bool} {m : Mc} (h : twf 0 m.csr = true) : rdB (lateNoted b m).csr MSQ_JT_CMD.LATE = b :=
  rdB_wrB_same _ _ _ rfl (by decide) h

section
variable {k : Fin 4} {e : Nat} {s : State}

theorem jtCancel_armed (armed : jtState (mcOf s k) e = 1) :
    mcOf (jtCancel k e s) k = endUnrun e 1 3 (lateNoted false (mcOf s k)) := by
  have ends : jtCancel k e s = jobEndHook k e 3 (modMc k (endUnrun e 1 3) (mcReg k (fun c => wrB c MSQ_JT_CMD.LATE false) s)) := by
    rw [jtCancel, armed]
    rfl
  rw [ends, mcOf_jobEndHook, mcOf_modMc_same, mcReg, mcOf_modMc_same]
  rfl

theorem jtCancel_running {j : Job} (runs : jtState (mcOf s k) e = 2) (job : (mcOf s k).job = some j) (entry : j.entry = e) :
    jtCancel k e s = setMc k { lateNoted false (mcOf s k) with job := some { j with cancel := true } } s := by
  have marked : (lateNoted false (mcOf s k)).job.map (fun j => if j.entry = e then { j with cancel := true } else j) =
      some { j with cancel := true } := by
    rw [lateNoted, job, Option.map_some, if_pos entry]
  rw [jtCancel, runs, ← marked]
  exact modMc_modMc

theorem jtCancel_done (done : jtState (mcOf s k) e = 3) : jtCancel k e s = setMc k (lateNoted true (mcOf s k)) s := by
  rw [jtCancel, done]
  rfl

theorem jtCancel_free (free : jtState (mcOf s k) e = 0) : jtCancel k e s = setMc k (lateNoted false (mcOf s k)) s := by
  rw [jtCancel, free]
  rfl

/-- With no sector being written the head is at a sector boundary already. -/
theorem slotEnd_between {cont : Bool} {j : Job} (job : (mcOf s k).job = some j) (between : j.writing = none) :
    slotEnd k cont s = s := by
  rw [slotEnd, job]
  dsimp only
  rw [between]

theorem cancelEffect_between {j : Job} (job : (mcOf s k).job = some j) (cancel : j.cancel = true) (between : j.writing = none) :
    mcOf (cancelEffect k s) k = jobEnded 1 3 0 j (mcOf s k) := by
  rw [cancelEffect, job]
  dsimp only
  rw [if_pos cancel, slotEnd_between job between, mcOf_endJob job]

end

/-- Settles O41: each state of the entry has its own effect, and a mark takes effect as the end of the job it marks. -/
theorem cancelFollowsTheEntrysState : Obligations.CancelFollowsTheEntrysState := by
  unfold Obligations.CancelFollowsTheEntrysState
  intro k e s canonical table present _
  have row : exec (.jtCancel k e) s = .next (settle (jtCancel k e s)) := exec_of_settle_onMc present rfl
  refine ⟨fun armed => ⟨_, row, ?_⟩, fun runs j job entry => ?_, fun done => ⟨lateNoted true (mcOf s k), ?_, lateNoted_late canonical, rfl⟩,
    fun free => ⟨lateNoted false (mcOf s k), ?_, lateNoted_late canonical, rfl⟩, fun j job cancel between entry => ?_⟩
  · have done := endUnrun_done (e := e) (fin := 1) (cls := 3) (m := lateNoted false (mcOf s k)) table
    have late : rdB (endUnrun e 1 3 (lateNoted false (mcOf s k))).csr MSQ_JT_CMD.LATE = false := by
      obtain ⟨-, held⟩ := endUnrun_holds (e := e) (fin := 1) (cls := 3) (a := MSQ_JT_CMD) (m := lateNoted false (mcOf s k))
        table (by decide) (by decide) (wrB_twf _ _ _ canonical)
      rw [rdB, rdF, held]
      exact lateNoted_late canonical
    rw [jtCancel_armed armed, done.field, done.field]
    exact ⟨done.state, late, by decide, by decide, endUnrun_unarmed _ _ _ _⟩
  · rw [row, jtCancel_running runs job entry]
    rfl
  · rw [row, jtCancel_done done]
  · rw [row, jtCancel_free free]
  · have done : EntryDone (jobEnded 1 3 0 j (mcOf s k)) e (endWord 1 3 0 j) := entry ▸ jobEnded_done table
    obtain ⟨fin, cls, -⟩ := endWord_fields (fin := 1) (cls := 3) (stop := 0) (j := j) (by decide) (by decide) (by decide)
    refine ⟨cancelEffect k s, exec_of_settle_onMc present rfl, ?_⟩
    rw [cancelEffect_between job cancel between, done.field, done.field]
    exact ⟨jobEnded_gates.1, done.state, fin, cls⟩

end Sys2Proof.Machine
end

section
namespace Sys2Proof.Machine

/-! ### What a stop records (R130) -/

theorem wordSetField_div (w : Word) {hi lo : Nat} (v : Nat) (hw : lo ≤ hi) (h32 : hi < 32) :
    (wordSetField w hi lo v).toNat / 2 ^ (hi + 1) = w.toNat / 2 ^ (hi + 1) := by
  have width : (2 : Nat) ^ 32 = 2 ^ (hi + 1) * 2 ^ (31 - hi) := by rw [← pow_add]; congr 1; omega
  have split : (2 : Nat) ^ (hi + 1) = 2 ^ lo * 2 ^ (hi + 1 - lo) := by rw [← pow_add]; congr 1; omega
  have low : w.toNat % 2 ^ lo + v % 2 ^ (hi + 1 - lo) * 2 ^ lo < 2 ^ (hi + 1) := by
    have field : v % 2 ^ (hi + 1 - lo) < 2 ^ (hi + 1 - lo) := Nat.mod_lt _ (by positivity)
    have rest : w.toNat % 2 ^ lo < 2 ^ lo := Nat.mod_lt _ (by positivity)
    have next : v % 2 ^ (hi + 1 - lo) * 2 ^ lo + 2 ^ lo ≤ 2 ^ (hi + 1 - lo) * 2 ^ lo :=
      (Nat.succ_mul ..).symm.trans_le (Nat.mul_le_mul_right _ field)
    rw [split, Nat.mul_comm (2 ^ lo), Nat.add_comm]
    exact (Nat.add_lt_add_left rest _).trans_le next
  have high : w.toNat / 2 ^ (hi + 1) < 2 ^ (31 - hi) := by
    rw [Nat.div_lt_iff_lt_mul (by positivity), mul_comm, ← width]
    exact w.isLt
  rw [wordSetField, BitVec.toNat_ofNat, width, Nat.mod_mul_right_div_self, Nat.shiftRight_eq_div_pow,
    Nat.add_mul_div_right _ _ (by positivity), Nat.div_eq_of_lt low, Nat.zero_add, Nat.mod_eq_of_lt high]

/-- The write of a field leaves the field above it as it was. -/
theorem wordField_set_below (w : Word) {hi lo hi' lo' : Nat} (v : Nat) (above : hi < lo') (hw : lo ≤ hi) (h32 : hi < 32) :
    wordField (wordSetField w hi lo v) hi' lo' = wordField w hi' lo' := by
  have split : (2 : Nat) ^ lo' = 2 ^ (hi + 1) * 2 ^ (lo' - (hi + 1)) := by rw [← pow_add]; congr 1; omega
  rw [wordField, wordField, Nat.shiftRight_eq_div_pow, Nat.shiftRight_eq_div_pow, split, ← Nat.div_div_eq_div_mul,
    wordSetField_div w v hw h32, Nat.div_div_eq_div_mul]

/-- A field that another field of its register is written beside. -/
theorem rdF_wrF_apart (t : List (Nat × Word)) (f g : Fld) (v : Nat) (off : g.off = f.off) (apart : g.hi < f.lo ∨ f.hi < g.lo)
    (hw : f.lo ≤ f.hi) (h32 : f.hi < 32) (h : twf 0 t = true) : rdF (wrF t f v) g = rdF t g := by
  rw [rdF, rdF, wrF, off, rd_wr_same t f.off _ h]
  exact apart.elim (fun below => wordField_set_above _ _ below hw h32) (fun above => wordField_set_below _ _ above hw h32)

/-- What a stop writes into MSQ_STOP. -/
def stopRecord (code : Nat) (j : Job) (c : List (Nat × Word)) : List (Nat × Word) :=
  wrB (wrF (wrF (wrF c MSQ_STOP.JOB j.entry) MSQ_STOP.CODE code) MSQ_STOP.ADDR j.lastPc) MSQ_STOP.STICKY true

section
variable {code : Nat} {j : Job} {c : List (Nat × Word)}

theorem stopRecord_twf (h : twf 0 c = true) : twf 0 (stopRecord code j c) = true :=
  wrB_twf _ _ _ <| wrF_twf _ _ _ <| wrF_twf _ _ _ <| wrF_twf _ _ _ h

theorem stopRecord_fields (h : twf 0 c = true) : rdB (stopRecord code j c) MSQ_STOP.STICKY = true ∧
    rdF (stopRecord code j c) MSQ_STOP.CODE = code % 2 ^ 8 ∧ rdF (stopRecord code j c) MSQ_STOP.JOB = j.entry % 64 ∧
    rdF (stopRecord code j c) MSQ_STOP.ADDR = j.lastPc % 2 ^ 14 := by
  have job := wrF_twf c MSQ_STOP.JOB j.entry h
  have stop := wrF_twf _ MSQ_STOP.CODE code job
  have addr := wrF_twf _ MSQ_STOP.ADDR j.lastPc stop
  have sticky (g : Fld) (off : g.off = MSQ_STOP) (below : g.hi < 31) : rdF (stopRecord code j c) g =
      rdF (wrF (wrF (wrF c MSQ_STOP.JOB j.entry) MSQ_STOP.CODE code) MSQ_STOP.ADDR j.lastPc) g :=
    rdF_wrF_apart _ MSQ_STOP.STICKY g _ off (.inl below) (by decide) (by decide) addr
  refine ⟨rdB_wrB_same _ MSQ_STOP.STICKY true rfl (by decide) addr, ?_, ?_, ?_⟩
  · rw [sticky _ rfl (by decide), rdF_wrF_apart _ MSQ_STOP.ADDR MSQ_STOP.CODE _ rfl (by decide) (by decide) (by decide) stop]
    exact rdF_wrF_same _ MSQ_STOP.CODE code (by decide) (by decide) job
  · rw [sticky _ rfl (by decide), rdF_wrF_apart _ MSQ_STOP.ADDR MSQ_STOP.JOB _ rfl (by decide) (by decide) (by decide) stop,
      rdF_wrF_apart _ MSQ_STOP.CODE MSQ_STOP.JOB _ rfl (by decide) (by decide) (by decide) job]
    exact rdF_wrF_same _ MSQ_STOP.JOB j.entry (by decide) (by decide) h
  · rw [sticky _ rfl (by decide)]
    exact rdF_wrF_same _ MSQ_STOP.ADDR j.lastPc (by decide) (by decide) stop

end

/-- A stop is the end of the job, after MSQ_STOP is written. -/
theorem mcOf_stopJob {k : Fin 4} {code : Nat} {s : State} {j : Job} (job : (mcOf s k).job = some j) :
    mcOf (stopJob k code s) k =
      jobEnded 2 (stopClass code) code j { mcOf s k with csr := stopRecord code j (mcOf s k).csr } := by
  have recorded : mcOf (mcReg k (stopRecord code j) (cutWrite k s)) k =
      { mcOf s k with csr := stopRecord code j (mcOf s k).csr } := by
    rw [mcReg, mcOf_modMc_same, mcOf_cutWrite]
  have ends : stopJob k code s = endJob k 2 (stopClass code) code (mcReg k (stopRecord code j) (cutWrite k s)) := by
    rw [stopJob, job]
    rfl
  rw [ends, mcOf_endJob (j := j) (by rw [recorded, job]), recorded]

/-- A stop of the running job, by the entry and the last word that it stood at. -/
theorem stopJob_stoppedWith {k : Fin 4} {code : Nat} {s : State} {i j : Job} (job : (mcOf s k).job = some i)
    (entry : i.entry = j.entry) (last : i.lastPc = j.pc) (range : code < 2 ^ 8) (canonical : twf 0 (mcOf s k).csr = true) :
    stoppedWith k code j (stopJob k code s) := by
  obtain ⟨idle, wg, ag⟩ := jobEnded_gates (fin := 2) (cls := stopClass code) (stop := code) (j := i)
    (m := { mcOf s k with csr := stopRecord code i (mcOf s k).csr })
  obtain ⟨-, held⟩ := jobEnded_holds_stop (fin := 2) (cls := stopClass code) (stop := code) (j := i)
    (m := { mcOf s k with csr := stopRecord code i (mcOf s k).csr }) (stopRecord_twf canonical)
  obtain ⟨sticky, stop, who, addr⟩ := stopRecord_fields (code := code) (j := i) canonical
  rw [stoppedWith, mcOf_stopJob job]
  refine ⟨idle, wg, ag, ?_, ?_, ?_, ?_⟩
  · rwa [rdB, rdF, held]
  · rw [rdF, held]
    exact stop.trans (Nat.mod_eq_of_lt range)
  · rw [rdF, held, ← entry]
    exact who
  · rw [rdF, held, ← last]
    exact addr

end Sys2Proof.Machine
end

section
namespace Sys2Proof.Machine

/-! ### The rows that execute a word (R118, R131) -/

/-- The rows that execute a word, each with the sequencing code of the words it executes. -/
def sequencingRows (k : Fin 4) (x : MsqIn) : List (Instr × Nat) :=
  [(.seqJump k x, 0), (.seqBranch k x, 1), (.seqDispatch k x, 2), (.seqCall k x, 3), (.seqReturn k x, 4), (.seqWait k x, 5),
    (.seqLoop k x, 6), (.seqHalt k x, 7)]

theorem exec_sequencingRow {k : Fin 4} {x : MsqIn} {s : State} (present : mcAbsent s k = false) {p : Instr × Nat}
    (row : p ∈ sequencingRows k x) : exec p.1 s = .next (settle (stepWord k p.2 x s)) := by
  have runs (seq : Nat) := congrArg (fun t => (Host.Outcome.next (settle t) : Host.Outcome State Fault Refusal))
    (onMc_present k (stepWord k seq x) s present)
  revert p
  simp only [sequencingRows, List.forall_mem_cons]
  exact ⟨runs 0, runs 1, runs 2, runs 3, runs 4, runs 5, runs 6, runs 7, fun _ none => absurd none List.not_mem_nil⟩

/-- The word at the job's address is now the last one executed (R126). -/
def lastNoted (k : Fin 4) (s : State) : State := modJob k (fun j => { j with lastPc := j.pc }) s

section
variable {k : Fin 4} {s : State}

theorem modJob_eq {f : Job → Job} {j : Job} (job : (mcOf s k).job = some j) :
    modJob k f s = setMc k { mcOf s k with job := some (f j) } s := by
  rw [modJob, modMc, job]
  rfl

theorem lastNoted_eq {j : Job} (job : (mcOf s k).job = some j) :
    modJob k (fun x => { x with lastPc := j.pc }) s = lastNoted k s := by
  rw [lastNoted, modJob_eq job, modJob_eq job]

theorem mcOf_lastNoted {j : Job} (job : (mcOf s k).job = some j) :
    mcOf (lastNoted k s) k = { mcOf s k with job := some { j with lastPc := j.pc } } := by
  rw [lastNoted, modJob_eq job, mcOf_setMc_same]

/-- A row that finds a word in the store at the job's address: the parity stop, or the word if it is of the row's mode. -/
theorem stepWord_fetched {seq w : Nat} {x : MsqIn} {j : Job} (job : (mcOf s k).job = some j) (words : j.mode = .words)
    (fetched : fetchWord (mcOf s k) j.pc = some w) : stepWord k seq x s =
      if !parityOk w then parityStop k j x.imgBad (lastNoted k s)
      else if mwSeq w = seq then runWord k w x (lastNoted k s) else lastNoted k s := by
  have again : fetchWord (mcOf (lastNoted k s) k) j.pc = some w := by
    rw [mcOf_lastNoted job]
    exact fetched
  rw [stepWord, job]
  dsimp only
  rw [words, lastNoted_eq job]
  dsimp only
  rw [again]

end

/-! ### A word that fails parity (R131) -/

theorem mcOf_machineCheck {unit code sev : Nat} {addr info : Word} {s : State} {k : Fin 4} :
    mcOf (machineCheck unit code sev addr info s) k = mcOf s k := by
  rw [machineCheck_changes]
  rfl

theorem stoppedWith.of_channel {k : Fin 4} {code : Nat} {j : Job} {u v : State} (h : stoppedWith k code j u)
    (job : (mcOf v k).job = (mcOf u k).job) (wg : (mcOf v k).wg = (mcOf u k).wg) (ag : (mcOf v k).ag = (mcOf u k).ag)
    (stop : rd (mcOf v k).csr MSQ_STOP = rd (mcOf u k).csr MSQ_STOP) : stoppedWith k code j v := by
  obtain ⟨idle, wgLow, agLow, sticky, reason, who, addr⟩ := h
  have field (f : Fld) (off : f.off = MSQ_STOP) : rdF (mcOf v k).csr f = rdF (mcOf u k).csr f := by
    rw [rdF, rdF, off, stop]
  exact ⟨job.trans idle, wg.trans wgLow, ag.trans agLow, (congrArg (decide <| · ≠ 0) (field _ rfl)).trans sticky,
    (field _ rfl).trans reason, (field _ rfl).trans who, (field _ rfl).trans addr⟩

/-- The image of a word is told by the image's page in MSQ_IMG_BASE and by buffer memory. -/
theorem imageWord_congr {k : Fin 4} {a : Nat} {s t : State} (mem : t.mem = s.mem)
    (base : rd (mcOf t k).csr MSQ_IMG_BASE = rd (mcOf s k).csr MSQ_IMG_BASE) : imageWord t k a = imageWord s k a := by
  rw [imageWord, imageWord, mem, base]

theorem jobEnded_store {fin cls stop : Nat} {j : Job} {m : Mc} : (jobEnded fin cls stop j m).store = m.store := by
  rw [jobEnded, applyDisable]
  split <;> rfl

theorem stopJob_store {k : Fin 4} {code : Nat} {s : State} : (mcOf (stopJob k code s) k).store = (mcOf s k).store := by
  cases job : (mcOf s k).job with
  | none => rw [stopJob_idle _ _ _ job]
  | some j => rw [mcOf_stopJob job, jobEnded_store]

end Sys2Proof.Machine
end

section
namespace Sys2Proof.Machine

/-- A write that a parity stop cuts is counted as aborted (R91). -/
def parityAborted (k : Fin 4) (s : State) : State := if (mcOf s k).wg then mcReg k (faultCounted MC_WR_FAULT.PARITY) s else s

/-- What a parity stop does before the reload: a write is aborted, the job is stopped, and the failure is counted. -/
def parityStopped (k : Fin 4) (j : Job) (s : State) : State :=
  mcCount k MSQ_PAR_ERR 1 <| machineCheck (4 + k.val) 0x01 1 (BitVec.ofNat 32 j.pc) (BitVec.ofNat 32 j.entry) <|
    stopJob k 1 (parityAborted k s)

theorem parityStop_eq (k : Fin 4) (j : Job) (imgBad : Bool) (s : State) :
    parityStop k j imgBad s = reloadWord k j.pc imgBad (parityStopped k j s) := rfl

section
variable {k : Fin 4} {j : Job} {s : State}

theorem parityAborted_within : Within [.mcs] s (parityAborted k s) :=
  .ite (mcReg_within fun _ h => incF_twf (wrB_twf _ _ _ h)) .refl

theorem parityAborted_keeps : (mcOf (parityAborted k s) k).job = (mcOf s k).job ∧
    (mcOf (parityAborted k s) k).store = (mcOf s k).store ∧
    ∀ a, a ≠ MC_WR_FAULT → HoldsReg a (mcOf s k).csr (mcOf (parityAborted k s) k).csr := by
  rw [parityAborted]
  split
  · rw [mcReg, mcOf_modMc_same]
    exact ⟨rfl, rfl, fun _ ne => .trans (.wrB ne) (.wrF ne)⟩
  · exact ⟨rfl, rfl, fun _ _ => .refl⟩

theorem parityStopped_within : Within [.sys, .evr, .mck, .mcs, .media, .ple, .free] s (parityStopped k j s) :=
  .after mcCount_within <| .after machineCheck_within <| .after stopJob_within <| parityAborted_within.mono

theorem mcOf_parityStopped : mcOf (parityStopped k j s) k = { mcOf (stopJob k 1 (parityAborted k s)) k with
    csr := incR (mcOf (stopJob k 1 (parityAborted k s)) k).csr MSQ_PAR_ERR 1 } := by
  rw [parityStopped, mcCount, mcReg, mcOf_modMc_same, mcOf_machineCheck]

theorem parityStopped_store : (mcOf (parityStopped k j s) k).store = (mcOf s k).store := by
  obtain ⟨-, store, -⟩ := parityAborted_keeps (k := k) (s := s)
  rw [mcOf_parityStopped]
  exact stopJob_store.trans store

/-- The stop holds the registers that a reload reads or that the failure is counted in. -/
theorem parityStopped_holds {a : Nat} (fault : a ≠ MC_WR_FAULT) (stop : a ∉ stopRegs) :
    HoldsReg a (mcOf s k).csr (mcOf (stopJob k 1 (parityAborted k s)) k).csr := by
  obtain ⟨-, -, regs⟩ := parityAborted_keeps (k := k) (s := s)
  exact .trans (regs a fault) ((stopJob_stays ..).regs a stop)

variable (canonical : twf 0 (mcOf s k).csr = true)
include canonical

theorem parityStopped_count :
    (rd (mcOf (parityStopped k j s) k).csr MSQ_PAR_ERR).toNat = min 0xFFFFFFFF ((rd (mcOf s k).csr MSQ_PAR_ERR).toNat + 1) := by
  obtain ⟨stopped, held⟩ := parityStopped_holds (a := MSQ_PAR_ERR) (by decide) (by decide) canonical
  rw [mcOf_parityStopped]
  exact (incR_toNat _ _ _ stopped).trans (by rw [held])

theorem parityStopped_image {a : Nat} : imageWord (parityStopped k j s) k a = imageWord s k a := by
  obtain ⟨stopped, held⟩ := parityStopped_holds (a := MSQ_IMG_BASE) (by decide) (by decide) canonical
  refine imageWord_congr (parityStopped_within.frame .mem (by decide)) ?_
  rw [mcOf_parityStopped]
  exact (incR_other _ _ _ _ (by decide) stopped).trans held

theorem parityStopped_stoppedWith {i : Job} (job : (mcOf s k).job = some i) (entry : i.entry = j.entry) (last : i.lastPc = j.pc) :
    stoppedWith k 1 j (parityStopped k j s) := by
  obtain ⟨same, -, regs⟩ := parityAborted_keeps (k := k) (s := s)
  obtain ⟨aborted, -⟩ := regs MSQ_STOP (by decide) canonical
  have stopped := stopJob_stoppedWith (code := 1) (same.trans job) entry last (by decide) aborted
  have channel := mcOf_parityStopped (k := k) (j := j) (s := s)
  refine stopped.of_channel ?_ ?_ ?_ ?_
  · rw [channel]
  · rw [channel]
  · rw [channel]
  · obtain ⟨canon, -⟩ := parityStopped_holds (a := MSQ_PAR_ERR) (by decide) (by decide) canonical
    rw [channel]
    exact incR_other _ _ _ _ (by decide) canon

end

theorem parityStopped_checks {k : Fin 4} {j : Job} {s : State} (h : twf 0 s.mck.csr = true) :
    (rd (parityStopped k j s).mck.csr MCK_COUNT).toNat = min 0xFFFFFFFF ((rd s.mck.csr MCK_COUNT).toNat + 1) := by
  have before : (stopJob k 1 (parityAborted k s)).mck = s.mck :=
    (Within.after stopJob_within (parityAborted_within.mono (F := [.mcs, .media, .ple]))).frame .mck (by decide)
  refine (machineCheck_count _ _ _ _ _ _ (before ▸ h)).trans ?_
  rw [before]

section
variable {k : Fin 4} {a : Nat} {imgBad : Bool} {s : State}

/-- The test for a reload that fails. -/
theorem reload_fails_iff : (imgBad || !parityOk (imageWord s k a)) = !(!imgBad && parityOk (imageWord s k a)) := by
  rw [Bool.not_and, Bool.not_not]

theorem reloadWord_good (good : (!imgBad && parityOk (imageWord s k a)) = true) : reloadWord k a imgBad s =
    modMc k (fun m => { m with store := tput storeUnset m.store a (imageWord s k a) }) s := by
  rw [reloadWord, reload_fails_iff, good]
  rfl

theorem reloadWord_bad (bad : (!imgBad && parityOk (imageWord s k a)) = false) : reloadWord k a imgBad s =
    machineCheck (4 + k.val) 0x02 2 (BitVec.ofNat 32 a) 0 (mcReg k (fun c => wrB c MSQ_STAT.DEAD true) s) := by
  rw [reloadWord, reload_fails_iff, bad]
  rfl

theorem mcOf_reloadWord_good (good : (!imgBad && parityOk (imageWord s k a)) = true) : mcOf (reloadWord k a imgBad s) k =
    { mcOf s k with store := tput storeUnset (mcOf s k).store a (imageWord s k a) } := by
  rw [reloadWord_good good, mcOf_modMc_same]

theorem mcOf_reloadWord_bad (bad : (!imgBad && parityOk (imageWord s k a)) = false) : mcOf (reloadWord k a imgBad s) k =
    { mcOf s k with csr := wrB (mcOf s k).csr MSQ_STAT.DEAD true } := by
  rw [reloadWord_bad bad, mcOf_machineCheck, mcReg, mcOf_modMc_same]

/-- A reload writes no register of the channel but MSQ_STAT, and neither gates nor job. -/
theorem reloadWord_keeps (canonical : twf 0 (mcOf s k).csr = true) :
    (mcOf (reloadWord k a imgBad s) k).job = (mcOf s k).job ∧ (mcOf (reloadWord k a imgBad s) k).wg = (mcOf s k).wg ∧
    (mcOf (reloadWord k a imgBad s) k).ag = (mcOf s k).ag ∧
    ∀ b, b ≠ MSQ_STAT → rd (mcOf (reloadWord k a imgBad s) k).csr b = rd (mcOf s k).csr b := by
  cases good : !imgBad && parityOk (imageWord s k a) with
  | true =>
    rw [mcOf_reloadWord_good good]
    exact ⟨rfl, rfl, rfl, fun _ _ => rfl⟩
  | false =>
    rw [mcOf_reloadWord_bad good]
    exact ⟨rfl, rfl, rfl, fun _ ne => rd_wrF_other _ _ _ _ ne canonical⟩

/-- A reload that fails is one machine check more. -/
theorem reloadWord_checks (canonical : twf 0 s.mck.csr = true) (room : (rd s.mck.csr MCK_COUNT).toNat < 0xFFFFFFFF) :
    (rd (reloadWord k a imgBad s).mck.csr MCK_COUNT).toNat =
      (rd s.mck.csr MCK_COUNT).toNat + if !imgBad && parityOk (imageWord s k a) then 0 else 1 := by
  cases good : !imgBad && parityOk (imageWord s k a) with
  | true => rw [reloadWord_good good, modMc_mck, if_pos rfl, Nat.add_zero]
  | false =>
    rw [reloadWord_bad good, if_neg Bool.false_ne_true, machineCheck_count _ _ _ _ _ _ (by rw [mcReg_mck]; exact canonical),
      mcReg_mck]
    exact Nat.min_eq_right room

end

/-- While the sequencer is DEAD every ARM is rejected (R131). -/
theorem armRejected_of_dead {s : State} {k : Fin 4} {e : Nat} (dead : rdB (mcOf s k).csr MSQ_STAT.DEAD = true) :
    armRejected s k e = true := by
  have state : msqState (mcOf s k) = 0 := by rw [msqState, dead, Bool.or_true, if_pos rfl]
  simp only [armRejected, state, decide_true, Bool.or_true, Bool.true_or]

/-- The parity stop of a running job: what is stopped, what is counted, and what the reload comes to (R131). -/
theorem parityStop_outcome {k : Fin 4} {i j : Job} {imgBad : Bool} {s : State} (regs : Registers s)
    (store : twf storeUnset (mcOf s k).store = true) (job : (mcOf s k).job = some i) (entry : i.entry = j.entry)
    (last : i.lastPc = j.pc) (checks : (rd s.mck.csr MCK_COUNT).toNat < 0xFFFFFFF0)
    (errors : (rd (mcOf s k).csr MSQ_PAR_ERR).toNat < 0xFFFFFFFF) :
    let good := !imgBad && parityOk (imageWord s k j.pc)
    let u := parityStop k j imgBad s
    stoppedWith k 1 j u ∧ (rd (mcOf u k).csr MSQ_PAR_ERR).toNat = (rd (mcOf s k).csr MSQ_PAR_ERR).toNat + 1 ∧
      (rd u.mck.csr MCK_COUNT).toNat = (rd s.mck.csr MCK_COUNT).toNat + (if good then 1 else 2) ∧
      (good = true → tget storeUnset (mcOf u k).store j.pc = imageWord s k j.pc) ∧
      (good = false → (mcOf u k).store = (mcOf s k).store ∧ rdB (mcOf u k).csr MSQ_STAT.DEAD = true) := by
  have image := parityStopped_image (j := j) (a := j.pc) (regs.mcs k)
  have stopped := parityStopped_stoppedWith (regs.mcs k) job entry last
  have counted := parityStopped_count (j := j) (regs.mcs k)
  have checked := parityStopped_checks (k := k) (j := j) regs.mck
  have kept := parityStopped_store (k := k) (j := j) (s := s)
  have after : Registers (parityStopped k j s) := parityStopped_within.regs regs
  dsimp only
  rw [parityStop_eq, ← image, ← kept]
  generalize parityStopped k j s = v at *
  obtain ⟨idle, wg, ag, other⟩ := reloadWord_keeps (a := j.pc) (imgBad := imgBad) (after.mcs k)
  refine ⟨stopped.of_channel idle wg ag (other _ (by decide)), ?_, ?_, fun good => ?_, fun bad => ?_⟩
  · rw [other _ (by decide), counted]
    exact Nat.min_eq_right errors
  · rw [reloadWord_checks after.mck (by omega), checked]
    split <;> omega
  · rw [mcOf_reloadWord_good good]
    exact tget_tput_same _ _ _ _ (by rw [kept]; exact store)
  · rw [mcOf_reloadWord_bad bad]
    exact ⟨rfl, rdB_wrB_same _ _ _ rfl (by decide) (after.mcs k)⟩

/-- Settles O39: whichever row executes the word, the stop comes first, and the reload finds the store and the image as they
were. -/
theorem parityFailureStopsAndReloads : Obligations.ParityFailureStopsAndReloads := by
  unfold Obligations.ParityFailureStopsAndReloads
  refine ⟨fun k x s j w c registers store present job words _ _ fetched failed row checks errors => ?_,
    fun k e s => armRejected_of_dead⟩
  have channel := mcOf_lastNoted job
  have regs : Registers (lastNoted k s) := modJob_within.regs ((regsWf_iff s).mp registers)
  have image : imageWord (lastNoted k s) k j.pc = imageWord s k j.pc := imageWord_congr rfl (by rw [channel])
  have outcome := parityStop_outcome (i := { j with lastPc := j.pc }) (j := j) (imgBad := x.imgBad) regs
    (by rw [channel]; exact store) (by rw [channel]) rfl rfl checks (by rw [channel]; exact errors)
  rw [image, channel] at outcome
  refine ⟨parityStop k j x.imgBad (lastNoted k s), ?_, outcome⟩
  obtain ⟨p, member, rfl⟩ := List.mem_map.mp (show c ∈ (sequencingRows k x).map Prod.fst from row)
  rw [exec_sequencingRow present member, stepWord_fetched job words fetched, failed]
  rfl

end Sys2Proof.Machine
end

section
namespace Sys2Proof.Machine

/-! ### The head comes to the word (R109, R116) -/

/-- Where a job stands: at the word it is to execute, and at the last one that it executed. -/
def place (j : Job) : Nat × Nat := (j.pc, j.lastPc)

/-- A Media Channel keeps its tables canonical, and its job, if it still runs, stands where it stood. -/
structure HeadStays (k : Fin 4) (s t : State) : Prop where
  csr : twf 0 (mcOf s k).csr = true → twf 0 (mcOf t k).csr = true
  jt : twf 0 (mcOf s k).jt = true → twf 0 (mcOf t k).jt = true
  job : ∀ j, (mcOf t k).job = some j → (mcOf s k).job.map place = some (place j)

namespace HeadStays
variable {k : Fin 4} {s t u : State}

protected theorem refl : HeadStays k s s := ⟨id, id, fun _ job => congrArg (Option.map place) job⟩

/-- A second operation, named first as in the model's text, after a first one. -/
theorem comp (g : HeadStays k t u) (h : HeadStays k s t) : HeadStays k s u where
  csr := g.csr ∘ h.csr
  jt := g.jt ∘ h.jt
  job j job := by
    obtain ⟨i, before, same⟩ := Option.map_eq_some_iff.mp (g.job j job)
    rw [h.job i before, same]

theorem ite {c : Prop} [Decidable c] (h : HeadStays k s t) (g : HeadStays k s u) : HeadStays k s (if c then t else u) := by
  split <;> assumption

theorem modMc {f : Mc → Mc} (csr : ∀ m, Canon Mc.csr m → Canon Mc.csr (f m)) (jt : ∀ m, (f m).jt = m.jt)
    (job : ∀ m, (f m).job = m.job) : HeadStays k s (modMc k f s) := by
  refine ⟨fun h => ?_, fun h => ?_, fun j h => ?_⟩
  · rw [mcOf_modMc_same]
    exact csr _ h
  · rw [mcOf_modMc_same, jt]
    exact h
  · rw [mcOf_modMc_same, job] at h
    exact congrArg (Option.map place) h

/-- An update of a Media Channel that leaves its registers, its Job Table and its job alone. -/
theorem modMc_rest {f : Mc → Mc} (csr : ∀ m, (f m).csr = m.csr := by exact fun _ => rfl)
    (jt : ∀ m, (f m).jt = m.jt := by exact fun _ => rfl) (job : ∀ m, (f m).job = m.job := by exact fun _ => rfl) :
    HeadStays k s (Machine.modMc k f s) :=
  .modMc (fun m h => (congrArg (twf 0) (csr m)).trans h) jt job

theorem modJob {f : Job → Job} (h : ∀ j, place (f j) = place j) : HeadStays k s (modJob k f s) := by
  refine ⟨fun csr => ?_, fun jt => ?_, fun j job => ?_⟩
  · rwa [modJob_csr]
  · rwa [Machine.modJob, mcOf_modMc_same]
  · rw [modJob_job] at job
    obtain ⟨i, before, moved⟩ := Option.map_eq_some_iff.mp job
    rw [before, Option.map_some, ← moved, h]

theorem of_mcs (h : t.mcs = s.mcs) : HeadStays k s t := by
  have channel : mcOf t k = mcOf s k := by rw [mcOf, mcOf, h]
  exact ⟨fun csr => by rwa [channel], fun jt => by rwa [channel], fun j job => by rw [← channel, job]; rfl⟩

/-- A stop leaves no job that could stand elsewhere. -/
theorem stopJob {code : Nat} : HeadStays k s (stopJob k code s) := by
  cases job : (mcOf s k).job with
  | none => rw [stopJob_idle _ _ _ job]; exact .refl
  | some j =>
    refine ⟨fun csr => ?_, fun jt => ?_, fun i runs => ?_⟩
    · rw [mcOf_stopJob job]
      exact jobEnded_canon (stopRecord_twf csr)
    · rw [mcOf_stopJob job]
      exact jobEnded_jt_twf jt
    · rw [stopJob_job] at runs
      cases runs

end HeadStays

theorem dutyRefuse_headStays {k s} : HeadStays k s (dutyRefuse k s) :=
  .comp .stopJob <| .modMc (fun _ h => wrB_twf _ _ _ h) (fun _ => rfl) fun _ => rfl

theorem putSector_headStays {k e slot data s} : HeadStays k s (putSector k e slot data s) :=
  .ite .refl <| .comp .modMc_rest (.of_mcs rfl)

theorem trackLoops_headStays {k s} : HeadStays k s (trackLoops k s) := by
  unfold trackLoops
  exact .comp (.modMc (fun _ h => wrF_twf _ _ _ (wrF_twf _ _ _ h)) (fun _ => rfl) fun _ => rfl) (.of_mcs rfl)

theorem slotEnd_headStays {k cont s} : HeadStays k s (slotEnd k cont s) := by
  unfold slotEnd
  split
  · exact .refl
  · split
    · exact .refl
    · extract_lets q t rest next ended
      have put : HeadStays k s t := by
        clear_value q
        cases q with
        | some q => exact putSector_headStays
        | none => exact .refl
      have cut : HeadStays k s ended := .comp (.modJob fun _ => rfl) put
      have low {f : Mc → Mc} (h : ∀ m, (f m).csr = m.csr ∧ (f m).jt = m.jt ∧ (f m).job = m.job) :
          HeadStays k s (modMc k f ended) := .comp (.modMc_rest (fun m => (h m).1) (fun m => (h m).2.1) fun m => (h m).2.2) cut
      have fall : HeadStays k s (modMc k wgFall ended) := low fun _ => ⟨rfl, rfl, rfl⟩
      have drop : HeadStays k s (dropGates k ended) := low fun _ => ⟨rfl, rfl, rfl⟩
      exact .ite drop <| .ite fall <| .ite (.comp dutyRefuse_headStays cut) <| .ite (.comp (.modJob fun _ => rfl) put) <|
        .ite drop <| .ite (.comp .stopJob fall) fall

theorem slotEnds_headStays {k off n s} : HeadStays k s (slotEnds k off n s) := by
  induction n generalizing s with
  | zero => exact .refl
  | succ n ih => exact .comp ih slotEnd_headStays

theorem footprintPassed_headStays {k e i s} : HeadStays k s (footprintPassed k e i s) :=
  .ite .modMc_rest <| .ite (.comp trackLoops_headStays .modMc_rest) <| .comp .modMc_rest .modMc_rest

theorem headMoves_headStays {k off i s} : HeadStays k s (headMoves k off i s) := by
  unfold headMoves
  split
  · exact .refl
  · exact .comp slotEnds_headStays <| .comp footprintPassed_headStays (.modJob fun _ => rfl)

/-- As a word is executed its job stands at it, and the tables are canonical that were. -/
theorem comesTo_stands {k : Fin 4} {x : MsqIn} {s : State} {i j : Job} (job : (mcOf s k).job = some i)
    (runs : (mcOf (comesTo k x s) k).job = some j) : j.pc = i.pc ∧ j.lastPc = j.pc ∧
    (twf 0 (mcOf s k).csr = true → twf 0 (mcOf (comesTo k x s) k).csr = true) ∧
    (twf 0 (mcOf s k).jt = true → twf 0 (mcOf (comesTo k x s) k).jt = true) := by
  obtain ⟨csr, jt, stands⟩ : HeadStays k (lastNoted k s) (comesTo k x s) := headMoves_headStays
  have channel := mcOf_lastNoted job
  have same := stands j runs
  rw [channel] at csr jt same
  obtain ⟨pc, last⟩ : i.pc = j.pc ∧ i.pc = j.lastPc := Prod.mk.inj (Option.some.inj same)
  exact ⟨pc.symm, last.symm.trans pc, csr, jt⟩

end Sys2Proof.Machine
end

section
namespace Sys2Proof.Machine

/-! ### A word that only sequences (R108, R118, R122) -/

/-- Below bit 114 a word that only sequences has no field set. -/
theorem mwF_of_idle {w : Nat} (idle : w % 2 ^ 114 = 0) {hi : Nat} (lo : Nat) (below : hi < 114) : mwF w hi lo = 0 := by
  rw [mwF, Nat.shiftRight_eq_div_pow, ← field_mod_two_pow _ below, idle, Nat.zero_div, Nat.zero_mod]

theorem mwNext_lt (w : Nat) : mwNext w < 2 ^ 14 := Nat.mod_lt _ (by decide)

section
variable {w : Nat} (idle : w % 2 ^ 114 = 0)
include idle

/-- Such a word is legal if LOOP and DISPATCH name a condition that they may. -/
theorem illegalWord_of_idle (loop : mwSeq w = 6 → mwCond w = 0) (dispatch : mwSeq w = 2 → mwCond w ≤ 3) :
    illegalWord w = false := by
  have zero {hi : Nat} (lo : Nat) (below : hi < 114) := mwF_of_idle idle lo below
  have codes : ¬ (mwRgate w = 3 ∨ mwWgate w = 3 ∨ mwAgate w = 3 ∨ 5 ≤ mwSync w ∨ 7 ≤ mwEcc w ∨ 6 ≤ mwStripe w ∨ 7 ≤ mwBuf w ∨
      4 ≤ mwXfer w ∨ 4 ≤ mwHtr w ∨ 6 ≤ mwCtrA w ∨ 6 ≤ mwCtrB w ∨ 8 ≤ mwDest w ∨ 5 ≤ mwTimer w ∨ 3 ≤ mwSrv w ∨
      mwReserved w ≠ 0) := by
    simp [mwRgate, mwWgate, mwAgate, mwSync, mwEcc, mwStripe, mwBuf, mwXfer, mwHtr, mwCtrA, mwCtrB, mwDest, mwTimer, mwSrv,
      mwReserved, zero]
  have counter : mwCtrA w = 0 := zero 68 (by decide)
  have dest : mwDest w = 0 := zero 45 (by decide)
  rw [illegalWord, decide_eq_false codes, decide_eq_false, decide_eq_false, decide_eq_false]
  · rfl
  · rw [dest]
    exact fun ⟨_, moves⟩ => absurd moves (by decide)
  · exact fun ⟨mode, cond⟩ => absurd (dispatch mode) (by omega)
  · rw [counter]
    exact fun ⟨mode, cond⟩ => cond.elim (absurd (loop mode)) (absurd rfl)

/-- It orders nothing that could be out of place. -/
theorem illegalOrder_of_idle (s : State) (k : Fin 4) (j : Job) : illegalOrder s k j w = false := by
  have ecc : mwEcc w = 0 := mwF_of_idle idle 96 (by decide)
  have stripe : mwStripe w = 0 := mwF_of_idle idle 93 (by decide)
  simp [illegalOrder, ecc, stripe]

end

/-! What its fields leave: all but a trace of the word. -/

theorem setMc_self (k : Fin 4) (s : State) : setMc k (mcOf s k) s = s := by
  rw [setMc, mcOf, quadSet_get]

theorem modMc_same {k : Fin 4} {f : Mc → Mc} {s : State} (same : f (mcOf s k) = mcOf s k) : modMc k f s = s := by
  rw [modMc, same, setMc_self]

theorem modJob_same {k : Fin 4} {f : Job → Job} {s : State} {j : Job} (job : (mcOf s k).job = some j) (same : f j = j) :
    modJob k f s = s := by
  refine modMc_same ?_
  rw [job, Option.map_some, same, ← job]

/-- The word, recorded in the trace buffer where the job records every word (R141). -/
def traced (k : Fin 4) (j : Job) (s : State) : State :=
  if j.traceAll then modMc k (traceWord j.entry j.sp j.pc) s else s

/-- A trace changes the trace buffer alone. -/
theorem mcOf_traced (k : Fin 4) (j : Job) (s : State) : ∃ l, mcOf (traced k j s) k = { mcOf s k with trace := l } := by
  rw [traced]
  split
  · rw [mcOf_modMc_same]
    exact ⟨_, rfl⟩
  · exact ⟨_, rfl⟩

theorem traced_job (k : Fin 4) (j : Job) (s : State) : (mcOf (traced k j s) k).job = (mcOf s k).job := by
  obtain ⟨l, channel⟩ := mcOf_traced k j s
  rw [channel]

section
variable {k : Fin 4} {w : Nat} {x : MsqIn} {j : Job} {s : State} (idle : w % 2 ^ 114 = 0)
include idle

theorem actRegs_idle (dataSlot : Bool) (first count budget : Nat) : actRegs w dataSlot first count budget j j = j := by
  have zero {hi : Nat} (lo : Nat) (below : hi < 114) := mwF_of_idle idle lo below
  simp [actRegs, mwBuf, mwXfer, mwCtrA, mwCtrB, mwDest, mwTimer, mwFlag, zero]

theorem actFrames_idle : actFrames k w j s = s := by
  have pre : mwPre w = 0 := mwF_of_idle idle 78 (by decide)
  have htr : mwHtr w = 0 := mwF_of_idle idle 75 (by decide)
  have assist : mwAssist w = 0 := mwF_of_idle idle 71 (by decide)
  simp [actFrames, pre, htr, assist]

theorem actSync_idle : actSync k w x j s = s := by
  rw [actSync, mwSync, mwF_of_idle idle 100 (by decide)]
  rfl

theorem actEcc_idle : actEcc k w x j s = s := by
  rw [actEcc, mwEcc, mwF_of_idle idle 96 (by decide)]
  rfl

theorem actStripe_idle : actStripe k w j s = s := by
  rw [actStripe, mwStripe, mwF_of_idle idle 93 (by decide)]
  rfl

theorem actRetry_idle : actRetry k w s = s := if_pos (mwF_of_idle idle 38 (by decide))

theorem actSrv_idle : actSrv k w j s = s := by
  rw [actSrv, mwSrv, mwF_of_idle idle 28 (by decide)]
  rfl

variable (job : (mcOf s k).job = some j)
include job

theorem actEvents_idle : actEvents k w j s = traced k j s := by
  have evt : mwEvt w = 0 := mwF_of_idle idle 34 (by decide)
  have trace : mwTrace w = 0 := mwF_of_idle idle 22 (by decide)
  have recorded : (mwTrace w = 1 ∨ mwTrace w = 2 ∨ (j.traceAll ∧ mwTrace w ≠ 3)) = (j.traceAll = true) := by
    simp [trace]
  rw [actEvents]
  simp only [recorded, evt, if_true]
  rw [trace]
  exact modJob_same ((traced_job k j s).trans job) rfl

theorem actGates_idle : actGates k w x j s = s := by
  have rgate : mwRgate w = 0 := mwF_of_idle idle 112 (by decide)
  have wgate : mwWgate w = 0 := mwF_of_idle idle 110 (by decide)
  have agate : mwAgate w = 0 := mwF_of_idle idle 108 (by decide)
  simp [actGates, rgate, wgate, agate, modJob_same job]

/-- Its actions trace it and do nothing else. -/
theorem actWord_idle : actWord k w x j s = traced k j s := by
  have zone : mwZone w = 0 := mwF_of_idle idle 43 (by decide)
  have runs : (mcOf (traced k j s) k).job = some j := (traced_job k j s).trans job
  have regs (dataSlot : Bool) (first count budget : Nat) :
      modJob k (actRegs w dataSlot first count budget j) (traced k j s) = traced k j s :=
    modJob_same runs (actRegs_idle idle _ _ _ _)
  simp [actWord, actEvents_idle idle job, actSync_idle idle, actEcc_idle idle, actStripe_idle idle, regs,
    actGates_idle idle runs, zone, actFrames_idle idle, actRetry_idle idle, actSrv_idle idle]

end

end Sys2Proof.Machine
end

section
namespace Sys2Proof.Machine

/-! ### Where a word sends control (R118, R122, R124) -/

/-- The running job stands at the word it executes, in a channel whose registers are canonical. -/
structure AtWord (k : Fin 4) (j : Job) (s : State) : Prop where
  job : (mcOf s k).job = some j
  last : j.lastPc = j.pc
  range : j.pc < 2 ^ 14
  csr : twf 0 (mcOf s k).csr = true

section
variable {k : Fin 4} {j : Job} {s : State}

theorem AtWord.stop (here : AtWord k j s) {code : Nat} (range : code < 2 ^ 8) : stoppedWith k code j (stopJob k code s) :=
  stopJob_stoppedWith here.job rfl here.last range here.csr

theorem AtWord.traced (here : AtWord k j s) : AtWord k j (traced k j s) := by
  refine ⟨(traced_job k j s).trans here.job, here.last, here.range, ?_⟩
  obtain ⟨l, channel⟩ := mcOf_traced k j s
  rw [channel]
  exact here.csr

section
variable {st : List Nat} {c : Nat} {b : Bool} (job : (mcOf s k).job = some { j with
    stack := st
    ctrA := c
    expired := b }) (last : j.lastPc = j.pc) (canonical : twf 0 (mcOf s k).csr = true)
include job last canonical

/-- Control that passes to an address of the store reaches it, but for the border that customer code may not cross (R124). -/
theorem goTo_continuesAt {n : Nat} (inside : n < 2 ^ 14) : continuesAt k j n st c (goTo k j.pc n s) := by
  rw [continuesAt, if_neg (Nat.ne_of_lt inside), goTo]
  by_cases border : 0x3800 ≤ j.pc ∧ 0x0100 ≤ n ∧ n ≤ 0x37FF
  · rw [if_pos border, if_pos border]
    exact stopJob_stoppedWith job rfl last (by decide) canonical
  · rw [if_neg border, if_neg border]
    refine ⟨{ j with stack := st, ctrA := c, expired := b, pc := n, mode := .words }, ?_, rfl, rfl, rfl, rfl, rfl, rfl, rfl, rfl,
      rfl, rfl, rfl, rfl, rfl, rfl, rfl, rfl⟩
    rw [modJob_job, job]
    rfl

/-- Control that passes on to a + 1 does so but past the last address, where the job has stopped (R122). -/
theorem passOn_continuesAt {v : State} (range : j.pc < 2 ^ 14) (stopped : stoppedWith k 2 j v) :
    continuesAt k j (j.pc + 1) st c (if j.pc = 0x3FFF then v else goTo k j.pc (j.pc + 1) s) := by
  split
  case isTrue top =>
    have past : j.pc + 1 = 2 ^ 14 := by omega
    rw [continuesAt, if_pos past]
    exact stopped
  case isFalse => exact goTo_continuesAt job last canonical (by omega)

end

end

/-- What a word that only sequences does once the head has come to it. -/
def sequencesOnly (k : Fin 4) (w : Nat) (cond : Bool) (j : Job) (s : State) : State :=
  if j.pc = 0x3FFF ∧ fallsThrough cond j w = true then stopJob k 2 s else sequence k w cond j (traced k j s)

section
variable {k : Fin 4} {w : Nat} {x : MsqIn} {i j : Job} {s : State}

theorem headMoves_idle (idle : w % 2 ^ 114 = 0) : headMoves k (decide (mwWgate w = 1)) x s = headMoves k false x s := by
  have wgate : mwWgate w = 0 := mwF_of_idle idle 110 (by decide)
  rw [wgate]
  rfl

theorem runWord_ended (idle : w % 2 ^ 114 = 0) (ended : (mcOf (headMoves k false x s) k).job = none) :
    runWord k w x s = headMoves k false x s := by
  rw [runWord, headMoves_idle idle]
  dsimp only
  rw [ended]

theorem runWord_idle (idle : w % 2 ^ 114 = 0) (loop : mwSeq w = 6 → mwCond w = 0) (dispatch : mwSeq w = 2 → mwCond w ≤ 3)
    (job : (mcOf (headMoves k false x s) k).job = some j) : runWord k w x s =
      sequencesOnly k w (condVal (headMoves k false x s) k j x (mwCond w)) j (headMoves k false x s) := by
  have runs : running (traced k j (headMoves k false x s)) k = true := by
    rw [running, traced_job, job]
    rfl
  rw [runWord, headMoves_idle idle]
  dsimp only
  rw [job]
  dsimp only
  rw [illegalWord_of_idle idle loop dispatch, illegalOrder_of_idle idle, actWord_idle idle job, runs, sequencesOnly]
  simp only [Bool.or_self, Bool.false_or, Bool.and_eq_true, decide_eq_true_eq, if_true]

/-- The row that executes the word at the job's address, after the head has come to it. -/
theorem exec_word (present : mcAbsent s k = false) (only : onlySequences s k i w) {p : Instr × Nat}
    (row : p ∈ sequencingRows k x) (mode : mwSeq w = p.2) : exec p.1 s = .next (settle (runWord k w x (lastNoted k s))) := by
  obtain ⟨job, words, fetched, parity, -, -⟩ := only
  rw [exec_sequencingRow present row, stepWord_fetched job words fetched, parity, if_neg (by decide), if_pos mode]

theorem exec_word_ended (present : mcAbsent s k = false) (only : onlySequences s k i w)
    (ended : (mcOf (comesTo k x s) k).job = none) {p : Instr × Nat} (row : p ∈ sequencingRows k x) (mode : mwSeq w = p.2) :
    exec p.1 s = .next (settle (comesTo k x s)) := by
  rw [exec_word present only row mode]
  obtain ⟨-, -, -, -, idle, -⟩ := only
  exact congrArg (fun u => Host.Outcome.next (settle u)) (runWord_ended idle ended)

theorem exec_word_sequences (present : mcAbsent s k = false) (only : onlySequences s k i w)
    (job : (mcOf (comesTo k x s) k).job = some j) (loop : mwSeq w = 6 → mwCond w = 0) (dispatch : mwSeq w = 2 → mwCond w ≤ 3)
    {p : Instr × Nat} (row : p ∈ sequencingRows k x) (mode : mwSeq w = p.2) : exec p.1 s =
      .next (settle (sequencesOnly k w (condVal (comesTo k x s) k j x (mwCond w)) j (comesTo k x s))) := by
  rw [exec_word present only row mode]
  obtain ⟨-, -, -, -, idle, -⟩ := only
  exact congrArg (fun u => Host.Outcome.next (settle u)) (runWord_idle idle loop dispatch job)

theorem atWord_of_only (only : onlySequences s k i w) (job : (mcOf (comesTo k x s) k).job = some j)
    (canonical : twf 0 (mcOf s k).csr = true) : AtWord k j (comesTo k x s) := by
  obtain ⟨before, -, -, -, -, range⟩ := only
  obtain ⟨pc, last, csr, -⟩ := comesTo_stands before job
  exact ⟨job, last, pc ▸ range, csr canonical⟩

end

section
variable {k : Fin 4} {w : Nat} {cond : Bool} {j : Job} {s : State}

/-- A word whose next address is a + 1. -/
theorem sequencesOnly_falls (here : AtWord k j s) (falls : fallsThrough cond j w = true)
    (next : sequence k w cond j (traced k j s) = goTo k j.pc (j.pc + 1) (traced k j s)) :
    continuesAt k j (j.pc + 1) j.stack j.ctrA (sequencesOnly k w cond j s) := by
  have same : sequencesOnly k w cond j s =
      if j.pc = 0x3FFF then stopJob k 2 s else goTo k j.pc (j.pc + 1) (traced k j s) := by
    rw [sequencesOnly, falls, next]
    simp only [and_true]
  rw [same]
  exact passOn_continuesAt here.traced.job here.last here.traced.csr here.range (here.stop (by decide))

/-- A word whose next address is its own to say. -/
theorem sequencesOnly_goes (goes : fallsThrough cond j w = false) :
    sequencesOnly k w cond j s = sequence k w cond j (traced k j s) :=
  if_neg fun ⟨_, falls⟩ => Bool.false_ne_true (goes.symm.trans falls)

end

end Sys2Proof.Machine
end

section
namespace Sys2Proof.Machine

/-! ### The sequencing modes (R117, R118) -/

theorem dispatchVal_lt (j : Job) (c : Nat) : dispatchVal j c < 16 := by
  unfold dispatchVal
  split <;> exact Nat.mod_lt _ (by decide)

section
variable {k : Fin 4} {w : Nat} {cond : Bool} {j : Job} {s : State} (here : AtWord k j s)
include here

/-- A word that goes to an address with the stack as it was, once CTRA is what it leaves. -/
theorem sequencesOnly_goTo {n : Nat} (goes : fallsThrough cond j w = false) (inside : n < 2 ^ 14)
    (next : sequence k w cond j (traced k j s) = goTo k j.pc n (traced k j s)) :
    continuesAt k j n j.stack j.ctrA (sequencesOnly k w cond j s) := by
  rw [sequencesOnly_goes goes, next]
  exact goTo_continuesAt here.traced.job here.last here.traced.csr inside

theorem jump_continues (mode : mwSeq w = 0) :
    continuesAt k j (if cond then mwNext w else j.pc + 1) j.stack j.ctrA (sequencesOnly k w cond j s) := by
  cases cond with
  | true => exact sequencesOnly_goTo here (by rw [fallsThrough, mode]; rfl) (mwNext_lt w) (by rw [sequence, mode]; rfl)
  | false => exact sequencesOnly_falls here (by rw [fallsThrough, mode]; rfl) (by rw [sequence, mode]; rfl)

theorem branch_continues (mode : mwSeq w = 1) : continuesAt k j (mwNext w / 2 * 2 + if cond then 1 else 0) j.stack j.ctrA
    (sequencesOnly k w cond j s) := by
  refine sequencesOnly_goTo here (by rw [fallsThrough, mode]; rfl) ?_ (by rw [sequence, mode]; rfl)
  have inside := mwNext_lt w
  split <;> omega

theorem dispatch_continues (mode : mwSeq w = 2) : continuesAt k j (mwNext w / 16 * 16 + dispatchVal j (mwCond w)) j.stack j.ctrA
    (sequencesOnly k w cond j s) := by
  refine sequencesOnly_goTo here (by rw [fallsThrough, mode]; rfl) ?_ (by rw [sequence, mode]; rfl)
  have inside := mwNext_lt w
  have source := dispatchVal_lt j (mwCond w)
  omega

theorem loop_continues (mode : mwSeq w = 6) : continuesAt k j (if j.ctrA = 0 then j.pc + 1 else mwNext w) j.stack
    (if j.ctrA = 0 then j.ctrA else j.ctrA - 1) (sequencesOnly k w cond j s) := by
  have falls : fallsThrough cond j w = decide (j.ctrA = 0) := by rw [fallsThrough, mode]; rfl
  have loops : sequence k w cond j (traced k j s) = if j.ctrA = 0 then goTo k j.pc (j.pc + 1) (traced k j s)
      else goTo k j.pc (mwNext w) (modJob k (fun x => { x with ctrA := j.ctrA - 1 }) (traced k j s)) := by
    rw [sequence, mode]
    rfl
  split
  case isTrue zero => exact sequencesOnly_falls here (by rw [falls, decide_eq_true zero]) (by rw [loops, if_pos zero])
  case isFalse more =>
    rw [sequencesOnly_goes (by rw [falls, decide_eq_false more]), loops, if_neg more]
    refine goTo_continuesAt (b := j.expired) ?_ here.last ?_ (mwNext_lt w)
    · rw [modJob_job, here.traced.job]
      rfl
    · rw [modJob_csr]
      exact here.traced.csr

end

/-- Settles O35: the word is run where the head has come to it, and each mode goes where its address says. -/
theorem sequencingModesSetTheNextAddress : Obligations.SequencingModesSetTheNextAddress := by
  unfold Obligations.SequencingModesSetTheNextAddress
  intro k x s j0 w canonical present only s1
  refine ⟨fun ended p row mode => exec_word_ended present only ended row mode, fun j job => ?_⟩
  intro n cond
  have here : AtWord k j s1 := atWord_of_only only job canonical
  have runs {p : Instr × Nat} (row : p ∈ sequencingRows k x) (mode : mwSeq w = p.2) (loop : mwSeq w = 6 → mwCond w = 0)
      (dispatch : mwSeq w = 2 → mwCond w ≤ 3) : exec p.1 s = .next (settle (sequencesOnly k w cond j s1)) :=
    exec_word_sequences present only job loop dispatch row mode
  refine ⟨fun mode => ⟨_, runs (p := (.seqJump k x, 0)) (by simp [sequencingRows]) mode ?_ ?_, jump_continues here mode⟩,
    fun mode => ⟨_, runs (p := (.seqBranch k x, 1)) (by simp [sequencingRows]) mode ?_ ?_, branch_continues here mode⟩,
    fun mode source => ⟨_, runs (p := (.seqDispatch k x, 2)) (by simp [sequencingRows]) mode ?_ ?_, dispatch_continues here mode⟩,
    fun mode always => ⟨_, runs (p := (.seqLoop k x, 6)) (by simp [sequencingRows]) mode ?_ ?_, loop_continues here mode⟩⟩
  all_goals intros; omega

end Sys2Proof.Machine
end

section
namespace Sys2Proof.Machine

/-! ### The call stack (R120) -/

section
variable {k : Fin 4} {w : Nat} {j : Job} {s : State} (here : AtWord k j s)
include here

/-- A word that goes to an address with another stack. -/
theorem goTo_withStack {n : Nat} {st : List Nat} (inside : n < 2 ^ 14) :
    continuesAt k j n st j.ctrA (goTo k j.pc n (modJob k (fun x => { x with stack := st }) s)) := by
  refine goTo_continuesAt (b := j.expired) ?_ here.last ?_ inside
  · rw [modJob_job, here.job]
    rfl
  · rw [modJob_csr]
    exact here.csr

/-- A CALL whose condition holds. -/
theorem call_pushes (mode : mwSeq w = 3) (few : j.stack.length ≤ 4) :
    if j.stack.length = 4 then stoppedWith k 3 j (sequencesOnly k w true j s)
    else continuesAt k j (mwNext w) ((j.pc + 1) :: j.stack) j.ctrA (sequencesOnly k w true j s) := by
  have pushes : sequence k w true j (traced k j s) = if 4 ≤ j.stack.length then stopJob k 3 (traced k j s)
      else goTo k j.pc (mwNext w) (modJob k (fun x => { x with stack := (j.pc + 1) :: x.stack }) (traced k j s)) := by
    rw [sequence, mode]
    rfl
  rw [sequencesOnly_goes (by rw [fallsThrough, mode]; rfl), pushes]
  split
  case isTrue full =>
    rw [if_pos full.ge]
    exact here.traced.stop (by decide)
  case isFalse room =>
    rw [if_neg (by omega)]
    have push : modJob k (fun x => { x with stack := (j.pc + 1) :: x.stack }) (traced k j s) =
        modJob k (fun x => { x with stack := (j.pc + 1) :: j.stack }) (traced k j s) := by
      rw [modJob_eq here.traced.job, modJob_eq here.traced.job]
    rw [push]
    exact goTo_withStack here.traced (mwNext_lt w)

theorem return_stops (mode : mwSeq w = 4) (empty : j.stack = []) : stoppedWith k 4 j (sequencesOnly k w true j s) := by
  have stops : sequence k w true j (traced k j s) = stopJob k 4 (traced k j s) := by
    rw [sequence, mode, empty]
    rfl
  rw [sequencesOnly_goes (by rw [fallsThrough, mode]; rfl), stops]
  exact here.traced.stop (by decide)

theorem return_pops {r : Nat} {rest : List Nat} (mode : mwSeq w = 4) (stack : j.stack = r :: rest) :
    continuesAt k j (r % 2 ^ 14) rest j.ctrA (sequencesOnly k w true j s) := by
  have pops : sequence k w true j (traced k j s) =
      goTo k j.pc (r % 2 ^ 14) (modJob k (fun x => { x with stack := rest }) (traced k j s)) := by
    rw [sequence, mode, stack]
    rfl
  rw [sequencesOnly_goes (by rw [fallsThrough, mode]; rfl), pops]
  exact goTo_withStack here.traced (Nat.mod_lt r (by decide))

/-- A word of a mode that passes on where its condition does not hold. -/
theorem sequencesOnly_false (mode : mwSeq w = 3 ∨ mwSeq w = 4 ∨ mwSeq w = 7) :
    continuesAt k j (j.pc + 1) j.stack j.ctrA (sequencesOnly k w false j s) := by
  rcases mode with mode | mode | mode <;>
    exact sequencesOnly_falls here (by rw [fallsThrough, mode]; rfl) (by rw [sequence, mode]; rfl)

end

/-- Settles O36: a CALL or RETURN whose condition holds pushes or pops unless the stack is full or empty. -/
theorem callStackHoldsFourEntries : Obligations.CallStackHoldsFourEntries := by
  unfold Obligations.CallStackHoldsFourEntries
  refine ⟨fun k x s j0 j w canonical present only job few => ?_, fun s k e => rfl⟩
  have here : AtWord k j (comesTo k x s) := atWord_of_only only job canonical
  intro cond
  have runs {p : Instr × Nat} (row : p ∈ sequencingRows k x) (mode : mwSeq w = p.2) (loop : mwSeq w = 6 → mwCond w = 0)
      (dispatch : mwSeq w = 2 → mwCond w ≤ 3) : exec p.1 s = .next (settle (sequencesOnly k w cond j (comesTo k x s))) :=
    exec_word_sequences present only job loop dispatch row mode
  clear_value cond
  refine ⟨fun mode => ⟨_, runs (p := (.seqCall k x, 3)) (by simp [sequencingRows]) mode ?_ ?_, ?_⟩,
    fun mode => ⟨_, runs (p := (.seqReturn k x, 4)) (by simp [sequencingRows]) mode ?_ ?_, ?_⟩⟩
  case refine_3 =>
    cases cond with
    | false => exact sequencesOnly_false here (.inl mode)
    | true => exact call_pushes here mode few
  case refine_6 =>
    cases cond with
    | false => exact sequencesOnly_false here (.inr (.inl mode))
    | true =>
      rw [if_neg Bool.noConfusion]
      split
      case h_1 empty => exact return_stops here mode empty
      case h_2 stack => exact return_pops here mode stack
  all_goals intros; omega

end Sys2Proof.Machine
end

section
namespace Sys2Proof.Machine

/-! ### A WAIT and its timer (R119) -/

/-- What a WAIT word does: NEXT where its condition holds, a + 1 where its timer has expired, and else the job waits. -/
theorem wait_holds {k : Fin 4} {w : Nat} {cond : Bool} {j : Job} {s : State} (here : AtWord k j s) (mode : mwSeq w = 5) :
    if cond = true then continuesAt k j (mwNext w) j.stack j.ctrA (sequencesOnly k w cond j s)
    else if j.timer = .expired then continuesAt k j (j.pc + 1) j.stack j.ctrA (sequencesOnly k w cond j s)
    else ∃ y, (mcOf (sequencesOnly k w cond j s) k).job = some y ∧ y.mode = .waiting ∧ y.pc = j.pc ∧ y.stack = j.stack := by
  have goes : fallsThrough cond j w = false := by rw [fallsThrough, mode]; rfl
  have waits : sequence k w cond j (traced k j s) = if cond then goTo k j.pc (mwNext w) (traced k j s)
      else if j.timer = .expired then
        (if j.pc = 0x3FFF then stopJob k 2 (traced k j s) else goTo k j.pc (j.pc + 1) (traced k j s))
      else modJob k (fun x => { x with mode := .waiting }) (traced k j s) := by
    simp only [sequence, mode, here.traced.job]
  rw [sequencesOnly_goes goes, waits]
  have stays := here.traced
  split
  case isTrue => exact goTo_continuesAt stays.job here.last stays.csr (mwNext_lt w)
  case isFalse =>
    split
    case isTrue => exact passOn_continuesAt stays.job here.last stays.csr here.range (stays.stop (by decide))
    case isFalse =>
      refine ⟨{ j with mode := .waiting }, ?_, rfl, rfl, rfl⟩
      rw [modJob_job, stays.job]
      rfl

/-- The running job's timer has expired, and TIMER_EXP is set. -/
def timedOut (k : Fin 4) (s : State) : State := modJob k (fun x => { x with
  timer := .expired
  expired := true }) s

/-- A condition that loses its race against the timer is counted in MSQ_WAIT_LATE. -/
def lateCounted (k : Fin 4) (race : Option Bool) (s : State) : State :=
  if race = some false then mcCount k MSQ_WAIT_LATE 1 s else s

section
variable {k : Fin 4} {j : Job} {s : State}

theorem mcOf_timedOut (job : (mcOf s k).job = some j) : mcOf (timedOut k s) k = { mcOf s k with job := some { j with
    timer := .expired
    expired := true } } := by
  rw [timedOut, modJob_eq job, mcOf_setMc_same]

theorem fetchWord_timedOut (job : (mcOf s k).job = some j) (a : Nat) :
    fetchWord (mcOf (timedOut k s) k) a = fetchWord (mcOf s k) a := by
  rw [mcOf_timedOut job]
  rfl

theorem timerExpiry_waiting {race : Option Bool} (job : (mcOf s k).job = some j) (waits : j.mode = .waiting)
    (timer : j.timer = .running) : timerExpiry k race s =
      if race = some true then goTo k j.pc (mwNext ((fetchWord (mcOf s k) j.pc).getD 0)) (timedOut k s)
      else if j.pc = 0x3FFF then stopJob k 2 (lateCounted k race (timedOut k s))
      else goTo k j.pc (j.pc + 1) (lateCounted k race (timedOut k s)) := by
  rw [timerExpiry, job, ← fetchWord_timedOut job]
  dsimp only
  rw [if_pos timer, if_pos waits]
  rcases race with _ | _ | _ <;> rfl

theorem lateCounted_job (k : Fin 4) (race : Option Bool) (s : State) :
    (mcOf (lateCounted k race s) k).job = (mcOf s k).job := by
  rw [lateCounted]
  split
  · exact mcCount_job ..
  · rfl

theorem lateCounted_twf {race : Option Bool} (h : twf 0 (mcOf s k).csr = true) :
    twf 0 (mcOf (lateCounted k race s) k).csr = true := by
  rw [lateCounted]
  split
  · rw [mcCount_csr]
    exact wr_twf _ _ _ h
  · exact h

theorem lateCounted_count {race : Option Bool} (h : twf 0 (mcOf s k).csr = true) :
    (rd (mcOf (lateCounted k race s) k).csr MSQ_WAIT_LATE).toNat =
      if race = some false then min 0xFFFFFFFF ((rd (mcOf s k).csr MSQ_WAIT_LATE).toNat + 1)
      else (rd (mcOf s k).csr MSQ_WAIT_LATE).toNat := by
  rw [lateCounted]
  split
  · rw [mcCount_csr, incR_toNat _ _ _ h]
  · rfl

theorem goTo_stays (k : Fin 4) (a n : Nat) (s : State) : StopStays (mcOf s k) (mcOf (goTo k a n s) k) := by
  rw [goTo]
  split
  · exact stopJob_stays ..
  · rw [modJob, mcOf_modMc_same]
    exact ⟨fun _ _ => .refl, rfl⟩

/-- A WAIT's timer expires: where control goes, and whether a late condition is counted. -/
theorem timerExpiry_goes (race : Option Bool) (job : (mcOf s k).job = some j) (waits : j.mode = .waiting)
    (timer : j.timer = .running) (range : j.pc < 2 ^ 14) (last : j.lastPc = j.pc) (canonical : twf 0 (mcOf s k).csr = true) :
    continuesAt k { j with timer := .expired }
      (if race = some true then mwNext ((fetchWord (mcOf s k) j.pc).getD 0) else j.pc + 1) j.stack j.ctrA (timerExpiry k race s) ∧
    (rd (mcOf (timerExpiry k race s) k).csr MSQ_WAIT_LATE).toNat =
      if race = some false then min 0xFFFFFFFF ((rd (mcOf s k).csr MSQ_WAIT_LATE).toNat + 1)
      else (rd (mcOf s k).csr MSQ_WAIT_LATE).toNat := by
  have channel := mcOf_timedOut job
  have regs : (mcOf (timedOut k s) k).csr = (mcOf s k).csr := by rw [channel]
  have out : (mcOf (timedOut k s) k).job = some { j with timer := .expired, expired := true } := by rw [channel]
  have table : twf 0 (mcOf (timedOut k s) k).csr = true := by rwa [regs]
  have counted := lateCounted_count (race := race) table
  rw [regs] at counted
  have held {v : State} (stays : StopStays (mcOf (lateCounted k race (timedOut k s)) k) (mcOf v k)) :=
    (congrArg BitVec.toNat (stays.regs MSQ_WAIT_LATE (by decide) (lateCounted_twf table)).2).trans counted
  rw [timerExpiry_waiting job waits timer]
  by_cases wins : race = some true
  · have early : lateCounted k race (timedOut k s) = timedOut k s := if_neg (by rw [wins]; decide)
    rw [if_pos wins, if_pos wins]
    refine ⟨goTo_continuesAt (j := { j with timer := .expired }) out last table (mwNext_lt _), held ?_⟩
    rw [early]
    exact goTo_stays ..
  · have on := (lateCounted_job k race (timedOut k s)).trans out
    rw [if_neg wins, if_neg wins]
    refine ⟨passOn_continuesAt (j := { j with timer := .expired }) on last (lateCounted_twf table) range
      (stopJob_stoppedWith on rfl last (by decide) (lateCounted_twf table)), held ?_⟩
    split
    · exact stopJob_stays ..
    · exact goTo_stays ..

end

/-- Settles O37: the word by its condition and timer, and the waiting job by the timer's expiry and the watchdog. -/
theorem waitHoldsUntilItsConditionOrTimer : Obligations.WaitHoldsUntilItsConditionOrTimer := by
  unfold Obligations.WaitHoldsUntilItsConditionOrTimer
  refine fun k x s j0 j w canonical present => ⟨fun only job mode => ?_, fun job waits range last => ⟨fun timer race => ?_,
    fun timer => ⟨stopJob k 5 s, ?_, stopJob_stoppedWith job rfl last (by decide) canonical⟩⟩⟩
  case refine_1 =>
    have row : (Instr.seqWait k x, 5) ∈ sequencingRows k x := by simp [sequencingRows]
    exact ⟨_, exec_word_sequences present only job (fun loop => by omega) (fun dispatch => by omega) row mode,
      wait_holds (atWord_of_only only job canonical) mode⟩
  case refine_2 => exact ⟨_, exec_of_settle_onMc present rfl, timerExpiry_goes race job waits timer range last canonical⟩
  case refine_3 =>
    have stops : waitWatchdog k s = stopJob k 5 s := by
      rw [waitWatchdog, job]
      exact if_pos ⟨waits, timer⟩
    rw [← stops]
    exact exec_of_settle_onMc present rfl

end Sys2Proof.Machine
end

section
namespace Sys2Proof.Machine

/-! ### A HALT (R109, R118, R126) -/

section
variable {k : Fin 4} {w : Nat} {j : Job} {s : State}

/-- A HALT word whose condition holds ends the job, or leaves it to the end of the pad. -/
theorem halt_ends (mode : mwSeq w = 7) : sequencesOnly k w true j s = haltJob k (traced k j s) := by
  have goes : fallsThrough true j w = false := by rw [fallsThrough, mode]; rfl
  rw [sequencesOnly_goes goes, sequence, mode]
  rfl

theorem haltJob_pad (job : (mcOf s k).job = some j) (high : (mcOf s k).wg = true) :
    (mcOf (haltJob k s) k).job = some { j with mode := .haltPad } := by
  rw [haltJob, if_pos high, modJob_job, job]
  rfl

theorem haltJob_low (job : (mcOf s k).job = some j) (low : (mcOf s k).wg = false) :
    mcOf (haltJob k s) k = jobEnded 0 0 0 j (mcOf s k) := by
  rw [haltJob, low, if_neg Bool.false_ne_true, mcOf_endJob job]

end

/-- What a job that has ended by itself leaves in its entry (R126, R129). -/
theorem jobEnded_halted {j : Job} {m : Mc} (range : j.entry < 64) (csr : twf 0 m.csr = true) (jt : twf 0 m.jt = true) :
    let n := jobEnded 0 0 0 j m
    n.job = none ∧ n.wg = false ∧ n.ag = false ∧ jtState n j.entry = 3 ∧
    jtF n j.entry 10 31 28 = 0 ∧ jtF n j.entry 10 23 16 = j.status % 256 ∧
    jtF n j.entry 10 15 12 = j.flags % 16 ∧ jtF n j.entry 10 7 0 = 0 ∧
    (j.entry < 32 → wordBit (rd n.csr MSQ_JT_DONE_LO) j.entry = true) ∧
    (32 ≤ j.entry → wordBit (rd n.csr MSQ_JT_DONE_HI) (j.entry - 32) = true) := by
  obtain ⟨idle, wg, ag⟩ := jobEnded_gates (fin := 0) (cls := 0) (stop := 0) (j := j) (m := m)
  have done := jobEnded_done (fin := 0) (cls := 0) (stop := 0) (j := j) jt
  obtain ⟨fin, -, status, flags, stop⟩ := endWord_fields (fin := 0) (cls := 0) (stop := 0) (j := j) (by decide) (by decide)
    (by decide)
  exact ⟨idle, wg, ag, done.state, (done.field ..).trans fin, (done.field ..).trans status, (done.field ..).trans flags,
    (done.field ..).trans stop, jobEnded_bit range csr⟩

/-- Settles O38: a HALT that holds is the job's end, or waits for the end of the pad while WG is high. -/
theorem haltEndsTheJob : Obligations.HaltEndsTheJob := by
  unfold Obligations.HaltEndsTheJob
  intro k x s j0 j w canonical table present only job mode range
  have here : AtWord k j (comesTo k x s) := atWord_of_only only job canonical
  obtain ⟨-, -, -, entries⟩ := comesTo_stands only.1 job
  have row : (Instr.seqHalt k x, 7) ∈ sequencingRows k x := by simp [sequencingRows]
  refine ⟨_, exec_word_sequences present only job (fun loop => by omega) (fun dispatch => by omega) row mode, ?_⟩
  generalize condVal (comesTo k x s) k j x (mwCond w) = cond
  cases cond with
  | false => exact sequencesOnly_false here (.inr (.inr mode))
  | true =>
    obtain ⟨l, channel⟩ := mcOf_traced k j (comesTo k x s)
    have gate : (mcOf (traced k j (comesTo k x s)) k).wg = (mcOf (comesTo k x s) k).wg := by rw [channel]
    have jt : twf 0 (mcOf (traced k j (comesTo k x s)) k).jt = true := by
      rw [channel]
      exact entries table
    rw [if_neg Bool.noConfusion, halt_ends mode]
    by_cases high : (mcOf (comesTo k x s) k).wg = true
    · rw [if_pos high]
      exact ⟨_, haltJob_pad here.traced.job (gate.trans high), rfl, rfl⟩
    · rw [if_neg high, haltJob_low here.traced.job (gate.trans (Bool.eq_false_of_not_eq_true high))]
      exact jobEnded_halted range here.traced.csr jt

end Sys2Proof.Machine
end

section
namespace Sys2Proof.Machine

/-! ## The spindle (R168 to R178) -/

/-- Settles O10: a POR is no row of this family, and every other row completes within its footprint. -/
theorem motorRowsStayInTheirFootprint : Obligations.MotorRowsStayInTheirFootprint := by
  unfold Obligations.MotorRowsStayInTheirFootprint
  intro c s family
  refine exec_staysIn c s fun v b por => ?_
  rw [por] at family
  cases family

/-! ### Entries of the SCU's states (R172, R174, R176) -/

/-- The SCU stands in a state, with the gates as given. -/
def ScuIn (n : Nat) (g : Gates) (s : State) : Prop := scuState s = n ∧ s.scu.gates = g

/-- What changes neither the SCU's registers nor its gates leaves it where it stands. -/
theorem ScuIn.congr {n g s t} (h : ScuIn n g s) (csr : t.scu.csr = s.scu.csr) (gates : t.scu.gates = s.scu.gates) :
    ScuIn n g t := by
  obtain ⟨state, gate⟩ := h
  exact ⟨by rw [scuState, csr]; exact state, gates.trans gate⟩

section
variable {s : State}

theorem scuEnter_in {n : Nat} {g : Gates} (range : n < 16) (h : twf 0 s.scu.csr = true) : ScuIn n g (scuEnter n g s) :=
  ⟨(rdF_wrF_same s.scu.csr SCU_STAT.STATE n (by decide) (by decide) h).trans (Nat.mod_eq_of_lt range), rfl⟩

theorem motionEvent_scu : (motionEvent s).scu = s.scu := motionEvent_within.frame .scu (by decide)

/-- An event flag is set in a register of its own. -/
theorem scuEvt_scu {f : Fld} : (scuEvt f s).scu = { s.scu with csr := wrB s.scu.csr f true } := motionEvent_scu

/-- The write inhibit of a catch-spin sets one flag in the SCU. -/
theorem raiseSpindle_scu : (raiseSpindle s).scu = { s.scu with inhibit := true } := by
  have raised : Within [.mcs, .media, .sce, .ple] { s with scu := { s.scu with inhibit := true } } (raiseSpindle s) :=
    forMcs_within fun _ _ => .after inhibitActs_within <| .mono (sceReg_within fun _ h => winhBit_twf h)
  exact raised.frame .scu (by decide)

section
variable (canonical : twf 0 s.scu.csr = true)
include canonical

theorem enterAlign_in : ScuIn 1 .vector (enterAlign s) := (scuEnter_in (by decide) canonical).congr rfl rfl

theorem enterCatch_in : ScuIn 5 .off (enterCatch s) := by
  have entered : ScuIn 5 .off (scuEnter 5 .off (raiseSpindle s)) := scuEnter_in (by decide) (by rwa [raiseSpindle_scu])
  have recorded : (enterCatch s).scu = _ := motionEvent_scu
  exact entered.congr ((congrArg Scu.csr recorded).trans rfl) ((congrArg Scu.gates recorded).trans rfl)

/-- RECTIFY, whose REC_PEND falls in the state's own register. -/
theorem enterRectify_in (byCommand : Bool) : ScuIn 9 .rectify (enterRectify byCommand s) := by
  obtain ⟨state, gates⟩ : ScuIn 9 .rectify (scuEnter 9 .rectify s) := scuEnter_in (by decide) canonical
  exact ⟨(rdF_wrF_apart _ SCU_STAT.REC_PEND SCU_STAT.STATE _ rfl (by decide) (by decide) (by decide)
    (wrF_twf _ _ _ canonical)).trans state, gates⟩

theorem enterCoast_in : ScuIn 8 .off (enterCoast s) := (scuEnter_in (by decide) canonical).congr rfl rfl

theorem enterStop_in : ScuIn 0 .off (enterStop s) := (scuEnter_in (by decide) canonical).congr rfl rfl

/-- Regenerative braking starts with an amplitude that no rule gives. -/
theorem startBrake_in : ScuIn 6 .pwm (freeBrake (scuEnter 6 .pwm s)) := (scuEnter_in (by decide) canonical).congr rfl rfl

/-- A catch that fails is flagged and told, in whatever state the SCU is left. -/
theorem catchFail_stays : let u := tocsin 2 (scuEvt SCU_EVT.CATCH_FAIL s)
    scuState u = scuState s ∧ u.scu.gates = s.scu.gates ∧ rdB u.scu.csr SCU_EVT.CATCH_FAIL = true := by
  intro u
  have told : u.scu = (scuEvt SCU_EVT.CATCH_FAIL s).scu := tocsin_within.frame .scu (by decide)
  rw [scuState, told, scuEvt_scu]
  exact ⟨rdF_wrF_other _ _ SCU_STAT.STATE _ (by decide) canonical, rfl,
    rdB_wrB_same _ SCU_EVT.CATCH_FAIL true rfl (by decide) canonical⟩

end

/-! ### The commands of the SCU (R172) -/

/-- BEMF_RUN, WEDGE_RUN, or a RECTIFY that a command started. -/
def SpindleRuns (s : State) : Prop := scuState s = 3 ∨ scuState s = 4 ∨ (scuState s = 9 ∧ s.scu.rectCmd = true)

/-- A spindle in COAST or FAULT does not run. -/
theorem not_spindleRuns (free : scuState s = 8 ∨ scuState s = 10) : ¬ SpindleRuns s := by
  rw [SpindleRuns]
  omega

theorem scuCommand_burst {f : State → State} (burst : s.sys.dump = .cloudburst) : scuCommand f s = s := if_pos burst

theorem burst_ignores (burst : s.sys.dump = .cloudburst) :
    ∀ c ∈ [Instr.scuCmdStart, .scuCmdStop, .scuCmdCoast, .scuCmdCatch, .scuCmdRectify], exec c s = .next (spinEnded s) := by
  have ignores {c : Instr} {f : State → State} (row : exec c s = .next (spinEnded (scuCommand f s))) :
      exec c s = .next (spinEnded s) := by
    rw [row, scuCommand_burst burst]
  simp only [List.forall_mem_cons, List.not_mem_nil, false_imp_iff, implies_true, and_true]
  exact ⟨ignores rfl, ignores rfl, ignores rfl, ignores rfl, ignores rfl⟩

section
variable (calm : s.sys.dump ≠ .cloudburst)
include calm

theorem scuCommand_calm {f : State → State} : scuCommand f s = f s := if_neg calm

theorem scuCmdStart_calm : scuCmdStart s =
    if scuState s = 0 then enterAlign (scuReg (fun c => wrF c SCU_STAT.TRIES 0) s) else s := scuCommand_calm calm

theorem scuCmdCoast_calm : scuCmdCoast s = enterCoast s := scuCommand_calm calm

theorem scuCmdRectify_calm : scuCmdRectify s = if scuState s = 3 ∨ scuState s = 4 then enterRectify true s else s :=
  scuCommand_calm calm

theorem scuCmdStop_runs (runs : SpindleRuns s) : scuCmdStop s = freeBrake (scuEnter 6 .pwm s) :=
  (scuCommand_calm calm).trans (if_pos runs)

theorem scuCmdStop_fault (fault : scuState s = 10) : scuCmdStop s =
    if slowerThan s 1 then enterStop (scuReg (fun c => wrF c SCU_STAT.TRIES 0) s) else enterCoast s :=
  (scuCommand_calm calm).trans <| (if_neg (not_spindleRuns (.inr fault))).trans (if_pos fault)

theorem scuCmdStop_else (halted : ¬ SpindleRuns s) (sound : scuState s ≠ 10) : scuCmdStop s = s :=
  (scuCommand_calm calm).trans <| (if_neg halted).trans (if_neg sound)

theorem scuCmdCatch_runs (runs : SpindleRuns s) : scuCmdCatch s = enterCatch s :=
  (scuCommand_calm calm).trans (if_pos runs)

theorem scuCmdCatch_free (free : scuState s = 8 ∨ scuState s = 10) : scuCmdCatch s =
    if slowerThan s 10 then tocsin 2 (scuEvt SCU_EVT.CATCH_FAIL s) else enterCatch s :=
  (scuCommand_calm calm).trans <| (if_neg (not_spindleRuns free)).trans (if_pos free)

theorem scuCmdCatch_else (halted : ¬ SpindleRuns s) (driven : ¬ (scuState s = 8 ∨ scuState s = 10)) : scuCmdCatch s = s :=
  (scuCommand_calm calm).trans <| (if_neg halted).trans (if_neg driven)

end
end

/-- Settles O45: each command by the state that it meets, with the state and the gates that its entry leaves. -/
theorem spindleCommandsFollowTheStateTable : Obligations.SpindleCommandsFollowTheStateTable := by
  unfold Obligations.SpindleCommandsFollowTheStateTable
  intro s canonical st running enters ignored
  have entersBy {c : Instr} {n : Nat} {g : Gates} {t u : State} (row : exec c s = .next (spinEnded t)) (acts : t = u)
      (stands : ScuIn n g u) : enters c n g := ⟨u, acts ▸ row, stands⟩
  have ignoredBy {c : Instr} {t : State} (row : exec c s = .next (spinEnded t)) (same : t = s) : ignored c := by
    rw [same] at row
    exact row
  have triesCanonical : twf 0 (scuReg (fun c => wrF c SCU_STAT.TRIES 0) s).scu.csr = true := wrF_twf _ _ _ canonical
  refine ⟨burst_ignores, fun calm => ⟨fun stop => ?_, fun other => ?_, fun runs => ?_, fun fault slow => ?_,
    fun fault fast => ?_,
    fun halted sound => ?_, ?_, fun runs => ?_, fun free fast => ?_, fun free slow => ?_, fun halted uncoasted sound => ?_,
    fun runs => ?_, fun ne3 ne4 => ?_⟩⟩
  · exact entersBy rfl ((scuCmdStart_calm calm).trans (if_pos stop)) (enterAlign_in triesCanonical)
  · exact ignoredBy rfl ((scuCmdStart_calm calm).trans (if_neg other))
  · exact entersBy rfl (scuCmdStop_runs calm runs) (startBrake_in canonical)
  · exact entersBy rfl ((scuCmdStop_fault calm fault).trans (if_pos slow)) (enterStop_in triesCanonical)
  · exact entersBy rfl ((scuCmdStop_fault calm fault).trans (if_neg (by rw [fast]; decide))) (enterCoast_in canonical)
  · exact ignoredBy rfl (scuCmdStop_else calm halted sound)
  · exact entersBy rfl (scuCmdCoast_calm calm) (enterCoast_in canonical)
  · exact entersBy rfl (scuCmdCatch_runs calm runs) (enterCatch_in canonical)
  · exact entersBy rfl ((scuCmdCatch_free calm free).trans (if_neg (by rw [fast]; decide))) (enterCatch_in canonical)
  · have fails := (scuCmdCatch_free calm free).trans (if_pos slow)
    exact ⟨_, congrArg (fun t => Host.Outcome.next (spinEnded t)) fails, catchFail_stays canonical⟩
  · exact ignoredBy rfl (scuCmdCatch_else calm halted (not_or.mpr ⟨uncoasted, sound⟩))
  · exact entersBy rfl ((scuCmdRectify_calm calm).trans (if_pos runs)) (enterRectify_in canonical true)
  · exact ignoredBy rfl ((scuCmdRectify_calm calm).trans (if_neg (not_or.mpr ⟨ne3, ne4⟩)))

end Sys2Proof.Machine
end

section
namespace Sys2Proof.Machine

/-! ## Servo control (R144 to R167) -/

/-- Settles O9: a POR is no row of this family, and every other row completes within its footprint. -/
theorem motionRowsStayInTheirFootprint : Obligations.MotionRowsStayInTheirFootprint := by
  unfold Obligations.MotionRowsStayInTheirFootprint
  intro c s family
  refine exec_staysIn c s fun v b por => ?_
  rw [por] at family
  cases family

/-! ### One bit of a word -/

theorem wordBit_eq_field (w : Word) (i : Nat) : wordBit w i = decide (wordField w i i = 1) := by
  rw [wordBit, wordField, Nat.add_sub_cancel_left, pow_one, Nat.shiftRight_eq_div_pow, Nat.testBit_eq_decide_div_mod_eq]

theorem wordBit_set_same (w : Word) (i : Nat) (b : Bool) (h : i < 32) : wordBit (wordSetField w i i (b2n b)) i = b := by
  rw [wordBit_eq_field, wordField_set_same w i i _ le_rfl h, Nat.add_sub_cancel_left]
  cases b <;> rfl

/-- The write of a field leaves a bit above it as it was. -/
theorem wordBit_set_below (w : Word) {hi lo i : Nat} (v : Nat) (above : hi < i) (hw : lo ≤ hi) (h32 : hi < 32) :
    wordBit (wordSetField w hi lo v) i = wordBit w i := by
  rw [wordBit_eq_field, wordBit_eq_field, wordField_set_below w v above hw h32]

/-! ### The actuators -/

@[simp] theorem actOf_modAct_same (k : Fin 4) (f : Act → Act) (s : State) : actOf (modAct k f s) k = f (actOf s k) :=
  quadGet_set_same _ _ _

theorem actOf_modAct_other (k j : Fin 4) (f : Act → Act) (s : State) (h : j ≠ k) : actOf (modAct k f s) j = actOf s j :=
  quadGet_set_other _ _ _ _ h

@[simp] theorem actOf_queueAct (k j : Fin 4) (o : ActOut) (s : State) : actOf (queueAct j o s) k = actOf s k := rfl

/-- An operation whose footprint leaves out the SCE leaves the actuators. -/
theorem actOf_of_within {k F s t} (w : Within F s t) (noSce : Piece.sce ∉ F := by decide) : actOf t k = actOf s k :=
  congrArg (fun c : Sce => quadGet c.acts k) (show t.sce = s.sce from w.frame .sce noSce)

/-! ### A GO is written (R150, R155) -/

/-- The command word of a GO: GO 1, the operation, the head and the zone. -/
def goWord (op head zone : Nat) (w : Word) : Word :=
  wordSetField (wordSetField (wordSetField (wordSetField w 31 31 1) 29 27 op) 23 20 head) 12 8 zone

theorem goWord_fields (w : Word) {op head zone : Nat} (hop : op < 8) (hhead : head < 16) (hzone : zone < 32) :
    wordBit (goWord op head zone w) 31 = true ∧ wordField (goWord op head zone w) 29 27 = op ∧
    wordField (goWord op head zone w) 23 20 = head ∧ wordField (goWord op head zone w) 12 8 = zone := by
  rw [goWord]
  refine ⟨?_, ?_, ?_, ?_⟩
  · rw [wordBit_set_below _ _ (by decide) (by decide) (by decide), wordBit_set_below _ _ (by decide) (by decide) (by decide),
      wordBit_set_below _ _ (by decide) (by decide) (by decide)]
    exact wordBit_set_one w 31 (by decide)
  · rw [wordField_set_below _ _ (by decide) (by decide) (by decide),
      wordField_set_below _ _ (by decide) (by decide) (by decide), wordField_set_same _ 29 27 _ (by decide) (by decide)]
    exact Nat.mod_eq_of_lt hop
  · rw [wordField_set_below _ _ (by decide) (by decide) (by decide), wordField_set_same _ 23 20 _ (by decide) (by decide)]
    exact Nat.mod_eq_of_lt hhead
  · rw [wordField_set_same _ 12 8 _ (by decide) (by decide)]
    exact Nat.mod_eq_of_lt hzone

/-- The row of a command writes the actuator's command word and its track, and nothing else. -/
theorem actCommand_writes {k : Fin 4} {s : State} {c : Instr} {op head zone track : Nat} (present : actExists s k = true)
    (row : exec c s = .next (actCommand k op head zone track s)) (hop : op < 8) (hhead : head < 16) (hzone : zone < 32)
    (htrack : track < 2 ^ 21) :
    ∃ a, exec c s = .next { s with sce := { s.sce with acts := quadSet s.sce.acts k a } } ∧
      a = { actOf s k with cmd := a.cmd, trk := a.trk } ∧ wordBit a.cmd 31 = true ∧ wordField a.cmd 29 27 = op ∧
      wordField a.cmd 23 20 = head ∧ wordField a.cmd 12 8 = zone ∧ a.trk.toNat = track := by
  obtain ⟨go, ops, heads, zones⟩ := goWord_fields (actOf s k).cmd hop hhead hzone
  refine ⟨{ actOf s k with cmd := goWord op head zone (actOf s k).cmd, trk := BitVec.ofNat 32 (track % 2 ^ 21) }, ?_, rfl, go,
    ops, heads, zones, ?_⟩
  · rw [row, actCommand, if_pos present]
    rfl
  · rw [Nat.mod_eq_of_lt htrack]
    exact Nat.mod_eq_of_lt (htrack.trans (by decide))

/-! ### What leaves an actuator's command word (R150) -/

/-- The actuator's command word is the same in two states. -/
def CmdStays (k : Fin 4) (s t : State) : Prop := (actOf t k).cmd = (actOf s k).cmd

namespace CmdStays
variable {k : Fin 4} {s t u : State}

protected theorem refl : CmdStays k s s := rfl

/-- A second operation, named first as in the model's text, after a first one. -/
theorem comp (g : CmdStays k t u) (h : CmdStays k s t) : CmdStays k s u := Eq.trans g h

theorem ite {c : Prop} [Decidable c] (h : CmdStays k s t) (g : CmdStays k s u) : CmdStays k s (if c then t else u) := by
  split <;> assumption

/-- An operation that is done only if a condition holds, after a first one. -/
theorem whenTrue {c : Prop} [Decidable c] (g : CmdStays k t u) (h : CmdStays k s t) : CmdStays k s (if c then u else t) :=
  .ite (.comp g h) h

theorem of_acts (h : t.sce.acts = s.sce.acts) : CmdStays k s t := by rw [CmdStays, actOf, actOf, h]

/-- An operation whose footprint leaves out the SCE. -/
theorem of_within {F} (w : Within F s t) (noSce : Piece.sce ∉ F := by decide) : CmdStays k s t :=
  congrArg Act.cmd (actOf_of_within w noSce)

theorem modAct {f : Act → Act} (h : (f (actOf s k)).cmd = (actOf s k).cmd := by exact rfl) : CmdStays k s (modAct k f s) := by
  rw [CmdStays, actOf_modAct_same, h]

end CmdStays

section
variable {k : Fin 4} {s : State}

theorem queueAct_cmdStays {o : ActOut} : CmdStays k s (queueAct k o s) := .of_acts rfl

theorem sceReg_cmdStays {f : List (Nat × Word) → List (Nat × Word)} : CmdStays k s (sceReg f s) := .of_acts rfl

theorem modSpn_cmdStays {f : SpnLoop → SpnLoop} : CmdStays k s (modSpn f s) := .of_acts rfl

theorem moveNext_cmdStays : CmdStays k s (moveNext k s) := .ite (.comp queueAct_cmdStays .modAct) .refl

theorem unload_cmdStays : CmdStays k s (unload k s) := .ite (.comp moveNext_cmdStays .modAct) .refl

theorem takeTarget_cmd {a : Act} : (takeTarget s k a).cmd = a.cmd := by
  rw [takeTarget]
  split <;> rfl

theorem goTaken_cmdStays : CmdStays k s (goTaken k s) := by
  refine .ite (.modAct ?_) <| .ite (.modAct takeTarget_cmd) <| .ite unload_cmdStays (.modAct ?_)
  · dsimp only
    split <;> exact takeTarget_cmd
  · dsimp only
    split <;> rfl

theorem atestState_cmdStays : CmdStays k s (atestState k s) := .ite .modAct <| .ite .modAct .refl

theorem takeSample_cmdStays {pos : Option Int} : CmdStays k s (takeSample k pos s) := .modAct

theorem raiseTrack_cmdStays : CmdStays k s (raiseTrack k s) :=
  have inhibits {t : State} : Within [.mcs, .media, .ple] t (inhibitActs k t) := inhibitActs_within
  .comp (.of_within inhibits) <| .comp sceReg_cmdStays .modAct

theorem judge_cmdStays {e : Int} : CmdStays k s (judge k e s) :=
  .whenTrue (.comp .modAct (.of_within noteSeek_within)) <| .comp .modAct <|
    .whenTrue (.comp raiseTrack_cmdStays .modAct) .modAct

theorem computeLoop_cmdStays {y : Int} {atest : Nat} : CmdStays k s (computeLoop k y atest s) := by
  refine .ite (.modAct ?_) <| .ite (.comp judge_cmdStays .modAct) <| .ite .modAct <| .ite .modAct .modAct
  dsimp only
  split <;> rfl

theorem enterLost_cmdStays : CmdStays k s (enterLost k s) :=
  .comp (.of_within motionEvent_within) <| .comp raiseTrack_cmdStays .modAct

theorem afterSample_cmdStays : CmdStays k s (afterSample k s) :=
  .ite .modAct <| .ite (.whenTrue .modAct .modAct) <| .ite enterLost_cmdStays .refl

theorem noteRev_cmdStays {wedge : Nat} : CmdStays k s (noteRev wedge s) := .ite modSpn_cmdStays .refl

theorem bankSwap_cmdStays {loop : Nat} : CmdStays k s (modSce (bankSwap loop) s) := .of_acts rfl

theorem runSpindle_cmdStays {speed : Nat} {phase : Option Int} {idx : Option (Nat × Nat × Nat)} :
    CmdStays k s (runSpindle speed phase idx s) :=
  .ite .refl <| .comp sceReg_cmdStays <| .comp modSpn_cmdStays <|
    .ite (.whenTrue modSpn_cmdStays (.comp bankSwap_cmdStays sceReg_cmdStays)) .refl

/-! ### What a GO sees at a sample (R150) -/

/-- All that the taking of a GO reads is the same in two states. -/
structure GoSees (k : Fin 4) (s t : State) : Prop where
  cmd : (actOf t k).cmd = (actOf s k).cmd
  trk : (actOf t k).trk = (actOf s k).trk
  state : (actOf t k).state = (actOf s k).state
  pending : (actOf t k).srvPending = (actOf s k).srvPending
  regs : ∀ a, a ≠ SCE_ATEST → rd t.sce.csr a = rd s.sce.csr a
  zcopy : t.sce.zcopy = s.sce.zcopy
  spn : t.sce.spn = s.sce.spn
  scu : t.scu = s.scu
  part : t.part = s.part

namespace GoSees
variable {t u : State}

theorem comp (g : GoSees k t u) (h : GoSees k s t) : GoSees k s u where
  cmd := g.cmd.trans h.cmd
  trk := g.trk.trans h.trk
  state := g.state.trans h.state
  pending := g.pending.trans h.pending
  regs a ha := (g.regs a ha).trans (h.regs a ha)
  zcopy := g.zcopy.trans h.zcopy
  spn := g.spn.trans h.spn
  scu := g.scu.trans h.scu
  part := g.part.trans h.part

protected theorem refl : GoSees k s s := ⟨rfl, rfl, rfl, rfl, fun _ _ => rfl, rfl, rfl, rfl, rfl⟩

/-- An update of the actuator that leaves its command, its state and a pending offset. -/
theorem modAct {f : Act → Act}
    (h : ∀ a, { f a with cmd := a.cmd, trk := a.trk, state := a.state, srvPending := a.srvPending } = f a) :
    GoSees k s (modAct k f s) := by
  have fields := h (actOf s k)
  refine ⟨?_, ?_, ?_, ?_, fun _ _ => rfl, rfl, rfl, rfl, rfl⟩ <;> rw [actOf_modAct_same, ← fields]

theorem exists_iff (h : GoSees k s t) : actExists t k = actExists s k := by rw [actExists, actExists, h.part]

theorem field (h : GoSees k s t) (f : Fld) (ne : f.off ≠ SCE_ATEST := by decide) : rdF t.sce.csr f = rdF s.sce.csr f := by
  rw [rdF, rdF, h.regs _ ne]

theorem flag (h : GoSees k s t) (f : Fld) (ne : f.off ≠ SCE_ATEST := by decide) : rdB t.sce.csr f = rdB s.sce.csr f := by
  rw [rdB, rdB, h.field f ne]

theorem spindleReady (h : GoSees k s t) : spindleReady t = spindleReady s := by
  have follows : following t = following s := by rw [following, following, h.flag SCE_SPN_CTL.FOLLOW, h.spn]
  have set : speedSet t = speedSet s := by rw [speedSet, speedSet, follows, h.spn, h.field SCE_SPN_SET.SPEED]
  have band (v : Nat) : inBand t v = inBand s v := by rw [inBand, inBand, set, h.scu]
  rw [Machine.spindleReady, Machine.spindleReady, h.scu]
  rw [band]

theorem goRefused (h : GoSees k s t) : goRefused t k = goRefused s k := by
  have zone (head zone : Nat) : zoneCopyOf t k head zone = zoneCopyOf s k head zone := by rw [zoneCopyOf, zoneCopyOf, h.zcopy]
  have enabled : actEnabled t k = actEnabled s k := by rw [actEnabled, actEnabled, h.regs _ (by decide)]
  simp only [Machine.goRefused, h.cmd, h.trk, h.state, zone, enabled, h.spindleReady]

end GoSees

theorem noteAtest_goSees {code : Nat} (canonical : twf 0 s.sce.csr = true) : GoSees k s (noteAtest k code s) := by
  rw [noteAtest]
  split
  · exact ⟨rfl, rfl, rfl, rfl, fun a ne => rd_wrF_other _ _ _ _ ne canonical, rfl, rfl, rfl, rfl⟩
  · exact .refl

theorem takeOffset_none (none : (actOf s k).srvPending = none) : takeOffset k s = s := by rw [takeOffset, none]

theorem takeSwap_none (swap : wordBit (rd s.sce.csr SCE_COEF_SWAP) k.val = false) : takeSwap k s = s :=
  if_neg (by rw [swap]; decide)

/-- With no offset and no bank swap waiting, an actuator's run takes a GO first, and what follows leaves the command word that
the GO left. -/
theorem runActuator_takesGo {pos : Option Int} {atest : Nat} (present : actExists s k = true)
    (pending : (actOf s k).srvPending = none) (swap : wordBit (rd s.sce.csr SCE_COEF_SWAP) k.val = false) :
    ∃ t, GoSees k s t ∧ CmdStays k (takeGo k t) (runActuator k pos atest s) := by
  rw [runActuator, present]
  by_cases off : (actOf s k).state = 0
  · refine ⟨s, .refl, ?_⟩
    rw [if_neg (by decide), if_pos off]
    exact .refl
  · rw [if_neg (by decide), if_neg off]
    dsimp only
    have counted : GoSees k s (modAct k (fun a => { a with seekRun := a.seekRun.map (fun n => min 65535 (n + 1)) }) s) :=
      .modAct fun _ => rfl
    refine ⟨_, counted, ?_⟩
    rw [takeSwap_none ((congrArg (wordBit · k.val) (counted.regs _ (by decide))).trans swap),
      takeOffset_none (counted.pending.trans pending)]
    exact .comp afterSample_cmdStays <| .comp computeLoop_cmdStays <| .comp .modAct <| .comp atestState_cmdStays <|
      .comp takeSample_cmdStays <| .whenTrue unload_cmdStays .refl

/-- A sample takes a GO as its actuator's run does. -/
theorem servoSample_takesGo {x : SampleIn} (canonical : twf 0 s.sce.csr = true) (present : actExists s k = true)
    (pending : (actOf s k).srvPending = none) (swap : wordBit (rd s.sce.csr SCE_COEF_SWAP) k.val = false) :
    ∃ t, GoSees k s t ∧ CmdStays k (takeGo k t) (servoSample k x s) := by
  rw [servoSample]
  have noted : GoSees k s (modSce (fun c => { c with wedgeSpeed := x.speed }) (noteAtest k x.atest (newWedge k s))) := by
    have wedge : GoSees k s (newWedge k s) := .modAct fun _ => rfl
    have atest : GoSees k (newWedge k s) (noteAtest k x.atest (newWedge k s)) := noteAtest_goSees canonical
    obtain ⟨cmd, trk, state, waits, regs, zcopy, spn, scu, part⟩ := atest.comp wedge
    exact ⟨cmd, trk, state, waits, regs, zcopy, spn, scu, part⟩
  obtain ⟨t, sees, stays⟩ := runActuator_takesGo (pos := some x.pos) (atest := x.atest) (noted.exists_iff.trans present)
    (noted.pending.trans pending) ((congrArg (wordBit · k.val) (noted.regs _ (by decide))).trans swap)
  refine ⟨t, sees.comp noted, .comp ?_ stays⟩
  exact .whenTrue (.comp runSpindle_cmdStays <| .comp noteRev_cmdStays modSpn_cmdStays) .refl

/-! ### A GO is taken or refused (R149, R150) -/

/-- The reasons of R150 for which a GO is refused. -/
def GoBad (k : Fin 4) (s : State) : Prop :=
  let a := actOf s k
  let op := wordField a.cmd 29 27
  let head := wordField a.cmd 23 20
  let z := zoneCopyOf s k head (wordField a.cmd 12 8)
  let track := wordField a.trk 20 0
  actEnabled s k = false ∨ op = 0 ∨ 4 < op ∨
    ((op = 1 ∨ op = 2) ∧ (12 ≤ head ∨ z = none ∨ ∃ c, z = some c ∧ (track < c.first ∨ c.last < track))) ∨
    (op = 2 ∧ (a.state ≠ 1 ∨ spindleReady s = false)) ∨
    ((op = 1 ∨ op = 4) ∧ a.state ≠ 2 ∧ a.state ≠ 3 ∧ a.state ≠ 4 ∧ a.state ≠ 5)

theorem goRefused_iff : goRefused s k = true ↔ GoBad k s := by
  rw [goRefused, GoBad]
  cases zoneCopyOf s k (wordField (actOf s k).cmd 23 20) (wordField (actOf s k).cmd 12 8) with
  | none => simp [or_assoc]
  | some c => simp [or_assoc]

/-- Without a recompute a GO falls at the sample, and ERR says whether it was refused. -/
theorem takeGo_answers (go : wordBit (actOf s k).cmd 31 = true) (idle : rdB s.sce.csr SCE_CTL.ZREBUILD = false) :
    wordBit (actOf (takeGo k s) k).cmd 31 = false ∧ wordBit (actOf (takeGo k s) k).cmd 30 = goRefused s k := by
  have kept : CmdStays k s (if goRefused s k then s else goTaken k s) := .ite .refl goTaken_cmdStays
  have answered : (actOf (takeGo k s) k).cmd =
      wordSetField (wordSetField (actOf s k).cmd 31 31 0) 30 30 (b2n (goRefused s k)) := by
    rw [takeGo, if_pos (by rw [go, idle]; rfl), actOf_modAct_same, kept]
  rw [answered, wordBit_set_below _ _ (by decide) le_rfl (by decide)]
  exact ⟨wordBit_set_same _ 31 false (by decide), wordBit_set_same _ 30 _ (by decide)⟩

/-- During a recompute a GO waits. -/
theorem takeGo_waits (busy : rdB s.sce.csr SCE_CTL.ZREBUILD = true) : takeGo k s = s :=
  if_neg (by rw [busy, Bool.not_true, Bool.and_false]; decide)

end

/-- Settles O43: the command rows write the word, and the sample reads it as the reasons of R150 say. -/
theorem goIsTakenOrRefusedAtTheSample : Obligations.GoIsTakenOrRefusedAtTheSample := by
  unfold Obligations.GoIsTakenOrRefusedAtTheSample
  refine fun k s canonical present => ⟨fun head zone track hhead hzone htrack => ?_, fun x go pending swap => ?_⟩
  · simp only [List.forall_mem_cons, List.not_mem_nil, false_imp_iff, implies_true, and_true]
    have writes {c : Instr} {op : Nat} (row : exec c s = .next (actCommand k op head zone track s)) (hop : op < 8) :=
      actCommand_writes present row hop hhead hzone htrack
    exact ⟨writes rfl (by decide), writes rfl (by decide), writes rfl (by decide), writes rfl (by decide)⟩
  · intro a op head z track
    obtain ⟨t, sees, stays⟩ := servoSample_takesGo (x := x) canonical present pending swap
    have flag : rdB t.sce.csr SCE_CTL.ZREBUILD = rdB s.sce.csr SCE_CTL.ZREBUILD := sees.flag _
    refine ⟨servoSample k x s, rfl, fun busy => ?_, fun idle => ?_⟩
    · rw [stays, takeGo_waits (flag.trans busy)]
      exact sees.cmd
    · obtain ⟨falls, err⟩ := takeGo_answers ((congrArg (wordBit · 31) sees.cmd).trans go) (flag.trans idle)
      rw [stays]
      refine ⟨falls, ?_⟩
      rw [err, sees.goRefused]
      exact goRefused_iff

end Sys2Proof.Machine
end

section
namespace Sys2Proof.Machine

/-! ### Unloads (R155, R161) -/

section
variable {k : Fin 4} {s : State}

/-- A move in LOAD or UNLOAD goes on with the command of its law. -/
theorem actOf_moveNext (moves : (actOf s k).state = 2 ∨ (actOf s k).state = 7) : actOf (moveNext k s) k = { actOf s k with
    out := ⟨moveCommand s k (actOf s k), 0⟩
    lastOut := ⟨moveCommand s k (actOf s k), 0⟩ } := by
  have next : moveNext k s = _ := if_pos moves
  rw [next, actOf_queueAct, actOf_modAct_same]
  rfl

theorem actOf_moveNext_other {j : Fin 4} (ne : j ≠ k) : actOf (moveNext k s) j = actOf s j := by
  rw [moveNext]
  dsimp only
  split
  · rw [actOf_queueAct, actOf_modAct_other k j _ s ne]
  · rfl

/-- A loaded actuator that is unloaded leaves its track. -/
theorem unload_loaded (loaded : loadedState (actOf s k).state = true) :
    (actOf (unload k s) k).state = 7 ∧ (actOf (unload k s) k).onTrack = false := by
  rw [unload, if_pos loaded, actOf_moveNext (.inr (by rw [actOf_modAct_same])), actOf_modAct_same]
  exact ⟨rfl, rfl⟩

theorem actOf_unload_other {j : Fin 4} (ne : j ≠ k) : actOf (unload k s) j = actOf s j := by
  rw [unload]
  split
  · rw [actOf_moveNext_other ne, actOf_modAct_other k j _ s ne]
  · rfl

/-- A move that is given up is a machine check and an unload. -/
theorem giveUp_unloads (loaded : loadedState (actOf s k).state = true) (canonical : twf 0 s.mck.csr = true)
    (room : (rd s.mck.csr MCK_COUNT).toNat < 0xFFFFFFFF) :
    (actOf (giveUp k s) k).state = 7 ∧ (actOf (giveUp k s) k).onTrack = false ∧
      (rd (giveUp k s).mck.csr MCK_COUNT).toNat = (rd s.mck.csr MCK_COUNT).toNat + 1 := by
  rw [giveUp]
  generalize actStatWord s k = info
  have counted := machineCheck_count 8 0x02 2 (BitVec.ofNat 32 k.val) info s canonical
  have acts : actOf (machineCheck 8 0x02 2 (BitVec.ofNat 32 k.val) info s) k = actOf s k := actOf_of_within machineCheck_within
  generalize machineCheck 8 0x02 2 (BitVec.ofNat 32 k.val) info s = t at *
  obtain ⟨state, off⟩ := unload_loaded (acts ▸ loaded)
  have mck : (unload k t).mck = t.mck := unload_within.frame .mck (by decide)
  refine ⟨state, off, ?_⟩
  rw [mck, counted]
  omega

/-- A loop that is stopped keeps the commands last computed. -/
theorem stopLoop_out : (actOf (stopLoop k s) k).state = 0 ∧ (actOf (stopLoop k s) k).out = (actOf s k).out := by
  rw [stopLoop, actOf_modAct_same]
  exact ⟨rfl, rfl⟩

/-- A parked actuator, which is commanded nothing. -/
def parkedAct (a : Act) : Act := { a with
  state := 1
  parked := true
  pushUntil := none
  onTrack := false
  out := ⟨0, 0⟩
  lastOut := ⟨0, 0⟩ }

theorem parkNow_eq : parkNow k s = if (actOf s k).stopping then stopLoop k (modAct k parkedAct s)
    else queueAct k ⟨0, 0⟩ (modAct k parkedAct s) := rfl

/-- A parked actuator's commands are 0, and its loop stops if a disable waits for the park (R161, R179, log 238). -/
theorem parkNow_parks : (actOf (parkNow k s) k).state = (if (actOf s k).stopping then 0 else 1) ∧
    (actOf (parkNow k s) k).out = ⟨0, 0⟩ := by
  rw [parkNow_eq]
  split
  · obtain ⟨state, out⟩ := stopLoop_out (k := k) (s := modAct k parkedAct s)
    rw [actOf_modAct_same] at out
    exact ⟨state, out⟩
  · rw [actOf_queueAct, actOf_modAct_same]
    exact ⟨rfl, rfl⟩

/-- The last push of an unload that has run out of time: full outward current for 50 ms (R161). -/
theorem unloadTimeout_pushes (unloading : (actOf s k).state = 7) (first : (actOf s k).pushUntil = none) :
    (actOf (unloadTimeout k s) k).state = 7 ∧ (actOf (unloadTimeout k s) k).pushUntil = some (s.sys.us + 50000) ∧
      (actOf (unloadTimeout k s) k).out = ⟨fullOutward, 0⟩ := by
  have state : (actOf (modAct k (fun a => { a with pushUntil := some (s.sys.us + 50000) }) s) k).state = 7 := by
    rw [actOf_modAct_same, unloading]
  rw [unloadTimeout, if_pos ⟨unloading, first⟩, actOf_moveNext (.inr state)]
  refine ⟨state, ?_, ?_⟩
  · rw [actOf_modAct_same]
  · rw [moveCommand, if_neg (by rw [state]; decide), actOf_modAct_same]
    rfl

theorem unloadTimeout_else (h : ¬ ((actOf s k).state = 7 ∧ (actOf s k).pushUntil = none)) : unloadTimeout k s = s := if_neg h

theorem unloadBemfLow_parks (h : (actOf s k).state = 7 ∧ (actOf s k).bemf.natAbs < 20 ∧ outward (actOf s k).imeas = true) :
    unloadBemfLow k s = parkNow k s := if_pos h

theorem unloadBemfLow_else
    (h : ¬ ((actOf s k).state = 7 ∧ (actOf s k).bemf.natAbs < 20 ∧ outward (actOf s k).imeas = true)) : unloadBemfLow k s = s := if_neg h

/-! ### A catch-spin that fails (R174) -/

/-- What a failed catch-spin does to each actuator. -/
def unloadIfOwned (k : Fin 4) (s : State) : State := if actOwned s k then unload k s else s

theorem unloadOwned_eq : unloadOwned s = forMcs unloadIfOwned s := rfl

/-- An actuator is owned and loaded. -/
def OwnedLoaded (k : Fin 4) (s : State) : Prop := actOwned s k = true ∧ loadedState (actOf s k).state = true

theorem unloadIfOwned_unloads (due : OwnedLoaded k s) : (actOf (unloadIfOwned k s) k).state = 7 := by
  obtain ⟨owned, loaded⟩ := due
  rw [unloadIfOwned, if_pos owned]
  obtain ⟨state, -⟩ := unload_loaded loaded
  exact state

theorem actOf_unloadIfOwned_other {j : Fin 4} (ne : k ≠ j) : actOf (unloadIfOwned j s) k = actOf s k := by
  rw [unloadIfOwned]
  split
  · exact actOf_unload_other ne
  · rfl

theorem actOwned_congr {t : State} (mcs : t.mcs = s.mcs) : actOwned t k = actOwned s k := by
  rw [actOwned, actOwned, mcOf, mcOf, mcs]

theorem OwnedLoaded.other {j : Fin 4} (due : OwnedLoaded k s) (ne : k ≠ j) : OwnedLoaded k (unloadIfOwned j s) := by
  have within : Within [.sce] s (unloadIfOwned j s) := .ite unload_within .refl
  rwa [OwnedLoaded, actOf_unloadIfOwned_other ne, actOwned_congr (within.frame .mcs (by decide))]

theorem unloading_other {j : Fin 4} (unloading : (actOf s k).state = 7) (ne : k ≠ j) :
    (actOf (unloadIfOwned j s) k).state = 7 := by
  rwa [actOf_unloadIfOwned_other ne]

theorem unloadOwned_unloads (due : OwnedLoaded k s) : (actOf (unloadOwned s) k).state = 7 := by
  rw [unloadOwned_eq, forMcs]
  match k with
  | 0 => exact unloading_other (unloading_other (unloading_other (unloadIfOwned_unloads due) (by decide)) (by decide)) (by decide)
  | 1 => exact unloading_other (unloading_other (unloadIfOwned_unloads (due.other (by decide))) (by decide)) (by decide)
  | 2 => exact unloading_other (unloadIfOwned_unloads ((due.other (by decide)).other (by decide))) (by decide)
  | 3 => exact unloadIfOwned_unloads (((due.other (by decide)).other (by decide)).other (by decide))

/-- A failed catch-spin is counted and flagged. -/
def catchFailed (s : State) : State := scuEvt SCU_EVT.CATCH_FAIL (scuReg (fun c => incR c SCU_CATCH_CNT 1) s)

theorem catchFailed_csr :
    (catchFailed s).scu.csr = wrB (incR s.scu.csr SCU_CATCH_CNT 1) SCU_EVT.CATCH_FAIL true := by
  rw [catchFailed, scuEvt_scu]
  rfl

theorem catchTimeout_catching (catching : scuState s = 5) :
    catchTimeout s = tocsin 2 (enterCoast (unloadOwned (catchFailed s))) := if_pos catching

/-- A failed catch-spin leaves the SCU in COAST, flagged, with the gates off. -/
theorem catchTimeout_coasts (catching : scuState s = 5) (canonical : twf 0 s.scu.csr = true) :
    ScuIn 8 .off (catchTimeout s) ∧ rdB (catchTimeout s).scu.csr SCU_EVT.CATCH_FAIL = true := by
  have regs : (unloadOwned (catchFailed s)).scu.csr = wrB (incR s.scu.csr SCU_CATCH_CNT 1) SCU_EVT.CATCH_FAIL true := by
    rw [← catchFailed_csr]
    exact congrArg Scu.csr (unloadOwned_within.frame .scu (by decide))
  have counted := incR_twf s.scu.csr SCU_CATCH_CNT 1 canonical
  have flagged : twf 0 (unloadOwned (catchFailed s)).scu.csr = true := by
    rw [regs]
    exact wrB_twf _ _ _ counted
  have told : (catchTimeout s).scu = (enterCoast (unloadOwned (catchFailed s))).scu := by
    rw [catchTimeout_catching catching]
    exact tocsin_within.frame .scu (by decide)
  refine ⟨(enterCoast_in flagged).congr (by rw [told]) (by rw [told]), ?_⟩
  rw [told]
  have beside : rdB (enterCoast (unloadOwned (catchFailed s))).scu.csr SCU_EVT.CATCH_FAIL =
      rdB (unloadOwned (catchFailed s)).scu.csr SCU_EVT.CATCH_FAIL := rdB_wrF_other _ SCU_STAT.STATE _ 8 (by decide) flagged
  rw [beside, regs]
  exact rdB_wrB_same _ SCU_EVT.CATCH_FAIL true rfl (by decide) counted

/-- A failed catch-spin unloads what is owned and loaded. -/
theorem catchTimeout_unloads (catching : scuState s = 5) (due : OwnedLoaded k s) : (actOf (catchTimeout s) k).state = 7 := by
  have failed : Within [.evr, .scu, .free] s (catchFailed s) :=
    .after scuEvt_within <| .mono (scuReg_within fun _ h => incR_twf _ _ _ h)
  have stillDue : OwnedLoaded k (catchFailed s) := by
    rwa [OwnedLoaded, actOf_of_within failed, actOwned_congr (failed.frame .mcs (by decide))]
  rw [catchTimeout_catching catching, actOf_of_within tocsin_within, actOf_of_within enterCoast_within]
  exact unloadOwned_unloads stillDue

end

/-- Settles O44: the timeouts of LOAD and LOST give the move up, those of UNLOAD push or park, and the one of CATCH coasts. -/
theorem servoTimeoutsUnload : Obligations.ServoTimeoutsUnload := by
  unfold Obligations.ServoTimeoutsUnload
  intro k s mck scu room gaveUp parked
  have unchanged {c : Instr} {f : State → State} {t : State} (row : exec c s = .next (f t)) (same : t = s) :
      exec c s = .next (f s) := by
    rw [same] at row
    exact row
  refine ⟨fun load => ?_, fun other => ?_, fun lost wedges => ?_, fun other => ?_, fun unloading first => ?_,
    fun _ pushed => ?_, fun unloading out low => ?_, fun _ weak => ?_, fun other => ⟨?_, ?_⟩, fun other => ?_,
    fun catching => ?_⟩
  · exact ⟨giveUp k s, congrArg Host.Outcome.next (if_pos load), giveUp_unloads (by rw [load]; rfl) mck room⟩
  · exact congrArg Host.Outcome.next (if_neg other)
  · exact ⟨giveUp k s, congrArg Host.Outcome.next (if_pos ⟨lost, wedges⟩), giveUp_unloads (by rw [lost]; rfl) mck room⟩
  · exact congrArg Host.Outcome.next (if_neg fun h => other h.1)
  · exact ⟨unloadTimeout k s, rfl, unloadTimeout_pushes unloading first⟩
  · exact unchanged (f := afterServo) rfl (unloadTimeout_else fun h => pushed h.2)
  · refine ⟨parkNow k s, ?_, parkNow_parks⟩
    rw [← unloadBemfLow_parks ⟨unloading, low, out⟩]
    rfl
  · refine unchanged (f := afterServo) rfl (unloadBemfLow_else ?_)
    rintro ⟨-, low, out⟩
    rcases weak with inward | high
    · rw [inward] at out
      exact Bool.noConfusion out
    · omega
  · exact unchanged (f := afterServo) rfl (unloadTimeout_else fun h => other h.1)
  · exact unchanged (f := afterServo) rfl (unloadBemfLow_else fun h => other h.1)
  · exact unchanged (f := spinEnded) rfl (if_neg other : catchTimeout s = s)
  · obtain ⟨⟨coast, off⟩, flag⟩ := catchTimeout_coasts catching scu
    exact ⟨catchTimeout s, rfl, coast, off, flag, fun owned loaded => catchTimeout_unloads catching ⟨owned, loaded⟩⟩

end Sys2Proof.Machine
end

section
namespace Sys2Proof.Machine

/-! ## Placement and scheduling (R207 to R230) -/

/-- The ratings of VIN concern POR alone, which is a row of the resets: a row of any other family completes within its
footprint from every state. -/
theorem exec_staysIn_outside_resets (c : Instr) (s : State) (family : (footprint c).1 ≠ .resets) : staysIn c s := by
  refine exec_staysIn c s fun v b por => ?_
  rw [por] at family
  exact absurd rfl family

/-- Settles O11: placement is not the family of the resets. -/
theorem placementRowsStayInTheirFootprint : Obligations.PlacementRowsStayInTheirFootprint := by
  unfold Obligations.PlacementRowsStayInTheirFootprint
  intro c s family
  refine exec_staysIn_outside_resets c s ?_
  rw [family]
  exact Family.noConfusion

end Sys2Proof.Machine
end

section
namespace Sys2Proof.Machine

/-! ## The host queues and their commands (R231 to R292) -/

/-- The rows of a family other than that of the resets complete within their footprint. -/
theorem family_staysIn {F : Family} (other : F ≠ .resets) (c : Instr) (s : State) (family : (footprint c).1 = F) :
    staysIn c s := by
  refine exec_staysIn_outside_resets c s ?_
  rw [family]
  exact other

/-- Settles O12: the host queues are not the family of the resets. -/
theorem queueRowsStayInTheirFootprint : Obligations.QueueRowsStayInTheirFootprint := by
  unfold Obligations.QueueRowsStayInTheirFootprint
  exact family_staysIn Family.noConfusion

/-- Settles O13: admin commands are not the family of the resets. -/
theorem adminCommandRowsStayInTheirFootprint : Obligations.AdminCommandRowsStayInTheirFootprint := by
  unfold Obligations.AdminCommandRowsStayInTheirFootprint
  exact family_staysIn Family.noConfusion

/-- Settles O14: I/O commands and resets of controllers are not the family of the device's resets. -/
theorem ioCommandRowsStayInTheirFootprint : Obligations.IoCommandRowsStayInTheirFootprint := by
  unfold Obligations.IoCommandRowsStayInTheirFootprint
  exact family_staysIn Family.noConfusion

/-! ### A function and its queues after an update (R231, R238) -/

theorem modFn_fns_twf (f : Nat) (g : Fn → Fn) (s : State) (h : twf none s.hqe.fns = true) :
    twf none (modFn f g s).hqe.fns = true := tput_twf none _ _ f h

/-- A function that is as a controller reset leaves it has no entry, and reads as one all the same. -/
theorem fnOf_modFn_same (f : Nat) (g : Fn → Fn) (s : State) (h : twf none s.hqe.fns = true) :
    fnOf (modFn f g s) f = g (fnOf s f) := by
  have entry : tget none (modFn f g s).hqe.fns f = if g (fnOf s f) = Fn.init then none else some (g (fnOf s f)) :=
    tget_tput_same none _ _ f h
  rw [fnOf, entry]
  split
  · rename_i fresh
    exact fresh.symm
  · rfl

theorem fnOf_congr {s t : State} (same : t.hqe.fns = s.hqe.fns) (f : Nat) : fnOf t f = fnOf s f := by
  rw [fnOf, fnOf, same]

/-- The table of functions and a function's completion queues are canonical tables. -/
structure QueuesWf (s : State) (f : Nat) : Prop where
  fns : twf none s.hqe.fns = true
  cqs : twf none (fnOf s f).cqs = true

theorem fnOf_putSq {f q x s} (h : twf none s.hqe.fns = true) :
    fnOf (putSq f q x s) f = { fnOf s f with sqs := tput none (fnOf s f).sqs q x } := fnOf_modFn_same f _ s h

theorem sqOf_putSq_same {f q x s} (fns : twf none s.hqe.fns = true) (sqs : twf none (fnOf s f).sqs = true) :
    sqOf (putSq f q x s) f q = x := by
  rw [sqOf, fnOf_putSq fns]
  exact tget_tput_same none x _ q sqs

theorem sqOf_putSq_other {f p q x s} (fns : twf none s.hqe.fns = true) (sqs : twf none (fnOf s f).sqs = true) (ne : p ≠ q) :
    sqOf (putSq f q x s) f p = sqOf s f p := by
  rw [sqOf, fnOf_putSq fns]
  exact tget_tput_other none x _ q p ne sqs

theorem putSq_wf {f q x s} (h : QueuesWf s f) : QueuesWf (putSq f q x s) f := by
  refine ⟨modFn_fns_twf _ _ _ h.fns, ?_⟩
  rw [fnOf_putSq h.fns]
  exact h.cqs

theorem fnOf_putCq {f q x s} (h : QueuesWf s f) :
    fnOf (putCq f q x s) f = { fnOf s f with cqs := tput none (fnOf s f).cqs q x } := fnOf_modFn_same f _ s h.fns

theorem putCq_wf {f q x s} (h : QueuesWf s f) : QueuesWf (putCq f q x s) f := by
  refine ⟨modFn_fns_twf _ _ _ h.fns, ?_⟩
  rw [fnOf_putCq h]
  exact tput_twf none x _ q h.cqs

theorem sqOf_putCq {f p q x s} (h : QueuesWf s f) : sqOf (putCq f q x s) f p = sqOf s f p := by
  rw [sqOf, fnOf_putCq h, sqOf]

theorem cqOf_putCq_same {f q x s} (h : QueuesWf s f) : cqOf (putCq f q x s) f q = x := by
  rw [cqOf, fnOf_putCq h]
  exact tget_tput_same none x _ q h.cqs

theorem cqOf_putCq_other {f p q x s} (h : QueuesWf s f) (ne : p ≠ q) : cqOf (putCq f q x s) f p = cqOf s f p := by
  rw [cqOf, fnOf_putCq h]
  exact tget_tput_other none x _ q p ne h.cqs

/-! ### What an operation leaves of a function's queues -/

/-- `t` holds the submission queues of a function as `s` does, and of each of its completion queues what `view` shows. -/
structure KeepsQueues {β : Type} (view : Cq → β) (f : Nat) (s t : State) : Prop where
  wf : QueuesWf t f
  sq : ∀ p, sqOf t f p = sqOf s f p
  cq : ∀ p, (cqOf t f p).map view = (cqOf s f p).map view

namespace KeepsQueues
variable {β : Type} {view : Cq → β} {f : Nat} {s t u : State}

protected theorem refl (h : QueuesWf s f) : KeepsQueues view f s s := ⟨h, fun _ => rfl, fun _ => rfl⟩

/-- What `id` shows of a completion queue is all of it. -/
theorem cqOf_eq (a : KeepsQueues id f s t) (p : Nat) : cqOf t f p = cqOf s f p := by
  have shown := a.cq p
  rwa [Option.map_id, id, id] at shown

/-- An operation that leaves the table of functions. -/
theorem of_fns (a : KeepsQueues view f s t) (same : u.hqe.fns = t.hqe.fns) : KeepsQueues view f s u := by
  have fn := fnOf_congr same f
  refine ⟨⟨same ▸ a.wf.fns, fn ▸ a.wf.cqs⟩, fun p => ?_, fun p => ?_⟩
  · rw [← a.sq p, sqOf, fn, sqOf]
  · rw [← a.cq p, cqOf, fn, cqOf]

theorem modHqe {g : Hqe → Hqe} (a : KeepsQueues view f s t) (same : ∀ x, (g x).fns = x.fns) :
    KeepsQueues view f s (modHqe g t) := a.of_fns (same t.hqe)

/-- An update of a function besides its queues. -/
theorem modFn {g : Fn → Fn} (a : KeepsQueues view f s t) (sqs : ∀ x, (g x).sqs = x.sqs) (cqs : ∀ x, (g x).cqs = x.cqs) :
    KeepsQueues view f s (modFn f g t) := by
  have fn := fnOf_modFn_same f g t a.wf.fns
  refine ⟨⟨modFn_fns_twf f g t a.wf.fns, ?_⟩, fun p => ?_, fun p => ?_⟩
  · rw [fn, cqs]
    exact a.wf.cqs
  · rw [← a.sq p, sqOf, fn, sqs, sqOf]
  · rw [← a.cq p, cqOf, fn, cqs, cqOf]

/-- A completion queue replaced by one that shows the same. -/
theorem putCq {q : Nat} {c d : Cq} (a : KeepsQueues view f s t) (old : cqOf t f q = some c) (same : view d = view c) :
    KeepsQueues view f s (putCq f q (some d) t) := by
  refine ⟨putCq_wf a.wf, fun p => (sqOf_putCq a.wf).trans (a.sq p), fun p => ?_⟩
  rw [← a.cq p]
  by_cases here : p = q
  · rw [here, cqOf_putCq_same a.wf, old, Option.map_some, Option.map_some, same]
  · rw [cqOf_putCq_other a.wf here]

theorem signalCq {c : Cq} (a : KeepsQueues view f s t) : KeepsQueues view f s (signalCq f c t) := by
  unfold Machine.signalCq
  dsimp only
  split
  · exact a
  · split
    · exact a.modFn (fun _ => rfl) fun _ => rfl
    · exact a.modFn (fun _ => rfl) fun _ => rfl

theorem pairEvents (a : KeepsQueues view f s t) : KeepsQueues view f s (pairEvents f t) := by
  unfold Machine.pairEvents
  exact .modFn (.modHqe a fun _ => rfl) (fun _ => rfl) fun _ => rfl

theorem reloadCredits (a : KeepsQueues view f s t) : KeepsQueues view f s (reloadCredits f t) := by
  unfold Machine.reloadCredits
  dsimp only
  split
  · exact a.modFn (fun _ => rfl) fun _ => rfl
  · exact a

theorem finish {n status : Nat} {d0 d1 : Word} (a : KeepsQueues view f s t) :
    KeepsQueues view f s (finish n status d0 d1 t) := by
  rw [finish_changes]
  exact a.of_fns rfl

end KeepsQueues

/-! ### Posts to a completion queue (R248, R249) -/

/-- An interrupt changes the function alone. -/
theorem signalCq_changes (f : Nat) (c : Cq) (s : State) :
    signalCq f c s = { s with hqe := { s.hqe with fns := (signalCq f c s).hqe.fns } } := by
  unfold signalCq
  dsimp only
  split
  · rfl
  · split <;> rfl

/-- The completion's entry as the last one written, the tail past it, and its interrupt. -/
def entryWritten (f q cid status : Nat) (dw0 dw1 : Word) (c : Cq) (s : State) : State :=
  signalCq f c (putCq f (cqidOf s f q) (some (cqAdvance c))
    (modHqe (fun h => { h with lastCqe := cqEntry s f q cid status dw0 dw1 c.phase }) s))

section
variable {f q cid status : Nat} {dw0 dw1 : Word} {c : Cq} {s t : State}

theorem cqPut_room (found : cqOf s f (cqidOf s f q) = some c) (room : cqRoom c = true) :
    cqPut f q cid status dw0 dw1 s = some (entryWritten f q cid status dw0 dw1 c s) := by
  simp only [cqPut, found, room, if_true, entryWritten]

theorem cqPut_full (found : cqOf s f (cqidOf s f q) = some c) (full : cqRoom c = false) :
    cqPut f q cid status dw0 dw1 s = none := by
  simp only [cqPut, found, full, Bool.false_eq_true, if_false]

theorem cqPut_eq_some (posted : cqPut f q cid status dw0 dw1 s = some t) :
    ∃ c, cqOf s f (cqidOf s f q) = some c ∧ t = entryWritten f q cid status dw0 dw1 c s := by
  cases found : cqOf s f (cqidOf s f q) with
  | none =>
    simp only [cqPut, found] at posted
    cases posted
  | some c =>
    cases room : cqRoom c with
    | false =>
      rw [cqPut_full found room] at posted
      cases posted
    | true =>
      rw [cqPut_room found room] at posted
      exact ⟨c, rfl, (Option.some.inj posted).symm⟩

theorem entryWritten_changes : entryWritten f q cid status dw0 dw1 c s = { s with hqe := { s.hqe with
    fns := (entryWritten f q cid status dw0 dw1 c s).hqe.fns
    lastCqe := cqEntry s f q cid status dw0 dw1 c.phase } } := by
  rw [entryWritten, signalCq_changes]
  rfl

/-- A post moves a tail, and no head. -/
theorem KeepsQueues.entryWritten (a : KeepsQueues Cq.head f s t) (found : cqOf t f (cqidOf t f q) = some c) :
    KeepsQueues Cq.head f s (entryWritten f q cid status dw0 dw1 c t) :=
  .signalCq <| .putCq (.modHqe a fun _ => rfl) found rfl

/-- A post leaves its own queue with the next position. -/
theorem entryWritten_cq (h : QueuesWf s f) : QueuesWf (entryWritten f q cid status dw0 dw1 c s) f ∧
    cqOf (entryWritten f q cid status dw0 dw1 c s) f (cqidOf s f q) = some (cqAdvance c) := by
  have entered : QueuesWf (modHqe (fun h => { h with lastCqe := cqEntry s f q cid status dw0 dw1 c.phase }) s) f :=
    ⟨h.fns, h.cqs⟩
  have signaled : KeepsQueues id f _ (entryWritten f q cid status dw0 dw1 c s) := .signalCq (.refl (putCq_wf entered))
  exact ⟨signaled.wf, (signaled.cqOf_eq _).trans (cqOf_putCq_same entered)⟩

end

/-! ### Event requests that are due (R239, R243, R248) -/

/-- The posts of due event requests move no head. -/
theorem KeepsQueues.postEnds {f n : Nat} {s t : State} (a : KeepsQueues Cq.head f s t) :
    KeepsQueues Cq.head f s (postEnds f n t) := by
  induction n generalizing t with
  | zero => exact a
  | succ n ih =>
    unfold Machine.postEnds
    split
    · exact a
    · split
      · exact a
      · split
        · exact a
        · rename_i u posted
          obtain ⟨c, found, written⟩ := cqPut_eq_some posted
          have kept : KeepsQueues Cq.head f s u := written ▸ a.entryWritten found
          refine ih ?_
          split
          · exact .finish <| .modFn kept (fun _ => rfl) fun _ => rfl
          · exact .modFn kept (fun _ => rfl) fun _ => rfl

theorem postEnds_csr (f n : Nat) (s : State) : (postEnds f n s).hqe.csr = s.hqe.csr := by
  induction n generalizing s with
  | zero => rfl
  | succ n ih =>
    unfold postEnds
    split
    · rfl
    · split
      · rfl
      · split
        · rfl
        · rename_i posted
          obtain ⟨c, -, rfl⟩ := cqPut_eq_some posted
          refine (ih _).trans ?_
          split
          · rw [finish_changes, entryWritten_changes]
            rfl
          · rw [entryWritten_changes]
            rfl

theorem KeepsQueues.deliver {f : Nat} {s t : State} (a : KeepsQueues Cq.head f s t) :
    KeepsQueues Cq.head f s (deliver f t) := by
  unfold Machine.deliver
  split
  · exact a
  · exact a.pairEvents.postEnds

theorem deliver_csr (f : Nat) (s : State) : (deliver f s).hqe.csr = s.hqe.csr := by
  unfold deliver
  split
  · rfl
  · rw [postEnds_csr]
    rfl

/-! ### Doorbells (R239) -/

/-- A rejected write moves no tail and no head. -/
theorem KeepsQueues.doorbellError {f info : Nat} {s : State} (h : QueuesWf s f) :
    KeepsQueues Cq.head f s (doorbellError f info s) :=
  .deliver <| .modFn (.modHqe (.refl h) fun _ => rfl) (fun _ => rfl) fun _ => rfl

/-- A rejected write is counted. -/
theorem doorbellError_count (f info : Nat) (s : State) (h : twf 0 s.hqe.csr = true) :
    (rd (doorbellError f info s).hqe.csr HQE_DBERR).toNat = min 0xFFFFFFFF ((rd s.hqe.csr HQE_DBERR).toNat + 1) := by
  rw [doorbellError, queueEvent, deliver_csr]
  exact incR_toNat _ _ _ h

section
variable {f q v : Nat} {s : State}

theorem doorbellWrite_absent {isCq : Bool} (absent : fnExists s f = false) : doorbellWrite f isCq q v s = s := by
  simp only [doorbellWrite, absent, Bool.not_false, if_true]

theorem doorbellWrite_sq_absent (ex : fnExists s f = true) (missing : sqOf s f q = none) :
    doorbellWrite f false q v s = doorbellError f 0 s := by
  simp only [doorbellWrite, ex, missing, Bool.not_true, Bool.false_eq_true, if_false]

theorem doorbellWrite_sq_rejected {x : Sq} (ex : fnExists s f = true) (found : sqOf s f q = some x)
    (bad : x.deleting ≠ none ∨ x.size ≤ v) : ∃ info, doorbellWrite f false q v s = doorbellError f info s := by
  simp only [doorbellWrite, ex, found, Bool.not_true, Bool.false_eq_true, if_false]
  split
  · exact ⟨_, rfl⟩
  · rename_i staying
    rw [if_pos (bad.resolve_left fun deleting => staying (Option.isSome_iff_ne_none.mpr deleting))]
    exact ⟨_, rfl⟩

theorem doorbellWrite_sq {x : Sq} (ex : fnExists s f = true) (found : sqOf s f q = some x) (staying : x.deleting = none)
    (below : v < x.size) : doorbellWrite f false q v s = reloadCredits f (putSq f q (some { x with tail := v }) s) := by
  simp only [doorbellWrite, ex, found, staying, Bool.not_true, Bool.false_eq_true, if_false, Option.isSome_none,
    if_neg (Nat.not_le.mpr below)]

theorem doorbellWrite_cq_absent (ex : fnExists s f = true) (missing : cqOf s f q = none) :
    doorbellWrite f true q v s = doorbellError f 0 s := by
  simp only [doorbellWrite, ex, missing, Bool.not_true, Bool.false_eq_true, if_false, if_true]

/-- The head would pass the newest entry that is posted. -/
def headPasses (s : State) (f q v : Nat) (c : Cq) : Prop :=
  (c.tail + c.size - c.head) % c.size - unposted s f q < (v + c.size - c.head) % c.size

theorem doorbellWrite_cq_rejected {c : Cq} (ex : fnExists s f = true) (found : cqOf s f q = some c)
    (bad : c.size ≤ v ∨ headPasses s f q v c) : doorbellWrite f true q v s = doorbellError f 1 s := by
  simp only [doorbellWrite, ex, found, Bool.not_true, Bool.false_eq_true, if_false, if_true]
  exact if_pos bad

theorem doorbellWrite_cq {c : Cq} (ex : fnExists s f = true) (found : cqOf s f q = some c) (below : v < c.size)
    (stays : ¬ headPasses s f q v c) :
    doorbellWrite f true q v s = deliver f (putCq f q (some { c with head := v }) s) := by
  simp only [doorbellWrite, ex, found, Bool.not_true, Bool.false_eq_true, if_false, if_true]
  exact if_neg fun bad => bad.elim (Nat.not_le.mpr below) stays

end

/-- Settles O48: a rejected write is an event and a count, and what follows an accepted one moves no tail of a submission
queue and no head. -/
theorem doorbellWritesAreChecked : Obligations.DoorbellWritesAreChecked := by
  unfold Obligations.DoorbellWritesAreChecked
  intro f q v s csr fns sqs cqs
  have wf : QueuesWf s f := ⟨fns, cqs⟩
  refine ⟨fun absent isCq => congrArg Host.Outcome.next (doorbellWrite_absent absent), fun ex => ?_⟩
  intro rejected
  have reject {isCq : Bool} {info : Nat} (row : doorbellWrite f isCq q v s = doorbellError f info s) :
      rejected (.doorbellWrite f isCq q v) := by
    have keeps : KeepsQueues Cq.head f s (doorbellError f info s) := .doorbellError wf
    exact ⟨_, congrArg Host.Outcome.next row, doorbellError_count f info s csr, fun p => ⟨keeps.sq p, keeps.cq p⟩⟩
  refine ⟨fun missing => reject (doorbellWrite_sq_absent ex missing), fun x found => ⟨fun bad => ?_, fun staying below => ?_⟩,
    fun missing => reject (doorbellWrite_cq_absent ex missing), fun c found => ?_⟩
  · obtain ⟨info, row⟩ := doorbellWrite_sq_rejected ex found bad
    exact reject row
  · have entered : QueuesWf (putSq f q (some { x with tail := v }) s) f := putSq_wf wf
    have keeps := (KeepsQueues.refl (view := Cq.head) entered).reloadCredits
    refine ⟨_, congrArg Host.Outcome.next (doorbellWrite_sq ex found staying below), ?_, fun p ne => ?_⟩
    · rw [keeps.sq, sqOf_putSq_same fns sqs]
    · rw [keeps.sq, sqOf_putSq_other fns sqs ne]
  · intro passes
    refine ⟨fun bad => reject (doorbellWrite_cq_rejected ex found bad), fun below stays => ?_⟩
    have row := doorbellWrite_cq ex found below stays
    have keeps : KeepsQueues Cq.head f (putCq f q (some { c with head := v }) s)
        (deliver f (putCq f q (some { c with head := v }) s)) := .deliver (.refl (putCq_wf wf))
    refine ⟨_, congrArg Host.Outcome.next row, ?_, fun p => (keeps.sq p).trans (sqOf_putCq wf)⟩
    rw [keeps.cq, cqOf_putCq_same wf]
    rfl

/-! ### What a posted completion releases (R248, R262) -/

/-- The use of a context changes the cache of contexts and its count alone. -/
theorem useCtx_changes (f q : Nat) (isCq : Bool) (s : State) : useCtx f q isCq s = { s with
    hqe := { s.hqe with csr := (useCtx f q isCq s).hqe.csr, qctx := (useCtx f q isCq s).hqe.qctx }
    free := (useCtx f q isCq s).free } := by
  unfold useCtx
  dsimp only
  split
  · rfl
  · split <;> rfl

/-- What is noted of a command changes what the logs hold alone. -/
theorem noteUsage_changes (n : Nat) (x : Slot) (s : State) : noteUsage n x s = { s with
    hqe := { s.hqe with fns := (noteUsage n x s).hqe.fns }
    nv := (noteUsage n x s).nv } := by
  unfold noteUsage
  dsimp only
  split_ifs <;> rfl

theorem KeepsQueues.noteUsage {β : Type} {view : Cq → β} {n : Nat} {x : Slot} {s t : State}
    (a : KeepsQueues view x.fn s t) : KeepsQueues view x.fn s (noteUsage n x t) := by
  unfold Machine.noteUsage
  extract_lets modUse counted entry logged
  have log : KeepsQueues view x.fn s logged := by
    unfold logged
    split
    · exact a
    · exact .modFn (a.of_fns rfl) (fun _ => rfl) fun _ => rfl
  clear_value logged
  split
  · exact log
  · split
    · exact log.of_fns rfl
    · split
      · exact log.of_fns rfl
      · exact log

theorem KeepsQueues.useCtx {β : Type} {view : Cq → β} {f g q : Nat} {isCq : Bool} {s t : State}
    (a : KeepsQueues view f s t) : KeepsQueues view f s (useCtx g q isCq t) := by
  rw [useCtx_changes]
  exact a.of_fns rfl

theorem slotAt_freeSlot (n : Nat) (s : State) (h : twf none s.hqe.slots = true) : slotAt (freeSlot n s) n = none :=
  tget_tput_same none none _ n h

theorem modSlot_slots_twf (n : Nat) (f : Slot → Slot) (s : State) (h : twf none s.hqe.slots = true) :
    twf none (modSlot n f s).hqe.slots = true := by
  unfold modSlot
  split
  · exact h
  · exact tput_twf none _ _ n h

/-- No command ends in a free slot. -/
theorem slotAt_finish_free {n : Nat} (m status : Nat) (d0 d1 : Word) {s : State} (h : twf none s.hqe.slots = true)
    (free : slotAt s n = none) : slotAt (finish m status d0 d1 s) n = none := by
  by_cases here : n = m
  · rw [← here, slotAt_finish_same n status d0 d1 s h, free, Option.map_none]
  · rw [slotAt_finish_other m n status d0 d1 s here h, free]

/-- The Aborts that wait for a command change their slots and the count of completions alone. -/
theorem afterPost_changes (n : Nat) (s : State) : afterPost n s = { s with hqe := { s.hqe with
    slots := (afterPost n s).hqe.slots
    commits := (afterPost n s).hqe.commits } } := by
  unfold afterPost
  refine List.foldlRecOn s.hqe.slots _ (motive := fun t : State => t = { s with hqe := { s.hqe with
    slots := t.hqe.slots
    commits := t.hqe.commits } }) rfl fun t changed e _ => ?_
  split
  · split
    · rw [finish_changes, changed]
    · exact changed
  · exact changed

theorem slotAt_afterPost_free {n : Nat} (m : Nat) {s : State} (h : twf none s.hqe.slots = true) (free : slotAt s n = none) :
    slotAt (afterPost m s) n = none := by
  have kept : twf none (afterPost m s).hqe.slots = true ∧ slotAt (afterPost m s) n = none := by
    unfold afterPost
    refine List.foldlRecOn s.hqe.slots _ (motive := fun t : State => twf none t.hqe.slots = true ∧ slotAt t n = none)
      ⟨h, free⟩ ?_
    rintro t ⟨canonical, still⟩ e -
    split
    · split
      · exact ⟨modSlot_slots_twf _ _ _ canonical, slotAt_finish_free _ _ _ _ canonical still⟩
      · exact ⟨canonical, still⟩
    · exact ⟨canonical, still⟩
  exact kept.2

theorem KeepsQueues.afterPost {β : Type} {view : Cq → β} {f n : Nat} {s t : State} (a : KeepsQueues view f s t) :
    KeepsQueues view f s (afterPost n t) := by
  rw [afterPost_changes]
  exact a.of_fns rfl

/-! ### The completion of a command (R248, R276) -/

/-- The command's entry is written and noted. -/
def completionNoted (n : Nat) (x : Slot) (c : Cq) (s : State) : State :=
  noteUsage n x (useCtx x.fn (cqidOf s x.fn x.sqid) true (entryWritten x.fn x.sqid x.cid x.status x.dw0 x.dw1 c s))

/-- The command's slot is free then, and the Aborts that waited for it end. -/
def completionWritten (n : Nat) (x : Slot) (c : Cq) (s : State) : State := afterPost n (freeSlot n (completionNoted n x c s))

/-- What holds a completion back besides the room in its queue. -/
def completionHeld (s : State) (x : Slot) : Prop :=
  s.sys.dump ≠ .none ∨ (s.bmc.down ∧ x.sqid ≠ 0) ∨ (fnOf s x.fn).resetting ∨ waitsAhead s x.fn (cqidOf s x.fn x.sqid) x.cnum ∨
    (cqidOf s x.fn x.sqid = 0 ∧ (fnOf s x.fn).ends.any (fun e => decide (e.cnum < x.cnum)))

section
variable {n : Nat} {s : State} {x : Slot} {c : Cq}

theorem completionPost_held (slot : slotAt s n = some x) (held : completionHeld s x) : completionPost n s = s := by
  simp only [completionPost, slot]
  exact if_pos held

theorem completionPost_full (slot : slotAt s n = some x) (done : x.st = .done)
    (found : cqOf s x.fn (cqidOf s x.fn x.sqid) = some c) (full : cqRoom c = false) : completionPost n s = s := by
  simp only [completionPost, slot, done, cqPut_full found full, ite_self]

theorem completionPost_written (slot : slotAt s n = some x) (done : x.st = .done)
    (found : cqOf s x.fn (cqidOf s x.fn x.sqid) = some c) (free : ¬ completionHeld s x) (room : cqRoom c = true) :
    completionPost n s = deliver x.fn (completionWritten n x c s) := by
  simp only [completionPost, slot, done, cqPut_room found room]
  exact if_neg free

theorem completionNoted_slots : (completionNoted n x c s).hqe.slots = s.hqe.slots := by
  rw [completionNoted, noteUsage_changes, useCtx_changes, entryWritten_changes]

theorem completionNoted_lastCqe : (completionNoted n x c s).hqe.lastCqe =
    cqEntry s x.fn x.sqid x.cid x.status x.dw0 x.dw1 c.phase := by
  rw [completionNoted, noteUsage_changes, useCtx_changes, entryWritten_changes]

theorem completionWritten_slot (h : twf none s.hqe.slots = true) : slotAt (completionWritten n x c s) n = none := by
  have noted : twf none (completionNoted n x c s).hqe.slots = true := by
    rw [completionNoted_slots]
    exact h
  exact slotAt_afterPost_free n (tput_twf none none _ n noted) (slotAt_freeSlot n _ noted)

theorem completionWritten_lastCqe : (completionWritten n x c s).hqe.lastCqe =
    cqEntry s x.fn x.sqid x.cid x.status x.dw0 x.dw1 c.phase := by
  rw [completionWritten, afterPost_changes]
  exact completionNoted_lastCqe

/-- What follows the post of the entry leaves the queues as they are. -/
theorem completionWritten_cq (h : QueuesWf s x.fn) :
    cqOf (completionWritten n x c s) x.fn (cqidOf s x.fn x.sqid) = some (cqAdvance c) := by
  obtain ⟨posted, advanced⟩ := entryWritten_cq (c := c) (q := x.sqid) (cid := x.cid) (status := x.status) (dw0 := x.dw0)
    (dw1 := x.dw1) h
  have noted : KeepsQueues id x.fn _ (completionNoted n x c s) := .noteUsage <| .useCtx (.refl posted)
  have kept : KeepsQueues id x.fn _ (completionWritten n x c s) := .afterPost (noted.of_fns rfl)
  exact (kept.cqOf_eq _).trans advanced

end

/-- Settles O49: a completion that is held back or finds no room changes nothing, and what follows the post of another
leaves its entry and its queue. -/
theorem completionEntryWaitsForRoom : Obligations.CompletionEntryWaitsForRoom := by
  unfold Obligations.CompletionEntryWaitsForRoom
  intro n s x c slots fns cqs slot done q found ready
  have ready_iff : ready ↔ ¬ completionHeld s x ∧ cqRoom c = true := by
    simp only [ready, completionHeld, cqRoom, q, not_or, not_and, not_not, Bool.not_eq_true, List.any_eq_false,
      decide_eq_true_eq, Nat.not_lt]
    tauto
  refine ⟨fun waits => ?_, fun go => ?_⟩
  · have same : completionPost n s = s := by
      by_cases held : completionHeld s x
      · exact completionPost_held slot held
      · refine completionPost_full slot done found ?_
        by_contra room
        exact waits (ready_iff.mpr ⟨held, Bool.eq_true_of_not_eq_false room⟩)
    exact congrArg (fun t => Host.Outcome.next (settleSlots t)) same
  · obtain ⟨free, room⟩ := ready_iff.mp go
    have written := completionPost_written slot done found free room
    refine ⟨completionWritten n x c s, congrArg (fun t => Host.Outcome.next (settleSlots t)) written,
      completionWritten_slot slots, completionWritten_cq ⟨fns, cqs⟩, ?_⟩
    rw [completionWritten_lastCqe, cqEntry]
    cases c.phase <;> rfl

end Sys2Proof.Machine
end

section
namespace Sys2Proof.Machine

/-! ## Acceptance, ordering and disposition (R276 to R297) -/

/-- Settles O15: buffer memory and its engines are not the family of the device's resets. -/
theorem bufferRowsStayInTheirFootprint : Obligations.BufferRowsStayInTheirFootprint := by
  unfold Obligations.BufferRowsStayInTheirFootprint
  exact family_staysIn Family.noConfusion

/-! ### Flush (R290) -/

theorem adminSlot_of_lt {n : Nat} (io : n < 64512) : adminSlot n = false := decide_eq_false (Nat.not_le.mpr io)

/-- A fetched I/O command of the opcode starts. -/
theorem onIo_starts {opc n : Nat} {f : Slot → State → State} {s : State} {x : Slot} (slot : slotAt s n = some x)
    (fetched : x.st = .fetched) (code : x.opc = opc) (io : n < 64512) : onIo opc n f s = f x s := by
  have starts : x.st = .fetched ∧ x.opc = opc ∧ ¬ adminSlot n :=
    ⟨fetched, code, Bool.eq_false_iff.mp (adminSlot_of_lt io)⟩
  simp only [onIo, slot]
  exact if_pos starts

/-- Settles O51: Flush is the end of its command, which changes its slot and the count of completions alone. -/
theorem flushCompletesAtOnce : Obligations.FlushCompletesAtOnce := by
  unfold Obligations.FlushCompletesAtOnce
  intro n s x slots slot fetched opc io
  have row : flush n s = finish n 0 0 0 s := onIo_starts slot fetched opc io
  have done := slotAt_finish_same n 0 0 0 s slots
  rw [slot, Option.map_some] at done
  exact ⟨_, _, congrArg (fun t => Host.Outcome.next (settleSlots t)) row, done, rfl, rfl, rfl,
    fun m ne => slotAt_finish_other n m 0 0 0 s ne slots, finish_changes n 0 0 0 s⟩

/-! ### What an operation leaves of a command's outcome (R277) -/

/-- A command that is not active has no turn. -/
theorem advanceCmd_inactive {n : Nat} {s : State} {x : Slot} (slot : slotAt s n = some x) (inactive : x.st ≠ .active) :
    advanceCmd n s = s := by
  simp only [advanceCmd, slot]
  exact if_pos (.inl inactive)

/-- What a completion tells the host of its command: the state of the slot, the status, the CID and the phase. -/
def Slot.outcome (x : Slot) : SlotSt × Nat × Nat × Bool := (x.st, x.status, x.cid, x.phase)

/-- `t` holds the outcome of the slot's command as `s` does, in a canonical table. -/
structure KeepsOutcome (n : Nat) (s t : State) : Prop where
  wf : twf none t.hqe.slots = true
  same : (slotAt t n).map Slot.outcome = (slotAt s n).map Slot.outcome

namespace KeepsOutcome
variable {n m : Nat} {s t u : State}

protected theorem refl (h : twf none s.hqe.slots = true) : KeepsOutcome n s s := ⟨h, rfl⟩

theorem slotAt_eq {x : Slot} (a : KeepsOutcome n s t) (slot : slotAt s n = some x) :
    ∃ y, slotAt t n = some y ∧ y.outcome = x.outcome := by
  have same := a.same
  rwa [slot, Option.map_some, Option.map_eq_some_iff] at same

/-- An operation whose footprint leaves the host queues out. -/
theorem within {F : List Piece} (a : KeepsOutcome n s t) (w : Within F t u) (hF : Piece.hqe ∉ F := by decide) :
    KeepsOutcome n s u := by
  have hqe : u.hqe = t.hqe := w.frame .hqe hF
  refine ⟨hqe ▸ a.wf, ?_⟩
  rw [slotAt, hqe]
  exact a.same

theorem ite {c : Prop} [Decidable c] (a : KeepsOutcome n s t) (b : KeepsOutcome n s u) :
    KeepsOutcome n s (if c then t else u) := by
  split <;> assumption

/-- An update of any slot besides its outcome. -/
theorem modSlot {f : Slot → Slot} (a : KeepsOutcome n s t) (shows : ∀ x, (f x).outcome = x.outcome := by exact fun _ => rfl) :
    KeepsOutcome n s (modSlot m f t) := by
  refine ⟨modSlot_slots_twf m f t a.wf, ?_⟩
  rw [← a.same]
  by_cases here : n = m
  · rw [← here, slotAt_modSlot_same n f t a.wf, Option.map_map]
    exact congrArg (fun g => (slotAt t n).map g) (funext shows)
  · rw [slotAt_modSlot_other m n f t here a.wf]

/-- The end of another command. -/
theorem finish {status : Nat} {d0 d1 : Word} (a : KeepsOutcome n s t) (other : n ≠ m) :
    KeepsOutcome n s (finish m status d0 d1 t) := by
  refine ⟨modSlot_slots_twf m _ _ a.wf, ?_⟩
  rw [slotAt_finish_other m n status d0 d1 t other a.wf]
  exact a.same

/-! #### Candidates and Stripes -/

theorem writeBegun {c : Cand} (a : KeepsOutcome n s t) : KeepsOutcome n s (writeBegun c t) := by
  unfold Machine.writeBegun
  split
  · exact a.modSlot
  · exact a

theorem queueCand {c : Cand} (a : KeepsOutcome n s t) : KeepsOutcome n s (queueCand c t) := by
  unfold Machine.queueCand
  extract_lets noted wait send
  have stands : KeepsOutcome n s noted := a.within noteHost_within
  have waits : KeepsOutcome n s (wait noted) := stands.within modSched_within
  have sent {v : State} : Within [.tdl] v (send v) := .after sendCtrl_within <| modTdl_within fun _ h => h
  refine .ite waits (.ite (stands.within sent).writeBegun ?_)
  split
  · exact waits
  · exact stands.within (F := [.tdl, .ple]) (.after sent <| .mono <| modPle_within fun _ h => h)

theorem enterCand {c : Cand} (a : KeepsOutcome n s t) : KeepsOutcome n s (enterCand c t) :=
  .queueCand <| a.within (modPle_within fun _ h => h)

theorem putStripe {band cls est track : Nat} {kind : CandKind} {slots holes : List Nat} {es : List (Nat × Nat)}
    (a : KeepsOutcome n s t) : KeepsOutcome n s (putStripe band kind cls est track slots es holes t) := by
  unfold Machine.putStripe
  split
  · exact a
  · exact .enterCand <| a.within modBand_within

theorem stageStripe {ns : Ns} {kind : Nat → CandKind} {cls est : Nat} {es : List (Nat × Nat)} {r : State × Nat}
    (a : KeepsOutcome n s t) (staged : stageStripe ns kind cls est es t = some r) : KeepsOutcome n s r.1 := by
  unfold Machine.stageStripe at staged
  split at staged
  · cases staged
  · rename_i members v home
    cases staged
    refine List.foldlRecOn members _ (a.within (stagingHome_within _ home)) fun w b q _ => ?_
    split
    · exact b
    · split
      · exact b
      · have put {k c e i d l z x h p par} : KeepsOutcome n s (Machine.putStripe q k c e i d l z (recordPlan x h p d par w)) :=
          .putStripe <| b.within recordPlan_within
        exact .ite put (put.within setBand_within)

theorem stageOut {slot : Nat} {ns : Ns} {es : List (Nat × Nat)} {r : State × Nat} (a : KeepsOutcome n s t)
    (staged : stageOut slot ns es t = some r) : KeepsOutcome n s r.1 := by
  unfold Machine.stageOut at staged
  refine List.foldlRecOn (chunksOf 64 es) _ (motive := fun o : Option (State × Nat) => ∀ p, o = some p → KeepsOutcome n s p.1)
    ?_ ?_ r staged
  · rintro p ⟨⟩
    exact a
  · intro o b l _ p next
    split at next
    · cases next
    · rename_i v k
      obtain ⟨q, stripe, rfl⟩ := Option.map_eq_some_iff.mp next
      exact stageStripe (r := q) (b (v, k) rfl) stripe

theorem coverStripes {slot band top fuel : Nat} {at_ : Nat → Option (Nat × Nat)} (a : KeepsOutcome n s t) :
    KeepsOutcome n s (coverStripes slot band at_ top fuel t).1 := by
  induction fuel generalizing t with
  | zero => exact a
  | succ fuel ih =>
    unfold Machine.coverStripes
    split
    · exact a
    · split
      · exact a
      · exact ih a.putStripe

/-! #### A command's turn -/

theorem tryAdmit (a : KeepsOutcome n s t) : KeepsOutcome n s (tryAdmit m t) := by
  unfold Machine.tryAdmit
  split
  · exact a
  · exact .ite a.modSlot (.ite a.modSlot a.modSlot)

theorem writeThroughOut {x : Slot} {ns : Ns} (a : KeepsOutcome n s t) : KeepsOutcome n s (writeThroughOut m x ns t) := by
  unfold Machine.writeThroughOut
  extract_lets lba vals keyed done zn members
  split
  · cases staged : Machine.stageOut m ns keyed t with
    | none => exact a
    | some r => exact (a.stageOut staged).modSlot
  · split
    · exact a
    · rename_i v home
      extract_lets z o places at_ top r direct
      have covered : KeepsOutcome n s r.1 :=
        List.foldlRecOn z.bands _ (motive := fun p : State × Nat => KeepsOutcome n s p.1) (a.within (bindZone_within v home))
          fun _ b _ _ => b.coverStripes
      split
      · exact a
      · rename_i q staged
        exact (covered.stageOut staged).modSlot

theorem journalCmd {x : Slot} {ops : List MapOp} (a : KeepsOutcome n s t) : KeepsOutcome n s (journalCmd m x ops t) := by
  have journaled {assigned : Option Nat} : KeepsOutcome n s (journalFor m ops assigned t) := a.within journalFor_within
  exact .modSlot <| .ite journaled (journaled.within putMeta_within)

theorem takeBack (a : KeepsOutcome n s t) : KeepsOutcome n s (takeBack m t) := by
  have undone : KeepsOutcome n s (unjournal m t) := by
    unfold unjournal
    split
    · exact a
    · exact .ite a (a.within journal_within).modSlot
  exact List.foldlRecOn _ _ ((undone.within withdraw_within).within detachWrites_within) fun _ b _ _ => b.within stopChan_within

theorem failCmd {status : Nat} (a : KeepsOutcome n s t) (other : n ≠ m) : KeepsOutcome n s (failCmd m status t) :=
  .finish (.modSlot a.takeBack) other

/-- The turn of another command. -/
theorem advanceCmd_other (a : KeepsOutcome n s t) (other : n ≠ m) : KeepsOutcome n s (advanceCmd m t) := by
  unfold advanceCmd
  split
  · exact a
  · refine .ite a ?_
    split
    · exact a
    · extract_lets +onlyGivenNames zn z status
      refine .ite (a.failCmd other) ?_
      extract_lets +onlyGivenNames x u v
      have assigned : KeepsOutcome n s u := a.modSlot
      have admitted : KeepsOutcome n s v := .ite assigned.tryAdmit assigned
      clear_value v
      refine .ite admitted <| .ite admitted <| .ite admitted.modSlot <| .ite admitted.writeThroughOut ?_
      split
      · exact admitted
      · rename_i w home
        have bound : KeepsOutcome n s w := by
          split at home
          · exact admitted.within (bindZone_within _ home)
          · cases home
            exact admitted
        exact .journalCmd <| .ite (bound.within mirrorData_within) bound

/-- The turns of all commands, where the one whose outcome is kept is not active. -/
theorem advanceAll {x : Slot} (a : KeepsOutcome n s t) (slot : slotAt s n = some x) (inactive : x.st ≠ .active) :
    KeepsOutcome n s (advanceAll t) := by
  unfold Machine.advanceAll
  refine List.foldlRecOn _ _ a fun v b e _ => ?_
  by_cases here : n = e.2
  · obtain ⟨y, same, outcome⟩ := b.slotAt_eq slot
    have st : y.st = x.st := congrArg Prod.fst outcome
    rw [← here, advanceCmd_inactive same (st ▸ inactive)]
    exact b
  · exact b.advanceCmd_other here

end KeepsOutcome

/-! ### Acceptance (R276, R277, R280) -/

/-- The command takes its position of the completion queue, and its slot is committed with success. -/
def acceptCommitted (n : Nat) (x : Slot) (c : Cq) (s : State) : State :=
  let k := s.hqe.commits + 1
  let d := resultDws x
  modSlot n (fun y => { y with
    st := .committed
    status := 0
    dw0 := d.1
    dw1 := d.2
    phase := c.phase
    cnum := k })
    (putCq x.fn (cqidOf s x.fn x.sqid) (some (cqAdvance c)) (modHqe (fun h => { h with
      commits := k
      lastCqe := cqEntry s x.fn x.sqid x.cid 0 d.1 d.2 c.phase }) s))

/-- The command is applied, the partner is told, and the commands that waited for it advance. -/
def acceptApplied (n : Nat) (x : Slot) (s : State) : State :=
  let s := applyCmd x s
  let s := if mirroring s && x.onMedia && hasSectors s x then modTdl (fun t => { t with
      releases := t.releases ++ [(t.mseqTx, (slotKeys s x).map (fun k => (k, 0)))] }) s else s
  let s := if mirroring s then sendMirror (.commitDone n x.cid) s else s
  advanceAll (updateMapState (sealBands s))

/-- What keeps a command from acceptance. -/
def acceptRefused (n : Nat) (s : State) (x : Slot) (c : Cq) : Bool :=
  !commits n x || !pleServes s || !acceptable s x || blocked s x || !cqRoom c || doneAhead s x.fn (cqidOf s x.fn x.sqid) ||
    (fnOf s x.fn).resetting || decide (s.sys.dump ≠ .none)

section
variable {n : Nat} {s : State} {x : Slot} {c : Cq}

theorem writeAccept_eq (slot : slotAt s n = some x) (found : cqOf s x.fn (cqidOf s x.fn x.sqid) = some c) :
    writeAccept n s = if acceptRefused n s x c = true then s else acceptApplied n x (acceptCommitted n x c s) := by
  simp only [writeAccept, slot, found]
  rfl

theorem acceptCommitted_wf (h : twf none s.hqe.slots = true) : twf none (acceptCommitted n x c s).hqe.slots = true :=
  modSlot_slots_twf n _ _ h

theorem acceptCommitted_slot (h : twf none s.hqe.slots = true) (slot : slotAt s n = some x) :
    ∃ y, slotAt (acceptCommitted n x c s) n = some y ∧ y.outcome = (.committed, 0, x.cid, c.phase) := by
  have committed : slotAt (acceptCommitted n x c s) n = (slotAt s n).map _ := slotAt_modSlot_same n _ _ h
  rw [slot, Option.map_some] at committed
  exact ⟨_, committed, rfl⟩

/-- What an acceptance sets off changes the outcome of no command that is not active. -/
theorem KeepsOutcome.acceptApplied {y : Slot} (h : twf none s.hqe.slots = true) (slot : slotAt s n = some y)
    (inactive : y.st ≠ .active) : KeepsOutcome n s (acceptApplied n x s) := by
  unfold Machine.acceptApplied
  extract_lets applied released told
  have keeps : KeepsOutcome n s applied := (KeepsOutcome.refl h).within applyCmd_within
  have releases : KeepsOutcome n s released := .ite (keeps.within (modTdl_within fun _ h => h)) keeps
  have tells : KeepsOutcome n s told := .ite (releases.within sendMirror_within) releases
  exact ((tells.within sealBands_within).within updateMapState_within).advanceAll slot inactive

/-- An accepted command is committed with success, and stays so through all that its acceptance sets off. -/
theorem acceptApplied_slot (h : twf none s.hqe.slots = true) (slot : slotAt s n = some x) :
    ∃ y, slotAt (acceptApplied n x (acceptCommitted n x c s)) n = some y ∧ y.outcome = (.committed, 0, x.cid, c.phase) := by
  obtain ⟨z, committed, outcome⟩ := acceptCommitted_slot (c := c) h slot
  have inactive : z.st ≠ .active := by
    rw [show z.st = .committed from congrArg Prod.fst outcome]
    exact SlotSt.noConfusion
  obtain ⟨y, held, same⟩ := (KeepsOutcome.acceptApplied (x := x) (acceptCommitted_wf h) committed inactive).slotAt_eq committed
  exact ⟨y, held, same.trans outcome⟩

/-- The model's test of the conditions of R277, as a statement. -/
theorem acceptable_iff : acceptable s x = true ↔
    s.bmc.down = false ∧ x.st = .active ∧ x.journaled = true ∧
      (x.opc = 0x79 ∧ wordField (x.cdw 13) 7 0 = 4 → x.onMedia = true) ∧
      (if hasSectors s x = true then
        (if writeThrough s = true then x.onMedia = true ∧ x.jseq ≤ s.ple.jflushed
         else x.onMedia = true ∧ x.jseq ≤ s.ple.jflushed ∨
          x.inDram = true ∧ x.reserved = true ∧ (mirroring s = true → x.mseq ≤ s.tdl.mseqAck) ∧ metaCurrent s x = true)
      else if writeThrough s = true then x.jseq ≤ s.ple.jflushed else mirroring s = true → x.mseq ≤ s.tdl.mseqAck) := by
  have resets : (!(decide (x.opc = 0x79) && decide (wordField (x.cdw 13) 7 0 = 4)) || x.onMedia) = true ↔
      (x.opc = 0x79 ∧ wordField (x.cdw 13) 7 0 = 4 → x.onMedia = true) := by
    rw [← Bool.decide_and, ← decide_not, Bool.or_eq_true, decide_eq_true_eq, imp_iff_not_or]
  have acked : (!mirroring s || decide (x.mseq ≤ s.tdl.mseqAck)) = true ↔ (mirroring s = true → x.mseq ≤ s.tdl.mseqAck) := by
    cases mirroring s <;> simp
  simp only [acceptable, Bool.and_eq_true, resets, decide_eq_true_eq, Bool.not_eq_true', and_assoc]
  rw [and_left_comm]
  refine and_congr_right' (and_congr_right' (and_congr_right' (and_congr_right' ?_)))
  split_ifs <;> simp only [Bool.and_eq_true, Bool.or_eq_true, decide_eq_true_eq, acked, and_assoc]

theorem acceptRefused_iff : acceptRefused n s x c = false ↔
    commits n x = true ∧ pleServes s = true ∧ acceptable s x = true ∧ blocked s x = false ∧ (c.tail + 1) % c.size ≠ c.head ∧
      doneAhead s x.fn (cqidOf s x.fn x.sqid) = false ∧ (fnOf s x.fn).resetting = false ∧ s.sys.dump = .none := by
  simp only [acceptRefused, cqRoom, Bool.or_eq_false_iff, Bool.not_eq_false', decide_eq_true_eq, decide_eq_false_iff_not,
    not_not, and_assoc]

end

/-- Settles O50: a refusal changes nothing, and what an acceptance sets off leaves the committed command's outcome. -/
theorem acceptanceNeedsEveryCondition : Obligations.AcceptanceNeedsEveryCondition := by
  unfold Obligations.AcceptanceNeedsEveryCondition
  intro n s x c slots slot found _ _ onBoth acked protected_ isReset all
  have all_iff : all ↔ acceptRefused n s x c = false := by
    simp only [acceptRefused_iff, acceptable_iff, all, protected_, isReset, onBoth, acked, and_assoc]
  have row := writeAccept_eq slot found
  refine ⟨fun refused => ?_, fun ready => ?_⟩
  · rw [all_iff, Bool.not_eq_false] at refused
    rw [if_pos refused] at row
    exact congrArg (fun t => Host.Outcome.next (settleSlots t)) row
  · rw [all_iff] at ready
    rw [if_neg (Bool.eq_false_iff.mp ready)] at row
    obtain ⟨y, held, outcome⟩ := acceptApplied_slot (c := c) slots slot
    simp only [Slot.outcome, Prod.mk.injEq] at outcome
    obtain ⟨st, status, cid, phase⟩ := outcome
    exact ⟨_, y, congrArg (fun t => Host.Outcome.next (settleSlots t)) row, held, st, status, cid, phase⟩

end Sys2Proof.Machine
end

section
namespace Sys2Proof.Machine

/-! ## Buffer memory and the DMA engines (R303 to R314, R323 to R325) -/

/-! ### The canonical form of buffer memory (R303, R306) -/

/-- A step idles on an empty queue, or takes the front command and stays within that command's footprint. -/
theorem step_next_cases {s t : State} (h : step s = .next t) :
    (s.pending = [] ∧ t = s) ∨
      ∃ c rest, s.pending = c :: rest ∧ Within (footprint c).2 { s with pending := rest } t := by
  rw [step] at h
  split at h
  case h_1 idle =>
    cases h
    exact .inl ⟨idle, rfl⟩
  case h_2 c rest front => exact .inr ⟨c, rest, front, exec_next_within h⟩

/-- Settles O3: an idle step changes nothing, and every command writes buffer memory by operations that keep its form. -/
theorem memoryKeepsItsCanonicalForm : Obligations.MemoryKeepsItsCanonicalForm := by
  unfold Obligations.MemoryKeepsItsCanonicalForm
  intro s t canonical h
  obtain ⟨-, rfl⟩ | ⟨c, rest, -, within⟩ := step_next_cases h
  · exact canonical
  · exact within.memory canonical

/-! ### A write of bytes of a page (R306, R313) -/

theorem groupOf_congr {s t : State} (bmc : t.bmc = s.bmc) (n : Nat) : groupOf t n = groupOf s n := by
  simp only [groupOf, groupSize, channels, bmc]

theorem ne_parity_of_group {s : State} {n : Nat} {g : Nat × Nat} (data : parityPage s n = false)
    (group : groupOf s n = some g) : n ≠ g.2 := by
  simpa only [parityPage, group, decide_eq_false_iff_not] using data

theorem putByte_bmc (n i : Nat) (b : Byte) (s : State) : (putByte n i b s).bmc = s.bmc :=
  (putByte_within (n := n) (i := i) (b := b) (s := s)).frame .bmc (by decide)

theorem pageByte_putByte_same (n i : Nat) (b : Byte) (s : State) (h : Memory.wf s.mem = true) :
    pageByte (putByte n i b s) n i = b := by
  unfold putByte
  split
  case h_1 => exact tget_tput_same 0 b _ _ h
  case h_2 => exact tget_tput_same 0 b _ _ (memPut_wf _ _ _ h)

/-- The addresses that a write of byte `i` of page `n` leaves: all but its own and the same offset of the parity page. -/
def Untouched (s : State) (n i a : Nat) : Prop := a ≠ 4096 * n + i ∧ ∀ g, groupOf s n = some g → a ≠ 4096 * g.2 + i

theorem putByte_untouched {n i a : Nat} (b : Byte) {s : State} (h : Memory.wf s.mem = true) (away : Untouched s n i a) :
    tget 0 (putByte n i b s).mem a = tget 0 s.mem a := by
  obtain ⟨data, parity⟩ := away
  unfold putByte
  split
  case h_1 => exact tget_tput_other 0 b _ _ a data h
  case h_2 g group =>
    exact (tget_tput_other 0 b _ _ a data (memPut_wf _ _ _ h)).trans (tget_tput_other 0 _ _ _ a (parity g group) h)

/-- The bytes of a BUFFER_WRITE, entered one after another. -/
def pageWrite (n : Nat) (bytes : List (Nat × Byte)) (s : State) : State := bytes.foldl (fun s e => putByte n e.1 e.2 s) s

theorem pageWrite_cons (n : Nat) (e : Nat × Byte) (bytes : List (Nat × Byte)) (s : State) :
    pageWrite n (e :: bytes) s = pageWrite n bytes (putByte n e.1 e.2 s) := rfl

theorem pageWrite_bmc (n : Nat) (bytes : List (Nat × Byte)) (s : State) : (pageWrite n bytes s).bmc = s.bmc :=
  (Within.foldl (F := [.mem]) (l := bytes) (s := s) fun _ e => putByte_within (n := n) (i := e.1) (b := e.2)).frame .bmc
    (by decide)

theorem pageWrite_untouched {n a : Nat} {bytes : List (Nat × Byte)} {s : State} (h : Memory.wf s.mem = true)
    (away : ∀ e ∈ bytes, Untouched s n e.1 a) : tget 0 (pageWrite n bytes s).mem a = tget 0 s.mem a := by
  induction bytes generalizing s with
  | nil => rfl
  | cons x l ih =>
    obtain ⟨first, others⟩ := List.forall_mem_cons.mp away
    have later : ∀ e ∈ l, Untouched (putByte n x.1 x.2 s) n e.1 a := by
      simpa only [Untouched, groupOf_congr (putByte_bmc n x.1 x.2 s) n] using others
    exact (ih (putByte_wf n x.1 x.2 s h) later).trans (putByte_untouched x.2 h first)

/-- Another byte of a data page shares no address with a byte of the page or of its group's parity page. -/
theorem untouched_of_ne {s : State} {n i j : Nat} (data : parityPage s n = false) (ne : i ≠ j) (hi : i < 4096)
    (hj : j < 4096) : Untouched s n i (4096 * n + j) := by
  refine ⟨by omega, fun g group => ?_⟩
  have apart := ne_parity_of_group data group
  omega

theorem pageByte_pageWrite {n : Nat} {bytes : List (Nat × Byte)} {s : State} (h : Memory.wf s.mem = true)
    (data : parityPage s n = false) (distinct : (bytes.map Prod.fst).Nodup) (inPage : ∀ e ∈ bytes, e.1 < 4096) :
    ∀ e ∈ bytes, pageByte (pageWrite n bytes s) n e.1 = e.2 := by
  induction bytes generalizing s with
  | nil => exact fun e he => absurd he List.not_mem_nil
  | cons x l ih =>
    obtain ⟨fresh, distinct⟩ := List.nodup_cons.mp distinct
    obtain ⟨first, inPage⟩ := List.forall_mem_cons.mp inPage
    have wf := putByte_wf n x.1 x.2 s h
    have still : parityPage (putByte n x.1 x.2 s) n = false := by
      rw [parityPage, groupOf_congr (putByte_bmc n x.1 x.2 s) n]
      exact data
    rw [pageWrite_cons]
    refine List.forall_mem_cons.mpr ⟨?_, ih wf still distinct inPage⟩
    refine (pageWrite_untouched wf fun e he => untouched_of_ne still (fun same => fresh ?_) (inPage e he) first).trans
      (pageByte_putByte_same n x.1 x.2 s h)
    exact same ▸ List.mem_map_of_mem he

/-- Every byte of a page is written. -/
def wholePage (bytes : List (Nat × Byte)) : Prop := ∀ i, i < 4096 → i ∈ bytes.map Prod.fst

theorem wholePage_iff (bytes : List (Nat × Byte)) :
    (List.range 4096).all (fun i => bytes.any (fun e => decide (e.1 = i))) = true ↔ wholePage bytes := by
  simp only [wholePage, List.all_eq_true, List.mem_range, List.any_eq_true, decide_eq_true_eq, List.mem_map]

section
variable {n requester : Nat} {s : State} {bytes : List (Nat × Byte)}

theorem bufferWrite_data (serves : bmcServes s = true) (inSpace : n < bufferPages s) (data : parityPage s n = false)
    (inPage : ∀ e ∈ bytes, e.1 < 4096) : bufferWrite n bytes requester s =
      if (List.range 4096).all (fun i => bytes.any (fun e => decide (e.1 = i))) then unstale n (pageWrite n bytes s)
      else markStale n (pageWrite n bytes s) := by
  have inRange : bytes.any (fun e => decide (4096 ≤ e.1)) = false :=
    List.any_eq_false.mpr fun e he => by simpa using inPage e he
  have served : ¬ (!bmcServes s || decide (bufferPages s ≤ n) || bytes.any (fun e => decide (4096 ≤ e.1))) = true := by
    simp [serves, inRange, inSpace]
  unfold bufferWrite
  rw [if_neg served, if_neg (by rw [data]; exact Bool.false_ne_true)]
  rfl

theorem bufferWrite_whole (serves : bmcServes s = true) (inSpace : n < bufferPages s) (data : parityPage s n = false)
    (inPage : ∀ e ∈ bytes, e.1 < 4096) (whole : wholePage bytes) :
    bufferWrite n bytes requester s = unstale n (pageWrite n bytes s) := by
  rw [bufferWrite_data serves inSpace data inPage, if_pos ((wholePage_iff bytes).mpr whole)]

theorem bufferWrite_partial (serves : bmcServes s = true) (inSpace : n < bufferPages s) (data : parityPage s n = false)
    (inPage : ∀ e ∈ bytes, e.1 < 4096) (part : ¬ wholePage bytes) :
    bufferWrite n bytes requester s = markStale n (pageWrite n bytes s) := by
  rw [bufferWrite_data serves inSpace data inPage, if_neg fun all => part ((wholePage_iff bytes).mp all)]

end

theorem unstale_not_mem (n : Nat) (s : State) : n ∉ (unstale n s).bmc.stale := by
  simp [unstale]

theorem markStale_mem_stale (n : Nat) (s : State) : n ∈ (markStale n s).bmc.stale := by
  unfold markStale
  split
  case isTrue known => exact List.contains_iff_mem.mp known
  case isFalse => exact List.mem_append_right _ List.mem_cons_self

theorem markStale_bmcCsr (n : Nat) (s : State) : (markStale n s).bmc.csr = s.bmc.csr := by
  unfold markStale
  split <;> rfl

/-! ### A read of a page without a fault (R307) -/

/-- What a page delivers that comes out as it was written. -/
abbrev noErr : PageErr := ⟨[], [], []⟩

theorem erasedRows_noErr : erasedRows noErr = [] :=
  List.filter_eq_nil_iff.mpr fun _ _ => Bool.false_ne_true

theorem colSyn_noErr (c : Nat) : colSyn noErr c = (0, 0) := by
  have rows : (List.range 64).filter (fun r => ([] : List Nat).contains r) = [] :=
    List.filter_eq_nil_iff.mpr fun _ _ => Bool.false_ne_true
  have product : gfMul 2 0 = 0 := rfl
  simp only [colSyn, xorAt, List.map_nil, List.filter_nil, List.foldl_nil, rows, product, Nat.xor_self]

theorem decodeNone_noErr : decodeNone noErr = .good := by
  simp [decodeNone, colSyn_noErr]

theorem decodePage_noErr (stale : Bool) : decodePage stale noErr = .good := by
  simp [decodePage, erasedRows_noErr, decodeNone_noErr]

/-- The bytes that a page holds at some offsets. -/
def heldBytes (s : State) (n off len : Nat) : List Byte := (List.range len).map (fun i => pageByte s n (off + i))

/-- A page of buffer memory itself is read, and no other memory of the device. -/
def ofBufferMemory (use : PageUse) : Prop := (∃ slot, use = .hostRead slot) ∨ use = .bandMap ∨ use = .other

section
variable {n off len requester : Nat} {use : PageUse} {s : State}

theorem bufferRead_noErr (memory : ofBufferMemory use) (serves : bmcServes s = true) (inSpace : n < bufferPages s)
    (inPage : off + len ≤ 4096) (data : parityPage s n = false) (works : failedChannel s ≠ some (pageChannel s n)) :
    bufferRead n off len use requester noErr s = bmcAnswer (heldBytes s n off len) false s := by
  have served : ¬ (!bmcServes s || decide (bufferPages s ≤ n) || decide (4096 < off + len)) = true := by
    simp [serves, inSpace, inPage]
  have raw : (List.range len).map (fun i => BitVec.ofNat 8 ((pageByte s n (off + i)).toNat ^^^ xorAt noErr.data (off + i))) =
      heldBytes s n off len := by
    simp [heldBytes, xorAt]
  obtain ⟨slot, rfl⟩ | rfl | rfl := memory <;>
    simp only [bufferRead, if_neg served, data, Bool.false_eq_true, if_false, if_neg works, decodePage_noErr, raw, ite_self]

theorem readBuffer_noErr (memory : ofBufferMemory use) (serves : bmcServes s = true) (inSpace : n < bufferPages s)
    (inPage : off + len ≤ 4096) (data : parityPage s n = false) (works : failedChannel s ≠ some (pageChannel s n)) :
    readBuffer n off len use requester noErr s = bmcAnswer (heldBytes s n off len) false s := by
  unfold readBuffer
  rw [bufferRead_noErr memory serves inSpace inPage data works]
  split
  case h_1 => exact if_neg fun poisoned => Bool.false_ne_true poisoned.2.2.2
  case h_2 => rfl

end

/-- A row that raises no machine check and fails no channel has no more to it. -/
theorem withFatal_quiet {f : State → State} {s : State} (mck : (f s).mck = s.mck) (down : (f s).bmc.down = s.bmc.down) :
    withFatal f s = f s := by
  have lossless : recordLoss s (f s) = f s := if_neg (by rw [down, Bool.and_not_self]; exact Bool.false_ne_true)
  simp only [withFatal, lossless, mck, Bool.and_not_self, Bool.false_eq_true, if_false]

/-- Settles O52: a write enters its bytes one by one, each away from the others, and marks or clears the stale bit after them;
an error-free page decodes as good. -/
theorem bufferHoldsWhatIsWritten : Obligations.BufferHoldsWhatIsWritten := by
  unfold Obligations.BufferHoldsWhatIsWritten
  intro n requester s canonical serves inSpace data
  refine ⟨fun bytes distinct inPage => ?_, fun off len use memory inPage works => ?_⟩
  · intro whole
    have written := pageByte_pageWrite canonical data distinct inPage
    have kept {a} (away : ∀ e ∈ bytes, Untouched s n e.1 a) := congrArg BitVec.toNat (pageWrite_untouched canonical away)
    have csr := congrArg Bmc.csr (pageWrite_bmc n bytes s)
    by_cases all : whole
    · exact ⟨_, congrArg Host.Outcome.next (bufferWrite_whole serves inSpace data inPage all), written, fun _ => kept,
        fun _ => unstale_not_mem n _, fun part => absurd all part, csr⟩
    · refine ⟨_, congrArg Host.Outcome.next (bufferWrite_partial serves inSpace data inPage all), ?_, ?_,
        fun whole => absurd whole all, fun _ => markStale_mem_stale n _, (markStale_bmcCsr n _).trans csr⟩
      · simpa only [pageByte, markStale_mem] using written
      · rw [markStale_mem]
        exact fun _ => kept
  · have read := readBuffer_noErr (requester := requester) memory serves inSpace inPage data works
    have quiet : withFatal (readBuffer n off len use requester noErr) s = readBuffer n off len use requester noErr s :=
      withFatal_quiet (by rw [read]; rfl) (by rw [read]; rfl)
    exact ⟨_, congrArg Host.Outcome.next (quiet.trans read), rfl, rfl, rfl⟩

/-! ### The channels of the DMA engines (R323 to R325) -/

theorem chanAt_putChan_same (c : Nat) (x : Chan) {s : State} (h : twf none s.dma.chans = true) :
    chanAt (putChan c x s) c = x := by
  have entered : tget none (putChan c x s).dma.chans c = if x = Chan.idle then none else some x :=
    tget_tput_same none _ _ c h
  rw [chanAt, entered]
  split
  case isTrue idle => exact idle.symm
  case isFalse => rfl

theorem chanAt_putChan_other {b c : Nat} (x : Chan) {s : State} (ne : b ≠ c) (h : twf none s.dma.chans = true) :
    chanAt (putChan c x s) b = chanAt s b :=
  congrArg (fun e => Option.getD e Chan.idle) (tget_tput_other none _ _ c b ne h)

/-- The done bits are registers, and no part of a channel. -/
@[simp] theorem chanAt_setDone (c : Nat) (s : State) (b : Nat) : chanAt (setDone c s) b = chanAt s b := rfl

/-- The channel that DMA_CH_IDX selects for DMA_LOAD, DMA_STOP and DMA_CLEAR. -/
abbrev selectedChan (s : State) : Nat := rdF s.dma.csr DMA_CH_IDX.CH

/-- What has DMA_LOAD refuse the staged descriptor or ignore it. -/
def loadRefused (s : State) : Prop :=
  let x := chanAt s (selectedChan s)
  let d := stagedDesc s
  d.len = 0 ∨ 4 * 2 ^ 20 < d.saddr + d.len ∨ (d.bucket = true ∧ 32 ≤ selectedChan s) ∨ x.shadow ≠ none ∨ x.stopped = true

theorem dmaLoad_guard_iff (s : State) :
    ((stagedDesc s).len = 0 ∨ 4 * 2 ^ 20 < (stagedDesc s).saddr + (stagedDesc s).len ∨
      ((stagedDesc s).bucket ∧ downstream (selectedChan s)) ∨ (chanAt s (selectedChan s)).shadow.isSome ∨
      (chanAt s (selectedChan s)).stopped) ↔ loadRefused s := by
  simp only [loadRefused, downstream, decide_eq_true_eq, Option.isSome_iff_ne_none]

section
variable {s : State}

theorem dmaLoad_refused (refused : loadRefused s) :
    dmaLoad s = putChan (selectedChan s) { chanAt s (selectedChan s) with ign := true } s :=
  if_pos ((dmaLoad_guard_iff s).mpr refused)

theorem dmaLoad_taken (taken : ¬ loadRefused s) : dmaLoad s = loadDesc (selectedChan s) (stagedDesc s) s :=
  if_neg fun refused => taken ((dmaLoad_guard_iff s).mp refused)

theorem loadDesc_idle {c : Nat} (d : Desc) (idle : (chanAt s c).active = none) :
    loadDesc c d s = putChan c (activate d { chanAt s c with ign := false }) s := by
  simp [loadDesc, idle]

theorem loadDesc_busy {c : Nat} (d : Desc) (busy : (chanAt s c).active ≠ none) :
    loadDesc c d s = putChan c { chanAt s c with ign := false, shadow := some d } s := by
  simp [loadDesc, Option.isSome_iff_ne_none.mpr busy]

theorem stopChan_idle {c : Nat} (running : (chanAt s c).stopped = false) (idle : (chanAt s c).active = none) :
    stopChan c s = setDone c (putChan c { chanAt s c with stopped := true } s) := by
  simp [stopChan, running, idle]

theorem dmaClear_stopped (stopped : (chanAt s (selectedChan s)).stopped = true) :
    dmaClear s = putChan (selectedChan s) { chanAt s (selectedChan s) with
      stopped := false
      stopping := false
      err := false
      ecode := 0 } s :=
  if_pos stopped

theorem dmaClear_running (running : (chanAt s (selectedChan s)).stopped = false) : dmaClear s = s :=
  if_neg (Bool.eq_false_iff.mp running)

theorem promote_shadow {b : Nat} {next : Desc} (shadow : (chanAt s b).shadow = some next)
    (running : (chanAt s b).stopping = false) : ∃ x, x.shadow = none ∧ promote b s = putChan b (activate next x) s := by
  refine ⟨{ chanAt s b with ordering := false, reqs := [], remain := 0, shadow := none }, rfl, ?_⟩
  simp [promote, running, shadow]

/-- Every request of the channel's active descriptor is through, and no ordering read is due for it. -/
structure DescFinished (s : State) (b : Nat) (e : Desc) : Prop where
  active : (chanAt s b).active = some e
  running : (chanAt s b).stopping = false
  on : engineOn s b = true
  ordered : (chanAt s b).ordering = false
  good : (chanAt s b).err = false
  collected : 32 ≤ b → (chanAt s b).remain = 0 ∧ (chanAt s b).reqs = []
  notLast : b < 32 → e.last = false

theorem dmaDescriptorDone_finished {b : Nat} {e : Desc} (finished : DescFinished s b e) :
    dmaDescriptorDone b s = promote b (if e.last then setDone b s else s) := by
  obtain ⟨active, running, on, ordered, good, collected, notLast⟩ := finished
  by_cases side : 32 ≤ b
  · obtain ⟨remain, reqs⟩ := collected side
    simp [dmaDescriptorDone, active, running, on, ordered, good, downstream, side, remain, reqs]
  · simp [dmaDescriptorDone, active, running, on, ordered, good, downstream, side, notLast (Nat.lt_of_not_le side)]

/-- A finished descriptor gives way to the shadow. -/
theorem dmaDescriptorDone_promotes {b : Nat} {e next : Desc} (h : twf none s.dma.chans = true) (finished : DescFinished s b e)
    (shadow : (chanAt s b).shadow = some next) :
    let x := chanAt (dmaDescriptorDone b s) b
    x.active = some next ∧ x.shadow = none ∧ x.remain = next.len := by
  rw [dmaDescriptorDone_finished finished]
  have same : chanAt (if e.last then setDone b s else s) b = chanAt s b ∧
      (if e.last then setDone b s else s).dma.chans = s.dma.chans := by
    split <;> exact ⟨rfl, rfl⟩
  generalize (if e.last then setDone b s else s) = t at same
  obtain ⟨chan, chans⟩ := same
  obtain ⟨x, empty, promoted⟩ := promote_shadow (s := t) (chan ▸ shadow) (chan ▸ finished.running)
  rw [promoted, chanAt_putChan_same b _ (chans ▸ h)]
  exact ⟨rfl, empty, rfl⟩

end

/-- Settles O53: each command replaces the selected channel alone, and a finished descriptor leaves its place to the shadow. -/
theorem dmaRunsDescriptorsInLoadOrder : Obligations.DmaRunsDescriptorsInLoadOrder := by
  unfold Obligations.DmaRunsDescriptorsInLoadOrder
  intro s h c x d refused
  refine ⟨fun bad => ?_, fun good => ?_, fun running idle => ?_, fun stopped => ?_, fun running => ?_, ?_⟩
  · exact ⟨_, congrArg Host.Outcome.next (dmaLoad_refused bad), chanAt_putChan_same c _ h,
      fun b ne => chanAt_putChan_other _ ne h⟩
  · have shadow : x.shadow = none := by
      by_contra valid
      exact good (.inr <| .inr <| .inr <| .inl valid)
    have taken := dmaLoad_taken good
    by_cases idle : x.active = none
    · rw [loadDesc_idle _ idle] at taken
      refine ⟨_, congrArg Host.Outcome.next taken, ?_, fun b ne => chanAt_putChan_other _ ne h, fun _ => ?_,
        fun busy => absurd idle busy⟩
      · rw [chanAt_putChan_same _ _ h]
        rfl
      · rw [chanAt_putChan_same _ _ h]
        exact ⟨rfl, shadow, rfl⟩
    · rw [loadDesc_busy _ idle] at taken
      refine ⟨_, congrArg Host.Outcome.next taken, ?_, fun b ne => chanAt_putChan_other _ ne h,
        fun free => absurd free idle, fun _ => ?_⟩
      · rw [chanAt_putChan_same _ _ h]
      · rw [chanAt_putChan_same _ _ h]
        exact ⟨rfl, rfl⟩
  · refine ⟨_, congrArg (fun t => Host.Outcome.next (settleSlots t)) (stopChan_idle running idle), ?_⟩
    rw [chanAt_setDone, chanAt_putChan_same _ _ h]
  · refine ⟨_, congrArg (fun t => Host.Outcome.next (settleSlots t)) (dmaClear_stopped stopped), ?_⟩
    rw [chanAt_putChan_same _ _ h]
    exact ⟨rfl, rfl, rfl⟩
  · exact congrArg (fun t => Host.Outcome.next (settleSlots t)) (dmaClear_running running)
  · intro b e next active shadow running on ordered good collected notLast
    exact ⟨_, rfl, dmaDescriptorDone_promotes h ⟨active, running, on, ordered, good, collected, notLast⟩ shadow⟩

end Sys2Proof.Machine
end

section
namespace Sys2Proof.Machine

/-! ## The Persistence Array (R333 to R359) -/

/-- Settles O16: the Persistence Array is not the family of the device's resets. -/
theorem persistenceArrayRowsStayInTheirFootprint : Obligations.PersistenceArrayRowsStayInTheirFootprint := by
  unfold Obligations.PersistenceArrayRowsStayInTheirFootprint
  exact family_staysIn Family.noConfusion

/-! ### What leaves the PCT but for its registers -/

/-- `t` has the PCT of `s` besides its registers, and of these the register `a`. -/
structure HoldsPct (a : Nat) (s t : State) : Prop where
  regs : HoldsReg a s.pct.csr t.pct.csr
  rest : t.pct = { s.pct with csr := t.pct.csr }

namespace HoldsPct
variable {a : Nat} {s t u : State}

protected theorem refl : HoldsPct a s s := ⟨.refl, rfl⟩

theorem comp (g : HoldsPct a t u) (h : HoldsPct a s t) : HoldsPct a s u := by
  refine ⟨h.regs.trans g.regs, ?_⟩
  rw [g.rest, h.rest]

/-- An operation whose footprint leaves the PCT out. -/
theorem within {F : List Piece} (w : Within F s t) (hF : Piece.pct ∉ F := by decide) : HoldsPct a s t := by
  have same : t.pct = s.pct := w.frame .pct hF
  refine ⟨?_, ?_⟩
  · rw [same]
    exact .refl
  · rw [same]

theorem pctReg {f : List (Nat × Word) → List (Nat × Word)} (h : HoldsReg a s.pct.csr (f s.pct.csr)) :
    HoldsPct a s (pctReg f s) := ⟨h, rfl⟩

theorem ite {c : Prop} [Decidable c] (h : HoldsPct a s t) (g : HoldsPct a s u) : HoldsPct a s (if c then t else u) := by
  split <;> assumption

theorem advanceHead {n : Nat} (ne : a ≠ PCT_RING_HEAD) : HoldsPct a s (advanceHead n s) := by
  induction n generalizing s with
  | zero => exact .refl
  | succ n ih => exact .ite (.comp ih <| .pctReg <| .wrF ne) .refl

/-- The end of a descriptor writes buffer memory and moves HEAD. -/
theorem ringEnd {i status pulses susps bits : Nat} (ne : a ≠ PCT_RING_HEAD) :
    HoldsPct a s (ringEnd i status pulses susps bits s) :=
  .comp (.advanceHead ne) <| .comp (.within memPutWord_within) <| .within memPutWord_within

theorem runs (h : HoldsPct a s t) : t.pct.runs = s.pct.runs := by rw [h.rest]
theorem pages (h : HoldsPct a s t) : t.pct.pages = s.pct.pages := by rw [h.rest]

end HoldsPct

/-! ### A program's start (R341, R342, R357) -/

/-- The page may be programmed: it lies at or past its block's frontier, and the block is known or the page reads blank. -/
def pageErased (s : State) (a : Nat) (found : PsaIn) : Prop :=
  blkF s (psaBlk a) ≤ psaPageIx a ∧ (blkKnown s (psaBlk a) = true ∨ found.blank = true)

/-- The blank check of a page whose block is unknown is counted. -/
def blankChecked (blk : Nat) (s : State) : State :=
  if blkKnown s blk then s else pctReg (fun c => incR c PCT_BLANK 1) s

/-- The page's old content is given up, and the frontier is past it. -/
def pageTaken (a : Nat) (known : Bool) (s : State) : State :=
  putPage a none (setBlk (psaBlk a) known (psaPageIx a + 1) s)

/-- A program that does not start is counted, and its descriptor ends with the status 1. -/
def endNotErased (i : Nat) (s : State) : State := ringEnd i 1 0 0 0 (pctReg (fun c => incR c PCT_NOTERASED 1) s)

theorem blankChecked_holds {a blk : Nat} {s : State} (ne : a ≠ PCT_BLANK) : HoldsPct a s (blankChecked blk s) :=
  .ite .refl <| .pctReg <| .wr ne

theorem blankChecked_blocks (blk : Nat) (s : State) : (blankChecked blk s).pct.blocks = s.pct.blocks := by
  unfold blankChecked
  split <;> rfl

theorem endNotErased_count {i : Nat} {s : State} (h : twf 0 s.pct.csr = true) :
    (rd (endNotErased i s).pct.csr PCT_NOTERASED).toNat = min 0xFFFFFFFF ((rd s.pct.csr PCT_NOTERASED).toNat + 1) := by
  have counted : rd (endNotErased i s).pct.csr PCT_NOTERASED = rd (incR s.pct.csr PCT_NOTERASED 1) PCT_NOTERASED :=
    ((HoldsPct.ringEnd (by decide)).regs (incR_twf _ _ _ h)).2
  rw [counted, incR_toNat _ _ _ h]

theorem endNotErased_runs (i : Nat) (s : State) : (endNotErased i s).pct.runs = s.pct.runs :=
  (HoldsPct.ringEnd (a := PCT_NOTERASED) (by decide)).runs

theorem endNotErased_pages (i : Nat) (s : State) : (endNotErased i s).pct.pages = s.pct.pages :=
  (HoldsPct.ringEnd (a := PCT_NOTERASED) (by decide)).pages

section
variable {i grp : Nat} {found : PsaIn} {s : State}

/-- A PROGRAM that nothing refuses comes to the check of its page. -/
theorem startOne_program (allowed : refuses s 2 (ringAddrOf s i) = none) :
    startOne 2 i grp found s = startProgram i grp found s := by
  -- unfolded as a function, as in `startOne_within`
  obtain ⟨f, hf⟩ : ∃ f, f = startOne := ⟨_, rfl⟩
  rw [← hf]
  delta startOne at hf
  subst hf
  beta_reduce
  extract_lets +onlyGivenNames a
  split
  · rename_i refused
    rw [allowed] at refused
    cases refused
  · exact if_pos rfl

theorem ringGroup_single (single : ringMp s i = false) : ringGroup s 4 i = [i] := by
  rw [ringGroup, single]
  rfl

/-- A PROGRAM whose turn has come, and which stands alone, starts. -/
theorem psaProgram_single (ready : ringReady s i = true) (op : ringOp s i = 2) (single : ringMp s i = false) :
    psaProgram i [found] s = startOne 2 i i found s := by
  have notReserved : decide (ringOp s i = 0 ∨ 7 ≤ ringOp s i) = false := by rw [op]; decide
  -- the start by another name: the kernel would evaluate its refusal here too
  obtain ⟨start, named⟩ : ∃ f, f = startOne := ⟨_, rfl⟩
  unfold psaProgram psaStart
  rw [← named, ready, ringGroup_single single, notReserved, op]
  rfl

theorem startProgram_below (below : psaPageIx (ringAddrOf s i) < blkF s (psaBlk (ringAddrOf s i))) :
    startProgram i grp found s = endNotErased i s := if_pos below

/-- A page of an unknown block that fails its blank check is passed over. -/
theorem startProgram_notBlank (past : blkF s (psaBlk (ringAddrOf s i)) ≤ psaPageIx (ringAddrOf s i))
    (unknown : blkKnown s (psaBlk (ringAddrOf s i)) = false) (dirty : found.blank = false) :
    startProgram i grp found s = endNotErased i (setBlk (psaBlk (ringAddrOf s i)) false (psaPageIx (ringAddrOf s i) + 1)
      (blankChecked (psaBlk (ringAddrOf s i)) s)) := by
  unfold startProgram
  exact (if_neg (Nat.not_lt.mpr past)).trans (if_pos (by rw [unknown, dirty]; rfl))

/-- A program of an erased page runs, with no pulse yet. -/
theorem startProgram_erased (erased : pageErased s (ringAddrOf s i) found) : ∃ page,
    startProgram i grp found s = addRun ⟨i, grp, 2, ringAddrOf s i, 0, false, 0, found, some page⟩
      (pageTaken (ringAddrOf s i) (blkKnown s (psaBlk (ringAddrOf s i))) (blankChecked (psaBlk (ringAddrOf s i)) s)) := by
  obtain ⟨past, blank⟩ := erased
  have passes : ¬ (!blkKnown s (psaBlk (ringAddrOf s i)) && !found.blank) = true := by
    rcases blank with known | blank
    · simp [known]
    · simp [blank]
  refine ⟨pageToProgram (blankChecked (psaBlk (ringAddrOf s i)) s) i, ?_⟩
  unfold startProgram
  exact (if_neg (Nat.not_lt.mpr past)).trans (if_neg passes)

/-- A program of a page that is not erased starts nothing and is counted. -/
theorem startProgram_notErased (h : twf 0 s.pct.csr = true) (written : ¬ pageErased s (ringAddrOf s i) found) :
    let t := startProgram i grp found s
    t.pct.runs = s.pct.runs ∧ t.pct.pages = s.pct.pages ∧
      (rd t.pct.csr PCT_NOTERASED).toNat = min 0xFFFFFFFF ((rd s.pct.csr PCT_NOTERASED).toNat + 1) := by
  intro t
  by_cases past : blkF s (psaBlk (ringAddrOf s i)) ≤ psaPageIx (ringAddrOf s i)
  · obtain ⟨unknown, dirty⟩ : blkKnown s (psaBlk (ringAddrOf s i)) = false ∧ found.blank = false := by
      simpa only [pageErased, past, true_and, not_or, Bool.not_eq_true] using written
    have checked : HoldsPct PCT_NOTERASED s (blankChecked (psaBlk (ringAddrOf s i)) s) := blankChecked_holds (by decide)
    obtain ⟨canonical, count⟩ := checked.regs h
    rw [show t = _ from startProgram_notBlank past unknown dirty]
    refine ⟨(endNotErased_runs _ _).trans checked.runs, (endNotErased_pages _ _).trans checked.pages, ?_⟩
    rw [← count]
    exact endNotErased_count canonical
  · rw [show t = _ from startProgram_below (Nat.lt_of_not_le past)]
    exact ⟨endNotErased_runs i s, endNotErased_pages i s, endNotErased_count h⟩

end

/-! What taking a page and entering a run make of the PCT. -/

theorem tget_setBlk_same {blk f : Nat} {known : Bool} {s : State} (h : twf 0 s.pct.blocks = true) :
    tget 0 (setBlk blk known f s).pct.blocks blk = 2 * f + b2n known := tget_tput_same 0 _ _ blk h

theorem blkF_setBlk_same {blk f : Nat} {known : Bool} {s : State} (h : twf 0 s.pct.blocks = true) :
    blkF (setBlk blk known f s) blk = f := by
  rw [blkF, tget_setBlk_same h]
  cases known <;> simp only [b2n, Bool.false_eq_true, if_true, if_false] <;> omega

theorem blkKnown_setBlk_same {blk f : Nat} {known : Bool} {s : State} (h : twf 0 s.pct.blocks = true) :
    blkKnown (setBlk blk known f s) blk = known := by
  rw [blkKnown, tget_setBlk_same h]
  cases known <;> simp [b2n]

theorem tget_putPage_same {a : Nat} {p : Option PsaPage} {s : State} (h : twf none s.pct.pages = true) :
    tget none (putPage a p s).pct.pages a = p := tget_tput_same none p _ a h

theorem addRun_runs (r : PsaRun) (s : State) : (addRun r s).pct.runs = s.pct.runs ++ [r] := by
  unfold addRun
  split <;> rfl

theorem addRun_pages (r : PsaRun) (s : State) : (addRun r s).pct.pages = s.pct.pages := by
  unfold addRun
  split <;> rfl

theorem addRun_blocks (r : PsaRun) (s : State) : (addRun r s).pct.blocks = s.pct.blocks := by
  unfold addRun
  split <;> rfl

/-- A page that is taken for a program is no longer readable as it was, and the frontier of its block is past it. -/
theorem addRun_pageTaken {a : Nat} {known : Bool} {s : State} (r : PsaRun) (blocks : twf 0 s.pct.blocks = true)
    (pages : twf none s.pct.pages = true) :
    let t := addRun r (pageTaken a known s)
    t.pct.runs = s.pct.runs ++ [r] ∧ tget none t.pct.pages a = none ∧ blkF t (psaBlk a) = psaPageIx a + 1 ∧
      blkKnown t (psaBlk a) = known := by
  intro t
  have table : t.pct.blocks = (setBlk (psaBlk a) known (psaPageIx a + 1) s).pct.blocks := addRun_blocks r _
  refine ⟨addRun_runs r _, ?_, ?_, ?_⟩
  · rw [addRun_pages]
    exact tget_putPage_same pages
  · rw [blkF, table]
    exact blkF_setBlk_same blocks
  · rw [blkKnown, table]
    exact blkKnown_setBlk_same blocks

/-! ### A pulse and its verify (R339, R344) -/

/-- A run after pulse `n` of at most `limit`, whose verify passes or not, with the brown-out of its block or without. -/
def afterPulse (n limit : Nat) (pass bod : Bool) (r : PsaRun) : PsaRun :=
  { r with
    pulses := n
    ended := pass || decide (limit ≤ n) || bod
    status := if pass then 0 else if limit ≤ n then r.op else if bod then 4 else 0 }

/-- The most pulses of a program or of an erase. -/
def pulseLimit (r : PsaRun) : Nat := if r.op = 2 then 12 else 24

/-- The detector has tripped, and the run's block is a brown-out block. -/
def brownedOut (s : State) (r : PsaRun) : Bool := rdB s.pct.csr PCT_STAT.BOD && !isBulk s (psaBlock r.addr)

theorem brownedOut_iff (s : State) (r : PsaRun) :
    brownedOut s r = true ↔ rdB s.pct.csr PCT_STAT.BOD = true ∧ isBulk s (psaBlock r.addr) = false := by
  rw [brownedOut, Bool.and_eq_true, Bool.not_eq_true']

theorem settleSuspend_runs (d : Nat) (s : State) : (settleSuspend d s).pct.runs = s.pct.runs := by
  unfold settleSuspend
  split
  · rfl
  · split <;> rfl

/-- An update of a run that keeps its ring index is found at that index. -/
theorem find_modRun {i : Nat} {f : PsaRun → PsaRun} {s : State} {r : PsaRun} (index : ∀ x, (f x).idx = x.idx)
    (running : s.pct.runs.find? (fun x => decide (x.idx = i)) = some r) :
    (modRun i f s).pct.runs.find? (fun x => decide (x.idx = i)) = some (f r) := by
  have here : r.idx = i := by simpa using List.find?_some running
  have same : (fun x : PsaRun => decide (x.idx = i)) ∘ (fun x => if x.idx = i then f x else x) =
      fun x => decide (x.idx = i) := by
    funext x
    by_cases at_ : x.idx = i <;> simp [at_, index]
  rw [modRun, modPct_pct, List.find?_map, same, running, Option.map_some, if_pos here]

section
variable {i : Nat} {pass : Bool} {s : State} {r : PsaRun}

theorem psaPulseEnd_running (running : s.pct.runs.find? (fun x => decide (x.idx = i)) = some r) (goesOn : r.ended = false)
    (pulsed : r.op = 2 ∨ r.op = 3) (awake : dieSusp s (psaDie r.addr) = false) : psaPulseEnd i pass s =
      settleSuspend (psaDie r.addr) (modRun i (afterPulse (r.pulses + 1) (pulseLimit r) pass (brownedOut s r)) s) := by
  have goes : ¬ (r.ended || decide (r.op ≠ 2 ∧ r.op ≠ 3) || dieSusp s (psaDie r.addr)) = true := by
    rw [goesOn, awake, decide_eq_false (by omega)]
    decide
  unfold psaPulseEnd
  rw [running]
  exact if_neg goes

/-- The pulse is entered in the run that it belongs to. -/
theorem psaPulseEnd_find (running : s.pct.runs.find? (fun x => decide (x.idx = i)) = some r) (goesOn : r.ended = false)
    (pulsed : r.op = 2 ∨ r.op = 3) (awake : dieSusp s (psaDie r.addr) = false) :
    (psaPulseEnd i pass s).pct.runs.find? (fun x => decide (x.idx = i)) =
      some (afterPulse (r.pulses + 1) (pulseLimit r) pass (brownedOut s r) r) := by
  rw [psaPulseEnd_running running goesOn pulsed awake, settleSuspend_runs]
  exact find_modRun (fun _ => rfl) running

end

section
variable {n limit : Nat} {bod : Bool} {r : PsaRun}

theorem afterPulse_ended_iff {pass : Bool} :
    (afterPulse n limit pass bod r).ended = true ↔ pass = true ∨ limit ≤ n ∨ bod = true := by
  simp only [afterPulse, Bool.or_eq_true, decide_eq_true_eq, or_assoc]

theorem afterPulse_pass_status : (afterPulse n limit true bod r).status = 0 := rfl

theorem afterPulse_limit_status (last : limit ≤ n) : (afterPulse n limit false bod r).status = r.op := if_pos last

theorem afterPulse_brownOut_status (more : n < limit) : (afterPulse n limit false true r).status = 4 :=
  if_neg (Nat.not_le.mpr more)

end

/-- Settles O54: a page that is not erased is counted in PCT_NOTERASED, an erased one is taken and its run entered, and each
pulse is entered in its run with what it decides. -/
theorem programsNeedErasedPagesAndStopAtTheFirstPass : Obligations.ProgramsNeedErasedPagesAndStopAtTheFirstPass := by
  unfold Obligations.ProgramsNeedErasedPagesAndStopAtTheFirstPass
  refine ⟨fun i f s ready op single allowed csr blocks pages => ?_, fun i pass s r running goesOn pulsed awake => ?_⟩
  · intro a blk p erased
    have row : exec (.psaProgram i [f]) s = .next (startProgram i i f s) :=
      congrArg Host.Outcome.next ((psaProgram_single ready op single).trans (startOne_program allowed))
    refine ⟨fun written => ⟨_, row, startProgram_notErased csr written⟩, fun isErased => ?_⟩
    obtain ⟨page, started⟩ := startProgram_erased (grp := i) isErased
    have checked : HoldsPct PCT_NOTERASED s (blankChecked blk s) := blankChecked_holds (by decide)
    obtain ⟨runs, gone, frontier, known⟩ := addRun_pageTaken (a := a) (known := blkKnown s blk)
      ⟨i, i, 2, a, 0, false, 0, f, some page⟩ ((blankChecked_blocks blk s).symm ▸ blocks) (checked.pages.symm ▸ pages)
    rw [checked.runs] at runs
    exact ⟨_, _, row.trans (congrArg Host.Outcome.next started), runs, rfl, rfl, rfl, rfl, rfl, gone, frontier, known⟩
  · intro limit brown
    refine ⟨psaPulseEnd i pass s, _, rfl, psaPulseEnd_find running goesOn pulsed awake, rfl, ?_, ?_, ?_, ?_⟩
    · rw [afterPulse_ended_iff, brownedOut_iff]
      rfl
    · rintro rfl
      exact afterPulse_pass_status
    · rintro rfl last
      exact afterPulse_limit_status last
    · rintro rfl more out
      rw [(brownedOut_iff s r).mpr out]
      exact afterPulse_brownOut_status more

end Sys2Proof.Machine
end

section
namespace Sys2Proof.Machine

/-! ## Energy, temperature and calibration (R360 to R391) -/

/-- Settles O17: energy, temperature and calibration are not the family of the device's resets. -/
theorem powerRowsStayInTheirFootprint : Obligations.PowerRowsStayInTheirFootprint := by
  unfold Obligations.PowerRowsStayInTheirFootprint
  exact family_staysIn Family.noConfusion

/-! ### Meters (R360, R361) -/

/-- A meter's counter after one sample of its energy. -/
def energyAdded (x : Nat) (a : Nat × Int) : Nat := toBits 64 ((x : Int) + a.2)

/-- The counters after some samples, each entered at its meter. -/
def metersAfter (l : List (Nat × Int)) (m : List (Nat × Nat)) : List (Nat × Nat) :=
  l.foldl (fun m a => tput 0 m a.1 (energyAdded (tget 0 m a.1) a)) m

/-- A meter counts its own samples alone. -/
theorem tget_metersAfter {l : List (Nat × Int)} {m : List (Nat × Nat)} {n : Nat} (h : twf 0 m = true) :
    tget 0 (metersAfter l m) n = (l.filter (fun a => decide (a.1 = n))).foldl energyAdded (tget 0 m n) := by
  induction l generalizing m with
  | nil => rfl
  | cons a l ih =>
    have rest := ih (tput_twf 0 (energyAdded (tget 0 m a.1) a) m a.1 h)
    by_cases own : a.1 = n
    · rw [← own] at rest ⊢
      rw [List.filter_cons_of_pos (by simp), List.foldl_cons, ← tget_tput_same 0 (energyAdded (tget 0 m a.1) a) m a.1 h]
      exact rest
    · rw [List.filter_cons_of_neg (by simpa using own),
        ← tget_tput_other 0 (energyAdded (tget 0 m a.1) a) m a.1 n (Ne.symm own) h]
      exact rest

theorem meterSample_meters (x : MeterIn) (s : State) :
    (meterSample x s).elg.meters = metersAfter (meterAdds x) s.elg.meters :=
  (List.foldl_hom Elg.meters fun _ _ => rfl).symm

/-- The heads' assist meters lie above 15, so the samples of a meter below 16 are those of a device with no assist on. -/
theorem meterAdds_below {x : MeterIn} {n : Nat} (below : n < 16) : (meterAdds x).filter (fun a => decide (a.1 = n)) =
    (meterAdds { x with assist := [] }).filter (fun a => decide (a.1 = n)) := by
  have above : ((x.assist.filter (fun e => decide (16 ≤ e.1 ∧ e.1 < 64))).map (fun e => (e.1, (e.2 : Int)))).filter
      (fun a => decide (a.1 = n)) = [] := by
    simp only [List.filter_eq_nil_iff, List.mem_map, List.mem_filter, decide_eq_true_eq]
    rintro _ ⟨e, ⟨-, heads, -⟩, rfl⟩
    omega
  rw [meterAdds, List.filter_append, above, meterAdds, List.filter_append]
  rfl

/-- A meter of which a sample holds one entry counts that. -/
theorem meter_meterSample {x : MeterIn} {s : State} {n : Nat} {v : Int} (h : twf 0 s.elg.meters = true) (below : n < 16)
    (entry : (meterAdds { x with assist := [] }).filter (fun a => decide (a.1 = n)) = [(n, v)]) :
    meter (meterSample x s) n = toBits 64 ((meter s n : Int) + v) := by
  rw [meter, meterSample_meters, tget_metersAfter h, meterAdds_below below, entry]
  rfl

/-- A read of the low half shows it and latches the high half. -/
theorem mtrLoRead_halves (s : State) : (mtrLoRead s).sys.rdata.toNat = meterSelected s % 2 ^ 32 ∧
    (mtrLoRead s).elg.hiLatch.toNat = meterSelected s / 2 ^ 32 % 2 ^ 32 :=
  ⟨BitVec.toNat_ofNat _ _, BitVec.toNat_ofNat _ _⟩

/-! ### The Dump Cost (R367) -/

section
variable {v : Nat} {s : State}

theorem dcostMeasure_higher (higher : (rd s.elg.csr ELG_DCOST).toNat < v) (range : v < 2 ^ 32) (h : twf 0 s.elg.csr = true) :
    (rd (dcostMeasure v s).elg.csr ELG_DCOST).toNat = v := by
  have replaced : dcostMeasure v s = elgReg (fun c => wr c ELG_DCOST (BitVec.ofNat 32 v)) s :=
    (if_neg (by omega)).trans (if_pos higher)
  rw [replaced, elgReg_csr, rd_wr_same _ _ _ h, BitVec.toNat_ofNat, Nat.mod_eq_of_lt range]

/-- A measurement that is not higher lowers the cost by a share of at most an eighth of the difference. -/
theorem dcostMeasure_lower (positive : 0 < v) (lower : v ≤ (rd s.elg.csr ELG_DCOST).toNat) (h : twf 0 s.elg.csr = true) :
    let old := (rd s.elg.csr ELG_DCOST).toNat
    ∃ share, share ≤ (old - v) / 8 ∧ (rd (dcostMeasure v s).elg.csr ELG_DCOST).toNat = old - share := by
  intro old
  have lowered : dcostMeasure v s = elgReg (fun c => wr c ELG_DCOST
      (BitVec.ofNat 32 (old - (takeFree s).1 % ((old - v) / 8 + 1)))) (takeFree s).2 :=
    (if_neg (by omega)).trans (if_neg (Nat.not_lt.mpr lower))
  have range : old < 2 ^ 32 := (rd s.elg.csr ELG_DCOST).isLt
  refine ⟨(takeFree s).1 % ((old - v) / 8 + 1), Nat.lt_succ_iff.mp (Nat.mod_lt _ (Nat.succ_pos _)), ?_⟩
  rw [lowered, elgReg_csr]
  refine (congrArg BitVec.toNat (rd_wr_same _ _ _ h)).trans ?_
  rw [BitVec.toNat_ofNat]
  exact Nat.mod_eq_of_lt ((Nat.sub_le _ _).trans_lt range)

end

/-! ### A rejected calibration (R382) -/

theorem headMode_cal {mc head mode : Nat} {s : State} : (headMode mc head mode s).cal = s.cal :=
  headMode_within.frame .cal (by decide)

theorem readerRun_items {r : Nat} {ok : Bool} {s : State} : (readerRun r ok s).cal.items = s.cal.items := by
  unfold readerRun
  extract_lets fails t
  split
  · rfl
  · rw [headMode_cal]
    rfl

theorem calMeasured_items {n : Nat} {l : List CalTarget} {s : State} : (calMeasured n l s).cal.items = s.cal.items := by
  induction l generalizing s with
  | nil => rfl
  | cons t l ih =>
    obtain ⟨place, value, step⟩ := t
    refine Eq.trans ih ?_
    cases place with
    | threshold mc adc i =>
      dsimp only
      split <;> rfl
    | width mc h =>
      dsimp only
      split <;> rfl
    | _ => rfl

/-- What a run that is not accepted leaves of the device besides its item's record: what it measured, or for item 6 the
failure of its reader. -/
def runMeasured (n reader : Nat) (targets : List CalTarget) (s : State) : State :=
  if n = 6 then readerRun reader false s else calMeasured n (if n = 13 then profileTargets s else targets) s

theorem runMeasured_items {n reader : Nat} {targets : List CalTarget} {s : State} :
    (runMeasured n reader targets s).cal.items = s.cal.items := by
  unfold runMeasured
  split
  · exact readerRun_items
  · exact calMeasured_items

/-- An item's record after a rejected run. -/
def rejectedItem (result : Nat) (s : State) (x : CalItem) : CalItem :=
  { x with
    due := 0
    forced := false
    result := result % 16
    lastRun := nowSec s
    tempRun := (sensor2 s).getD 0
    fails := satAdd 0xFFFF x.fails 1
    rejects := BitVec.ofNat 32 (satAdd 0xFFFFFFFF x.rejects.toNat 1) }

theorem rejectedItem_rejects (result : Nat) (s : State) (x : CalItem) :
    (rejectedItem result s x).rejects.toNat = min 0xFFFFFFFF (x.rejects.toNat + 1) := by
  rw [rejectedItem, BitVec.toNat_ofNat, satAdd]
  omega

theorem calOn_range {s : State} {n : Nat} (on : calOn s n = true) : n < 14 := by
  rw [calOn, Bool.and_eq_true, decide_eq_true_eq] at on
  exact on.2

section
variable {n reader result : Nat} {targets : List CalTarget} {s : State}

theorem calRunEnd_rejected (on : calOn s n = true) (due : (calItem s n).due ≠ 0) (rejects : result ≠ 0)
    (spinning : calUsesMedia n = true → powerState s < 3) : calRunEnd n reader result targets s =
      modItem n (fun _ => rejectedItem result s (calItem s n)) (runMeasured n reader targets s) := by
  have runs : ¬ (!calOn s n || decide ((calItem s n).due = 0) || (calUsesMedia n && decide (3 ≤ powerState s))) = true := by
    simp only [on, due, Bool.not_true, decide_false, Bool.false_or, Bool.and_eq_true, decide_eq_true_eq, not_and, Nat.not_le]
    exact spinning
  have result_eq : (if result = 0 ∧ (!calPlausible n (if n = 13 then profileTargets s else targets) s) = true then 1
      else result) = result := if_neg fun h => rejects h.1
  unfold calRunEnd
  dsimp only
  rw [if_neg runs, result_eq, if_neg rejects, decide_eq_false rejects]
  rfl

variable (f : CalItem → CalItem) (u : State)

theorem modItem_changes : modItem n f u = { u with cal := { u.cal with items := (modItem n f u).cal.items } } := by
  unfold modItem
  split <;> rfl

theorem calItem_modItem_same (range : n < 14) (h : twf none u.cal.items = true) :
    calItem (modItem n f u) n = f (calItem u n) := by
  have entered : (modItem n f u).cal.items = tput none u.cal.items n (some (f (calItem u n))) := by
    rw [modItem, if_pos range]
    rfl
  rw [calItem, entered, tget_tput_same none _ _ n h]
  rfl

theorem calItem_modItem_other {m : Nat} (ne : m ≠ n) (h : twf none u.cal.items = true) :
    calItem (modItem n f u) m = calItem u m := by
  unfold modItem
  split
  · exact congrArg (fun x => Option.getD x _) (tget_tput_other none _ _ n m ne h)
  · rfl

end

/-- Settles O55: each meter counts its own entry of the sample, the measured cost replaces or bounds the one in force, and a
rejected run enters its item's record alone beside what it measured. -/
theorem metersCostAndCalibrationsKeepTheirRules : Obligations.MetersCostAndCalibrationsKeepTheirRules := by
  unfold Obligations.MetersCostAndCalibrationsKeepTheirRules
  intro s meters csr items
  refine ⟨fun x => ⟨_, rfl, ?_⟩, ⟨_, rfl, ?_⟩, fun v positive range => ⟨_, rfl, ?_, ?_⟩,
    fun n reader result targets on due rejects spinning => ?_⟩
  · have sampled {n : Nat} {v : Int} := meter_meterSample (x := x) (n := n) (v := v) meters
    exact ⟨sampled (by decide) rfl, sampled (by decide) rfl, sampled (by decide) rfl, sampled (by decide) rfl,
      sampled (by decide) rfl, sampled (by decide) rfl, sampled (by decide) rfl, sampled (by decide) rfl,
      sampled (by decide) rfl, sampled (by decide) rfl, sampled (by decide) rfl, sampled (by decide) rfl,
      sampled (by decide) rfl⟩
  · obtain ⟨low, high⟩ := mtrLoRead_halves s
    exact ⟨low, high, rfl⟩
  · exact fun higher => dcostMeasure_higher higher range csr
  · intro lower
    obtain ⟨share, bound, new⟩ := dcostMeasure_lower positive lower csr
    rw [new]
    omega
  · have wf : twf none (runMeasured n reader targets s).cal.items = true := runMeasured_items.symm ▸ items
    have item (m : Nat) : calItem (runMeasured n reader targets s) m = calItem s m := by
      rw [calItem, calItem, runMeasured_items]
    refine ⟨_, congrArg Host.Outcome.next (calRunEnd_rejected on due rejects spinning), ?_⟩
    rw [calItem_modItem_same _ _ (calOn_range on) wf]
    exact ⟨rfl, rejectedItem_rejects _ _ _, rfl, rfl, modItem_changes _ _,
      fun m ne => (calItem_modItem_other _ _ ne wf).trans (item m)⟩

end Sys2Proof.Machine
end

section
namespace Sys2Proof.Machine

/-! ## The Tandem Link and Carillon (R398 to R447) -/

/-- Settles O18: the Tandem Link is not the family of the device's resets. -/
theorem linkRowsStayInTheirFootprint : Obligations.LinkRowsStayInTheirFootprint := by
  unfold Obligations.LinkRowsStayInTheirFootprint
  exact family_staysIn Family.noConfusion

/-- Settles O19: Carillon is not the family of the device's resets. -/
theorem carillonRowsStayInTheirFootprint : Obligations.CarillonRowsStayInTheirFootprint := by
  unfold Obligations.CarillonRowsStayInTheirFootprint
  exact family_staysIn Family.noConfusion

/-! ### What a drop changes (R425, R429) -/

/-- One counter of the CLP counts, and nothing else changes but what a stranger's record does. -/
def CountsOne (a : Nat) (s t : State) : Prop :=
  (rd t.clp.csr a).toNat = min 0xFFFFFFFF ((rd s.clp.csr a).toNat + 1) ∧
  (∀ b, b ≠ a → rd t.clp.csr b = rd s.clp.csr b) ∧
  t = { s with
    clp := { s.clp with csr := t.clp.csr, strangerAt := t.clp.strangerAt }
    evr := t.evr
    free := t.free } ∧
  (a ≠ CLP_STRANGER → t = { s with clp := { s.clp with csr := t.clp.csr } })

theorem clpCount_countsOne {a : Nat} {s : State} (h : twf 0 s.clp.csr = true) :
    CountsOne a s (clpReg (fun c => incR c a 1) s) :=
  ⟨incR_toNat _ _ _ h, fun _ ne => incR_other _ _ _ _ ne h, rfl, fun _ => rfl⟩

/-- A record of a COORD event changes the recorder and the count of open values. -/
theorem coordEvent_changes (s : State) :
    coordEvent s = { s with evr := (coordEvent s).evr, free := s.free + 1 } := evrPost_changes _ _ _ _ _

/-- A stranger is counted, and it may be recorded. -/
theorem stranger_cases (s : State) :
    let t := clpReg (fun c => incR c CLP_STRANGER 1) s
    stranger s = t ∨ stranger s = coordEvent (modClp (fun c => { c with strangerAt := some s.sys.us }) t) := by
  intro t
  unfold stranger
  extract_lets quiet
  clear_value quiet
  cases quiet with
  | true => exact .inl rfl
  | false => exact .inr rfl

theorem stranger_countsOne {s : State} (h : twf 0 s.clp.csr = true) : CountsOne CLP_STRANGER s (stranger s) := by
  obtain ⟨count, others, -⟩ := clpCount_countsOne (a := CLP_STRANGER) h
  obtain quiet | recorded := stranger_cases s
  · rw [quiet]
    exact ⟨count, others, rfl, fun ne => absurd rfl ne⟩
  · rw [recorded, coordEvent_changes]
    exact ⟨count, others, rfl, fun ne => absurd rfl ne⟩

/-! ### The checks (R429, R430) -/

/-- Check 1 passes: destination and port, the UDP checksum, VER, the tag's size and LENGTH. -/
def ClpWired (s : State) (h : ClpHdr) (type : Nat) (body : List Nat) : Prop :=
  h.dst = clpGroup ∧ h.dport = rdF s.clp.csr CLP_PORT.PORT ∧ h.cksum ≠ 0 ∧
    udpSum h h.cksum (clpMessage h type body ++ h.tag) = 0 ∧ h.ver = 1 ∧ h.tag.length = 16 ∧ h.length = body.length ∧
    body.length ≤ 224

theorem clpWireOk_iff {s : State} {h : ClpHdr} {type : Nat} {body : List Nat} :
    clpWireOk s h type body = true ↔ ClpWired s h type body := decide_eq_true_iff

/-- The node is another one of the domain. -/
def ClpKnown (s : State) (h : ClpHdr) : Prop :=
  rdF s.clp.csr CLP_DOM.LO ≤ h.node ∧ h.node ≤ rdF s.clp.csr CLP_DOM.HI ∧ h.node < 16383 ∧ h.node ≠ ownNode s

/-- The tag is the one under the domain key. -/
def ClpTagged (s : State) (h : ClpHdr) (type : Nat) (body : List Nat) : Prop :=
  h.tag = Cmac.tag s.clp.key (clpMessage { h with hops := 0 } type body)

/-- A replay entry has seen a counter or left it behind. -/
def Replayed (e : Nat × Nat) (c : Nat) : Prop :=
  e ≠ (0, 0) ∧ c ≤ e.1 ∧ (64 ≤ e.1 - c ∨ e.2.testBit (63 - (e.1 - c)) = true)

/-- The dialect is at most one away from the device's. -/
def ClpNear (s : State) (h : ClpHdr) : Prop :=
  rdF s.clp.csr CLP_PORT.DIALECT ≤ h.dialect + 1 ∧ h.dialect ≤ rdF s.clp.csr CLP_PORT.DIALECT + 1

/-- The receive ring has room. -/
def ClpRoom (s : State) : Prop := (rdF s.clp.csr CLP_RXQ.PROD + 1) % 256 ≠ rdF s.clp.csr CLP_RXQ.CONS

theorem replayNext_none_iff (e : Nat × Nat) (c : Nat) : replayNext e c = none ↔ Replayed e c := by
  unfold replayNext Replayed
  split
  case isTrue new => simp [new]
  case isFalse old =>
    split
    case isTrue higher =>
      simp only [reduceCtorEq, false_iff, not_and]
      omega
    case isFalse lower =>
      split
      case isTrue fresh =>
        obtain ⟨window, unseen⟩ := fresh
        simp only [reduceCtorEq, false_iff, not_and, not_or, Bool.not_eq_true]
        exact fun _ _ => ⟨by omega, by simpa using unseen⟩
      case isFalse stale =>
        refine iff_of_true rfl ⟨old, by omega, ?_⟩
        simpa [or_iff_not_imp_left] using stale

section
variable {h : ClpHdr} {type : Nat} {known : List Nat} {f : State → State} {s : State}

theorem onClp_dropped {t : State} (drop : clpReceive h type known none false s = (false, t)) :
    onClp h type known f s = t := by
  rw [onClp, drop]
  rfl

theorem onClp_taken {t : State} (taken : clpReceive h type known none false s = (true, t)) :
    onClp h type known f s = f t := by
  rw [onClp, taken]
  rfl

theorem clpReceive_off (off : clpOn s = false) : clpReceive h type known none false s = (false, s) :=
  if_pos (by rw [off]; rfl)

section
variable (on : clpOn s = true)
include on

theorem clpReceive_broken (broken : h.phyOk = false) :
    clpReceive h type known none false s = (false, clpReg (fun c => incR c CLP_COLL 1) s) :=
  (if_neg (by rw [on]; decide)).trans (if_pos (by rw [broken]; rfl))

variable (whole : h.phyOk = true)
include whole

theorem clpReceive_unwired (unwired : ¬ ClpWired s h type (known ++ h.more)) :
    clpReceive h type known none false s = (false, stranger s) := by
  have fails : clpWireOk s h type (known ++ h.more) = false := Bool.eq_false_iff.mpr (mt clpWireOk_iff.mp unwired)
  exact (if_neg (by rw [on]; decide)).trans <| (if_neg (by rw [whole]; decide)).trans <| if_pos (by rw [fails]; rfl)

variable (wired : ClpWired s h type (known ++ h.more))
include wired

/-- A node outside the domain, or any other node under another key's tag, is a stranger, and so is the own number under another
key's tag. -/
theorem clpReceive_stranger
    (strange : (¬ ClpKnown s h ∧ h.node ≠ ownNode s) ∨ ¬ ClpTagged s h type (known ++ h.more)) :
    clpReceive h type known none false s = (false, stranger s) := by
  have wire := clpWireOk_iff.mpr wired
  unfold clpReceive
  simp only [on, whole, wire, Bool.not_true, Bool.false_eq_true, if_false]
  by_cases own : h.node = ownNode s
  · have forged : h.tag ≠ clpTag s h type (known ++ h.more) := strange.resolve_left fun outside => outside.2 own
    rw [if_pos own, if_neg forged]
  · have refused : h.node < rdF s.clp.csr CLP_DOM.LO ∨ rdF s.clp.csr CLP_DOM.HI < h.node ∨ 16383 ≤ h.node ∨
        h.tag ≠ clpTag s h type (known ++ h.more) := by
      refine strange.elim (fun outside => ?_) fun forged => .inr (.inr (.inr forged))
      by_contra passes
      simp only [not_or, Nat.not_lt, Nat.not_le] at passes
      obtain ⟨low, high, range, -⟩ := passes
      exact outside.1 ⟨low, high, range, own⟩
    rw [if_neg own, if_pos refused]

variable (member : ClpKnown s h) (tagged : ClpTagged s h type (known ++ h.more))
include member tagged

omit on whole wired in
/-- A member's message under the right tag comes to the replay window. -/
theorem clpReceive_member : ¬ h.node = ownNode s ∧
    ¬ (h.node < rdF s.clp.csr CLP_DOM.LO ∨ rdF s.clp.csr CLP_DOM.HI < h.node ∨ 16383 ≤ h.node ∨ h.tag ≠ clpTag s h type (known ++ h.more)) := by
  obtain ⟨low, high, range, other⟩ := member
  refine ⟨other, ?_⟩
  simp only [not_or, Nat.not_lt, Nat.not_le, not_not]
  exact ⟨low, high, range, tagged⟩

theorem clpReceive_replayed (replayed : Replayed (replayEntry s h.node) h.counter) :
    clpReceive h type known none false s = (false, clpReg (fun c => incR c CLP_REPLAY 1) s) := by
  have wire := clpWireOk_iff.mpr wired
  obtain ⟨other, passes⟩ := clpReceive_member member tagged
  unfold clpReceive
  simp only [on, whole, wire, Bool.not_true, Bool.false_eq_true, if_false]
  rw [if_neg other, if_neg passes, (replayNext_none_iff _ _).mpr replayed]

variable (fresh : ¬ Replayed (replayEntry s h.node) h.counter)
include fresh

theorem clpReceive_far (far : ¬ ClpNear s h) : clpReceive h type known none false s = (false, stranger s) := by
  have wire := clpWireOk_iff.mpr wired
  obtain ⟨other, passes⟩ := clpReceive_member member tagged
  obtain ⟨e, entry⟩ := Option.ne_none_iff_exists'.mp (mt (replayNext_none_iff _ _).mp fresh)
  have away : h.dialect + 1 < rdF s.clp.csr CLP_PORT.DIALECT ∨ rdF s.clp.csr CLP_PORT.DIALECT + 1 < h.dialect := by
    simpa only [ClpNear, not_and_or, Nat.not_le] using far
  unfold clpReceive
  simp only [on, whole, wire, Bool.not_true, Bool.false_eq_true, if_false]
  rw [if_neg other, if_neg passes, entry]
  exact if_pos away

/-- A message that passes all checks and finds room counts in CLP_RX and enters the ring, and its counter the replay table. -/
theorem clpReceive_taken (near : ClpNear s h) (room : ClpRoom s) : ∃ table, clpReceive h type known none false s =
    (true, ringEnter h type (known ++ h.more) none (clpReg (fun c => incR c CLP_RX 1)
      (bufPut (clpBase s + 0x15000 + 16 * h.node) table s))) := by
  have wire := clpWireOk_iff.mpr wired
  obtain ⟨other, passes⟩ := clpReceive_member member tagged
  obtain ⟨e, entry⟩ := Option.ne_none_iff_exists'.mp (mt (replayNext_none_iff _ _).mp fresh)
  have close : ¬ (h.dialect + 1 < rdF s.clp.csr CLP_PORT.DIALECT ∨ rdF s.clp.csr CLP_PORT.DIALECT + 1 < h.dialect) := by
    simpa only [ClpNear, not_or, Nat.not_lt] using near
  have roomy : decide ((rdF s.clp.csr CLP_RXQ.PROD + 1) % 256 = rdF s.clp.csr CLP_RXQ.CONS) = false := decide_eq_false room
  refine ⟨bytesLE 4 e.1 ++ [0, 0, 0, 0] ++ bytesLE 8 e.2, ?_⟩
  unfold clpReceive
  simp only [on, whole, wire, Bool.not_true, Bool.false_eq_true, if_false]
  rw [if_neg other, if_neg passes, entry]
  dsimp only
  rw [if_neg close, roomy]
  rfl

end
end

/-! ### A DIALECT that is taken (R432) -/

/-- A table holds what was entered last, canonical or not, unless that is what an unlisted key reads as. -/
theorem tget_tput_entry {α : Type} [DecidableEq α] {d v : α} (ne : v ≠ d) (t : List (Nat × α)) (k : Nat) :
    tget d (tput d t k v) k = v := by
  induction t with
  | nil => rw [tput, if_neg ne, tget, if_pos rfl]
  | cons e r ih =>
    obtain ⟨j, x⟩ := e
    rw [tput]
    split
    · rw [tget, if_pos rfl]
    · split
      · rw [tget, if_pos rfl]
      · rename_i other
        rw [tget, if_neg other]
        exact ih

theorem bufPut_clp (a : Nat) (bs : List Nat) (s : State) : (bufPut a bs s).clp = s.clp :=
  bufPut_within.frame .clp (by decide)

/-- Entering the ring moves its producer alone, of the CLP. -/
theorem ringEnter_clp (h : ClpHdr) (type : Nat) (body : List Nat) (slot : Option Nat) (s : State) :
    (ringEnter h type body slot s).clp =
      { s.clp with csr := wrF s.clp.csr CLP_RXQ.PROD ((rdF s.clp.csr CLP_RXQ.PROD + 1) % 256) } := by
  unfold ringEnter
  dsimp only
  exact congrArg (fun x : Clp => { x with csr := wrF x.csr CLP_RXQ.PROD ((rdF s.clp.csr CLP_RXQ.PROD + 1) % 256) })
    (bufPut_clp _ _ s)

theorem clpDialect_taken {h : ClpHdr} {d : DialectMsg} {s : State} {table : List Nat} (canonical : twf 0 s.clp.csr = true)
    (taken : clpReceive h 5 (dialectBody d) none false s =
      (true, ringEnter h 5 (dialectBody d ++ h.more) none (clpReg (fun c => incR c CLP_RX 1)
        (bufPut (clpBase s + 0x15000 + 16 * h.node) table s)))) :
    (rd (clpDialect h d s).clp.csr CLP_RX).toNat = min 0xFFFFFFFF ((rd s.clp.csr CLP_RX).toNat + 1) ∧
      tget none (clpDialect h d s).clp.dialects h.node = some d := by
  have acts : clpDialect h d s = _ := onClp_taken taken
  have received (b : List Nat) : (clpReg (fun c => incR c CLP_RX 1) (bufPut (clpBase s + 0x15000 + 16 * h.node) b s)).clp =
      { s.clp with csr := incR s.clp.csr CLP_RX 1 } :=
    congrArg (fun x : Clp => { x with csr := incR x.csr CLP_RX 1 }) (bufPut_clp _ _ s)
  have noted (u : State) :
      tget none (modClp (fun c => { c with dialects := tput none c.dialects h.node (some d) }) u).clp.dialects h.node = some d :=
    tget_tput_entry (Option.some_ne_none d) u.clp.dialects h.node
  rw [acts]
  refine ⟨?_, noted _⟩
  rw [modClp_clp, ringEnter_clp, received]
  dsimp only
  rw [rd_wrF_other _ CLP_RXQ.PROD _ _ (by decide) (incR_twf _ _ _ canonical), incR_toNat _ _ _ canonical]

/-! ### The rows (R432 to R434, R440) -/

/-- A row whose datagram is checked in the order of R429. -/
def ChecksInOrder (c : Instr) (type : Nat) (known : List Nat) (h : ClpHdr) (d : DialectMsg) (s : State) : Prop :=
  let counts := fun (a : Nat) => ∃ t, exec c s = .next t ∧ CountsOne a s t
  let wired := ClpWired s h type (known ++ h.more)
  let tagged := ClpTagged s h type (known ++ h.more)
  let replayed := Replayed (replayEntry s h.node) h.counter
  (clpOn s = false → exec c s = .next s) ∧
  (clpOn s = true → h.phyOk = false → counts CLP_COLL) ∧
  (clpOn s = true → h.phyOk = true →
    (¬ wired → counts CLP_STRANGER) ∧
    (wired → (¬ ClpKnown s h ∧ h.node ≠ ownNode s) ∨ ¬ tagged → counts CLP_STRANGER) ∧
    (wired → ClpKnown s h → tagged → replayed → counts CLP_REPLAY) ∧
    (wired → ClpKnown s h → tagged → ¬ replayed → ¬ ClpNear s h → counts CLP_STRANGER) ∧
    (wired → ClpKnown s h → tagged → ¬ replayed → ClpNear s h → c = .clpDialect h d → ClpRoom s →
      ∃ t, exec (.clpDialect h d) s = .next t ∧
        (rd t.clp.csr CLP_RX).toNat = min 0xFFFFFFFF ((rd s.clp.csr CLP_RX).toNat + 1) ∧
        tget none t.clp.dialects h.node = some d))

/-- Every row that receives by `onClp` checks in order; of a DIALECT, how it is taken is what its own body tells. -/
theorem checksInOrder_of_onClp {c : Instr} {type : Nat} {known : List Nat} {h : ClpHdr} {d : DialectMsg} {f : State → State}
    {s : State} (row : exec c s = .next (onClp h type known f s)) (canonical : twf 0 s.clp.csr = true)
    (body : c = .clpDialect h d → type = 5 ∧ known = dialectBody d) : ChecksInOrder c type known h d s := by
  have drops {a : Nat} {t : State} (drop : clpReceive h type known none false s = (false, t)) (one : CountsOne a s t) :
      ∃ t, exec c s = .next t ∧ CountsOne a s t :=
    ⟨t, row.trans (congrArg Host.Outcome.next (onClp_dropped drop)), one⟩
  have strange := stranger_countsOne canonical
  refine ⟨fun off => row.trans (congrArg Host.Outcome.next (onClp_dropped (clpReceive_off off))),
    fun on broken => drops (clpReceive_broken on broken) (clpCount_countsOne canonical),
    fun on whole => ⟨?_, ?_, ?_, ?_, ?_⟩⟩
  · exact fun unwired => drops (clpReceive_unwired on whole unwired) strange
  · exact fun wired foreign => drops (clpReceive_stranger on whole wired foreign) strange
  · exact fun wired member tagged replayed =>
      drops (clpReceive_replayed on whole wired member tagged replayed) (clpCount_countsOne canonical)
  · exact fun wired member tagged fresh far => drops (clpReceive_far on whole wired member tagged fresh far) strange
  · intro wired member tagged fresh near dialect room
    obtain ⟨rfl, rfl⟩ := body dialect
    obtain ⟨table, taken⟩ := clpReceive_taken on whole wired member tagged fresh near room
    exact ⟨_, rfl, clpDialect_taken canonical taken⟩

/-- Settles O57: the four rows receive alike, and the checks are those of `clpReceive` in its order. -/
theorem carillonReceptionChecksInOrder : Obligations.CarillonReceptionChecksInOrder := by
  unfold Obligations.CarillonReceptionChecksInOrder
  intro h s d p m canonical
  have dialect : ChecksInOrder (.clpDialect h d) 5 (dialectBody d) h d s :=
    checksInOrder_of_onClp rfl canonical fun _ => ⟨rfl, rfl⟩
  have phase : ChecksInOrder (.clpPhase h p) 3 (phaseBody p) h d s := checksInOrder_of_onClp rfl canonical nofun
  have request : ChecksInOrder (.grantRequest h m) 1 (powerBody 1 m) h d s := checksInOrder_of_onClp rfl canonical nofun
  have release : ChecksInOrder (.grantRelease h m) 1 (powerBody 5 m) h d s := checksInOrder_of_onClp rfl canonical nofun
  exact List.forall_mem_cons.mpr ⟨dialect, List.forall_mem_cons.mpr ⟨phase, List.forall_mem_cons.mpr ⟨request,
    List.forall_mem_singleton.mpr release⟩⟩⟩

end Sys2Proof.Machine
end

section
namespace Sys2Proof.Machine

/-! ## Reset, boot, watchdog and TAP (R448 to R463) -/

/-- Settles O20: a POR within the ratings completes, and so does every other row. -/
theorem resetRowsStayInTheirFootprint : Obligations.ResetRowsStayInTheirFootprint := by
  unfold Obligations.ResetRowsStayInTheirFootprint
  exact fun c s _ ratings => exec_staysIn c s ratings

/-- Settles O5: memory, registers, queue and syndromes are as reset gives them, and no channel holds a job. -/
theorem resetLeavesCanonicalTables : Obligations.ResetLeavesCanonicalTables := by
  unfold Obligations.ResetLeavesCanonicalTables
  refine ⟨reset_mem_wf, (regsWf_iff _).mpr reset_registers, rfl, rfl, rfl, fun k => ?_⟩
  match k with
  | 0 | 1 | 2 | 3 => rfl

/-! ### What takes effect with a device reset (R449) -/

/-- The SYS registers after a device reset: the causes, the expiries and the straps are kept. -/
def resetCsr (c : List (Nat × Word)) : List (Nat × Word) :=
  wr (wrF (wr initSys SYS_RST_CAUSE (rd c SYS_RST_CAUSE)) SYS_WDOG_STAT.EXPIRIES (rdF c SYS_WDOG_STAT.EXPIRIES))
    SYS_STRAP (rd c SYS_STRAP)

theorem resetCsr_cause (c : List (Nat × Word)) : rd (resetCsr c) SYS_RST_CAUSE = rd c SYS_RST_CAUSE :=
  calc rd (resetCsr c) SYS_RST_CAUSE
      = rd (wrF (wr initSys SYS_RST_CAUSE (rd c SYS_RST_CAUSE)) SYS_WDOG_STAT.EXPIRIES _) SYS_RST_CAUSE :=
        rd_wr_other _ _ _ _ (by decide) (wrF_twf _ _ _ (wr_twf _ _ _ initSys_twf))
    _ = rd (wr initSys SYS_RST_CAUSE (rd c SYS_RST_CAUSE)) SYS_RST_CAUSE :=
        rd_wrF_other _ _ _ _ (by decide) (wr_twf _ _ _ initSys_twf)
    _ = rd c SYS_RST_CAUSE := rd_wr_same _ _ _ initSys_twf

theorem resetCsr_expiries (c : List (Nat × Word)) :
    rdF (resetCsr c) SYS_WDOG_STAT.EXPIRIES = rdF c SYS_WDOG_STAT.EXPIRIES := by
  have kept := rdF_wrF_same (wr initSys SYS_RST_CAUSE (rd c SYS_RST_CAUSE)) SYS_WDOG_STAT.EXPIRIES
    (rdF c SYS_WDOG_STAT.EXPIRIES) (by decide) (by decide) (wr_twf _ _ _ initSys_twf)
  refine (rdF_wr_other _ _ _ SYS_WDOG_STAT.EXPIRIES (by decide) (wrF_twf _ _ _ (wr_twf _ _ _ initSys_twf))).trans
    (kept.trans ?_)
  exact Nat.mod_mod _ _

/-- What ends before the units are reset: the assist totals are carried on, and the Persistence Array's operations end. -/
def stoppedForReset (s : State) : State := pctStop (forMcs keepMcAssist s)

theorem stoppedForReset_within {s : State} : Within [.nv, .pct] s (stoppedForReset s) :=
  .after pctStop_within <| .mono (G := [.nv]) <| forMcs_within fun _ _ => keepMcAssist_within

theorem deviceReset_sys (s : State) : (deviceReset s).sys =
    { State.reset.sys with
      csr := resetCsr s.sys.csr
      phase := .held
      tap := s.sys.tap } := by
  have sys : (stoppedForReset s).sys = s.sys := stoppedForReset_within.frame .sys (by decide)
  rw [← sys]
  rfl

theorem mcOf_deviceReset (k : Fin 4) (s : State) : mcOf (deviceReset s) k = mcAfterReset (mcOf s k) := by
  have mcs : (stoppedForReset s).mcs = s.mcs := stoppedForReset_within.frame .mcs (by decide)
  rw [mcOf, mcOf, ← mcs]
  match k with
  | 0 | 1 | 2 | 3 => rfl

theorem deviceReset_media (s : State) : (deviceReset s).media = s.media :=
  stoppedForReset_within.frame .media (by decide)

theorem deviceReset_resetLow (s : State) : (deviceReset s).pins.resetLow = s.pins.resetLow := by
  have pins : (stoppedForReset s).pins = s.pins := stoppedForReset_within.frame .pins (by decide)
  rw [← pins]
  rfl

theorem keepMcAssist_pwrcyc (k : Fin 4) (s : State) : (keepMcAssist k s).nv.pwrcyc = s.nv.pwrcyc :=
  List.foldlRecOn (List.range 12) (fun s h => keepAssist k h s) (motive := fun t : State => t.nv.pwrcyc = s.nv.pwrcyc) rfl
    fun _ same _ _ => same

theorem deviceReset_pwrcyc (s : State) : (deviceReset s).nv.pwrcyc = s.nv.pwrcyc := by
  have stopped : (stoppedForReset s).nv = (forMcs keepMcAssist s).nv := pctStop_within.frame .nv (by decide)
  refine (congrArg Nv.pwrcyc stopped).trans ?_
  rw [forMcs, keepMcAssist_pwrcyc, keepMcAssist_pwrcyc, keepMcAssist_pwrcyc, keepMcAssist_pwrcyc]

theorem pctStop_pages {s : State} (idle : s.pct.runs = []) : (pctStop s).pct.pages = s.pct.pages := by
  rw [pctStop, idle]
  rfl

/-- With nothing running, the pages of the Persistence Array are kept. -/
theorem deviceReset_pages {s : State} (idle : s.pct.runs = []) : (deviceReset s).pct.pages = s.pct.pages := by
  have kept : (forMcs keepMcAssist s).pct = s.pct := (forMcs_within fun _ _ => keepMcAssist_within).frame .pct (by decide)
  rw [← kept] at idle ⊢
  exact pctStop_pages idle

/-! ### A source of a device reset (R448, R450, R451) -/

/-- A dump's start changes nothing of SYS but the dump. -/
theorem dumpStart_sys (kind : DumpKind) (s : State) : (dumpStart kind s).sys = { s.sys with dump := kind } := by
  have performed : (performDumped s).sys = s.sys := performDumped_within.frame .sys (by decide)
  unfold dumpStart
  extract_lets +onlyGivenNames empty dump t nv u sys v
  have recorded : u.sys = s.sys := Eq.trans (by unfold u; split <;> rfl) performed
  have started : v.sys = { s.sys with dump := kind } := congrArg (fun x : Sys => { x with dump := kind }) recorded
  split
  · exact started
  · have unloads : Within [.sce] v (forMcs (fun k s =>
        if (rdF v.sce.csr SCE_PSL_STAT.OWNED).testBit k.val then unload k s else s) v) :=
      forMcs_within fun _ _ => .ite unload_within .refl
    exact Eq.trans (unloads.frame .sys (by decide)) started

/-- What a source finds once FAULT is sent, where the link is up. -/
theorem faultSent_within {s : State} : Within [.tdl] s (if linkUp s then sendCtrl .fault s else s) :=
  .ite sendCtrl_within .refl

/-- A source while the device runs: during a dump it sets its cause alone; else the reset dump starts, or with the BMC off or
stopped the reset takes effect at once, marked as without a dump. -/
theorem resetTrigger_cases {f : Fld} {s : State} (running : s.sys.phase = .running) :
    (s.sys.dump ≠ .none ∧ resetTrigger f s = setCause f s) ∨
    (s.sys.dump = .none ∧ bmcServes s = true ∧ (resetTrigger f s).sys = { (setCause f s).sys with dump := .reset }) ∨
    (s.sys.dump = .none ∧ bmcServes s = false ∧
      ∃ u, resetTrigger f s = deviceReset u ∧ u.sys = (setCause SYS_RST_CAUSE.NODUMP (setCause f s)).sys) := by
  by_cases calm : s.sys.dump = .none
  case neg => exact .inl ⟨calm, resetTrigger_in_dump f s running calm⟩
  refine .inr ?_
  have powered : s.sys.phase ≠ .unpowered := by rw [running]; decide
  have first : ¬ ((setCause f s).sys.phase ≠ .running ∨ (setCause f s).sys.dump ≠ .none) :=
    not_or.mpr ⟨not_not.mpr running, not_not.mpr calm⟩
  unfold resetTrigger
  rw [if_neg powered]
  dsimp only
  rw [if_neg first]
  have sent := faultSent_within (s := setCause f s)
  generalize (if linkUp (setCause f s) then sendCtrl .fault (setCause f s) else setCause f s) = v at sent ⊢
  have sys : v.sys = (setCause f s).sys := sent.frame .sys (by decide)
  have bmc : v.bmc = s.bmc := sent.frame .bmc (by decide)
  have serves : bmcServes v = bmcServes s := by rw [bmcServes, bmcServes, bmc]
  rw [serves]
  cases on : bmcServes s with
  | true => exact .inl ⟨calm, rfl, (dumpStart_sys .reset v).trans (by rw [sys])⟩
  | false =>
    exact .inr ⟨calm, rfl, _, rfl, congrArg (fun x : Sys => { x with csr := wrB x.csr SYS_RST_CAUSE.NODUMP true }) sys⟩

/-- The causes of the sources that this section treats. -/
def sourceCauses : List Fld := [SYS_RST_CAUSE.SOFT, SYS_RST_CAUSE.JTAG, SYS_RST_CAUSE.WDOG, SYS_RST_CAUSE.PIN]

/-- Each is a bit of SYS_RST_CAUSE beside NODUMP. -/
theorem sourceCauses_bit : ∀ f ∈ sourceCauses, f.off = SYS_RST_CAUSE ∧ f.lo = f.hi ∧ f.hi < 32 ∧
    (f.hi < SYS_RST_CAUSE.NODUMP.lo ∨ SYS_RST_CAUSE.NODUMP.hi < f.lo) := by decide

/-- What a source that acts comes to: its cause is set, and a dump in progress goes on, or the reset dump starts, or the reset
takes effect with no dump. -/
def ResetStarts (f : Fld) (s t : State) : Prop :=
  rdB t.sys.csr f = true ∧
  (s.sys.dump ≠ .none →
    t.sys.dump = s.sys.dump ∧ t.sys.phase = .running ∧ t.mcs = s.mcs ∧ t.hqe = s.hqe ∧ t.nv = s.nv) ∧
  (s.sys.dump = .none → bmcServes s = true → t.sys.dump = .reset ∧ t.sys.phase = .running) ∧
  (s.sys.dump = .none → bmcServes s = false → t.sys.dump = .none ∧ t.sys.phase = .held ∧
    rdB t.sys.csr SYS_RST_CAUSE.NODUMP = true)

theorem resetTrigger_starts {f : Fld} {s : State} (source : f ∈ sourceCauses) (running : s.sys.phase = .running)
    (h : twf 0 s.sys.csr = true) : ResetStarts f s (resetTrigger f s) := by
  obtain ⟨off, bit, range, apart⟩ := sourceCauses_bit f source
  have set : rdB (setCause f s).sys.csr f = true := rdB_wrB_same _ f true bit range h
  obtain ⟨busy, t⟩ | ⟨calm, serves, t⟩ | ⟨calm, stopped, u, t, sys⟩ := resetTrigger_cases (f := f) running
  · rw [t]
    exact ⟨set, fun _ => ⟨rfl, running, rfl, rfl, rfl⟩, fun calm => absurd calm busy, fun calm => absurd calm busy⟩
  · rw [ResetStarts, t]
    refine ⟨set, fun busy => absurd calm busy, fun _ _ => ⟨rfl, running⟩, fun _ off => ?_⟩
    rw [serves] at off
    cases off
  · have canonical : twf 0 (setCause f s).sys.csr = true := wrB_twf _ _ _ h
    have kept {g : Fld} (off : g.off = SYS_RST_CAUSE) : rdB (resetCsr u.sys.csr) g = rdB u.sys.csr g := by
      rw [rdB, rdB, rdF, rdF, off, resetCsr_cause]
    have both : u.sys.csr = wrB (setCause f s).sys.csr SYS_RST_CAUSE.NODUMP true := congrArg Sys.csr sys
    have cause : rdB u.sys.csr f = true := by
      rw [both, rdB, wrB, rdF_wrF_apart _ _ f _ off apart (by decide) (by decide) canonical]
      exact set
    have noDump : rdB u.sys.csr SYS_RST_CAUSE.NODUMP = true := by
      rw [both]
      exact rdB_wrB_same _ SYS_RST_CAUSE.NODUMP true rfl (by decide) canonical
    rw [ResetStarts, t, deviceReset_sys]
    refine ⟨(kept off).trans cause, fun busy => absurd calm busy, fun _ on => ?_,
      fun _ _ => ⟨rfl, rfl, (kept rfl).trans noDump⟩⟩
    rw [stopped] at on
    cases on

/-- No source changes the count of the watchdog's expiries. -/
theorem resetTrigger_expiries {f : Fld} {s : State} (source : f ∈ sourceCauses) (running : s.sys.phase = .running)
    (h : twf 0 s.sys.csr = true) :
    rdF (resetTrigger f s).sys.csr SYS_WDOG_STAT.EXPIRIES = rdF s.sys.csr SYS_WDOG_STAT.EXPIRIES := by
  obtain ⟨off, -⟩ := sourceCauses_bit f source
  have set : rdF (setCause f s).sys.csr SYS_WDOG_STAT.EXPIRIES = rdF s.sys.csr SYS_WDOG_STAT.EXPIRIES :=
    rdF_wrF_other _ f _ _ (by rw [off]; decide) h
  obtain ⟨-, t⟩ | ⟨-, -, t⟩ | ⟨-, -, u, t, sys⟩ := resetTrigger_cases (f := f) running
  · rw [t, set]
  · rw [t]
    exact set
  · rw [t, deviceReset_sys, resetCsr_expiries, sys]
    exact (rdF_wrF_other _ SYS_RST_CAUSE.NODUMP _ _ (by decide) (wrB_twf _ _ _ h)).trans set

/-! ### The four sources (R448, R452, R463) -/

/-- A row is a source of a device reset, which acts or is without effect on the reset. -/
def SourceOf (c : Instr) (f : Fld) (acts : Bool) (s : State) : Prop :=
  ∃ t, exec c s = .next t ∧
    (acts = false →
      t.sys.phase = .running ∧ t.sys.dump = s.sys.dump ∧ t.sys.csr = s.sys.csr ∧ t.mcs = s.mcs ∧ t.nv = s.nv) ∧
    (acts = true → ResetStarts f s t)

/-- The expiry is counted, and the watchdog is out. -/
def expiryNoted (s : State) : State :=
  { s with sys := { s.sys with
    csr := incF s.sys.csr SYS_WDOG_STAT.EXPIRIES 1
    wdogOut := true } }

section
variable {s : State} (running : s.sys.phase = .running) (h : twf 0 s.sys.csr = true)
include running h

theorem softReset_source : SourceOf .softReset SYS_RST_CAUSE.SOFT true s :=
  ⟨_, rfl, fun no => Bool.noConfusion no, fun _ =>
    resetTrigger_starts (s := sysReg (fun c => wrB c SYS_RST_CTL.DEV true) s) (by decide) running (wrB_twf _ _ _ h)⟩

theorem devrst_source : SourceOf .devrst SYS_RST_CAUSE.JTAG (rdB s.sys.csr SYS_JTAG.OPEN) s := by
  refine ⟨tapDevrst s, rfl, fun shut => ?_, fun isOpen => ?_⟩
  · rw [show tapDevrst s = tapBypass s from if_neg (by rw [shut]; decide)]
    exact ⟨running, rfl, rfl, rfl, rfl⟩
  · have resets : tapDevrst s = resetTrigger SYS_RST_CAUSE.JTAG (tapLoad .devrst 0 s) :=
      (if_pos isOpen).trans (if_pos isOpen)
    rw [resets]
    exact resetTrigger_starts (s := tapLoad .devrst 0 s) (by decide) running h

theorem resetN_source (b : BootIn) : SourceOf (.resetN true b) SYS_RST_CAUSE.PIN (!s.pins.resetLow) s := by
  have powered : s.sys.phase ≠ .unpowered := by rw [running]; decide
  refine ⟨resetPin true b s, rfl, fun low => ?_, fun high => ?_⟩
  · have stays : resetPin true b s = { s with pins := { s.pins with resetLow := true } } :=
      (if_neg powered).trans <| (if_pos rfl).trans (if_pos (by simpa using low))
    rw [stays]
    exact ⟨running, rfl, rfl, rfl, rfl⟩
  · have falls : resetPin true b s = resetTrigger SYS_RST_CAUSE.PIN { s with pins := { s.pins with resetLow := true } } :=
      (if_neg powered).trans <| (if_pos rfl).trans (if_neg (by simpa using high))
    rw [falls]
    exact resetTrigger_starts (s := { s with pins := { s.pins with resetLow := true } }) (by decide) running h

omit h in
/-- An expiry that the watchdog is armed for is a source, after it is counted. -/
theorem watchdogExpiry_armed (armed : (rdB s.sys.csr SYS_WDOG_CTL.EN && !s.sys.wdogOut) = true) :
    watchdogExpiry s = resetTrigger SYS_RST_CAUSE.WDOG (expiryNoted s) := by
  rw [Bool.and_eq_true] at armed
  exact if_pos (by rw [armed.1, armed.2, running]; decide)

theorem watchdogExpiry_source :
    SourceOf .watchdogExpiry SYS_RST_CAUSE.WDOG (rdB s.sys.csr SYS_WDOG_CTL.EN && !s.sys.wdogOut) s := by
  refine ⟨watchdogExpiry s, rfl, fun idle => ?_, fun armed => ?_⟩
  · have stays : watchdogExpiry s = s := by
      refine if_neg fun expires => ?_
      rw [Bool.and_right_comm, idle] at expires
      cases expires
    rw [stays]
    exact ⟨running, rfl, rfl, rfl, rfl⟩
  · rw [watchdogExpiry_armed running armed]
    exact resetTrigger_starts (s := expiryNoted s) (by decide) running (incF_twf h)

theorem watchdogExpiry_counted (armed : (rdB s.sys.csr SYS_WDOG_CTL.EN && !s.sys.wdogOut) = true) :
    rdF (watchdogExpiry s).sys.csr SYS_WDOG_STAT.EXPIRIES = min 65535 (rdF s.sys.csr SYS_WDOG_STAT.EXPIRIES + 1) := by
  rw [watchdogExpiry_armed running armed,
    resetTrigger_expiries (s := expiryNoted s) (by decide) running (incF_twf h)]
  exact rdF_incF_same _ SYS_WDOG_STAT.EXPIRIES 1 (by decide) (by decide) h

end

/-- Settles O58: each source is a trigger of the device reset with its own cause, or leaves the reset alone. -/
theorem resetSourcesStartOneDump : Obligations.ResetSourcesStartOneDump := by
  unfold Obligations.ResetSourcesStartOneDump
  intro b s h running sources
  refine ⟨?_, fun enabled first => ⟨_, rfl, watchdogExpiry_counted running h (by rw [enabled, first]; decide)⟩⟩
  refine List.forall_mem_cons.mpr ⟨softReset_source running h, List.forall_mem_cons.mpr ⟨devrst_source running h,
    List.forall_mem_cons.mpr ⟨watchdogExpiry_source running h, List.forall_mem_singleton.mpr (resetN_source running h b)⟩⟩⟩

/-! ### The end of the reset dump, and a unit reset (R449, R451, R453) -/

theorem dumpDone_pwrcyc (s : State) : (dumpDone s).nv.pwrcyc = s.nv.pwrcyc := by
  unfold dumpDone
  split <;> rfl

/-- The device as its reset finds it at the end of the reset dump. -/
def dumpEnded (s : State) : State := setCause SYS_RST_CAUSE.DUMPED (dumpDone s)

theorem dumpEnded_within {s : State} : Within [.sys, .nv] s (dumpEnded s) := .after setCause_within dumpDone_within.mono

theorem dumpEnded_csr (s : State) : (dumpEnded s).sys.csr = wrB s.sys.csr SYS_RST_CAUSE.DUMPED true :=
  congrArg (fun x : Sys => wrB x.csr SYS_RST_CAUSE.DUMPED true) (dumpDone_within.frame .sys (by decide))

theorem resetDumpEnd_held {b : BootIn} {s : State} (ends : s.sys.dump = .reset) (low : s.pins.resetLow = true) :
    resetDumpEnd b s = deviceReset (dumpEnded s) := by
  have pins : (dumpEnded s).pins = s.pins := dumpEnded_within.frame .pins (by decide)
  have held : (deviceReset (dumpEnded s)).pins.resetLow = true := by rw [deviceReset_resetLow, pins, low]
  exact (if_pos ends).trans (if_pos held)

section
variable (k : Fin 4) (s : State)

/-- The channel's write is cut, its assist totals are carried on, and the scheduler hears that its jobs have ended. -/
def mcStopped : State :=
  let u := keepMcAssist k (cutWrite k s)
  (quadGet u.ple.sched k).armed.foldl (fun s e => jobEndHook k e.1 1 s) u

/-- The channel as its unit reset leaves it, before its options are taken. -/
def mcCleared : State :=
  setMc k { mcAfterReset (mcOf s k) with
    store := (mcOf s k).store
    vendorLoaded := (mcOf s k).vendorLoaded } (mcStopped k s)

variable {k s}

theorem mcOf_mcStopped (j : Fin 4) : mcOf (mcStopped k s) j = mcOf s j := by
  have ends : Within [.media, .nv, .ple] s (mcStopped k s) :=
    .comp (.foldl fun _ _ => jobEndHook_within.mono) <| .after keepMcAssist_within cutWrite_within.mono
  rw [mcOf, mcOf, ends.frame .mcs (by decide)]

theorem unitResetMc_cleared (present : mcAbsent s k = false) (running : s.sys.phase = .running) (calm : s.sys.dump = .none) :
    unitResetMc k s = optMc k (mcCleared k s) := by
  have exists_ : ¬ (s.part = .dhk7420 ∧ 2 ≤ k.val) := by
    simpa only [mcAbsent, Bool.and_eq_false_iff, decide_eq_false_iff_not, ← not_and_or] using present
  have mc : mcOf (keepMcAssist k (cutWrite k s)) k = mcOf s k := by
    rw [mcOf, mcOf]
    exact congrArg (quadGet · k) (Within.frame (.after keepMcAssist_within cutWrite_within.mono : Within [.media, .nv] s _)
      .mcs (by decide))
  refine (if_neg exists_).trans ((unitReset_runs _ s running calm).trans ?_)
  rw [mcCleared, ← mc]
  rfl

theorem unitResetMc_discarded (busy : s.sys.dump ≠ .none) : unitResetMc k s = s := by
  unfold unitResetMc
  split
  · rfl
  · exact unitReset_discarded _ s (.inr busy)

end

/-- Settles O59: the reset keeps what `deviceReset` names of the state at the end of its dump, and a unit reset replaces one
channel, with its store. -/
theorem resetsReachWhatTheyName : Obligations.ResetsReachWhatTheyName := by
  unfold Obligations.ResetsReachWhatTheyName
  refine ⟨fun b s h ends low => ?_, fun k s present running => ⟨fun calm => ?_, fun busy => ?_⟩⟩
  · have media : (dumpEnded s).media = s.media := dumpEnded_within.frame .media (by decide)
    have pct : (dumpEnded s).pct = s.pct := dumpEnded_within.frame .pct (by decide)
    refine ⟨_, congrArg Host.Outcome.next (resetDumpEnd_held ends low), ?_⟩
    rw [deviceReset_sys, deviceReset_media, deviceReset_pwrcyc, resetCsr_cause, resetCsr_expiries, dumpEnded_csr, media]
    refine ⟨rfl, rfl, rfl, rdF_wrF_other _ SYS_RST_CAUSE.DUMPED _ _ (by decide) h, fun k => ?_, rfl, rfl, rfl, rfl,
      dumpDone_pwrcyc s, fun idle => ?_⟩
    · rw [mcOf_deviceReset]
      exact ⟨rfl, rfl, rfl, rfl⟩
    · rw [← pct] at idle ⊢
      exact deviceReset_pages idle
  · have within := unitResetMc_within (k := k) (s := s)
    have cleared : mcOf (optMc k (mcCleared k s)) k = _ := mcOf_modMc_same _ k _
    refine ⟨_, rfl, ?_⟩
    rw [within.frame .sce (by decide), within.frame .scu (by decide), within.frame .hqe (by decide),
      within.frame .tdl (by decide), unitResetMc_cleared present running calm, cleared, mcCleared, mcOf_setMc_same]
    refine ⟨rfl, rfl, rfl, rfl, rfl, rfl, fun j ne => ?_, rfl, rfl, rfl, rfl⟩
    exact (mcOf_modMc_other _ k j _ ne).trans <| (mcOf_setMc_other _ k j _ ne).trans (mcOf_mcStopped j)
  · exact congrArg (fun t => Host.Outcome.next (settle t)) (unitResetMc_discarded busy)

end Sys2Proof.Machine
end

section
namespace Sys2Proof.Machine

/-! ## The Event Recorder and machine checks (R488 to R498) -/

/-- Settles O21: the recorder's rows are not the family of the device's resets. -/
theorem recordRowsStayInTheirFootprint : Obligations.RecordRowsStayInTheirFootprint := by
  unfold Obligations.RecordRowsStayInTheirFootprint
  exact family_staysIn Family.noConfusion

/-! ### A post (R488) -/

/-- A post that the recorder takes waits behind the others, and no register changes. -/
theorem evrPost_taken {cls id : Nat} {detail : Word} {syn : List Word} {s : State} (on : rdB s.evr.csr EVR_CTL.EN = true)
    (room : s.evr.posts.length < 16) : (evrPost cls id detail syn s).evr = { s.evr with posts := s.evr.posts ++
      [⟨cls, id, detail, BitVec.ofNat 32 s.nv.pwrcyc, BitVec.ofNat 32 (nowSec s / 3600), nowSec s % 3600, syn⟩] } := by
  have takes : ¬ (!rdB s.evr.csr EVR_CTL.EN || decide (16 ≤ s.evr.posts.length)) = true := by
    rw [on, decide_eq_false (Nat.not_le.mpr room)]
    decide
  exact congrArg State.evr (if_neg takes)

/-- A post that finds the recorder off or the queue full is counted. -/
theorem evrPost_lost {cls id : Nat} {detail : Word} {syn : List Word} {s : State}
    (refused : rdB s.evr.csr EVR_CTL.EN = false ∨ 16 ≤ s.evr.posts.length) :
    (evrPost cls id detail syn s).evr = { s.evr with csr := incR s.evr.csr EVR_LOST 1 } := by
  have drops : (!rdB s.evr.csr EVR_CTL.EN || decide (16 ≤ s.evr.posts.length)) = true := by
    simpa only [Bool.or_eq_true, Bool.not_eq_true', decide_eq_true_eq] using refused
  exact congrArg State.evr (if_pos drops)

/-- EVR_DETAIL and EVR_POST as firmware writes them. -/
def postWritten (cls id : Nat) (detail : Word) (c : List (Nat × Word)) : List (Nat × Word) :=
  wrF (wrF (wr c EVR_DETAIL detail) EVR_POST.CLASS cls) EVR_POST.ID id

theorem postWritten_holds {a cls id : Nat} {detail : Word} {c : List (Nat × Word)} (ne : a ≠ EVR_DETAIL)
    (ne' : a ≠ EVR_POST.CLASS.off) : HoldsReg a c (postWritten cls id detail c) :=
  .trans (.wr ne) <| .trans (.wrF ne') (.wrF ne')

/-- A post that firmware may make is one of the class and the ID that it gives. -/
theorem evrFirmwarePost_posts {cls id : Nat} {detail : Word} {s : State} (range : cls < 8) (free : cls ≠ 1)
    (range' : id < 65536) :
    evrFirmwarePost cls id detail s = evrPost cls id detail [] (evrReg (postWritten cls id detail) s) := by
  have cls_mod : cls % 8 = cls := Nat.mod_eq_of_lt range
  have id_mod : id % 65536 = id := Nat.mod_eq_of_lt range'
  unfold evrFirmwarePost
  rw [cls_mod, id_mod]
  exact if_neg free

/-! ### A record (R489, R493) -/

section
variable {seq flags : Nat} {p : EvrPost} {snap : List Word}

theorem mkRecord_length : (mkRecord seq flags p snap).length = 32 := by
  simp only [mkRecord, List.length_append, List.length_cons, List.length_nil, List.length_take, List.length_replicate]
  omega

theorem mkRecord_seq : (mkRecord seq flags p snap).getD 0 0 = BitVec.ofNat 32 seq := rfl

theorem mkRecord_name :
    (mkRecord seq flags p snap).getD 2 0 = BitVec.ofNat 32 (p.cls % 8 + 256 * snap.length + 65536 * (p.id % 65536)) := rfl

theorem mkRecord_detail : (mkRecord seq flags p snap).getD 6 0 = p.detail := rfl

/-- The third dword of a record with a list of at most 16 entries holds the class and the ID beside the list's length. -/
theorem mkRecord_class_id (short : snap.length ≤ 16) :
    wordField ((mkRecord seq flags p snap).getD 2 0) 7 0 = p.cls % 8 ∧
      wordField ((mkRecord seq flags p snap).getD 2 0) 31 16 = p.id % 65536 := by
  rw [mkRecord_name]
  simp only [wordField, BitVec.toNat_ofNat, Nat.shiftRight_eq_div_pow]
  omega

end

theorem snapList_length (s : State) (cls : Nat) : (snapList s cls).length ≤ 16 :=
  (List.length_filterMap_le _ _).trans_eq List.length_range

/-- The record of a post, as the recorder makes it now. -/
def recordOf (p : EvrPost) (s : State) : List Word := mkRecord (evrNext s) 0 p ((snapList s p.cls).map (csrView s))

/-- EVR_NEXT and EVR_NEXTH name the sequence. -/
def nextSet (seq : Nat) (c : List (Nat × Word)) : List (Nat × Word) :=
  wr (wr c EVR_NEXT (BitVec.ofNat 32 seq)) EVR_NEXTH (BitVec.ofNat 32 (seq / 2 ^ 32))

/-- The oldest post is taken off the queue and its record is in its slot of the ring. -/
def recordEntered (p : EvrPost) (rest : List EvrPost) (s : State) : State :=
  evrReg (nextSet (evrNext s + 1)) (modEvr (fun e => { e with
    posts := rest
    ring := tput [] e.ring (evrNext s % 4096) (recordOf p s) }) s)

/-- An overwritten record that was not flushed is counted, and EVR_FLUSH is past it. -/
def overwriteCounted (old : List Word) (c : List (Nat × Word)) : List (Nat × Word) :=
  wr (incR c EVR_OVWR 1) EVR_FLUSH (BitVec.ofNat 32 ((old.getD 0 0).toNat + 1))

/-- A grant enters the oldest post's record, and may count the record that it overwrites. -/
theorem evrRecord_cases {p : EvrPost} {rest : List EvrPost} {s : State} (front : s.evr.posts = p :: rest) :
    evrRecord s = recordEntered p rest s ∨
      ∃ old, evrRecord s = evrReg (overwriteCounted old) (recordEntered p rest s) := by
  unfold evrRecord
  rw [front]
  dsimp only
  split
  · exact .inr ⟨_, rfl⟩
  · exact .inl rfl

theorem evrNext_nextSet {seq : Nat} {c : List (Nat × Word)} (range : seq < 2 ^ 64) (h : twf 0 c = true) :
    (rd (nextSet seq c) EVR_NEXT).toNat + (rd (nextSet seq c) EVR_NEXTH).toNat * 2 ^ 32 = seq := by
  have low : rd (nextSet seq c) EVR_NEXT = BitVec.ofNat 32 seq :=
    (rd_wr_other _ _ _ _ (by decide) (wr_twf _ _ _ h)).trans (rd_wr_same _ _ _ h)
  have high : rd (nextSet seq c) EVR_NEXTH = BitVec.ofNat 32 (seq / 2 ^ 32) := rd_wr_same _ _ _ (wr_twf _ _ _ h)
  rw [low, high, BitVec.toNat_ofNat, BitVec.toNat_ofNat]
  omega

/-- The sequence moves on by one record, and the queue and the ring are those with the record entered. -/
theorem evrRecord_evr {p : EvrPost} {rest : List EvrPost} {s : State} (front : s.evr.posts = p :: rest)
    (range : evrNext s + 1 < 2 ^ 64) (h : twf 0 s.evr.csr = true) :
    (evrRecord s).evr.posts = rest ∧
      (evrRecord s).evr.ring = tput [] s.evr.ring (evrNext s % 4096) (recordOf p s) ∧
      evrNext (evrRecord s) = evrNext s + 1 := by
  have entered : evrNext (recordEntered p rest s) = evrNext s + 1 := evrNext_nextSet range h
  have canonical : twf 0 (recordEntered p rest s).evr.csr = true := wr_twf _ _ _ (wr_twf _ _ _ h)
  obtain same | ⟨old, counted⟩ := evrRecord_cases front
  · rw [same]
    exact ⟨rfl, rfl, entered⟩
  · rw [counted]
    have holds {a : Nat} (ne : a ≠ EVR_FLUSH) (ne' : a ≠ EVR_OVWR) :
        rd (overwriteCounted old (recordEntered p rest s).evr.csr) a = rd (recordEntered p rest s).evr.csr a :=
      (HoldsReg.trans (.wr ne') (.wr ne) canonical).2
    refine ⟨rfl, rfl, Eq.trans ?_ entered⟩
    rw [evrNext, evrNext, evrReg_csr, holds (by decide) (by decide), holds (by decide) (by decide)]

/-! ### Syndromes (R495 to R498) -/

/-- The read of MCK_SYN3 shows the oldest syndrome's last dword and removes the syndrome. -/
theorem mckSynPop_eq (s : State) : mckSynPop s =
    { s with
      sys := { s.sys with rdata := (s.mck.fifo.headD []).getD 3 0 }
      mck := { s.mck with fifo := s.mck.fifo.drop 1 } } := rfl

/-- What every syndrome writes: the count, the highest severity, and FLT and FATAL as the severity asks. -/
def checkNoted (flt sev : Nat) (c : List (Nat × Word)) : List (Nat × Word) :=
  let c := incR c MCK_COUNT 1
  let c := wrF c MCK_STAT.MAXSEV (max sev (rdF c MCK_STAT.MAXSEV))
  let c := if flt ≤ sev then wrB c MCK_STAT.FLT true else c
  if sev = 3 then wrB c MCK_STAT.FATAL true else c

/-- What a syndrome that finds no room writes. -/
def checkLost (c : List (Nat × Word)) : List (Nat × Word) := incR (wrB c MCK_STAT.OVF true) MCK_LOST 1

theorem machineCheck_csr (unit code sev : Nat) (addr info : Word) (s : State) :
    (machineCheck unit code sev addr info s).mck.csr =
      if s.mck.fifo.length < 16 then checkNoted (fltSev s) sev s.mck.csr
      else checkLost (checkNoted (fltSev s) sev s.mck.csr) := by
  unfold machineCheck
  simp only [evrPost_mck, decide_eq_true_eq]
  rfl

section
variable {flt sev : Nat} {c : List (Nat × Word)}

theorem checkNoted_holds {a : Nat} (ne : a ≠ MCK_COUNT) (ne' : a ≠ MCK_STAT) : HoldsReg a c (checkNoted flt sev c) :=
  .whenTrue (.wrB ne') <| .whenTrue (.wrB ne') <| .trans (.wr ne) (.wrF ne')

theorem checkNoted_fatal (h : twf 0 c = true) : rdB (checkNoted flt 3 c) MCK_STAT.FATAL = true :=
  rdB_wrB_same _ MCK_STAT.FATAL true rfl (by decide) <| twf_ite (wrB_twf _ _ _ (wrF_twf _ _ _ (incR_twf _ _ _ h)))
    (wrF_twf _ _ _ (incR_twf _ _ _ h))

theorem checkLost_stat (f : Fld) (stat : f.off = MCK_STAT) (h : twf 0 c = true) :
    rdB (checkLost c) f = rdB (wrB c MCK_STAT.OVF true) f := by
  rw [rdB, rdB, rdF, rdF, stat, checkLost, incR_other _ _ _ _ (by decide) (wrB_twf _ _ _ h)]

theorem checkLost_ovf (h : twf 0 c = true) : rdB (checkLost c) MCK_STAT.OVF = true := by
  rw [checkLost_stat _ rfl h]
  exact rdB_wrB_same _ _ _ rfl (by decide) h

theorem checkLost_fatal (h : twf 0 c = true) : rdB (checkLost c) MCK_STAT.FATAL = rdB c MCK_STAT.FATAL := by
  rw [checkLost_stat _ rfl h, rdB, rdB]
  exact congrArg (fun n => decide (n ≠ 0))
    (rdF_wrF_apart _ MCK_STAT.OVF MCK_STAT.FATAL _ rfl (.inr (by decide)) (by decide) (by decide) h)

theorem checkLost_count (h : twf 0 c = true) :
    (rd (checkLost c) MCK_LOST).toNat = min 0xFFFFFFFF ((rd c MCK_LOST).toNat + 1) := by
  rw [checkLost, incR_toNat _ _ _ (wrB_twf _ _ _ h), wrB, rd_wrF_other _ _ _ _ (by decide) h]

end

/-- A fatal syndrome sets FATAL, whether it is kept or lost. -/
theorem machineCheck_fatal {unit code : Nat} {addr info : Word} {s : State} (h : twf 0 s.mck.csr = true) :
    rdB (machineCheck unit code 3 addr info s).mck.csr MCK_STAT.FATAL = true := by
  rw [machineCheck_csr]
  split
  · exact checkNoted_fatal h
  · exact (checkLost_fatal (checkNoted_holds (a := MCK_LOST) (by decide) (by decide) h).1).trans (checkNoted_fatal h)

/-- Settles O60: a post, a record and a syndrome each join the end of their queue or are counted, and leave it at its front. -/
theorem recordsAndSyndromesKeepTheirOrder : Obligations.RecordsAndSyndromesKeepTheirOrder := by
  unfold Obligations.RecordsAndSyndromesKeepTheirOrder
  refine ⟨fun cls id detail s h range free range' => ?_, fun s p rest h ring front range next => ?_, fun s y rest fifo => ?_,
    fun unit code sev addr info s h => ?_⟩
  case refine_1 =>
    obtain ⟨canonical, lost⟩ := postWritten_holds (a := EVR_LOST) (cls := cls) (id := id) (detail := detail) (by decide)
      (by decide) h
    obtain ⟨-, ctl⟩ := postWritten_holds (a := EVR_CTL.EN.off) (cls := cls) (id := id) (detail := detail) (by decide)
      (by decide) h
    have on : rdB (evrReg (postWritten cls id detail) s).evr.csr EVR_CTL.EN = rdB s.evr.csr EVR_CTL.EN := by
      rw [rdB, rdB, rdF, rdF, evrReg_csr, ctl]
    refine ⟨_, congrArg Host.Outcome.next (evrFirmwarePost_posts range free range'), ?_, evrPost_mck _ _ _ _ _,
      fun enabled room => ?_, fun refused => ?_⟩
    · rw [evrPost]
      dsimp only
      split <;> rfl
    · rw [evrPost_taken (on.trans enabled) room]
      exact ⟨lost, _, rfl, rfl, rfl, rfl⟩
    · rw [evrPost_lost (refused.imp_left on.trans)]
      refine ⟨rfl, ?_⟩
      rw [evrReg_csr, incR_toNat _ _ _ canonical, lost]
  case refine_2 =>
    obtain ⟨posts, entered, moved⟩ := evrRecord_evr front next h
    have short : ((snapList s p.cls).map (csrView s)).length ≤ 16 := (List.length_map _).trans_le (snapList_length s p.cls)
    obtain ⟨cls, id⟩ := mkRecord_class_id (seq := evrNext s) (flags := 0) (p := p) short
    refine ⟨_, recordOf p s, rfl, posts, moved, ?_, mkRecord_length, mkRecord_seq, cls.trans (Nat.mod_eq_of_lt range), id,
      mkRecord_detail, fun i ne => ?_⟩
    · rw [entered]
      exact tget_tput_same [] _ _ _ ring
    · rw [entered]
      exact tget_tput_other [] _ _ _ _ ne ring
  case refine_3 =>
    refine ⟨_, rfl, ?_⟩
    rw [mckSynPop_eq, fifo]
    exact ⟨rfl, rfl, rfl⟩
  case refine_4 =>
    intro t
    obtain ⟨canonical, lost⟩ := checkNoted_holds (flt := fltSev s) (sev := sev) (a := MCK_LOST) (by decide) (by decide) h
    have fifo : t.mck.fifo = _ := machineCheck_fifo unit code sev addr info s
    have csr : t.mck.csr = _ := machineCheck_csr unit code sev addr info s
    refine ⟨machineCheck_count unit code sev addr info s h, fun room => ?_, fun full => ?_, ?_⟩
    · rw [csr, fifo, if_pos room, if_pos room]
      exact ⟨lost, _, _, rfl⟩
    · rw [csr, fifo, if_neg (Nat.not_lt.mpr full), if_neg (Nat.not_lt.mpr full)]
      refine ⟨rfl, checkLost_ovf canonical, ?_⟩
      rw [checkLost_count canonical, lost]
    · rintro rfl
      exact machineCheck_fatal h

end Sys2Proof.Machine
end
